-- ==== Sys2Proof/Word.lean ====
section
/-! DEFINITION. Sys2Proof/Word.lean: the words of the machine (R5, R6, R230), the names of its units (R1, R9, R131) and the
association table that holds things numbered by the spec. -/

namespace Sys2Proof

/-- A 64-bit register value (R230). -/
abbrev Word := BitVec 64

/-- A byte of a location (R132). -/
abbrev Byte := BitVec 8

/-- A register number of an instruction field (R219, R220). -/
abbrev Reg := BitVec 5

/-- What every 32-bit and 64-bit instruction carries besides its own fields (R218): the safe-point bit, the E bit and,
for a safe point, the live-mask word that follows (R180). -/
structure Head where
  s : Bool
  e : Bool
  mask : BitVec 32
  deriving DecidableEq, Repr

/-- The head of an instruction that is no safe point and waits for its registers. -/
def Head.plain : Head := ⟨false, false, 0⟩

/-- The kinds of hart that run instructions (R131). -/
inductive HartKind where
  /-- a core thread -/
  | thread
  /-- a vault-agent handler context -/
  | ctx
  /-- the management core of a stack -/
  | mgmt
  deriving DecidableEq, Repr

/-- A hart: its kind, its core (for a management core: its stack) and its thread slot or context number. -/
structure HartId where
  kind : HartKind
  core : Nat
  idx : Nat
  deriving DecidableEq, Repr

/-- The cluster of a core (R10). -/
def clusterOf (core : Nat) : Nat := core / 8

/-- The stack of a core (R9). -/
def stackOf (core : Nat) : Nat := core / 512

/-- A unit that errors and power actions name (R401, R412). -/
inductive UnitId where
  /-- a row of a bank of a vault -/
  | row (core bank row : Nat)
  /-- a bank of a vault -/
  | bank (core bank : Nat)
  /-- a core -/
  | core (core : Nat)
  /-- the engines of a cluster -/
  | engine (cluster : Nat)
  /-- a lane of one of the eight Ixlink ports -/
  | lane (port lane : Nat)
  /-- a DRAM layer of a stack -/
  | layer (stack layer : Nat)
  /-- a whole cluster -/
  | cluster (cluster : Nat)
  deriving DecidableEq, Repr

/-- Requests the management core answers over MCTP (R409). -/
inductive MctpReq where
  /-- PLDM for platform monitoring, type 2 -/
  | pldmMonitor
  /-- PLDM for firmware update, type 5 -/
  | pldmUpdate
  /-- an SPDM request for measurements -/
  | spdmMeasure
  /-- an SPDM request for the certificate of one of eight slots -/
  | spdmCert (slot : Nat)
  deriving DecidableEq, Repr

/-- A request over MCTP: whether it comes over I3C rather than PCIe, and what it asks (R409). -/
structure MctpAsk where
  i3c : Bool
  req : MctpReq
  deriving DecidableEq, Repr

/-- Why management rolls a context back (R404). -/
inductive RollCause where
  /-- a unit of it consumed uncorrectable data -/
  | uncorrectable
  /-- the pair on which a unit of it runs mismatched -/
  | lockstep
  deriving DecidableEq, Repr

/-- A firmware image as R410 judges it: the two signature verdicts and the version. -/
structure FwImage where
  rsaOk : Bool
  slhOk : Bool
  version : Nat
  deriving DecidableEq, Repr

/-- A configuration record as R411 gives it: the two signature verdicts and what the record sets. -/
structure ConfigRec where
  rsaOk : Bool
  slhOk : Bool
  queueFn : List Nat
  thresh : Nat
  win : Nat
  mat : BitVec 16
  travmax : BitVec 16
  lockstep : Bool
  deriving DecidableEq, Repr

/-- Things numbered or named by keys, each absent key holding a given default. -/
abbrev Table (κ α : Type) := List (κ × α)

/-- The thing at a key, or the default where the table lists none. -/
def Table.get {κ α : Type} [DecidableEq κ] (t : Table κ α) (k : κ) (d : α) : α :=
  match t with
  | [] => d
  | (k', v) :: r => if k' = k then v else Table.get r k d

/-- The table with the thing at one key replaced or added. -/
def Table.set {κ α : Type} [DecidableEq κ] (t : Table κ α) (k : κ) (v : α) : Table κ α :=
  match t with
  | [] => [(k, v)]
  | (k', v') :: r => if k' = k then (k, v) :: r else (k', v') :: Table.set r k v

/-- Whether the table lists a key. -/
def Table.has {κ α : Type} [DecidableEq κ] (t : Table κ α) (k : κ) : Bool :=
  match t with
  | [] => false
  | (k', _) :: r => if k' = k then true else Table.has r k

/-- The table without a key. -/
def Table.del {κ α : Type} [DecidableEq κ] (t : Table κ α) (k : κ) : Table κ α :=
  t.filter (fun p => decide (p.1 ≠ k))

end Sys2Proof
end

