-- ==== Sys2Proof/Syntax.lean ====
section
/-! DEFINITION. Sys2Proof/Syntax.lean: the instructions and the device events of the opcode table, one
constructor per row of spec/opcode_table.json. An instruction of 32 or 64 bits carries its Head (S bit, E bit, live
mask, R218); operand fields keep the widths of R219, R220, R224 and R225. A device event names the unit it acts on. -/

namespace Sys2Proof

/-- One row of the opcode table each (R227, R228; events: 95_what_each_step_holds). -/
inductive Instr where
  /-- ADD (R241): Writes rd with a + b modulo 2^64. -/
  | add (hd : Head) (d : Reg) (a : Reg) (b : Reg)
  /-- SUB (R241): Writes rd with a − b modulo 2^64. -/
  | sub (hd : Head) (d : Reg) (a : Reg) (b : Reg)
  /-- AND (R241): Writes rd with the bitwise AND of a and b. -/
  | and (hd : Head) (d : Reg) (a : Reg) (b : Reg)
  /-- OR (R241): Writes rd with the bitwise OR of a and b. -/
  | or (hd : Head) (d : Reg) (a : Reg) (b : Reg)
  /-- XOR (R241): Writes rd with the bitwise XOR of a and b. -/
  | xor (hd : Head) (d : Reg) (a : Reg) (b : Reg)
  /-- SLL (R241): Writes rd with a shifted left by b[5:0]. -/
  | sll (hd : Head) (d : Reg) (a : Reg) (b : Reg)
  /-- SRL (R241): Writes rd with a shifted right by b[5:0], zero fill. -/
  | srl (hd : Head) (d : Reg) (a : Reg) (b : Reg)
  /-- SRA (R241): Writes rd with a shifted right by b[5:0], sign fill. -/
  | sra (hd : Head) (d : Reg) (a : Reg) (b : Reg)
  /-- ROL (R241): Writes rd with a rotated left by b[5:0]. -/
  | rol (hd : Head) (d : Reg) (a : Reg) (b : Reg)
  /-- ROR (R241): Writes rd with a rotated right by b[5:0]. -/
  | ror (hd : Head) (d : Reg) (a : Reg) (b : Reg)
  /-- SLT (R241): Writes 1 to rd if a < b signed, else 0. -/
  | slt (hd : Head) (d : Reg) (a : Reg) (b : Reg)
  /-- SLTU (R241): Writes 1 to rd if a < b unsigned, else 0. -/
  | sltu (hd : Head) (d : Reg) (a : Reg) (b : Reg)
  /-- MIN (R241): Writes the signed smaller of a and b. -/
  | min (hd : Head) (d : Reg) (a : Reg) (b : Reg)
  /-- MAX (R241): Writes the signed larger of a and b. -/
  | max (hd : Head) (d : Reg) (a : Reg) (b : Reg)
  /-- MINU (R241): Writes the unsigned smaller of a and b. -/
  | minu (hd : Head) (d : Reg) (a : Reg) (b : Reg)
  /-- MAXU (R241): Writes the unsigned larger of a and b. -/
  | maxu (hd : Head) (d : Reg) (a : Reg) (b : Reg)
  /-- ADDW (R241): Writes the sign-extended 32-bit sum. -/
  | addw (hd : Head) (d : Reg) (a : Reg) (b : Reg)
  /-- SUBW (R241): Writes the sign-extended 32-bit difference. -/
  | subw (hd : Head) (d : Reg) (a : Reg) (b : Reg)
  /-- ANDN (R241): Writes a AND NOT b. -/
  | andn (hd : Head) (d : Reg) (a : Reg) (b : Reg)
  /-- ORN (R241): Writes a OR NOT b. -/
  | orn (hd : Head) (d : Reg) (a : Reg) (b : Reg)
  /-- ADDSAT (R241): Writes the signed sum clamped to the 64-bit range. -/
  | addsat (hd : Head) (d : Reg) (a : Reg) (b : Reg)
  /-- SUBSAT (R241): Writes the signed difference clamped to the 64-bit range. -/
  | subsat (hd : Head) (d : Reg) (a : Reg) (b : Reg)
  /-- ADDI (R242): Writes a plus the sign-extended immediate. -/
  | addi (hd : Head) (d : Reg) (a : Reg) (i : BitVec 12)
  /-- ANDI (R242): Writes a AND the immediate. -/
  | andi (hd : Head) (d : Reg) (a : Reg) (i : BitVec 12)
  /-- ORI (R242): Writes a OR the immediate. -/
  | ori (hd : Head) (d : Reg) (a : Reg) (i : BitVec 12)
  /-- XORI (R242): Writes a XOR the immediate. -/
  | xori (hd : Head) (d : Reg) (a : Reg) (i : BitVec 12)
  /-- SLLI (R242): Shifts a left by an immediate amount. -/
  | slli (hd : Head) (d : Reg) (a : Reg) (n : BitVec 6)
  /-- SRLI (R242): Shifts a right by an immediate amount, zero fill. -/
  | srli (hd : Head) (d : Reg) (a : Reg) (n : BitVec 6)
  /-- SRAI (R242): Shifts a right by an immediate amount, sign fill. -/
  | srai (hd : Head) (d : Reg) (a : Reg) (n : BitVec 6)
  /-- RORI (R242): Rotates a right by an immediate amount. -/
  | rori (hd : Head) (d : Reg) (a : Reg) (n : BitVec 6)
  /-- SLTI (R242): Writes 1 if a is below the immediate, signed. -/
  | slti (hd : Head) (d : Reg) (a : Reg) (i : BitVec 12)
  /-- SLTIU (R242): Writes 1 if a is below the sign-extended immediate, unsigned. -/
  | sltiu (hd : Head) (d : Reg) (a : Reg) (i : BitVec 12)
  /-- LHI (R243): Writes the sign-extended 17-bit immediate shifted left by 12. -/
  | lhi (hd : Head) (d : Reg) (i : BitVec 17)
  /-- ADDPC (R243): Writes its own address plus the immediate shifted left by 12. -/
  | addpc (hd : Head) (d : Reg) (i : BitVec 17)
  /-- MUL (R245): Writes the low 64 bits of the product. -/
  | mul (hd : Head) (d : Reg) (a : Reg) (b : Reg)
  /-- MULH (R245): Writes the high half of the signed product. -/
  | mulh (hd : Head) (d : Reg) (a : Reg) (b : Reg)
  /-- MULHU (R245): Writes the high half of the unsigned product. -/
  | mulhu (hd : Head) (d : Reg) (a : Reg) (b : Reg)
  /-- MULHSU (R245): Writes the high half of the signed-by-unsigned product. -/
  | mulhsu (hd : Head) (d : Reg) (a : Reg) (b : Reg)
  /-- DIV (R245): Writes the signed quotient, with defined results for zero and overflow. -/
  | div (hd : Head) (d : Reg) (a : Reg) (b : Reg)
  /-- DIVU (R245): Writes the unsigned quotient. -/
  | divu (hd : Head) (d : Reg) (a : Reg) (b : Reg)
  /-- REM (R245): Writes the signed remainder. -/
  | rem (hd : Head) (d : Reg) (a : Reg) (b : Reg)
  /-- REMU (R245): Writes the unsigned remainder. -/
  | remu (hd : Head) (d : Reg) (a : Reg) (b : Reg)
  /-- MULW (R245): Writes the sign-extended low 32 bits of the 32-bit product. -/
  | mulw (hd : Head) (d : Reg) (a : Reg) (b : Reg)
  /-- CLZ (R246): Counts leading zero bits of a. -/
  | clz (hd : Head) (d : Reg) (a : Reg)
  /-- CTZ (R246): Counts trailing zero bits of a. -/
  | ctz (hd : Head) (d : Reg) (a : Reg)
  /-- POPC (R246): Counts one bits of a. -/
  | popc (hd : Head) (d : Reg) (a : Reg)
  /-- BREV (R246): Reverses the bits of a. -/
  | brev (hd : Head) (d : Reg) (a : Reg)
  /-- BSWAP (R246): Reverses the bytes of a. -/
  | bswap (hd : Head) (d : Reg) (a : Reg)
  /-- SEXTB (R246): Sign-extends a[7:0]. -/
  | sextb (hd : Head) (d : Reg) (a : Reg)
  /-- SEXTH (R246): Sign-extends a[15:0]. -/
  | sexth (hd : Head) (d : Reg) (a : Reg)
  /-- SEXTW (R246): Sign-extends a[31:0]. -/
  | sextw (hd : Head) (d : Reg) (a : Reg)
  /-- ZEXTW (R246): Zero-extends a[31:0]. -/
  | zextw (hd : Head) (d : Reg) (a : Reg)
  /-- CLMUL (R247): Writes the low half of the carry-less product. -/
  | clmul (hd : Head) (d : Reg) (a : Reg) (b : Reg)
  /-- CLMULH (R247): Writes the high half of the carry-less product. -/
  | clmulh (hd : Head) (d : Reg) (a : Reg) (b : Reg)
  /-- CLMULR (R247): Writes bits 126 to 63 of the carry-less product. -/
  | clmulr (hd : Head) (d : Reg) (a : Reg) (b : Reg)
  /-- BFX (R248): Extracts a bit field of a described by b. -/
  | bfx (hd : Head) (d : Reg) (a : Reg) (b : Reg)
  /-- BFI (R248): Inserts the low bits of a into a field of rd. -/
  | bfi (hd : Head) (d : Reg) (a : Reg) (b : Reg)
  /-- FADD_S (R301): Scalar FP32 addition. -/
  | faddS (hd : Head) (d : Reg) (a : Reg) (b : Reg)
  /-- FSUB_S (R301): Scalar FP32 subtraction. -/
  | fsubS (hd : Head) (d : Reg) (a : Reg) (b : Reg)
  /-- FMUL_S (R301): Scalar FP32 multiplication. -/
  | fmulS (hd : Head) (d : Reg) (a : Reg) (b : Reg)
  /-- FDIV_S (R301): Scalar FP32 division. -/
  | fdivS (hd : Head) (d : Reg) (a : Reg) (b : Reg)
  /-- FSQRT_S (R301): Scalar FP32 square root. -/
  | fsqrtS (hd : Head) (d : Reg) (a : Reg)
  /-- FMIN_S (R302): Scalar FP32 minimum. -/
  | fminS (hd : Head) (d : Reg) (a : Reg) (b : Reg)
  /-- FMAX_S (R302): Scalar FP32 maximum. -/
  | fmaxS (hd : Head) (d : Reg) (a : Reg) (b : Reg)
  /-- FEQ_S (R301): Writes 1 if a equals b. -/
  | feqS (hd : Head) (d : Reg) (a : Reg) (b : Reg)
  /-- FLT_S (R301): Writes 1 if a is less than b. -/
  | fltS (hd : Head) (d : Reg) (a : Reg) (b : Reg)
  /-- FLE_S (R301): Writes 1 if a is at most b. -/
  | fleS (hd : Head) (d : Reg) (a : Reg) (b : Reg)
  /-- FCLASS_S (R302): Writes the class word of a. -/
  | fclassS (hd : Head) (d : Reg) (a : Reg)
  /-- FCVT_S_L (R301): Converts a signed 64-bit integer to FP32. -/
  | fcvtSL (hd : Head) (d : Reg) (a : Reg)
  /-- FCVT_S_LU (R301): Converts an unsigned 64-bit integer to FP32. -/
  | fcvtSLu (hd : Head) (d : Reg) (a : Reg)
  /-- FCVT_L_S (R301): Converts FP32 to a signed 64-bit integer. -/
  | fcvtLS (hd : Head) (d : Reg) (a : Reg)
  /-- FCVT_LU_S (R301): Converts FP32 to an unsigned 64-bit integer. -/
  | fcvtLuS (hd : Head) (d : Reg) (a : Reg)
  /-- FSGNJ_S (R301): Writes a with the sign of b. -/
  | fsgnjS (hd : Head) (d : Reg) (a : Reg) (b : Reg)
  /-- FSGNJN_S (R301): Writes a with the inverted sign of b. -/
  | fsgnjnS (hd : Head) (d : Reg) (a : Reg) (b : Reg)
  /-- FSGNJX_S (R301): Writes a with its sign XOR the sign of b. -/
  | fsgnjxS (hd : Head) (d : Reg) (a : Reg) (b : Reg)
  /-- FMADD_S (R303): Fused a × b + c, rounded once. -/
  | fmaddS (hd : Head) (d : Reg) (a : Reg) (b : Reg) (c : Reg)
  /-- FMSUB_S (R303): Fused a × b − c, rounded once. -/
  | fmsubS (hd : Head) (d : Reg) (a : Reg) (b : Reg) (c : Reg)
  /-- FNMADD_S (R303): Fused −(a × b) − c, rounded once. -/
  | fnmaddS (hd : Head) (d : Reg) (a : Reg) (b : Reg) (c : Reg)
  /-- FNMSUB_S (R303): Fused −(a × b) + c, rounded once. -/
  | fnmsubS (hd : Head) (d : Reg) (a : Reg) (b : Reg) (c : Reg)
  /-- BEQ (R249): Branches when a equals b. -/
  | beq (hd : Head) (a : Reg) (b : Reg) (o : BitVec 12)
  /-- BNE (R249): Branches when a differs from b. -/
  | bne (hd : Head) (a : Reg) (b : Reg) (o : BitVec 12)
  /-- BLT (R249): Branches when a is less than b, signed. -/
  | blt (hd : Head) (a : Reg) (b : Reg) (o : BitVec 12)
  /-- BGE (R249): Branches when a is at least b, signed. -/
  | bge (hd : Head) (a : Reg) (b : Reg) (o : BitVec 12)
  /-- BLTU (R249): Branches when a is less than b, unsigned. -/
  | bltu (hd : Head) (a : Reg) (b : Reg) (o : BitVec 12)
  /-- BGEU (R249): Branches when a is at least b, unsigned. -/
  | bgeu (hd : Head) (a : Reg) (b : Reg) (o : BitVec 12)
  /-- JAL (R250): Writes the successor to rd and jumps PC-relative. -/
  | jal (hd : Head) (d : Reg) (i : BitVec 17)
  /-- JALR (R250): Writes the successor to rd and jumps to a + imm. -/
  | jalr (hd : Head) (d : Reg) (a : Reg) (i : BitVec 12)
  /-- LOOP (R251): Pushes a loop-stack entry with a register count. -/
  | loop (hd : Head) (a : Reg) (i : BitVec 12)
  /-- LOOPI (R251): Pushes a loop-stack entry with an immediate count. -/
  | loopi (hd : Head) (n : BitVec 10) (i : BitVec 12)
  /-- LD (R271): Plain load of 1, 2, 4 or 8 bytes. -/
  | ld (hd : Head) (d : Reg) (a : Reg) (w : BitVec 2) (u : BitVec 1) (i : BitVec 7)
  /-- LD_ACQ (R141): Acquire load. -/
  | ldAcq (hd : Head) (d : Reg) (a : Reg) (w : BitVec 2) (u : BitVec 1) (i : BitVec 7)
  /-- LDL (R95): Load that acquires the pool lock guarding its address. -/
  | ldl (hd : Head) (d : Reg) (a : Reg) (w : BitVec 2) (u : BitVec 1) (i : BitVec 7)
  /-- ST (R271): Plain store into the store buffer. -/
  | st (hd : Head) (d : Reg) (a : Reg) (w : BitVec 2) (i : BitVec 7)
  /-- ST_REL (R141): Release store. -/
  | stRel (hd : Head) (d : Reg) (a : Reg) (w : BitVec 2) (i : BitVec 7)
  /-- STU (R95): Store that releases the held pool lock when accepted. -/
  | stu (hd : Head) (d : Reg) (a : Reg) (w : BitVec 2) (i : BitVec 7)
  /-- LDX (R270): Indexed load, plain or acquire. -/
  | ldx (hd : Head) (d : Reg) (a : Reg) (b : Reg) (w : BitVec 2) (u : BitVec 1) (q : BitVec 1)
  /-- STX (R270): Indexed store, plain or release. -/
  | stx (hd : Head) (d : Reg) (a : Reg) (b : Reg) (w : BitVec 2) (r : BitVec 1)
  /-- AMOADD (R272): Atomic add at the address. -/
  | amoadd (hd : Head) (d : Reg) (a : Reg) (b : Reg) (w : BitVec 1) (o : BitVec 2)
  /-- AMOAND (R272): Atomic AND. -/
  | amoand (hd : Head) (d : Reg) (a : Reg) (b : Reg) (w : BitVec 1) (o : BitVec 2)
  /-- AMOOR (R272): Atomic OR. -/
  | amoor (hd : Head) (d : Reg) (a : Reg) (b : Reg) (w : BitVec 1) (o : BitVec 2)
  /-- AMOXOR (R272): Atomic XOR. -/
  | amoxor (hd : Head) (d : Reg) (a : Reg) (b : Reg) (w : BitVec 1) (o : BitVec 2)
  /-- AMOMIN (R272): Atomic signed minimum. -/
  | amomin (hd : Head) (d : Reg) (a : Reg) (b : Reg) (w : BitVec 1) (o : BitVec 2)
  /-- AMOMAX (R272): Atomic signed maximum. -/
  | amomax (hd : Head) (d : Reg) (a : Reg) (b : Reg) (w : BitVec 1) (o : BitVec 2)
  /-- AMOMINU (R272): Atomic unsigned minimum. -/
  | amominu (hd : Head) (d : Reg) (a : Reg) (b : Reg) (w : BitVec 1) (o : BitVec 2)
  /-- AMOMAXU (R272): Atomic unsigned maximum. -/
  | amomaxu (hd : Head) (d : Reg) (a : Reg) (b : Reg) (w : BitVec 1) (o : BitVec 2)
  /-- AMOSWAP (R272): Atomic swap. -/
  | amoswap (hd : Head) (d : Reg) (a : Reg) (b : Reg) (w : BitVec 1) (o : BitVec 2)
  /-- AMOCAS (R272): Atomic compare-and-swap against rd. -/
  | amocas (hd : Head) (d : Reg) (a : Reg) (b : Reg) (w : BitVec 1) (o : BitVec 2)
  /-- FENCE (R140): Orders earlier accesses in scope before later ones. -/
  | fence (hd : Head) (c : BitVec 3)
  /-- FENCE_ACQ (R140): Acquire fence over earlier reads and pending fills in scope. -/
  | fenceAcq (hd : Head) (c : BitVec 3)
  /-- FENCE_REL (R140): Release fence before later stores, AMOs and sends. -/
  | fenceRel (hd : Head) (c : BitVec 3)
  /-- FENCE_V (R80): Fence that also waits for covered stores to be committed to DRAM. -/
  | fenceV (hd : Head) (c : BitVec 3)
  /-- ACT (R50): Direct form: opens the addressed row of the own vault. -/
  | act (hd : Head) (a : Reg)
  /-- ACT_ENGINE (R275): Engine form of ACT, issued from the vault-control queue under a token. -/
  | actEngine (hd : Head) (c : Reg) (a : Reg)
  /-- PRE (R50): Direct form: closes the addressed bank's open row. -/
  | pre (hd : Head) (a : Reg)
  /-- PRE_ENGINE (R275): Engine form of PRE under a token. -/
  | preEngine (hd : Head) (c : Reg) (a : Reg)
  /-- PREA (R50): Closes every open row of the own vault. -/
  | prea (hd : Head)
  /-- VSTAT (R277): Returns the bank status word of one bank. -/
  | vstat (hd : Head) (d : Reg) (a : Reg)
  /-- VEVT (R277): Removes and returns the oldest vault event-log record. -/
  | vevt (hd : Head) (d : Reg)
  /-- RLOAD (R279): Sends a remote load and marks rd PENDING. -/
  | rload (hd : Head) (d : Reg) (a : Reg) (w : BitVec 2) (o : BitVec 2)
  /-- RSTORE (R279): Sends a posted remote store. -/
  | rstore (hd : Head) (d : Reg) (a : Reg) (w : BitVec 2) (o : BitVec 2)
  /-- RAMOADD (R279): Sends a remote atomic add. -/
  | ramoadd (hd : Head) (d : Reg) (a : Reg) (w : BitVec 2) (o : BitVec 2)
  /-- RAMOAND (R279): Sends a remote atomic AND. -/
  | ramoand (hd : Head) (d : Reg) (a : Reg) (w : BitVec 2) (o : BitVec 2)
  /-- RAMOOR (R279): Sends a remote atomic OR. -/
  | ramoor (hd : Head) (d : Reg) (a : Reg) (w : BitVec 2) (o : BitVec 2)
  /-- RAMOXOR (R279): Sends a remote atomic XOR. -/
  | ramoxor (hd : Head) (d : Reg) (a : Reg) (w : BitVec 2) (o : BitVec 2)
  /-- RAMOMIN (R279): Sends a remote atomic signed minimum. -/
  | ramomin (hd : Head) (d : Reg) (a : Reg) (w : BitVec 2) (o : BitVec 2)
  /-- RAMOMAX (R279): Sends a remote atomic signed maximum. -/
  | ramomax (hd : Head) (d : Reg) (a : Reg) (w : BitVec 2) (o : BitVec 2)
  /-- RAMOMINU (R279): Sends a remote atomic unsigned minimum. -/
  | ramominu (hd : Head) (d : Reg) (a : Reg) (w : BitVec 2) (o : BitVec 2)
  /-- RAMOMAXU (R279): Sends a remote atomic unsigned maximum. -/
  | ramomaxu (hd : Head) (d : Reg) (a : Reg) (w : BitVec 2) (o : BitVec 2)
  /-- RAMOSWAP (R279): Sends a remote atomic swap. -/
  | ramoswap (hd : Head) (d : Reg) (a : Reg) (w : BitVec 2) (o : BitVec 2)
  /-- RAMOCAS (R279): Sends a remote compare-and-swap using rd and rd+1. -/
  | ramocas (hd : Head) (d : Reg) (a : Reg) (w : BitVec 2) (o : BitVec 2)
  /-- MIGRATE (R281): Sends a traveller, or moves the current traveller to its next hop. -/
  | migrate (hd : Head) (d : Reg) (a : Reg) (b : Reg)
  /-- REPLY (R282): Ends a handler context, replying with a register value. -/
  | reply (hd : Head) (a : Reg)
  /-- HRET (R282): Ends a handler context, replying with x8. -/
  | hret (hd : Head)
  /-- HSET (R283): Writes one handler-table entry from a descriptor. -/
  | hset (hd : Head) (a : Reg) (b : Reg)
  /-- HCLR (R283): Empties one handler-table entry. -/
  | hclr (hd : Head) (a : Reg)
  /-- MBX_ADD (R285): Direct form: sends a posted release increment to a mailbox counter. -/
  | mbxAdd (hd : Head) (a : Reg) (b : Reg)
  /-- MBX_ADD_ENGINE (R275): Engine form of MBX.ADD, issued under a token. -/
  | mbxAddEngine (hd : Head) (c : Reg) (a : Reg) (b : Reg)
  /-- MBX_WAIT (R286): Waits for a mailbox counter to reach a target. -/
  | mbxWait (hd : Head) (d : Reg) (a : Reg) (b : Reg)
  /-- MBX_READ (R285): Reads a mailbox counter, locally or by an unconditional watch. -/
  | mbxRead (hd : Head) (d : Reg) (a : Reg)
  /-- MBX_SET (R285): Writes a counter of the own core. -/
  | mbxSet (hd : Head) (a : Reg) (b : Reg)
  /-- BFREE (R129): Sends a buffer-free notice towards a COPY.MC sender's counter. -/
  | bfree (hd : Head) (a : Reg)
  /-- SETE (R287): Marks a register VOID after any pending fill. -/
  | sete (hd : Head) (d : Reg) (f : BitVec 1)
  /-- ISFULL (R287): Returns the full/empty state of a register. -/
  | isfull (hd : Head) (d : Reg) (a : Reg) (f : BitVec 1)
  /-- TKQ (R287): Returns a token's count and flags. -/
  | tkq (hd : Head) (d : Reg) (k : BitVec 3)
  /-- TKFLT (R287): Returns a token's first-fault record. -/
  | tkflt (hd : Head) (d : Reg) (k : BitVec 3)
  /-- WAITTK (R186): Waits for masked tokens to reach count 0 and raises their faults. -/
  | waittk (hd : Head) (m : BitVec 8)
  /-- TRAP (R253): Raises a system-call trap. -/
  | trap (hd : Head) (a : Reg)
  /-- ERET (R254): Returns from a trap to TEPC. -/
  | eret (hd : Head)
  /-- HALT (R255): Drains and puts the slot in HALTED. -/
  | halt (hd : Head)
  /-- YIELD (R255): Marks the thread most recently issued. -/
  | yield (hd : Head)
  /-- EXIT (R170): Ends the unit once tokens and the store buffer drain. -/
  | exit (hd : Head)
  /-- VMODE_L (R174): Puts the core in long vector mode. -/
  | vmodeL (hd : Head)
  /-- VMODE_S (R174): Puts the core in short vector mode. -/
  | vmodeS (hd : Head)
  /-- LAUNCH (R257): Creates a launch from a launch record. -/
  | launch (hd : Head) (d : Reg) (a : Reg)
  /-- CANCEL (R258): Cancels a work item. -/
  | cancel (hd : Head) (d : Reg) (a : Reg)
  /-- WAITCTR (R259): Waits for a work item to complete and returns its status. -/
  | waitctr (hd : Head) (d : Reg) (a : Reg)
  /-- BRK (R253): Raises a breakpoint trap. -/
  | brk (hd : Head)
  /-- PAUSE (R255): Makes the thread not ready for a number of clk. -/
  | pause (hd : Head) (a : Reg)
  /-- TLBINV (R40): Invalidates translations and waits for their holders. -/
  | tlbinv (hd : Head) (a : Reg) (b : Reg)
  /-- FENCE_I (R260): Makes later instruction fetches see earlier stores. -/
  | fenceI (hd : Head)
  /-- XBEGIN (R292): Opens an empty transaction. -/
  | xbegin (hd : Head)
  /-- XCOMMIT (R155): Commits the open transaction by lock arrivals. -/
  | xcommit (hd : Head) (d : Reg)
  /-- XABORT (R292): Discards the open transaction. -/
  | xabort (hd : Head)
  /-- CSRXCH (R261): Exchanges a CSR with a register. -/
  | csrxch (hd : Head) (d : Reg) (a : Reg) (c : BitVec 12)
  /-- CSRBIS (R261): Reads a CSR and sets bits. -/
  | csrbis (hd : Head) (d : Reg) (a : Reg) (c : BitVec 12)
  /-- CSRBIC (R261): Reads a CSR and clears bits. -/
  | csrbic (hd : Head) (d : Reg) (a : Reg) (c : BitVec 12)
  /-- VADD (R304): Lane addition. -/
  | vadd (hd : Head) (d : Reg) (a : Reg) (b : Reg) (t : BitVec 3)
  /-- VSUB (R304): Lane subtraction. -/
  | vsub (hd : Head) (d : Reg) (a : Reg) (b : Reg) (t : BitVec 3)
  /-- VMUL (R304): Lane multiplication. -/
  | vmul (hd : Head) (d : Reg) (a : Reg) (b : Reg) (t : BitVec 3)
  /-- VMIN (R304): Lane minimum. -/
  | vmin (hd : Head) (d : Reg) (a : Reg) (b : Reg) (t : BitVec 3)
  /-- VMAX (R304): Lane maximum. -/
  | vmax (hd : Head) (d : Reg) (a : Reg) (b : Reg) (t : BitVec 3)
  /-- VABSD (R304): Lane absolute difference. -/
  | vabsd (hd : Head) (d : Reg) (a : Reg) (b : Reg) (t : BitVec 3)
  /-- VAND (R304): Lane AND. -/
  | vand (hd : Head) (d : Reg) (a : Reg) (b : Reg) (t : BitVec 3)
  /-- VOR (R304): Lane OR. -/
  | vor (hd : Head) (d : Reg) (a : Reg) (b : Reg) (t : BitVec 3)
  /-- VXOR (R304): Lane XOR. -/
  | vxor (hd : Head) (d : Reg) (a : Reg) (b : Reg) (t : BitVec 3)
  /-- VSHL (R304): Lane shift left. -/
  | vshl (hd : Head) (d : Reg) (a : Reg) (b : Reg) (t : BitVec 3)
  /-- VSHR (R304): Lane logical shift right. -/
  | vshr (hd : Head) (d : Reg) (a : Reg) (b : Reg) (t : BitVec 3)
  /-- VSRA (R304): Lane arithmetic shift right. -/
  | vsra (hd : Head) (d : Reg) (a : Reg) (b : Reg) (t : BitVec 3)
  /-- VADDS (R304): Lane saturating addition. -/
  | vadds (hd : Head) (d : Reg) (a : Reg) (b : Reg) (t : BitVec 3)
  /-- VSUBS (R304): Lane saturating subtraction. -/
  | vsubs (hd : Head) (d : Reg) (a : Reg) (b : Reg) (t : BitVec 3)
  /-- VMULH (R304): Lane high-half product. -/
  | vmulh (hd : Head) (d : Reg) (a : Reg) (b : Reg) (t : BitVec 3)
  /-- VAVG (R304): Lane average. -/
  | vavg (hd : Head) (d : Reg) (a : Reg) (b : Reg) (t : BitVec 3)
  /-- VCEQ (R305): Lane equality mask. -/
  | vceq (hd : Head) (d : Reg) (a : Reg) (b : Reg) (t : BitVec 3)
  /-- VCLT (R305): Lane less-than mask. -/
  | vclt (hd : Head) (d : Reg) (a : Reg) (b : Reg) (t : BitVec 3)
  /-- VCLE (R305): Lane less-or-equal mask. -/
  | vcle (hd : Head) (d : Reg) (a : Reg) (b : Reg) (t : BitVec 3)
  /-- VCLTU (R305): Lane unsigned less-than mask. -/
  | vcltu (hd : Head) (d : Reg) (a : Reg) (b : Reg) (t : BitVec 3)
  /-- VSEL (R305): Bitwise select by vd. -/
  | vsel (hd : Head) (d : Reg) (a : Reg) (b : Reg) (t : BitVec 3)
  /-- VFMA (R305): Lane fused multiply-add into vd. -/
  | vfma (hd : Head) (d : Reg) (a : Reg) (b : Reg) (t : BitVec 3)
  /-- VFMS (R305): Lane fused multiply-subtract from vd. -/
  | vfms (hd : Head) (d : Reg) (a : Reg) (b : Reg) (t : BitVec 3)
  /-- VDOT (R307): Block dot products promoted into accumulator lanes. -/
  | vdot (hd : Head) (d : Reg) (a : Reg) (b : Reg) (p : BitVec 3)
  /-- VCLMUL (R305): Lane carry-less product, low half. -/
  | vclmul (hd : Head) (d : Reg) (a : Reg) (b : Reg) (t : BitVec 3)
  /-- VCLMULH (R305): Lane carry-less product, high half. -/
  | vclmulh (hd : Head) (d : Reg) (a : Reg) (b : Reg) (t : BitVec 3)
  /-- VRCPS (R213): Newton step factor for the reciprocal. -/
  | vrcps (hd : Head) (d : Reg) (a : Reg) (b : Reg)
  /-- VRSQS (R213): Newton step factor for the reciprocal square root. -/
  | vrsqs (hd : Head) (d : Reg) (a : Reg) (b : Reg)
  /-- VRCP (R212): Lane reciprocal approximation. -/
  | vrcp (hd : Head) (d : Reg) (a : Reg)
  /-- VRSQ (R212): Lane reciprocal square root approximation. -/
  | vrsq (hd : Head) (d : Reg) (a : Reg)
  /-- VEXP2 (R211): Lane 2^x, correctly rounded. -/
  | vexp2 (hd : Head) (d : Reg) (a : Reg)
  /-- VLOG2 (R211): Lane log2 x, correctly rounded. -/
  | vlog2 (hd : Head) (d : Reg) (a : Reg)
  /-- VSQRT (R308): Lane square root. -/
  | vsqrt (hd : Head) (d : Reg) (a : Reg) (t : BitVec 3)
  /-- VABS (R308): Lane absolute value. -/
  | vabs (hd : Head) (d : Reg) (a : Reg) (t : BitVec 3)
  /-- VNEG (R308): Lane negation. -/
  | vneg (hd : Head) (d : Reg) (a : Reg) (t : BitVec 3)
  /-- VPOPC (R308): Lane population count. -/
  | vpopc (hd : Head) (d : Reg) (a : Reg) (t : BitVec 3)
  /-- VCVT (R310): Lane type conversion, source type to destination type. -/
  | vcvt (hd : Head) (d : Reg) (a : Reg) (g : BitVec 3) (t : BitVec 3)
  /-- VREDADD (R309): Tree sum of all lanes into lane 0. -/
  | vredadd (hd : Head) (d : Reg) (a : Reg) (t : BitVec 3)
  /-- VREDMAX (R309): Maximum of all lanes into lane 0. -/
  | vredmax (hd : Head) (d : Reg) (a : Reg) (t : BitVec 3)
  /-- VREDMIN (R309): Minimum of all lanes into lane 0. -/
  | vredmin (hd : Head) (d : Reg) (a : Reg) (t : BitVec 3)
  /-- VCLZ (R308): Lane leading-zero count. -/
  | vclz (hd : Head) (d : Reg) (a : Reg) (t : BitVec 3)
  /-- VLD (R312): Loads a whole vector register. -/
  | vld (hd : Head) (d : Reg) (a : Reg)
  /-- VST (R312): Stores a whole vector register. -/
  | vst (hd : Head) (d : Reg) (a : Reg)
  /-- VLDS (R313): Strided lane load. -/
  | vlds (hd : Head) (d : Reg) (a : Reg) (b : Reg) (t : BitVec 3)
  /-- VSTS (R313): Strided lane store. -/
  | vsts (hd : Head) (d : Reg) (a : Reg) (b : Reg) (t : BitVec 3)
  /-- VBCAST (R312): Broadcasts a scalar to every lane. -/
  | vbcast (hd : Head) (d : Reg) (a : Reg) (t : BitVec 3)
  /-- VINS (R312): Inserts a scalar into one lane. -/
  | vins (hd : Head) (d : Reg) (a : Reg) (b : Reg) (t : BitVec 3)
  /-- VEXT (R312): Extracts one lane into an x register. -/
  | vext (hd : Head) (d : Reg) (a : Reg) (b : Reg) (t : BitVec 3)
  /-- VLDROW (R314): Loads one whole vault row into a w register. -/
  | vldrow (hd : Head) (d : Reg) (a : Reg)
  /-- VPERM (R315): Lane permutation by index. -/
  | vperm (hd : Head) (d : Reg) (a : Reg) (b : Reg) (t : BitVec 3)
  /-- VZIP (R315): Interleaves the low halves of two vectors. -/
  | vzip (hd : Head) (d : Reg) (a : Reg) (b : Reg) (t : BitVec 3)
  /-- VUNZIP (R315): Gathers even lanes of two vectors. -/
  | vunzip (hd : Head) (d : Reg) (a : Reg) (b : Reg) (t : BitVec 3)
  /-- VMERGE_LO (R318): Lower half of the merge of two pair lists. -/
  | vmergeLo (hd : Head) (d : Reg) (a : Reg) (b : Reg) (t : BitVec 3)
  /-- VMERGE_HI (R318): Upper half of the merge of two pair lists. -/
  | vmergeHi (hd : Head) (d : Reg) (a : Reg) (b : Reg) (t : BitVec 3)
  /-- VSORT (R317): Sorts key/index pairs. -/
  | vsort (hd : Head) (d : Reg) (a : Reg) (t : BitVec 3)
  /-- VSLIDE (R315): Slides lanes by a signed amount. -/
  | vslide (hd : Head) (d : Reg) (a : Reg) (b : Reg) (t : BitVec 3)
  /-- TLD (R333): Engine command loading a tile from the own vault into OB0, OB1 or WSH. -/
  | tld (hd : Head) (a : Reg) (tk : BitVec 3) (wait : BitVec 8) (dst : BitVec 2) (fmt : BitVec 4) (rows : BitVec 7) (sc : BitVec 1) (frow : BitVec 7)
  /-- TLD_P (R333): Engine command loading a tile from the own vault into the pool. -/
  | tldP (hd : Head) (d a b : Reg) (tk : BitVec 3) (wait : BitVec 8) (fmt : BitVec 4) (rows : BitVec 7) (sc : BitVec 1) (frow : BitVec 7)
  /-- TST (R339): Engine command storing visible-bank rows to the own vault. -/
  | tst (hd : Head) (a : Reg) (tk : BitVec 3) (wait : BitVec 8) (row0 rows : BitVec 7) (ofmt : BitVec 2) (satf : BitVec 1)
  /-- WLOAD (R334): Engine command filling the weight shadow. -/
  | wload (hd : Head) (d a b : Reg) (tk : BitVec 3) (wait : BitVec 8) (src : BitVec 1) (fmt : BitVec 4) (sc : BitVec 1) (frow : BitVec 7)
  /-- MMA (R336): Engine command multiplying activation rows by latched weights into the working bank. -/
  | mma (hd : Head) (d b : Reg) (tk : BitVec 3) (wait : BitVec 8) (asrc : BitVec 2) (fmt : BitVec 4) (rows : BitVec 7) (lt sat ftz : BitVec 1) (wreg : BitVec 3)
  /-- ASWAP (R338): Engine command exchanging working and visible banks. -/
  | aswap (hd : Head) (tk : BitVec 3) (wait : BitVec 8)
  /-- ACLR (R338): Engine command zeroing the working bank. -/
  | aclr (hd : Head) (tk : BitVec 3) (wait : BitVec 8) (cf : BitVec 1)
  /-- ARD (R339): Engine command reading visible-bank rows into w registers. -/
  | ard (hd : Head) (tk : BitVec 3) (wait : BitVec 8) (row0 rows : BitVec 7) (wreg : BitVec 3)
  /-- AST (R339): Engine command storing visible-bank rows to a pool tile. -/
  | ast (hd : Head) (d b : Reg) (tk : BitVec 3) (wait : BitVec 8) (row0 rows : BitVec 7) (ofmt : BitVec 2) (satf : BitVec 1)
  /-- LEASE (R322): Acquires a lease slot of the cluster's matrix array. -/
  | lease (hd : Head) (d : Reg) (try1 : BitVec 1)
  /-- RELEASE (R322): Ends the thread's lease; the slot drains. -/
  | release (hd : Head)
  /-- VPIPE (R343): Engine command sending a vault pipeline job. -/
  | vpipe (hd : Head) (d a b : Reg) (tk : BitVec 3) (wait : BitVec 8) (rr flt : BitVec 1)
  /-- SELQ (R343): Engine command sending a vault pipeline job ending in the Auction. -/
  | selq (hd : Head) (d a b : Reg) (tk : BitVec 3) (wait : BitVec 8) (rr flt : BitVec 1)
  /-- COPY (R126): Engine command copying by a template. -/
  | copy (hd : Head) (a b : Reg) (tk : BitVec 3) (wait : BitVec 8) (tmpl : BitVec 4)
  /-- COPY_MC (R128): Engine command multicasting a copy to many receivers. -/
  | copyMc (hd : Head) (d a b : Reg) (tk : BitVec 3) (wait : BitVec 8) (tmpl : BitVec 4)
  /-- RCALL (R280): Engine command calling a user handler on a target core. -/
  | rcall (hd : Head) (d a : Reg) (tk : BitVec 3) (wait : BitVec 8) (hidx : BitVec 6) (rr : BitVec 1) (ord : BitVec 2)
  /-- TAPE_REC (R364): Starts recording a command tape. -/
  | tapeRec (hd : Head) (d : Reg) (id : BitVec 3) (lim : BitVec 10)
  /-- TAPE_END (R365): Closes the recording and returns a status. -/
  | tapeEnd (hd : Head) (d : Reg)
  /-- TAPE_PLAY (R369): Engine command replaying a tape. -/
  | tapePlay (hd : Head) (a : Reg) (tk : BitVec 3) (wait : BitVec 8) (id : BitVec 3)
  /-- TAPE_PATCH (R366): Writes a patch slot base and length as one step. -/
  | tapePatch (hd : Head) (a b : Reg) (slot : BitVec 4)
  /-- TAPE_SAVE (R368): Engine command writing a tape image to memory. -/
  | tapeSave (hd : Head) (a : Reg) (tk : BitVec 3) (wait : BitVec 8) (id : BitVec 3)
  /-- TAPE_LOAD (R368): Engine command loading a tape image from memory. -/
  | tapeLoad (hd : Head) (a : Reg) (tk : BitVec 3) (wait : BitVec 8) (id : BitVec 3)
  /-- TAPE_INV (R367): Discards a tape. -/
  | tapeInv (hd : Head) (id : BitVec 3)
  /-- LI32 (R244): Loads or appends a 32-bit immediate. -/
  | li32 (hd : Head) (d a : Reg) (imm : BitVec 32)
  /-- XSTORE (R293): Adds a store entry to the open transaction. -/
  | xstore (hd : Head) (a b : Reg) (w : BitVec 2)
  /-- TMPL (R289): Loads a copy template slot. -/
  | tmpl (hd : Head) (a : Reg) (slot : BitVec 4)
  /-- C_ADDISP (R225): Compressed ADDI rd′, x2, u8×8. -/
  | cAddisp (d : BitVec 3) (u : BitVec 8)
  /-- C_LD (R225): Compressed 8-byte load. -/
  | cLd (d : BitVec 3) (a : BitVec 3) (u : BitVec 5)
  /-- C_ST (R225): Compressed 8-byte store. -/
  | cSt (d : BitVec 3) (a : BitVec 3) (u : BitVec 5)
  /-- C_WAITTK (R225): Compressed WAITTK. -/
  | cWaittk (m : BitVec 8)
  /-- C_ADDI (R225): Compressed ADDI rd, rd, imm6. -/
  | cAddi (d : Reg) (i : BitVec 6)
  /-- C_LI (R225): Compressed ADDI rd, x0, imm6. -/
  | cLi (d : Reg) (i : BitVec 6)
  /-- C_SRLI (R225): Compressed logical shift right. -/
  | cSrli (d : BitVec 3) (n : BitVec 6)
  /-- C_SRAI (R225): Compressed arithmetic shift right. -/
  | cSrai (d : BitVec 3) (n : BitVec 6)
  /-- C_ANDI (R225): Compressed AND immediate. -/
  | cAndi (d : BitVec 3) (i : BitVec 6)
  /-- C_SUB (R225): Compressed SUB. -/
  | cSub (d : BitVec 3) (b : BitVec 3)
  /-- C_XOR (R225): Compressed XOR. -/
  | cXor (d : BitVec 3) (b : BitVec 3)
  /-- C_OR (R225): Compressed OR. -/
  | cOr (d : BitVec 3) (b : BitVec 3)
  /-- C_AND (R225): Compressed AND. -/
  | cAnd (d : BitVec 3) (b : BitVec 3)
  /-- C_J (R225): Compressed jump. -/
  | cJ (o : BitVec 11)
  /-- C_BEQZ (R225): Compressed branch if zero. -/
  | cBeqz (a : BitVec 3) (o : BitVec 8)
  /-- C_BNEZ (R225): Compressed branch if non-zero. -/
  | cBnez (a : BitVec 3) (o : BitVec 8)
  /-- C_SLLI (R225): Compressed shift left. -/
  | cSlli (d : Reg) (n : BitVec 6)
  /-- C_LDSP (R225): Compressed stack load. -/
  | cLdsp (d : Reg) (u : BitVec 6)
  /-- C_STSP (R225): Compressed stack store. -/
  | cStsp (d : Reg) (u : BitVec 6)
  /-- C_JR (R225): Compressed jump to register. -/
  | cJr (a : Reg)
  /-- C_MV (R225): Compressed register move. -/
  | cMv (d : Reg) (b : Reg)
  /-- C_JALR (R225): Compressed call through register. -/
  | cJalr (a : Reg)
  /-- C_ADD (R225): Compressed ADD. -/
  | cAdd (d : Reg) (b : Reg)
  /-- C_EXIT (R225): Compressed EXIT. -/
  | cExit
  /-- LOAD_COMPLETE (R268): A load's data returns and fills its destination register. -/
  | loadComplete (h : HartId)
  /-- STORE_VISIBLE (R135): The store at the head of a store buffer is accepted at its home. -/
  | storeVisible (h : HartId)
  /-- WRITE_BUFFER_DRAIN (R79): A vault write-buffer entry is written into its row and committed. -/
  | writeBufferDrain (core n : Nat)
  /-- BANK_REQUEST (R51): A vault bank serves its next queued request, activating a row if needed. -/
  | bankRequest (core bank : Nat)
  /-- REFRESH_SLOT (R55): A refresh slot falls and a per-bank refresh begins, shadowing an open row. -/
  | refreshSlot (core : Nat)
  /-- REFRESH_END (R56): The per-bank refresh ends; the bank is left closed and waiters proceed. -/
  | refreshEnd (core bank : Nat)
  /-- HOLD_START (R65): A refresh-management hold begins on the bank of a row that reached MAT. -/
  | holdStart (core bank : Nat)
  /-- HOLD_END (R65): The hold ends after tRFM; counters reset and the bank is closed. -/
  | holdEnd (core bank : Nat)
  /-- TILE_LOAD_SEGMENT (R53): A tile-load segment starts preparation and transfer. -/
  | tileLoadSegment (h : HartId) (seq : Nat)
  /-- ROW_REPAIR_REQUEST (R58): Management requests a row repair through the vault controller block. -/
  | rowRepairRequest (core bank row : Nat)
  /-- REPAIR_START (R58): Once the bank is free the row is marked under repair. -/
  | repairStart (core bank : Nat)
  /-- REPAIR_COPY (R58): After the row closes it is copied and verified into the spare. -/
  | repairCopy (core bank : Nat)
  /-- REPAIR_SWITCH (R58): The bank map switches to the spare, VAULTGEN increments and held requests release. -/
  | repairSwitch (core bank : Nat)
  /-- THERMAL_SAMPLE (R69): The layer sensors are sampled and bands move one step. -/
  | thermalSample (stack : Nat) (temps : BitVec 64)
  /-- VAULT_LOG_MMIO_READ (R74): An MMIO read of the event log removes the oldest record. -/
  | vaultLogMmioRead (core : Nat)
  /-- POOL_BANK_ACCESS (R84): A pool bank grants one request and performs one line access. -/
  | poolBankAccess (cluster bank : Nat)
  /-- LDL_RETRY (R95): A waiting LDL or pool AMO retries its lock after 4 clk. -/
  | ldlRetry (h : HartId)
  /-- TLB_MISS (R33): A second-level miss sends a walk request or joins a walk in flight. -/
  | tlbMiss (h : HartId) (va : Word)
  /-- PTREAD (R118): A walker's page-table read is served by the owning agent on arrival. -/
  | ptread (stack n : Nat)
  /-- WALK_STEP (R23): A walker receives a table entry and reads the next level or completes. -/
  | walkStep (stack n : Nat)
  /-- MESSAGE_ARRIVAL (R105): A request message enters the arrival queue or spill ring, or is refused. -/
  | messageArrival (n : Nat)
  /-- RLOAD_REQUEST (R114): System handler 0 performs a remote load and replies. -/
  | rloadRequest (core : Nat)
  /-- RSTORE_REQUEST (R114): System handler 1 performs a remote store. -/
  | rstoreRequest (core : Nat)
  /-- RAMO_REQUEST (R114): System handler 2 performs a remote AMO and replies. -/
  | ramoRequest (core : Nat)
  /-- RCALL_REQUEST (R112): An RCALL arrival is checked and starts a handler context. -/
  | rcallRequest (core : Nat)
  /-- TRAVEL (R120): A traveller arrival starts a handler context. -/
  | travel (core : Nat)
  /-- MBXADD (R122): An increment is applied to a mailbox counter. -/
  | mbxadd (core : Nat)
  /-- MBXWATCH (R123): A remote watch, read or withdrawal is recorded, answered or removed. -/
  | mbxwatch (core : Nat)
  /-- COPYREQ (R127): The source agent reads the copy source and delivers it. -/
  | copyreq (core : Nat)
  /-- CHUNK (R127): A copy chunk is written at the destination agent. -/
  | chunk (core : Nat)
  /-- VPJOB (R348): The target's vault pipeline runs a job. -/
  | vpjob (core : Nat)
  /-- VPJOB_COMPLETE (R348): A job's last result write is accepted; its token signals and register fills. -/
  | vpjobComplete (core : Nat)
  /-- REPCOMMIT_LOCK (R151): A replica agent locks a replicated line or queues the lock. -/
  | repcommitLock (core : Nat)
  /-- REPCOMMIT_DATA (R151): A replica agent writes commit data and frees the line. -/
  | repcommitData (core : Nat)
  /-- REPCOMMIT_START (R150): A replicated store reaches the buffer head and LOCK goes to the home. -/
  | repcommitStart (h : HartId)
  /-- REPCOMMIT_GRANT (R150): A lock grant arrives and the commit advances to the next step. -/
  | repcommitGrant (n : Nat)
  /-- REPCOMMIT_ACK (R150): Update acknowledgements arrive and the commit advances or completes. -/
  | repcommitAck (n : Nat)
  /-- REPCOMMIT_RETRY (R150): A LOCK refused for a full line-lock table is resent after 64 clk. -/
  | repcommitRetry (h : HartId) (core : Nat)
  /-- LINE_LOCK_TIMEOUT (R152): A wait on a locked line reaches 20 µs and raises a machine check. -/
  | lineLockTimeout (core : Nat) (line : Nat)
  /-- XACT_LOCK (R155): An agent locks all transaction lines in its vault or refuses. -/
  | xactLock (core : Nat)
  /-- XACT_DATA (R155): An agent writes transaction data, frees the lines and acknowledges. -/
  | xactData (core : Nat)
  /-- XACT_UNLOCK (R155): An agent frees lines it granted to an aborted commit. -/
  | xactUnlock (core : Nat)
  /-- XCOMMIT_VOTE (R155): A grant, refusal or NACK reaches the committing thread. -/
  | xcommitVote (n : Nat)
  /-- XCOMMIT_ACK (R155): A data acknowledgement reaches the committing thread. -/
  | xcommitAck (n : Nat)
  /-- REPLY_FILL (R138): A reply fills its destination register as a release. -/
  | replyFill (n : Nat)
  /-- NACK (R115): A NACK reaches the requester and is recorded. -/
  | nack (n : Nat)
  /-- TRAVELLER_END_NOTICE (R121): An end notice decrements the traveller count and may fill the origin register. -/
  | travellerEndNotice (n : Nat)
  /-- ACCEPTANCE_NOTICE (R140): A posted message's acceptance notice returns to the issuing core. -/
  | acceptanceNotice (n : Nat)
  /-- HANDLER_WATCHDOG (R103): A handler context runs 2 ms and is ended with a NACK. -/
  | handlerWatchdog (h : HartId)
  /-- HANDLER_ENTRY_WRITTEN (R113): An HSET or HCLR image write is accepted and the entry leaves BUSY. -/
  | handlerEntryWritten (core entry : Nat)
  /-- BUSY_TIMEOUT (R113): An arrival waiting 10 µs on a BUSY entry is NACKed. -/
  | busyTimeout (core n : Nat)
  /-- WATCH_EXPIRY (R124): A remote watch reaches its expiry time and is removed. -/
  | watchExpiry (core n : Nat)
  /-- WATCH_RETRY (R123): An MBXWATCH answered with retry is resent after 1,050 clk. -/
  | watchRetry (h : HartId) (n : Nat)
  /-- MBX_WAIT_TIMEOUT (R286): An MBX.WAIT times out after 1 s. -/
  | mbxWaitTimeout (h : HartId) (n : Nat)
  /-- BFREE_COMBINE (R129): A router combines BFREE notices and forwards one. -/
  | bfreeCombine (cluster n : Nat)
  /-- ENGINE_QUEUE_LEAVE (R440): An engine command leaves its queue, is checked, translated and starts. -/
  | engineQueueLeave (h : HartId) (q : Nat)
  /-- TOKEN_SIGNAL (R185): An engine command completes and signals its token. -/
  | tokenSignal (h : HartId) (seq : Nat)
  /-- LVU_TAKE (R175): The long vector unit takes one long-mode instruction. -/
  | lvuTake (cluster : Nat)
  /-- LEASE_GRANT (R322): A waiting LEASE is granted a freed slot. -/
  | leaseGrant (cluster : Nat)
  /-- SLOT_DRAINED (R323): A draining lease slot's commands have signalled; it resets and frees. -/
  | slotDrained (cluster slot : Nat)
  /-- TURN_EXPIRY (R324): A matrix turn's TCLK elapses and the turn is spent. -/
  | turnExpiry (cluster : Nat)
  /-- TAPE_PLAY_START (R369): The sequencer takes a TAPE.PLAY and checks its start conditions. -/
  | tapePlayStart (h : HartId)
  /-- TAPE_RECORD_ISSUE (R371): The sequencer checks a boundary and issues one record group. -/
  | tapeRecordIssue (h : HartId)
  /-- TAPE_BARRIER (R372): A barrier record's tokens reach count 0. -/
  | tapeBarrier (h : HartId)
  /-- TAPE_PLAY_END (R373): Every issued record has signalled and the play token signals. -/
  | tapePlayEnd (h : HartId)
  /-- HQTAIL (R380): A write of HQTAIL rings the doorbell of a hardware queue. -/
  | hqtail (q : Nat) (v : Word)
  /-- HQ_ENABLE (R380): Writing HQCTL.EN 1 starts serving the queue. -/
  | hqEnable (q : Nat) (v : Word)
  /-- HQ_DISABLE (R380): Writing HQCTL.EN 0 stops consuming records. -/
  | hqDisable (q : Nat) (v : Word)
  /-- HQSTAT_CLR (R379): Writing CLR moves a queue from ERROR to DISABLED. -/
  | hqstatClr (q : Nat)
  /-- LAUNCH_RECORD_ACCEPT (R383): The scheduler consumes and checks a ring record, creating a launch. -/
  | launchRecordAccept (q : Nat)
  /-- RECORD_FLUSH (R381): A record at HQHEAD of a queue in ERROR is flushed. -/
  | recordFlush (q : Nat)
  /-- LAUNCH_READY (R384): A launch's dependences complete and it becomes ready. -/
  | launchReady (stack lslot : Nat)
  /-- UNIT_DISPATCH (R169): A unit is placed and bound to a free slot. -/
  | unitDispatch (stack lslot unit slot : Nat)
  /-- GANG_BIND (R167): A ganged launch binds all its units at once. -/
  | gangBind (stack lslot : Nat)
  /-- PRIORITY_AGING (R386): A ready launch gains one effective priority every 50 µs. -/
  | priorityAging (stack lslot : Nat)
  /-- UNIT_END (R170): EXIT's drain completes and the unit completes with its status. -/
  | unitEnd (h : HartId)
  /-- PREEMPT_REQ (R396): Setting REQ asks to take the thread at its next safe point. -/
  | preemptReq (h : HartId)
  /-- PREEMPT_KILL (R396): Setting KILL asks to kill the thread at its next safe point. -/
  | preemptKill (h : HartId)
  /-- SAFE_POINT_TAKE (R181): A thread is taken at a safe point for pre-emption or kill. -/
  | safePointTake (h : HartId)
  /-- CLUSTER_SAVE (R397): Once every slot is taken the shadow port saves the cluster's state. -/
  | clusterSave (cluster : Nat)
  /-- SAVE_COMPLETE (R397): The save finishes and the saved units' slots are freed. -/
  | saveComplete (cluster : Nat)
  /-- UNIT_RESUME (R397): A saved unit is bound and its state restored. -/
  | unitResume (saved : HartId) (h : HartId)
  /-- MIGRATION_DEADLINE (R398): After 100 µs without a safe point the cluster's clock is lowered. -/
  | migrationDeadline (h : HartId)
  /-- SAFEPOINT_WATCHDOG (R398): After 2 ms the unit is killed and its queue enters ERROR. -/
  | safepointWatchdog (h : HartId)
  /-- SLOTCTL_RESTART (R394): Writing RESTART moves a halted slot to running. -/
  | slotctlRestart (h : HartId)
  /-- HTBASE_WRITE (R110): Writing HTBASE stores all 64 entry images at the new base. -/
  | htbaseWrite (core : Nat) (v : Word)
  /-- MSGERR_WRITE (R116): Any write clears MSGERR. -/
  | msgerrWrite (h : HartId)
  /-- VAULTEVT_WRITE (R75): A write clears LOST and sets IE. -/
  | vaultevtWrite (core : Nat) (v : Word)
  /-- AQSTAT_WRITE (R107): A write clears HFAULT or BREACH and resets HWM. -/
  | aqstatWrite (core : Nat) (v : Word)
  /-- SPILL_CONFIG_WRITE (R107): A SPILLBASE or SPILLQUOTA write takes effect, reducing QUOTA to fit. -/
  | spillConfigWrite (core : Nat) (quota : Bool) (v : Word)
  /-- REGISTER_WRITE (R262): A write to a register with no behaviour of its own, under its field rules. -/
  | registerWrite (pa : Nat) (v : Word)
  /-- CKPT_ENABLE (R403): Writing CKPTCTL.EN starts or stops interval logging. -/
  | ckptEnable (v : Word)
  /-- CKPT_CLOSE (R403): Writing CLOSE closes the current interval now. -/
  | ckptClose
  /-- INTERVAL_TIMER (R404): INTUS elapses and the interval closes. -/
  | intervalTimer
  /-- LOG_THRESHOLD (R404): A vault's log reaches seven-eighths of LEN and the interval closes. -/
  | logThreshold (core : Nat)
  /-- ROLLBACK (R404): A context's units are killed and logged lines written back. -/
  | rollback (ccb : Nat) (why : RollCause)
  /-- LOCKSTEP_MISMATCH (R402): A lockstep pair's results differ; both halt and a rollback starts. -/
  | lockstepMismatch (cluster : Nat)
  /-- SNAP_WRITE (R405): Writing SNAP latches snapshot registers across the stack. -/
  | snapWrite (stack : Nat)
  /-- ERROR_EVENT (R401): A counted error event is attributed and may be judged lasting. -/
  | errorEvent (u : UnitId)
  /-- UNIT_RETIRE (R401): A core or engine with a lasting fault is retired at its next idle point. -/
  | unitRetire (u : UnitId)
  /-- LINK_RETRY (R400): A flit with a CRC error is resent. -/
  | linkRetry (port : Nat)
  /-- LINK_DOWN (R408): An Ixlink port whose retry fails goes down. -/
  | linkDown (port : Nat)
  /-- LINK_RETRAIN (R401): A link retrains without a faulty lane. -/
  | linkRetrain (port : Nat)
  /-- HOST_WRITE (R148): A posted write from a host function or peer reaches the device. -/
  | hostWrite (src : Nat) (pa : Nat) (bytes : List Byte)
  /-- HOST_READ (R148): A read from a host function is performed after its earlier writes. -/
  | hostRead (src : Nat) (pa n : Nat)
  /-- HOST_ATOMICOP (R407): A PCIe AtomicOp to a host-visible window is completed. -/
  | hostAtomicop (src : Nat) (op : BitVec 2) (w : BitVec 1) (pa : Nat) (v cmp : Word)
  /-- MCTP_REQUEST (R409): The management core answers a PLDM or SPDM request over MCTP. -/
  | mctpRequest (ask : MctpAsk)
  /-- FIRMWARE_UPDATE (R410): A signed image is written to the inactive firmware slot. -/
  | firmwareUpdate (img : FwImage)
  /-- DEVICE_RESET (R410): The device resets and boots the newest valid firmware slot. -/
  | deviceReset
  /-- STACK_RESET (R110): A stack resets its handler tables, pool, counters and clocks. -/
  | stackReset (stack : Nat)
  /-- POWER_UP (R412): Rails, logic die and DRAM layers come up in order. -/
  | powerUp (fail : Option Nat)
  /-- LAYER_POWER_GATE (R81): Management power-gates a DRAM layer after FENCE.V. -/
  | layerPowerGate (stack layer : Nat)
  /-- CONFIG_RECORD (R411): A signed configuration record is checked and applied. -/
  | configRecord (cr : ConfigRec)
  /-- CLKSTEP_WRITE (R413): Writing CLKSTEP changes a cluster's clock step. -/
  | clkstepWrite (cluster : Nat) (v : Word)
  /-- JOB_RELEASE (R385): The supervisor releases a completed job, so that its table entries are reclaimed and its handles go stale. -/
  | jobRelease (stack job : Nat)
  /-- SUPERVISOR_NOTICE (R118): A queue-fault, handler-fault, vault-event or rollback notice, or a machine check, is delivered on the management channel to the supervisor or management. -/
  | supervisorNotice (n : Nat)
  /-- PORT_UP (R408): An Ixlink port completes training and comes up with its peer's device number. -/
  | portUp (port : Nat) (peer : BitVec 16)
  /-- CLUSTER_POWER_GATE (R86): A cluster is power-gated and its pool contents are lost. -/
  | clusterPowerGate (cluster : Nat)
  /-- POWER_UNGATE (R412): Power returns to a gated DRAM layer or cluster. -/
  | powerUngate (u : UnitId)
  deriving DecidableEq, Repr

end Sys2Proof
end

