-- ==== Sys2Proof/WellFormed.lean ====
section
/-! DEFINITION. Sys2Proof/WellFormed.lean: which terms of Instr stand for an encoding of the spec: the constraints of R221 and
of each instruction's own chapter on its fields, and for a device event the ranges of the units it names (R1, R9). -/

namespace Sys2Proof

/-- Whether the instruction has a live-mask word only when its S bit is set (R180). -/
def headOk (hd : Head) : Bool := hd.s || hd.mask == 0

/-- Integer vector types (R223, R304). -/
def typeI (t : BitVec 3) : Bool := decide (3 ≤ t.toNat)

/-- Float vector types (R223, R304). -/
def typeF (t : BitVec 3) : Bool := decide (t.toNat < 3)

/-- The 64-bit lane types (R305). -/
def type64 (t : BitVec 3) : Bool := decide (6 ≤ t.toNat)

/-- Key types of sorting and merging (R316). -/
def typeKey (t : BitVec 3) : Bool := t == 0 || decide (5 ≤ t.toNat)

/-- Conversion pairs: equal codes name the 8-bit float conversions, 000 to 011 only (R311). -/
def typeCvt (t g : BitVec 3) : Bool := t != g || decide (t.toNat < 4)

/-- U = 1 has no D-width form (R221, R270). -/
def widthU (w : BitVec 2) (u : BitVec 1) : Bool := u == 0 || w != 3

/-- A remote AMO is of width W or D (R278). -/
def widthWD (w : BitVec 2) : Bool := decide (2 ≤ w.toNat)

/-- The END of a loop lies beyond its START (R219, R251). -/
def loopEnd (hd : Head) (i : BitVec 12) : Bool := decide ((if hd.s then 8 else 4) < 2 * i.toNat)

/-- Fence scopes 0 to 5 (R228). -/
def scopeOk (c : BitVec 3) : Bool := decide (c.toNat < 6)

/-- A register field that must not name x0. -/
def notX0 (d : Reg) : Bool := d != 0

/-- A register field that must be zero. -/
def isX0 (d : Reg) : Bool := d == 0

/-- The first of two consecutive registers: even (and so at most x30) (R221, R277). -/
def pairReg (d : Reg) : Bool := d.toNat % 2 == 0

/-- Bytes of a row of 128 elements of a format (R189). -/
def rowBytes (fmt : BitVec 4) : Nat :=
  match fmt.toNat with
  | 0 => 128 | 1 => 128 | 2 => 128 | 3 => 128
  | 4 => 256 | 5 => 256 | 6 => 512 | 7 => 512
  | 8 => 128 | 9 => 128 | 10 => 128
  | 11 => 64 | 12 => 64 | 13 => 64
  | 14 => 256
  | _ => 16

/-- The block-scaled formats (R189). -/
def fmtScaled (fmt : BitVec 4) : Bool := fmt == 2 || fmt == 3 || fmt == 10 || fmt == 13

/-- Bytes of an activation tile of M rows with its scale area (R331). -/
def tileBytes (fmt : BitVec 4) (m : Nat) : Nat :=
  m * rowBytes fmt + (if fmtScaled fmt then 64 * ((4 * m + 63) / 64) else 0)

/-- DST names OB0, OB1 or WSH, and WSH takes 128 rows (R329). -/
def dstOk (dst : BitVec 2) (rows : BitVec 7) : Bool := dst != 3 && (dst != 2 || rows == 127)

/-- FROW does not exceed ROWS − 1 (R329). -/
def frowOk (frow rows : BitVec 7) : Bool := decide (frow.toNat ≤ rows.toNat)

/-- SC = 1 needs a scaled format (R329). -/
def scaleOk (sc : BitVec 1) (fmt : BitVec 4) : Bool := sc == 0 || fmtScaled fmt

/-- The capacity rule of OB0 and OB1 (R331). -/
def fitsOb (fmt : BitVec 4) (rows : BitVec 7) : Bool := decide (tileBytes fmt (rows.toNat + 1) ≤ 32768)

/-- The capacity rule for the source of an MMA (R331). -/
def mmaFits (asrc : BitVec 2) (fmt : BitVec 4) (rows : BitVec 7) (wreg : BitVec 3) : Bool :=
  if asrc == 2 then true
  else if asrc == 3 then decide (tileBytes fmt (rows.toNat + 1) ≤ (8 - wreg.toNat) * 2048)
  else fitsOb fmt rows

/-- ROW0 + ROWS does not exceed 128 (R329). -/
def rowsOk (row0 rows : BitVec 7) : Bool := decide (row0.toNat + rows.toNat + 1 ≤ 128)

/-- The rows of an ARD fit the w registers from WREG on (R339). -/
def ardFits (rows : BitVec 7) (wreg : BitVec 3) : Bool := decide (rows.toNat + 1 ≤ (8 - wreg.toNat) * 4)

/-- RR = 1 exactly when rd is not x0 (R280, R343). -/
def rrOk (rr : BitVec 1) (d : Reg) : Bool := (rr == 1) == (d != 0)

/-- MAX of TAPE.REC is 1 to 1,022 (R363). -/
def maxOk (lim : BitVec 10) : Bool := lim != 0 && lim != 1023

/-- A core of the device (R9). -/
def coreOk (core : Nat) : Bool := decide (core < 2048)

/-- A bank of a vault (R43). -/
def bankOk (bank : Nat) : Bool := decide (bank < 32)

/-- A cluster of the device (R10). -/
def clusterOk (cluster : Nat) : Bool := decide (cluster < 256)

/-- A stack of the device (R1). -/
def stackOk (stack : Nat) : Bool := decide (stack < 4)

/-- An Ixlink port: one of the eight of the package (R3, R408). -/
def portOk (port : Nat) : Bool := decide (port < 8)

/-- A hart that exists: four thread slots and four contexts a core, one management core a stack (R1, R102, R131). -/
def hartOk (h : HartId) : Bool :=
  match h.kind with
  | .mgmt => decide (h.core < 4) && decide (h.idx = 0)
  | _ => coreOk h.core && decide (h.idx < 4)

/-- Whether a term of Instr stands for an encoding, or an event for units that exist. -/
def Instr.wellFormed (i : Instr) : Bool :=
  match i with
  | .add hd _ _ _ => headOk hd
  | .sub hd _ _ _ => headOk hd
  | .and hd _ _ _ => headOk hd
  | .or hd _ _ _ => headOk hd
  | .xor hd _ _ _ => headOk hd
  | .sll hd _ _ _ => headOk hd
  | .srl hd _ _ _ => headOk hd
  | .sra hd _ _ _ => headOk hd
  | .rol hd _ _ _ => headOk hd
  | .ror hd _ _ _ => headOk hd
  | .slt hd _ _ _ => headOk hd
  | .sltu hd _ _ _ => headOk hd
  | .min hd _ _ _ => headOk hd
  | .max hd _ _ _ => headOk hd
  | .minu hd _ _ _ => headOk hd
  | .maxu hd _ _ _ => headOk hd
  | .addw hd _ _ _ => headOk hd
  | .subw hd _ _ _ => headOk hd
  | .andn hd _ _ _ => headOk hd
  | .orn hd _ _ _ => headOk hd
  | .addsat hd _ _ _ => headOk hd
  | .subsat hd _ _ _ => headOk hd
  | .addi hd _ _ _ => headOk hd
  | .andi hd _ _ _ => headOk hd
  | .ori hd _ _ _ => headOk hd
  | .xori hd _ _ _ => headOk hd
  | .slli hd _ _ _ => headOk hd
  | .srli hd _ _ _ => headOk hd
  | .srai hd _ _ _ => headOk hd
  | .rori hd _ _ _ => headOk hd
  | .slti hd _ _ _ => headOk hd
  | .sltiu hd _ _ _ => headOk hd
  | .lhi hd _ _ => headOk hd
  | .addpc hd _ _ => headOk hd
  | .mul hd _ _ _ => headOk hd
  | .mulh hd _ _ _ => headOk hd
  | .mulhu hd _ _ _ => headOk hd
  | .mulhsu hd _ _ _ => headOk hd
  | .div hd _ _ _ => headOk hd
  | .divu hd _ _ _ => headOk hd
  | .rem hd _ _ _ => headOk hd
  | .remu hd _ _ _ => headOk hd
  | .mulw hd _ _ _ => headOk hd
  | .clz hd _ _ => headOk hd
  | .ctz hd _ _ => headOk hd
  | .popc hd _ _ => headOk hd
  | .brev hd _ _ => headOk hd
  | .bswap hd _ _ => headOk hd
  | .sextb hd _ _ => headOk hd
  | .sexth hd _ _ => headOk hd
  | .sextw hd _ _ => headOk hd
  | .zextw hd _ _ => headOk hd
  | .clmul hd _ _ _ => headOk hd
  | .clmulh hd _ _ _ => headOk hd
  | .clmulr hd _ _ _ => headOk hd
  | .bfx hd _ _ _ => headOk hd
  | .bfi hd _ _ _ => headOk hd
  | .faddS hd _ _ _ => headOk hd
  | .fsubS hd _ _ _ => headOk hd
  | .fmulS hd _ _ _ => headOk hd
  | .fdivS hd _ _ _ => headOk hd
  | .fsqrtS hd _ _ => headOk hd
  | .fminS hd _ _ _ => headOk hd
  | .fmaxS hd _ _ _ => headOk hd
  | .feqS hd _ _ _ => headOk hd
  | .fltS hd _ _ _ => headOk hd
  | .fleS hd _ _ _ => headOk hd
  | .fclassS hd _ _ => headOk hd
  | .fcvtSL hd _ _ => headOk hd
  | .fcvtSLu hd _ _ => headOk hd
  | .fcvtLS hd _ _ => headOk hd
  | .fcvtLuS hd _ _ => headOk hd
  | .fsgnjS hd _ _ _ => headOk hd
  | .fsgnjnS hd _ _ _ => headOk hd
  | .fsgnjxS hd _ _ _ => headOk hd
  | .fmaddS hd _ _ _ _ => headOk hd
  | .fmsubS hd _ _ _ _ => headOk hd
  | .fnmaddS hd _ _ _ _ => headOk hd
  | .fnmsubS hd _ _ _ _ => headOk hd
  | .beq hd _ _ _ => headOk hd
  | .bne hd _ _ _ => headOk hd
  | .blt hd _ _ _ => headOk hd
  | .bge hd _ _ _ => headOk hd
  | .bltu hd _ _ _ => headOk hd
  | .bgeu hd _ _ _ => headOk hd
  | .jal hd _ _ => headOk hd
  | .jalr hd _ _ _ => headOk hd
  | .loop hd _ i => headOk hd && loopEnd hd i
  | .loopi hd _ i => headOk hd && loopEnd hd i
  | .ld hd _ _ w u _ => headOk hd && widthU w u
  | .ldAcq hd _ _ w u _ => headOk hd && widthU w u
  | .ldl hd _ _ w u _ => headOk hd && widthU w u
  | .st hd _ _ _ _ => headOk hd
  | .stRel hd _ _ _ _ => headOk hd
  | .stu hd _ _ _ _ => headOk hd
  | .ldx hd _ _ _ w u _ => headOk hd && widthU w u
  | .stx hd _ _ _ _ _ => headOk hd
  | .amoadd hd _ _ _ _ _ => headOk hd
  | .amoand hd _ _ _ _ _ => headOk hd
  | .amoor hd _ _ _ _ _ => headOk hd
  | .amoxor hd _ _ _ _ _ => headOk hd
  | .amomin hd _ _ _ _ _ => headOk hd
  | .amomax hd _ _ _ _ _ => headOk hd
  | .amominu hd _ _ _ _ _ => headOk hd
  | .amomaxu hd _ _ _ _ _ => headOk hd
  | .amoswap hd _ _ _ _ _ => headOk hd
  | .amocas hd _ _ _ _ _ => headOk hd
  | .fence hd c => headOk hd && scopeOk c
  | .fenceAcq hd c => headOk hd && scopeOk c
  | .fenceRel hd c => headOk hd && scopeOk c
  | .fenceV hd c => headOk hd && scopeOk c
  | .act hd _ => headOk hd
  | .actEngine hd c _ => headOk hd && notX0 c
  | .pre hd _ => headOk hd
  | .preEngine hd c _ => headOk hd && notX0 c
  | .prea hd => headOk hd
  | .vstat hd _ _ => headOk hd
  | .vevt hd d => headOk hd && pairReg d
  | .rload hd d _ _ _ => headOk hd && notX0 d
  | .rstore hd _ _ _ _ => headOk hd
  | .ramoadd hd d _ w _ => headOk hd && notX0 d && widthWD w
  | .ramoand hd d _ w _ => headOk hd && notX0 d && widthWD w
  | .ramoor hd d _ w _ => headOk hd && notX0 d && widthWD w
  | .ramoxor hd d _ w _ => headOk hd && notX0 d && widthWD w
  | .ramomin hd d _ w _ => headOk hd && notX0 d && widthWD w
  | .ramomax hd d _ w _ => headOk hd && notX0 d && widthWD w
  | .ramominu hd d _ w _ => headOk hd && notX0 d && widthWD w
  | .ramomaxu hd d _ w _ => headOk hd && notX0 d && widthWD w
  | .ramoswap hd d _ w _ => headOk hd && notX0 d && widthWD w
  | .ramocas hd d _ w _ => headOk hd && notX0 d && pairReg d && widthWD w
  | .migrate hd _ _ _ => headOk hd
  | .reply hd _ => headOk hd
  | .hret hd => headOk hd
  | .hset hd _ _ => headOk hd
  | .hclr hd _ => headOk hd
  | .mbxAdd hd _ _ => headOk hd
  | .mbxAddEngine hd c _ _ => headOk hd && notX0 c
  | .mbxWait hd _ _ _ => headOk hd
  | .mbxRead hd _ _ => headOk hd
  | .mbxSet hd _ _ => headOk hd
  | .bfree hd _ => headOk hd
  | .sete hd _ _ => headOk hd
  | .isfull hd _ _ _ => headOk hd
  | .tkq hd _ _ => headOk hd
  | .tkflt hd _ _ => headOk hd
  | .waittk hd _ => headOk hd
  | .trap hd _ => headOk hd
  | .eret hd => headOk hd
  | .halt hd => headOk hd
  | .yield hd => headOk hd
  | .exit hd => headOk hd
  | .vmodeL hd => headOk hd
  | .vmodeS hd => headOk hd
  | .launch hd _ _ => headOk hd
  | .cancel hd _ _ => headOk hd
  | .waitctr hd _ _ => headOk hd
  | .brk hd => headOk hd
  | .pause hd _ => headOk hd
  | .tlbinv hd _ _ => headOk hd
  | .fenceI hd => headOk hd
  | .xbegin hd => headOk hd
  | .xcommit hd _ => headOk hd
  | .xabort hd => headOk hd
  | .csrxch hd _ _ _ => headOk hd
  | .csrbis hd _ _ _ => headOk hd
  | .csrbic hd _ _ _ => headOk hd
  | .vadd hd _ _ _ _ => headOk hd
  | .vsub hd _ _ _ _ => headOk hd
  | .vmul hd _ _ _ _ => headOk hd
  | .vmin hd _ _ _ _ => headOk hd
  | .vmax hd _ _ _ _ => headOk hd
  | .vabsd hd _ _ _ _ => headOk hd
  | .vand hd _ _ _ _ => headOk hd
  | .vor hd _ _ _ _ => headOk hd
  | .vxor hd _ _ _ _ => headOk hd
  | .vshl hd _ _ _ t => headOk hd && typeI t
  | .vshr hd _ _ _ t => headOk hd && typeI t
  | .vsra hd _ _ _ t => headOk hd && typeI t
  | .vadds hd _ _ _ t => headOk hd && typeI t
  | .vsubs hd _ _ _ t => headOk hd && typeI t
  | .vmulh hd _ _ _ t => headOk hd && typeI t
  | .vavg hd _ _ _ _ => headOk hd
  | .vceq hd _ _ _ _ => headOk hd
  | .vclt hd _ _ _ _ => headOk hd
  | .vcle hd _ _ _ _ => headOk hd
  | .vcltu hd _ _ _ t => headOk hd && typeI t
  | .vsel hd _ _ _ _ => headOk hd
  | .vfma hd _ _ _ _ => headOk hd
  | .vfms hd _ _ _ _ => headOk hd
  | .vdot hd _ _ _ _ => headOk hd
  | .vclmul hd _ _ _ t => headOk hd && type64 t
  | .vclmulh hd _ _ _ t => headOk hd && type64 t
  | .vrcps hd _ _ _ => headOk hd
  | .vrsqs hd _ _ _ => headOk hd
  | .vrcp hd _ _ => headOk hd
  | .vrsq hd _ _ => headOk hd
  | .vexp2 hd _ _ => headOk hd
  | .vlog2 hd _ _ => headOk hd
  | .vsqrt hd _ _ t => headOk hd && typeF t
  | .vabs hd _ _ _ => headOk hd
  | .vneg hd _ _ _ => headOk hd
  | .vpopc hd _ _ t => headOk hd && typeI t
  | .vcvt hd _ _ g t => headOk hd && typeCvt t g
  | .vredadd hd _ _ _ => headOk hd
  | .vredmax hd _ _ _ => headOk hd
  | .vredmin hd _ _ _ => headOk hd
  | .vclz hd _ _ t => headOk hd && typeI t
  | .vld hd _ _ => headOk hd
  | .vst hd _ _ => headOk hd
  | .vlds hd _ _ _ _ => headOk hd
  | .vsts hd _ _ _ _ => headOk hd
  | .vbcast hd _ _ _ => headOk hd
  | .vins hd _ _ _ _ => headOk hd
  | .vext hd _ _ _ _ => headOk hd
  | .vldrow hd _ _ => headOk hd
  | .vperm hd _ _ _ _ => headOk hd
  | .vzip hd _ _ _ _ => headOk hd
  | .vunzip hd _ _ _ _ => headOk hd
  | .vmergeLo hd _ _ _ t => headOk hd && typeKey t
  | .vmergeHi hd _ _ _ t => headOk hd && typeKey t
  | .vsort hd _ _ t => headOk hd && typeKey t
  | .vslide hd _ _ _ _ => headOk hd
  | .tld hd _ _ _ dst fmt rows sc frow => headOk hd && dstOk dst rows && frowOk frow rows && scaleOk sc fmt && (dst == 2 || fitsOb fmt rows)
  | .tldP hd _ _ _ _ _ fmt rows sc frow => headOk hd && frowOk frow rows && scaleOk sc fmt
  | .tst hd _ _ _ row0 rows _ _ => headOk hd && rowsOk row0 rows
  | .wload hd d a b _ _ src fmt sc _ => headOk hd && scaleOk sc fmt && (if src == 0 then isX0 d && isX0 b else isX0 a)
  | .mma hd d b _ _ asrc fmt rows _ _ _ wreg => headOk hd && (asrc == 2 || (isX0 d && isX0 b)) && (asrc == 3 || wreg == 0) && mmaFits asrc fmt rows wreg
  | .aswap hd _ _ => headOk hd
  | .aclr hd _ _ _ => headOk hd
  | .ard hd _ _ row0 rows wreg => headOk hd && rowsOk row0 rows && ardFits rows wreg
  | .ast hd _ _ _ _ row0 rows _ _ => headOk hd && rowsOk row0 rows
  | .lease hd _ _ => headOk hd
  | .release hd => headOk hd
  | .vpipe hd d _ _ _ _ rr _ => headOk hd && rrOk rr d
  | .selq hd d _ _ _ _ rr _ => headOk hd && rrOk rr d
  | .copy hd _ _ _ _ _ => headOk hd
  | .copyMc hd _ _ _ _ _ _ => headOk hd
  | .tmpl hd _ _ => headOk hd
  | .rcall hd d _ _ _ _ rr _ => headOk hd && rrOk rr d
  | .tapeRec hd _ _ lim => headOk hd && maxOk lim
  | .tapeEnd hd _ => headOk hd
  | .tapePlay hd _ _ _ _ => headOk hd
  | .tapePatch hd _ _ _ => headOk hd
  | .tapeSave hd _ _ _ _ => headOk hd
  | .tapeLoad hd _ _ _ _ => headOk hd
  | .tapeInv hd _ => headOk hd
  | .li32 hd _ _ _ => headOk hd
  | .xstore hd _ _ _ => headOk hd
  | .cAddisp _ u => u != 0
  | .cLd _ _ _ => true
  | .cSt _ _ _ => true
  | .cWaittk _ => true
  | .cAddi d _ => notX0 d
  | .cLi d _ => notX0 d
  | .cSrli _ _ => true
  | .cSrai _ _ => true
  | .cAndi _ _ => true
  | .cSub _ _ => true
  | .cXor _ _ => true
  | .cOr _ _ => true
  | .cAnd _ _ => true
  | .cJ _ => true
  | .cBeqz _ _ => true
  | .cBnez _ _ => true
  | .cSlli d _ => notX0 d
  | .cLdsp d _ => notX0 d
  | .cStsp _ _ => true
  | .cJr a => notX0 a
  | .cMv d b => notX0 d && notX0 b
  | .cJalr a => notX0 a
  | .cAdd d b => notX0 d && notX0 b
  | .cExit => true
  | .loadComplete h => hartOk h
  | .storeVisible h => hartOk h
  | .writeBufferDrain core _ => coreOk core
  | .bankRequest core bank => coreOk core && bankOk bank
  | .refreshSlot core => coreOk core
  | .refreshEnd core bank => coreOk core && bankOk bank
  | .holdStart core bank => coreOk core && bankOk bank
  | .holdEnd core bank => coreOk core && bankOk bank
  | .tileLoadSegment h _ => hartOk h
  | .rowRepairRequest core bank _ => coreOk core && bankOk bank
  | .repairStart core bank => coreOk core && bankOk bank
  | .repairCopy core bank => coreOk core && bankOk bank
  | .repairSwitch core bank => coreOk core && bankOk bank
  | .thermalSample stack _ => stackOk stack
  | .vaultLogMmioRead core => coreOk core
  | .poolBankAccess cluster bank => clusterOk cluster && bankOk bank
  | .ldlRetry h => hartOk h
  | .tlbMiss h _ => hartOk h
  | .ptread stack _ => stackOk stack
  | .walkStep stack _ => stackOk stack
  | .messageArrival _ => true
  | .rloadRequest core => coreOk core
  | .rstoreRequest core => coreOk core
  | .ramoRequest core => coreOk core
  | .rcallRequest core => coreOk core
  | .travel core => coreOk core
  | .mbxadd core => coreOk core
  | .mbxwatch core => coreOk core
  | .copyreq core => coreOk core
  | .chunk core => coreOk core
  | .vpjob core => coreOk core
  | .vpjobComplete core => coreOk core
  | .repcommitLock core => coreOk core
  | .repcommitData core => coreOk core
  | .repcommitStart h => hartOk h
  | .repcommitGrant _ => true
  | .repcommitAck _ => true
  | .repcommitRetry h core => hartOk h && coreOk core
  | .lineLockTimeout core _ => coreOk core
  | .xactLock core => coreOk core
  | .xactData core => coreOk core
  | .xactUnlock core => coreOk core
  | .xcommitVote _ => true
  | .xcommitAck _ => true
  | .replyFill _ => true
  | .nack _ => true
  | .travellerEndNotice _ => true
  | .acceptanceNotice _ => true
  | .handlerWatchdog h => hartOk h
  | .handlerEntryWritten core _ => coreOk core
  | .busyTimeout core _ => coreOk core
  | .watchExpiry core _ => coreOk core
  | .watchRetry h _ => hartOk h
  | .mbxWaitTimeout h _ => hartOk h
  | .bfreeCombine cluster _ => clusterOk cluster
  | .engineQueueLeave h q => hartOk h && decide (q < 7)
  | .tokenSignal h _ => hartOk h
  | .lvuTake cluster => clusterOk cluster
  | .leaseGrant cluster => clusterOk cluster
  | .slotDrained cluster _ => clusterOk cluster
  | .turnExpiry cluster => clusterOk cluster
  | .tapePlayStart h => hartOk h
  | .tapeRecordIssue h => hartOk h
  | .tapeBarrier h => hartOk h
  | .tapePlayEnd h => hartOk h
  | .hqtail q _ => decide (q < 64)
  | .hqEnable q _ => decide (q < 64)
  | .hqDisable q _ => decide (q < 64)
  | .hqstatClr q => decide (q < 64)
  | .launchRecordAccept q => decide (q < 64)
  | .recordFlush q => decide (q < 64)
  | .launchReady stack lslot => stackOk stack && decide (lslot < 4096)
  | .unitDispatch stack lslot _ _ => stackOk stack && decide (lslot < 4096)
  | .gangBind stack lslot => stackOk stack && decide (lslot < 4096)
  | .priorityAging stack lslot => stackOk stack && decide (lslot < 4096)
  | .unitEnd h => hartOk h
  | .preemptReq h => hartOk h
  | .preemptKill h => hartOk h
  | .safePointTake h => hartOk h
  | .clusterSave cluster => clusterOk cluster
  | .saveComplete cluster => clusterOk cluster
  | .unitResume saved h => hartOk saved && hartOk h
  | .migrationDeadline h => hartOk h
  | .safepointWatchdog h => hartOk h
  | .slotctlRestart h => hartOk h
  | .htbaseWrite core _ => coreOk core
  | .msgerrWrite h => hartOk h
  | .vaultevtWrite core _ => coreOk core
  | .aqstatWrite core _ => coreOk core
  | .spillConfigWrite core _ _ => coreOk core
  | .registerWrite _ _ => true
  | .ckptEnable _ => true
  | .ckptClose => true
  | .intervalTimer => true
  | .logThreshold core => coreOk core
  | .rollback _ _ => true
  | .lockstepMismatch cluster => clusterOk cluster
  | .snapWrite stack => stackOk stack
  | .errorEvent _ => true
  | .unitRetire _ => true
  | .linkRetry port => portOk port
  | .linkDown port => portOk port
  | .linkRetrain port => portOk port
  | .hostWrite _ _ _ => true
  | .hostRead _ _ _ => true
  | .hostAtomicop _ _ _ _ _ _ => true
  | .mctpRequest _ => true
  | .firmwareUpdate _ => true
  | .deviceReset => true
  | .stackReset stack => stackOk stack
  | .powerUp _ => true
  | .layerPowerGate stack layer => stackOk stack && decide (layer < 8)
  | .configRecord _ => true
  | .clkstepWrite cluster _ => clusterOk cluster
  | .jobRelease stack _ => stackOk stack
  | .supervisorNotice _ => true
  | .portUp port _ => portOk port
  | .clusterPowerGate cluster => clusterOk cluster
  | .powerUngate _ => true

end Sys2Proof
end

