-- ==== Sys2Proof/Decode.lean ====
section
/-! DEFINITION. Sys2Proof/Decode.lean: the encodings of R216 to R229: an encoder from the formats of R219, R224 and R225, and
a decoder, total on any bytes, that reads selectors first (cause 0x01) and then refuses a word whose unused or reserved
fields are not zero, which is a word that the encoder of the instruction read does not give back (cause 0x02, R221). Lean's
runtime builds no constructor with fields beyond the 245th of a type, and Instr has one per row of the table, so the
definitions that build the later ones are marked noncomputable; the kernel evaluates them like any other. -/

namespace Sys2Proof

/-- An encoded instruction: its length without mask in bytes (2, 4 or 8), its first word (a halfword zero-extended), its
control word (zero where it has none), its live-mask word if it is a safe point (R180, R216). -/
structure Code where
  len : Nat
  w : BitVec 32
  c : BitVec 32
  mask : Option (BitVec 32)
  deriving DecidableEq, Repr

/-- Why bytes are no instruction: an unlisted selector (cause 0x01), a reserved or unused field (cause 0x02), or too few
bytes. -/
inductive DecodeError where
  | illegal
  | reserved
  | short
  deriving DecidableEq, Repr

/-- One bit of a head. -/
def bit1 (b : Bool) : BitVec 1 := if b then 1 else 0

/-- Bits [9:0] of every 32-bit word (R218). -/
def wLow (mj : BitVec 6) (hd : Head) : BitVec 10 := mj ++ bit1 hd.e ++ bit1 hd.s ++ 0b11#2

/-- RR format (R219); EXT first words have xop7 in place of fn7 (R224), RA words the attribute in place of rs2. -/
def wRR (mj : BitVec 6) (fn : BitVec 7) (hd : Head) (d a b : Reg) : BitVec 32 := fn ++ b ++ a ++ d ++ wLow mj hd

/-- RI, ST and BR formats (R219): imm12 in [31:20]. -/
def wRI (mj : BitVec 6) (hd : Head) (d a : Reg) (i : BitVec 12) : BitVec 32 := i ++ a ++ d ++ wLow mj hd

/-- JP / LI format (R219). -/
def wJP (mj : BitVec 6) (hd : Head) (d : Reg) (i : BitVec 17) : BitVec 32 := i ++ d ++ wLow mj hd

/-- QR format (R219). -/
def wQR (mj : BitVec 6) (fn : BitVec 2) (hd : Head) (d a b c : Reg) : BitVec 32 := fn ++ c ++ b ++ a ++ d ++ wLow mj hd

/-- LP format (R219). -/
def wLP (mj : BitVec 6) (hd : Head) (n : BitVec 10) (i : BitVec 12) : BitVec 32 := i ++ n ++ wLow mj hd

/-- M format (R219). -/
def wM (mj : BitVec 6) (o : BitVec 2) (hd : Head) (d a : Reg) (u : BitVec 1) (w : BitVec 2) (i : BitVec 7) : BitVec 32 :=
  i ++ o ++ u ++ w ++ a ++ d ++ wLow mj hd

/-- V format (R219, R220). -/
def wV (mj : BitVec 6) (op : BitVec 4) (t : BitVec 3) (hd : Head) (d a b : Reg) : BitVec 32 :=
  op ++ t ++ b ++ a ++ d ++ wLow mj hd

/-- A compressed form: quadrant, op and operand bits (R225). -/
def wC (q : BitVec 2) (op : BitVec 3) (f : BitVec 11) : BitVec 16 := f ++ op ++ q

/-- A 32-bit instruction. -/
def code32 (hd : Head) (w : BitVec 32) : Code := ⟨4, w, 0, if hd.s then some hd.mask else none⟩

/-- A 64-bit instruction. -/
def code64 (hd : Head) (w c : BitVec 32) : Code := ⟨8, w, c, if hd.s then some hd.mask else none⟩

/-- A compressed instruction. -/
def code16 (h : BitVec 16) : Code := ⟨2, h.setWidth 32, 0, none⟩

/-- Length in bytes from an instruction to its sequential successor, past its mask word (R217). -/
def Code.size (k : Code) : Nat := k.len + (if k.mask.isSome then 4 else 0)

/-- C_ADDISP. -/
def codeCAddisp (d : BitVec 3) (u : BitVec 8) : Code := code16 (wC 0 0 (u ++ d))

/-- C_LD. -/
def codeCLd (d : BitVec 3) (a : BitVec 3) (u : BitVec 5) : Code := code16 (wC 0 1 (u ++ a ++ d))

/-- C_ST. -/
def codeCSt (d : BitVec 3) (a : BitVec 3) (u : BitVec 5) : Code := code16 (wC 0 2 (u ++ a ++ d))

/-- C_WAITTK. -/
def codeCWaittk (m : BitVec 8) : Code := code16 (wC 0 3 (m ++ 0#3))

/-- C_ADDI. -/
def codeCAddi (d : Reg) (i : BitVec 6) : Code := code16 (wC 1 0 (i ++ d))

/-- C_LI. -/
def codeCLi (d : Reg) (i : BitVec 6) : Code := code16 (wC 1 1 (i ++ d))

/-- C_SRLI. -/
def codeCSrli (d : BitVec 3) (n : BitVec 6) : Code := code16 (wC 1 2 (n ++ 0#2 ++ d))

/-- C_SRAI. -/
def codeCSrai (d : BitVec 3) (n : BitVec 6) : Code := code16 (wC 1 2 (n ++ 1#2 ++ d))

/-- C_ANDI. -/
def codeCAndi (d : BitVec 3) (i : BitVec 6) : Code := code16 (wC 1 2 (i ++ 2#2 ++ d))

/-- C_SUB. -/
def codeCSub (d : BitVec 3) (b : BitVec 3) : Code := code16 (wC 1 2 (0#3 ++ b ++ 3#2 ++ d))

/-- C_XOR. -/
def codeCXor (d : BitVec 3) (b : BitVec 3) : Code := code16 (wC 1 2 (1#3 ++ b ++ 3#2 ++ d))

/-- C_OR. -/
def codeCOr (d : BitVec 3) (b : BitVec 3) : Code := code16 (wC 1 2 (2#3 ++ b ++ 3#2 ++ d))

/-- C_AND. -/
def codeCAnd (d : BitVec 3) (b : BitVec 3) : Code := code16 (wC 1 2 (3#3 ++ b ++ 3#2 ++ d))

/-- C_J. -/
def codeCJ (o : BitVec 11) : Code := code16 (wC 1 3 (o))

/-- C_BEQZ. -/
def codeCBeqz (a : BitVec 3) (o : BitVec 8) : Code := code16 (wC 1 4 (o ++ a))

/-- C_BNEZ. -/
def codeCBnez (a : BitVec 3) (o : BitVec 8) : Code := code16 (wC 1 5 (o ++ a))

/-- C_SLLI. -/
def codeCSlli (d : Reg) (n : BitVec 6) : Code := code16 (wC 2 0 (n ++ d))

/-- C_LDSP. -/
def codeCLdsp (d : Reg) (u : BitVec 6) : Code := code16 (wC 2 1 (u ++ d))

/-- C_STSP. -/
def codeCStsp (d : Reg) (u : BitVec 6) : Code := code16 (wC 2 2 (u ++ d))

/-- C_JR. -/
def codeCJr (a : Reg) : Code := code16 (wC 2 3 (0#6 ++ a))

/-- C_MV. -/
def codeCMv (d : Reg) (b : Reg) : Code := code16 (wC 2 3 (0#1 ++ b ++ d))

/-- C_JALR. -/
def codeCJalr (a : Reg) : Code := code16 (wC 2 3 (32#6 ++ a))

/-- C_ADD. -/
def codeCAdd (d : Reg) (b : Reg) : Code := code16 (wC 2 3 (1#1 ++ b ++ d))

/-- C_EXIT. -/
def codeCExit : Code := code16 (wC 2 3 (1024#11))

/-- LI32. -/
def codeLi32 (hd : Head) (d : Reg) (a : Reg) (imm : BitVec 32) : Code := code64 hd (wRR 0x3F 24 hd d a 0) (imm)

/-- XSTORE. -/
def codeXstore (hd : Head) (a : Reg) (b : Reg) (w : BitVec 2) : Code := code64 hd (wRR 0x3F 25 hd 0 a b) (0#30 ++ w)

/-- TAPE_INV. -/
def codeTapeInv (hd : Head) (id : BitVec 3) : Code := code64 hd (wRR 0x3F 23 hd 0 0 0) (0#29 ++ id)

/-- TMPL. -/
def codeTmpl (hd : Head) (a : Reg) (slot : BitVec 4) : Code := code64 hd (wRR 0x3F 15 hd 0 a 0) (0#28 ++ slot)

/-- The words of an instruction (R219 to R228); an event has none. -/
def encode (i : Instr) : Option Code :=
  match i with
  | .add hd d a b => some (code32 hd (wRR 0x01 0 hd d a b))
  | .sub hd d a b => some (code32 hd (wRR 0x01 1 hd d a b))
  | .and hd d a b => some (code32 hd (wRR 0x01 2 hd d a b))
  | .or hd d a b => some (code32 hd (wRR 0x01 3 hd d a b))
  | .xor hd d a b => some (code32 hd (wRR 0x01 4 hd d a b))
  | .sll hd d a b => some (code32 hd (wRR 0x01 5 hd d a b))
  | .srl hd d a b => some (code32 hd (wRR 0x01 6 hd d a b))
  | .sra hd d a b => some (code32 hd (wRR 0x01 7 hd d a b))
  | .rol hd d a b => some (code32 hd (wRR 0x01 8 hd d a b))
  | .ror hd d a b => some (code32 hd (wRR 0x01 9 hd d a b))
  | .slt hd d a b => some (code32 hd (wRR 0x01 10 hd d a b))
  | .sltu hd d a b => some (code32 hd (wRR 0x01 11 hd d a b))
  | .min hd d a b => some (code32 hd (wRR 0x01 12 hd d a b))
  | .max hd d a b => some (code32 hd (wRR 0x01 13 hd d a b))
  | .minu hd d a b => some (code32 hd (wRR 0x01 14 hd d a b))
  | .maxu hd d a b => some (code32 hd (wRR 0x01 15 hd d a b))
  | .addw hd d a b => some (code32 hd (wRR 0x01 16 hd d a b))
  | .subw hd d a b => some (code32 hd (wRR 0x01 17 hd d a b))
  | .andn hd d a b => some (code32 hd (wRR 0x01 18 hd d a b))
  | .orn hd d a b => some (code32 hd (wRR 0x01 19 hd d a b))
  | .addsat hd d a b => some (code32 hd (wRR 0x01 20 hd d a b))
  | .subsat hd d a b => some (code32 hd (wRR 0x01 21 hd d a b))
  | .addi hd d a i => some (code32 hd (wRI 0x02 hd d a i))
  | .andi hd d a i => some (code32 hd (wRI 0x03 hd d a i))
  | .ori hd d a i => some (code32 hd (wRI 0x04 hd d a i))
  | .xori hd d a i => some (code32 hd (wRI 0x05 hd d a i))
  | .slli hd d a n => some (code32 hd (wRI 0x06 hd d a (0#6 ++ n)))
  | .srli hd d a n => some (code32 hd (wRI 0x06 hd d a (1#6 ++ n)))
  | .srai hd d a n => some (code32 hd (wRI 0x06 hd d a (2#6 ++ n)))
  | .rori hd d a n => some (code32 hd (wRI 0x06 hd d a (3#6 ++ n)))
  | .slti hd d a i => some (code32 hd (wRI 0x07 hd d a i))
  | .sltiu hd d a i => some (code32 hd (wRI 0x08 hd d a i))
  | .lhi hd d i => some (code32 hd (wJP 0x09 hd d i))
  | .addpc hd d i => some (code32 hd (wJP 0x0A hd d i))
  | .mul hd d a b => some (code32 hd (wRR 0x0B 0 hd d a b))
  | .mulh hd d a b => some (code32 hd (wRR 0x0B 1 hd d a b))
  | .mulhu hd d a b => some (code32 hd (wRR 0x0B 2 hd d a b))
  | .mulhsu hd d a b => some (code32 hd (wRR 0x0B 3 hd d a b))
  | .div hd d a b => some (code32 hd (wRR 0x0B 4 hd d a b))
  | .divu hd d a b => some (code32 hd (wRR 0x0B 5 hd d a b))
  | .rem hd d a b => some (code32 hd (wRR 0x0B 6 hd d a b))
  | .remu hd d a b => some (code32 hd (wRR 0x0B 7 hd d a b))
  | .mulw hd d a b => some (code32 hd (wRR 0x0B 8 hd d a b))
  | .clz hd d a => some (code32 hd (wRR 0x0C 0 hd d a 0))
  | .ctz hd d a => some (code32 hd (wRR 0x0C 1 hd d a 0))
  | .popc hd d a => some (code32 hd (wRR 0x0C 2 hd d a 0))
  | .brev hd d a => some (code32 hd (wRR 0x0C 3 hd d a 0))
  | .bswap hd d a => some (code32 hd (wRR 0x0C 4 hd d a 0))
  | .sextb hd d a => some (code32 hd (wRR 0x0C 5 hd d a 0))
  | .sexth hd d a => some (code32 hd (wRR 0x0C 6 hd d a 0))
  | .sextw hd d a => some (code32 hd (wRR 0x0C 7 hd d a 0))
  | .zextw hd d a => some (code32 hd (wRR 0x0C 8 hd d a 0))
  | .clmul hd d a b => some (code32 hd (wRR 0x0C 9 hd d a b))
  | .clmulh hd d a b => some (code32 hd (wRR 0x0C 10 hd d a b))
  | .clmulr hd d a b => some (code32 hd (wRR 0x0C 11 hd d a b))
  | .bfx hd d a b => some (code32 hd (wRR 0x0C 12 hd d a b))
  | .bfi hd d a b => some (code32 hd (wRR 0x0C 13 hd d a b))
  | .faddS hd d a b => some (code32 hd (wRR 0x0D 0 hd d a b))
  | .fsubS hd d a b => some (code32 hd (wRR 0x0D 1 hd d a b))
  | .fmulS hd d a b => some (code32 hd (wRR 0x0D 2 hd d a b))
  | .fdivS hd d a b => some (code32 hd (wRR 0x0D 3 hd d a b))
  | .fsqrtS hd d a => some (code32 hd (wRR 0x0D 4 hd d a 0))
  | .fminS hd d a b => some (code32 hd (wRR 0x0D 5 hd d a b))
  | .fmaxS hd d a b => some (code32 hd (wRR 0x0D 6 hd d a b))
  | .feqS hd d a b => some (code32 hd (wRR 0x0D 7 hd d a b))
  | .fltS hd d a b => some (code32 hd (wRR 0x0D 8 hd d a b))
  | .fleS hd d a b => some (code32 hd (wRR 0x0D 9 hd d a b))
  | .fclassS hd d a => some (code32 hd (wRR 0x0D 10 hd d a 0))
  | .fcvtSL hd d a => some (code32 hd (wRR 0x0D 11 hd d a 0))
  | .fcvtSLu hd d a => some (code32 hd (wRR 0x0D 12 hd d a 0))
  | .fcvtLS hd d a => some (code32 hd (wRR 0x0D 13 hd d a 0))
  | .fcvtLuS hd d a => some (code32 hd (wRR 0x0D 14 hd d a 0))
  | .fsgnjS hd d a b => some (code32 hd (wRR 0x0D 16 hd d a b))
  | .fsgnjnS hd d a b => some (code32 hd (wRR 0x0D 17 hd d a b))
  | .fsgnjxS hd d a b => some (code32 hd (wRR 0x0D 18 hd d a b))
  | .fmaddS hd d a b c => some (code32 hd (wQR 0x0E 0 hd d a b c))
  | .fmsubS hd d a b c => some (code32 hd (wQR 0x0E 1 hd d a b c))
  | .fnmaddS hd d a b c => some (code32 hd (wQR 0x0E 2 hd d a b c))
  | .fnmsubS hd d a b c => some (code32 hd (wQR 0x0E 3 hd d a b c))
  | .beq hd a b o => some (code32 hd (wRI 0x10 hd a b o))
  | .bne hd a b o => some (code32 hd (wRI 0x11 hd a b o))
  | .blt hd a b o => some (code32 hd (wRI 0x12 hd a b o))
  | .bge hd a b o => some (code32 hd (wRI 0x13 hd a b o))
  | .bltu hd a b o => some (code32 hd (wRI 0x14 hd a b o))
  | .bgeu hd a b o => some (code32 hd (wRI 0x15 hd a b o))
  | .jal hd d i => some (code32 hd (wJP 0x16 hd d i))
  | .jalr hd d a i => some (code32 hd (wRI 0x17 hd d a i))
  | .loop hd a i => some (code32 hd (wRI 0x18 hd 0 a i))
  | .loopi hd n i => some (code32 hd (wLP 0x19 hd n i))
  | .ld hd d a w u i => some (code32 hd (wM 0x1A 0 hd d a u w i))
  | .ldAcq hd d a w u i => some (code32 hd (wM 0x1A 1 hd d a u w i))
  | .ldl hd d a w u i => some (code32 hd (wM 0x1A 2 hd d a u w i))
  | .st hd d a w i => some (code32 hd (wM 0x1B 0 hd d a 0 w i))
  | .stRel hd d a w i => some (code32 hd (wM 0x1B 1 hd d a 0 w i))
  | .stu hd d a w i => some (code32 hd (wM 0x1B 2 hd d a 0 w i))
  | .ldx hd d a b w u q => some (code32 hd (wRR 0x1E (0#3 ++ q ++ u ++ w) hd d a b))
  | .stx hd d a b w r => some (code32 hd (wRR 0x1F (0#3 ++ r ++ 0#1 ++ w) hd d a b))
  | .amoadd hd d a b w o => some (code32 hd (wRR 0x1C (o ++ w ++ 0#4) hd d a b))
  | .amoand hd d a b w o => some (code32 hd (wRR 0x1C (o ++ w ++ 1#4) hd d a b))
  | .amoor hd d a b w o => some (code32 hd (wRR 0x1C (o ++ w ++ 2#4) hd d a b))
  | .amoxor hd d a b w o => some (code32 hd (wRR 0x1C (o ++ w ++ 3#4) hd d a b))
  | .amomin hd d a b w o => some (code32 hd (wRR 0x1C (o ++ w ++ 4#4) hd d a b))
  | .amomax hd d a b w o => some (code32 hd (wRR 0x1C (o ++ w ++ 5#4) hd d a b))
  | .amominu hd d a b w o => some (code32 hd (wRR 0x1C (o ++ w ++ 6#4) hd d a b))
  | .amomaxu hd d a b w o => some (code32 hd (wRR 0x1C (o ++ w ++ 7#4) hd d a b))
  | .amoswap hd d a b w o => some (code32 hd (wRR 0x1C (o ++ w ++ 8#4) hd d a b))
  | .amocas hd d a b w o => some (code32 hd (wRR 0x1C (o ++ w ++ 9#4) hd d a b))
  | .fence hd c => some (code32 hd (wRR 0x1D (0#2 ++ 0#2 ++ c) hd 0 0 0))
  | .fenceAcq hd c => some (code32 hd (wRR 0x1D (0#2 ++ 1#2 ++ c) hd 0 0 0))
  | .fenceRel hd c => some (code32 hd (wRR 0x1D (0#2 ++ 2#2 ++ c) hd 0 0 0))
  | .fenceV hd c => some (code32 hd (wRR 0x1D (0#2 ++ 3#2 ++ c) hd 0 0 0))
  | .act hd a => some (code32 hd (wRR 0x20 0 hd 0 a 0))
  | .actEngine hd c a => some (code32 hd (wRR 0x20 0 hd c a 0))
  | .pre hd a => some (code32 hd (wRR 0x20 1 hd 0 a 0))
  | .preEngine hd c a => some (code32 hd (wRR 0x20 1 hd c a 0))
  | .prea hd => some (code32 hd (wRR 0x20 2 hd 0 0 0))
  | .vstat hd d a => some (code32 hd (wRR 0x20 3 hd d a 0))
  | .vevt hd d => some (code32 hd (wRR 0x20 4 hd d 0 0))
  | .rload hd d a w o => some (code32 hd (wRR 0x21 0 hd d a (0#1 ++ o ++ w)))
  | .rstore hd d a w o => some (code32 hd (wRR 0x21 1 hd d a (0#1 ++ o ++ w)))
  | .ramoadd hd d a w o => some (code32 hd (wRR 0x21 16 hd d a (0#1 ++ o ++ w)))
  | .ramoand hd d a w o => some (code32 hd (wRR 0x21 17 hd d a (0#1 ++ o ++ w)))
  | .ramoor hd d a w o => some (code32 hd (wRR 0x21 18 hd d a (0#1 ++ o ++ w)))
  | .ramoxor hd d a w o => some (code32 hd (wRR 0x21 19 hd d a (0#1 ++ o ++ w)))
  | .ramomin hd d a w o => some (code32 hd (wRR 0x21 20 hd d a (0#1 ++ o ++ w)))
  | .ramomax hd d a w o => some (code32 hd (wRR 0x21 21 hd d a (0#1 ++ o ++ w)))
  | .ramominu hd d a w o => some (code32 hd (wRR 0x21 22 hd d a (0#1 ++ o ++ w)))
  | .ramomaxu hd d a w o => some (code32 hd (wRR 0x21 23 hd d a (0#1 ++ o ++ w)))
  | .ramoswap hd d a w o => some (code32 hd (wRR 0x21 24 hd d a (0#1 ++ o ++ w)))
  | .ramocas hd d a w o => some (code32 hd (wRR 0x21 25 hd d a (0#1 ++ o ++ w)))
  | .migrate hd d a b => some (code32 hd (wRR 0x21 3 hd d a b))
  | .reply hd a => some (code32 hd (wRR 0x21 4 hd 0 a 0))
  | .hret hd => some (code32 hd (wRR 0x21 5 hd 0 0 0))
  | .hset hd a b => some (code32 hd (wRR 0x21 6 hd 0 a b))
  | .hclr hd a => some (code32 hd (wRR 0x21 7 hd 0 a 0))
  | .mbxAdd hd a b => some (code32 hd (wRR 0x22 0 hd 0 a b))
  | .mbxAddEngine hd c a b => some (code32 hd (wRR 0x22 0 hd c a b))
  | .mbxWait hd d a b => some (code32 hd (wRR 0x22 1 hd d a b))
  | .mbxRead hd d a => some (code32 hd (wRR 0x22 2 hd d a 0))
  | .mbxSet hd a b => some (code32 hd (wRR 0x22 3 hd 0 a b))
  | .bfree hd a => some (code32 hd (wRR 0x22 4 hd 0 a 0))
  | .sete hd d f => some (code32 hd (wRR 0x23 0 hd d 0 (0#4 ++ f)))
  | .isfull hd d a f => some (code32 hd (wRR 0x23 1 hd d a (0#4 ++ f)))
  | .tkq hd d k => some (code32 hd (wRR 0x23 2 hd d (0#2 ++ k) 0))
  | .tkflt hd d k => some (code32 hd (wRR 0x23 3 hd d (0#2 ++ k) 0))
  | .waittk hd m => some (code32 hd (wRI 0x24 hd 0 0 (0#4 ++ m)))
  | .trap hd a => some (code32 hd (wRR 0x26 0 hd 0 a 0))
  | .eret hd => some (code32 hd (wRR 0x26 1 hd 0 0 0))
  | .halt hd => some (code32 hd (wRR 0x26 2 hd 0 0 0))
  | .yield hd => some (code32 hd (wRR 0x26 3 hd 0 0 0))
  | .exit hd => some (code32 hd (wRR 0x26 4 hd 0 0 0))
  | .vmodeL hd => some (code32 hd (wRR 0x26 5 hd 0 0 0))
  | .vmodeS hd => some (code32 hd (wRR 0x26 6 hd 0 0 0))
  | .launch hd d a => some (code32 hd (wRR 0x26 7 hd d a 0))
  | .cancel hd d a => some (code32 hd (wRR 0x26 8 hd d a 0))
  | .waitctr hd d a => some (code32 hd (wRR 0x26 9 hd d a 0))
  | .brk hd => some (code32 hd (wRR 0x26 10 hd 0 0 0))
  | .pause hd a => some (code32 hd (wRR 0x26 11 hd 0 a 0))
  | .tlbinv hd a b => some (code32 hd (wRR 0x26 12 hd 0 a b))
  | .fenceI hd => some (code32 hd (wRR 0x26 13 hd 0 0 0))
  | .xbegin hd => some (code32 hd (wRR 0x26 14 hd 0 0 0))
  | .xcommit hd d => some (code32 hd (wRR 0x26 15 hd d 0 0))
  | .xabort hd => some (code32 hd (wRR 0x26 16 hd 0 0 0))
  | .csrxch hd d a c => some (code32 hd (wRI 0x27 hd d a c))
  | .csrbis hd d a c => some (code32 hd (wRI 0x28 hd d a c))
  | .csrbic hd d a c => some (code32 hd (wRI 0x29 hd d a c))
  | .vadd hd d a b t => some (code32 hd (wV 0x2A 0 t hd d a b))
  | .vsub hd d a b t => some (code32 hd (wV 0x2A 1 t hd d a b))
  | .vmul hd d a b t => some (code32 hd (wV 0x2A 2 t hd d a b))
  | .vmin hd d a b t => some (code32 hd (wV 0x2A 3 t hd d a b))
  | .vmax hd d a b t => some (code32 hd (wV 0x2A 4 t hd d a b))
  | .vabsd hd d a b t => some (code32 hd (wV 0x2A 5 t hd d a b))
  | .vand hd d a b t => some (code32 hd (wV 0x2A 6 t hd d a b))
  | .vor hd d a b t => some (code32 hd (wV 0x2A 7 t hd d a b))
  | .vxor hd d a b t => some (code32 hd (wV 0x2A 8 t hd d a b))
  | .vshl hd d a b t => some (code32 hd (wV 0x2A 9 t hd d a b))
  | .vshr hd d a b t => some (code32 hd (wV 0x2A 10 t hd d a b))
  | .vsra hd d a b t => some (code32 hd (wV 0x2A 11 t hd d a b))
  | .vadds hd d a b t => some (code32 hd (wV 0x2A 12 t hd d a b))
  | .vsubs hd d a b t => some (code32 hd (wV 0x2A 13 t hd d a b))
  | .vmulh hd d a b t => some (code32 hd (wV 0x2A 14 t hd d a b))
  | .vavg hd d a b t => some (code32 hd (wV 0x2A 15 t hd d a b))
  | .vceq hd d a b t => some (code32 hd (wV 0x2B 0 t hd d a b))
  | .vclt hd d a b t => some (code32 hd (wV 0x2B 1 t hd d a b))
  | .vcle hd d a b t => some (code32 hd (wV 0x2B 2 t hd d a b))
  | .vcltu hd d a b t => some (code32 hd (wV 0x2B 3 t hd d a b))
  | .vsel hd d a b t => some (code32 hd (wV 0x2B 4 t hd d a b))
  | .vfma hd d a b t => some (code32 hd (wV 0x2B 5 t hd d a b))
  | .vfms hd d a b t => some (code32 hd (wV 0x2B 6 t hd d a b))
  | .vdot hd d a b p => some (code32 hd (wV 0x2B 7 p hd d a b))
  | .vclmul hd d a b t => some (code32 hd (wV 0x2B 8 t hd d a b))
  | .vclmulh hd d a b t => some (code32 hd (wV 0x2B 9 t hd d a b))
  | .vrcps hd d a b => some (code32 hd (wV 0x2B 10 0 hd d a b))
  | .vrsqs hd d a b => some (code32 hd (wV 0x2B 11 0 hd d a b))
  | .vrcp hd d a => some (code32 hd (wV 0x2C 0 0 hd d a 0))
  | .vrsq hd d a => some (code32 hd (wV 0x2C 0 0 hd d a 1))
  | .vexp2 hd d a => some (code32 hd (wV 0x2C 0 0 hd d a 2))
  | .vlog2 hd d a => some (code32 hd (wV 0x2C 0 0 hd d a 3))
  | .vsqrt hd d a t => some (code32 hd (wV 0x2C 0 t hd d a 4))
  | .vabs hd d a t => some (code32 hd (wV 0x2C 0 t hd d a 5))
  | .vneg hd d a t => some (code32 hd (wV 0x2C 0 t hd d a 6))
  | .vpopc hd d a t => some (code32 hd (wV 0x2C 0 t hd d a 7))
  | .vcvt hd d a g t => some (code32 hd (wV 0x2C 0 t hd d a (0b01#2 ++ g)))
  | .vredadd hd d a t => some (code32 hd (wV 0x2C 0 t hd d a 16))
  | .vredmax hd d a t => some (code32 hd (wV 0x2C 0 t hd d a 17))
  | .vredmin hd d a t => some (code32 hd (wV 0x2C 0 t hd d a 18))
  | .vclz hd d a t => some (code32 hd (wV 0x2C 0 t hd d a 19))
  | .vld hd d a => some (code32 hd (wV 0x2D 0 0 hd d a 0))
  | .vst hd d a => some (code32 hd (wV 0x2D 1 0 hd d a 0))
  | .vlds hd d a b t => some (code32 hd (wV 0x2D 2 t hd d a b))
  | .vsts hd d a b t => some (code32 hd (wV 0x2D 3 t hd d a b))
  | .vbcast hd d a t => some (code32 hd (wV 0x2D 4 t hd d a 0))
  | .vins hd d a b t => some (code32 hd (wV 0x2D 5 t hd d a b))
  | .vext hd d a b t => some (code32 hd (wV 0x2D 6 t hd d a b))
  | .vldrow hd d a => some (code32 hd (wV 0x2D 7 0 hd d a 0))
  | .vperm hd d a b t => some (code32 hd (wV 0x2E 0 t hd d a b))
  | .vzip hd d a b t => some (code32 hd (wV 0x2E 1 t hd d a b))
  | .vunzip hd d a b t => some (code32 hd (wV 0x2E 2 t hd d a b))
  | .vmergeLo hd d a b t => some (code32 hd (wV 0x2E 3 t hd d a b))
  | .vmergeHi hd d a b t => some (code32 hd (wV 0x2E 4 t hd d a b))
  | .vsort hd d a t => some (code32 hd (wV 0x2E 5 t hd d a 0))
  | .vslide hd d a b t => some (code32 hd (wV 0x2E 6 t hd d a b))
  | .tld hd a tk wait dst fmt rows sc frow => some (code64 hd (wRR 0x3F 0 hd 0 a 0) (frow ++ sc ++ rows ++ fmt ++ dst ++ wait ++ tk))
  | .tldP hd d a b tk wait fmt rows sc frow => some (code64 hd (wRR 0x3F 1 hd d a b) (frow ++ sc ++ rows ++ fmt ++ 0#2 ++ wait ++ tk))
  | .tst hd a tk wait row0 rows ofmt satf => some (code64 hd (wRR 0x3F 2 hd 0 a 0) (0#4 ++ satf ++ ofmt ++ rows ++ row0 ++ wait ++ tk))
  | .wload hd d a b tk wait src fmt sc frow => some (code64 hd (wRR 0x3F 3 hd d a b) (0#8 ++ frow ++ sc ++ fmt ++ src ++ wait ++ tk))
  | .mma hd d b tk wait asrc fmt rows lt sat ftz wreg => some (code64 hd (wRR 0x3F 4 hd d 0 b) (0#2 ++ wreg ++ ftz ++ sat ++ lt ++ rows ++ fmt ++ asrc ++ wait ++ tk))
  | .aswap hd tk wait => some (code64 hd (wRR 0x3F 5 hd 0 0 0) (0#21 ++ wait ++ tk))
  | .aclr hd tk wait cf => some (code64 hd (wRR 0x3F 6 hd 0 0 0) (0#20 ++ cf ++ wait ++ tk))
  | .ard hd tk wait row0 rows wreg => some (code64 hd (wRR 0x3F 7 hd 0 0 0) (0#4 ++ wreg ++ rows ++ row0 ++ wait ++ tk))
  | .ast hd d b tk wait row0 rows ofmt satf => some (code64 hd (wRR 0x3F 8 hd d 0 b) (0#4 ++ satf ++ ofmt ++ rows ++ row0 ++ wait ++ tk))
  | .lease hd d try1 => some (code64 hd (wRR 0x3F 9 hd d 0 0) (0#31 ++ try1))
  | .release hd => some (code64 hd (wRR 0x3F 10 hd 0 0 0) (0))
  | .vpipe hd d a b tk wait rr flt => some (code64 hd (wRR 0x3F 11 hd d a b) (0#19 ++ flt ++ rr ++ wait ++ tk))
  | .selq hd d a b tk wait rr flt => some (code64 hd (wRR 0x3F 12 hd d a b) (0#19 ++ flt ++ rr ++ wait ++ tk))
  | .copy hd a b tk wait tmpl => some (code64 hd (wRR 0x3F 13 hd 0 a b) (0#17 ++ tmpl ++ wait ++ tk))
  | .copyMc hd d a b tk wait tmpl => some (code64 hd (wRR 0x3F 14 hd d a b) (0#17 ++ tmpl ++ wait ++ tk))
  | .tmpl hd a slot => some (codeTmpl hd a slot)
  | .rcall hd d a tk wait hidx rr ord => some (code64 hd (wRR 0x3F 16 hd d a 0) (0#12 ++ ord ++ rr ++ hidx ++ wait ++ tk))
  | .tapeRec hd d id lim => some (code64 hd (wRR 0x3F 17 hd d 0 0) (0#19 ++ lim ++ id))
  | .tapeEnd hd d => some (code64 hd (wRR 0x3F 18 hd d 0 0) (0))
  | .tapePlay hd a tk wait id => some (code64 hd (wRR 0x3F 19 hd 0 a 0) (0#18 ++ id ++ wait ++ tk))
  | .tapePatch hd a b slot => some (code64 hd (wRR 0x3F 20 hd 0 a b) (0#28 ++ slot))
  | .tapeSave hd a tk wait id => some (code64 hd (wRR 0x3F 21 hd 0 a 0) (0#18 ++ id ++ wait ++ tk))
  | .tapeLoad hd a tk wait id => some (code64 hd (wRR 0x3F 22 hd 0 a 0) (0#18 ++ id ++ wait ++ tk))
  | .tapeInv hd id => some (codeTapeInv hd id)
  | .li32 hd d a imm => some (codeLi32 hd d a imm)
  | .xstore hd a b w => some (codeXstore hd a b w)
  | .cAddisp d u => some (codeCAddisp d u)
  | .cLd d a u => some (codeCLd d a u)
  | .cSt d a u => some (codeCSt d a u)
  | .cWaittk m => some (codeCWaittk m)
  | .cAddi d i => some (codeCAddi d i)
  | .cLi d i => some (codeCLi d i)
  | .cSrli d n => some (codeCSrli d n)
  | .cSrai d n => some (codeCSrai d n)
  | .cAndi d i => some (codeCAndi d i)
  | .cSub d b => some (codeCSub d b)
  | .cXor d b => some (codeCXor d b)
  | .cOr d b => some (codeCOr d b)
  | .cAnd d b => some (codeCAnd d b)
  | .cJ o => some (codeCJ o)
  | .cBeqz a o => some (codeCBeqz a o)
  | .cBnez a o => some (codeCBnez a o)
  | .cSlli d n => some (codeCSlli d n)
  | .cLdsp d u => some (codeCLdsp d u)
  | .cStsp d u => some (codeCStsp d u)
  | .cJr a => some (codeCJr a)
  | .cMv d b => some (codeCMv d b)
  | .cJalr a => some (codeCJalr a)
  | .cAdd d b => some (codeCAdd d b)
  | .cExit => some (codeCExit)
  | .loadComplete _ => none
  | .storeVisible _ => none
  | .writeBufferDrain _ _ => none
  | .bankRequest _ _ => none
  | .refreshSlot _ => none
  | .refreshEnd _ _ => none
  | .holdStart _ _ => none
  | .holdEnd _ _ => none
  | .tileLoadSegment _ _ => none
  | .rowRepairRequest _ _ _ => none
  | .repairStart _ _ => none
  | .repairCopy _ _ => none
  | .repairSwitch _ _ => none
  | .thermalSample _ _ => none
  | .vaultLogMmioRead _ => none
  | .poolBankAccess _ _ => none
  | .ldlRetry _ => none
  | .tlbMiss _ _ => none
  | .ptread _ _ => none
  | .walkStep _ _ => none
  | .messageArrival _ => none
  | .rloadRequest _ => none
  | .rstoreRequest _ => none
  | .ramoRequest _ => none
  | .rcallRequest _ => none
  | .travel _ => none
  | .mbxadd _ => none
  | .mbxwatch _ => none
  | .copyreq _ => none
  | .chunk _ => none
  | .vpjob _ => none
  | .vpjobComplete _ => none
  | .repcommitLock _ => none
  | .repcommitData _ => none
  | .repcommitStart _ => none
  | .repcommitGrant _ => none
  | .repcommitAck _ => none
  | .repcommitRetry _ _ => none
  | .lineLockTimeout _ _ => none
  | .xactLock _ => none
  | .xactData _ => none
  | .xactUnlock _ => none
  | .xcommitVote _ => none
  | .xcommitAck _ => none
  | .replyFill _ => none
  | .nack _ => none
  | .travellerEndNotice _ => none
  | .acceptanceNotice _ => none
  | .handlerWatchdog _ => none
  | .handlerEntryWritten _ _ => none
  | .busyTimeout _ _ => none
  | .watchExpiry _ _ => none
  | .watchRetry _ _ => none
  | .mbxWaitTimeout _ _ => none
  | .bfreeCombine _ _ => none
  | .engineQueueLeave _ _ => none
  | .tokenSignal _ _ => none
  | .lvuTake _ => none
  | .leaseGrant _ => none
  | .slotDrained _ _ => none
  | .turnExpiry _ => none
  | .tapePlayStart _ => none
  | .tapeRecordIssue _ => none
  | .tapeBarrier _ => none
  | .tapePlayEnd _ => none
  | .hqtail _ _ => none
  | .hqEnable _ _ => none
  | .hqDisable _ _ => none
  | .hqstatClr _ => none
  | .launchRecordAccept _ => none
  | .recordFlush _ => none
  | .launchReady _ _ => none
  | .unitDispatch _ _ _ _ => none
  | .gangBind _ _ => none
  | .priorityAging _ _ => none
  | .unitEnd _ => none
  | .preemptReq _ => none
  | .preemptKill _ => none
  | .safePointTake _ => none
  | .clusterSave _ => none
  | .saveComplete _ => none
  | .unitResume _ _ => none
  | .migrationDeadline _ => none
  | .safepointWatchdog _ => none
  | .slotctlRestart _ => none
  | .htbaseWrite _ _ => none
  | .msgerrWrite _ => none
  | .vaultevtWrite _ _ => none
  | .aqstatWrite _ _ => none
  | .spillConfigWrite _ _ _ => none
  | .registerWrite _ _ => none
  | .ckptEnable _ => none
  | .ckptClose => none
  | .intervalTimer => none
  | .logThreshold _ => none
  | .rollback _ _ => none
  | .lockstepMismatch _ => none
  | .snapWrite _ => none
  | .errorEvent _ => none
  | .unitRetire _ => none
  | .linkRetry _ => none
  | .linkDown _ => none
  | .linkRetrain _ => none
  | .hostWrite _ _ _ => none
  | .hostRead _ _ _ => none
  | .hostAtomicop _ _ _ _ _ _ => none
  | .mctpRequest _ => none
  | .firmwareUpdate _ => none
  | .deviceReset => none
  | .stackReset _ => none
  | .powerUp _ => none
  | .layerPowerGate _ _ => none
  | .configRecord _ => none
  | .clkstepWrite _ _ => none
  | .jobRelease _ _ => none
  | .supervisorNotice _ => none
  | .portUp _ _ => none
  | .clusterPowerGate _ => none
  | .powerUngate _ => none

/-- Register fields of R219: [14:10], [19:15], [24:20]. -/
def fd (w : BitVec 32) : Reg := w.extractLsb' 10 5

/-- The field [19:15]. -/
def fa (w : BitVec 32) : Reg := w.extractLsb' 15 5

/-- The field [24:20]. -/
def fb (w : BitVec 32) : Reg := w.extractLsb' 20 5

/-- fn7, or xop7 (R219, R224). -/
def fn7 (w : BitVec 32) : BitVec 7 := w.extractLsb' 25 7

/-- MAJ (R218). -/
def maj (w : BitVec 32) : BitVec 6 := w.extractLsb' 4 6

/-- The vector type field (R223). -/
def ft (w : BitVec 32) : BitVec 3 := w.extractLsb' 25 3

/-- The head of a 32-bit word with a given mask word (R218). -/
def headOf (w mask : BitVec 32) : Head :=
  ⟨w.extractLsb' 2 1 == 1, w.extractLsb' 3 1 == 1, if w.extractLsb' 2 1 == 1 then mask else 0⟩

/-- ALU (R228, R241). -/
def selAlu (hd : Head) (w : BitVec 32) : Option Instr :=
  match (fn7 w).toNat with
  | 0 => some (.add hd (fd w) (fa w) (fb w))
  | 1 => some (.sub hd (fd w) (fa w) (fb w))
  | 2 => some (.and hd (fd w) (fa w) (fb w))
  | 3 => some (.or hd (fd w) (fa w) (fb w))
  | 4 => some (.xor hd (fd w) (fa w) (fb w))
  | 5 => some (.sll hd (fd w) (fa w) (fb w))
  | 6 => some (.srl hd (fd w) (fa w) (fb w))
  | 7 => some (.sra hd (fd w) (fa w) (fb w))
  | 8 => some (.rol hd (fd w) (fa w) (fb w))
  | 9 => some (.ror hd (fd w) (fa w) (fb w))
  | 10 => some (.slt hd (fd w) (fa w) (fb w))
  | 11 => some (.sltu hd (fd w) (fa w) (fb w))
  | 12 => some (.min hd (fd w) (fa w) (fb w))
  | 13 => some (.max hd (fd w) (fa w) (fb w))
  | 14 => some (.minu hd (fd w) (fa w) (fb w))
  | 15 => some (.maxu hd (fd w) (fa w) (fb w))
  | 16 => some (.addw hd (fd w) (fa w) (fb w))
  | 17 => some (.subw hd (fd w) (fa w) (fb w))
  | 18 => some (.andn hd (fd w) (fa w) (fb w))
  | 19 => some (.orn hd (fd w) (fa w) (fb w))
  | 20 => some (.addsat hd (fd w) (fa w) (fb w))
  | 21 => some (.subsat hd (fd w) (fa w) (fb w))
  | _ => none

/-- MULDIV (R228, R245). -/
def selMul (hd : Head) (w : BitVec 32) : Option Instr :=
  match (fn7 w).toNat with
  | 0 => some (.mul hd (fd w) (fa w) (fb w))
  | 1 => some (.mulh hd (fd w) (fa w) (fb w))
  | 2 => some (.mulhu hd (fd w) (fa w) (fb w))
  | 3 => some (.mulhsu hd (fd w) (fa w) (fb w))
  | 4 => some (.div hd (fd w) (fa w) (fb w))
  | 5 => some (.divu hd (fd w) (fa w) (fb w))
  | 6 => some (.rem hd (fd w) (fa w) (fb w))
  | 7 => some (.remu hd (fd w) (fa w) (fb w))
  | 8 => some (.mulw hd (fd w) (fa w) (fb w))
  | _ => none

/-- BIT (R228, R246). -/
def selBit (hd : Head) (w : BitVec 32) : Option Instr :=
  match (fn7 w).toNat with
  | 0 => some (.clz hd (fd w) (fa w))
  | 1 => some (.ctz hd (fd w) (fa w))
  | 2 => some (.popc hd (fd w) (fa w))
  | 3 => some (.brev hd (fd w) (fa w))
  | 4 => some (.bswap hd (fd w) (fa w))
  | 5 => some (.sextb hd (fd w) (fa w))
  | 6 => some (.sexth hd (fd w) (fa w))
  | 7 => some (.sextw hd (fd w) (fa w))
  | 8 => some (.zextw hd (fd w) (fa w))
  | 9 => some (.clmul hd (fd w) (fa w) (fb w))
  | 10 => some (.clmulh hd (fd w) (fa w) (fb w))
  | 11 => some (.clmulr hd (fd w) (fa w) (fb w))
  | 12 => some (.bfx hd (fd w) (fa w) (fb w))
  | 13 => some (.bfi hd (fd w) (fa w) (fb w))
  | _ => none

/-- FPS (R228, R301). -/
def selFps (hd : Head) (w : BitVec 32) : Option Instr :=
  match (fn7 w).toNat with
  | 0 => some (.faddS hd (fd w) (fa w) (fb w))
  | 1 => some (.fsubS hd (fd w) (fa w) (fb w))
  | 2 => some (.fmulS hd (fd w) (fa w) (fb w))
  | 3 => some (.fdivS hd (fd w) (fa w) (fb w))
  | 4 => some (.fsqrtS hd (fd w) (fa w))
  | 5 => some (.fminS hd (fd w) (fa w) (fb w))
  | 6 => some (.fmaxS hd (fd w) (fa w) (fb w))
  | 7 => some (.feqS hd (fd w) (fa w) (fb w))
  | 8 => some (.fltS hd (fd w) (fa w) (fb w))
  | 9 => some (.fleS hd (fd w) (fa w) (fb w))
  | 10 => some (.fclassS hd (fd w) (fa w))
  | 11 => some (.fcvtSL hd (fd w) (fa w))
  | 12 => some (.fcvtSLu hd (fd w) (fa w))
  | 13 => some (.fcvtLS hd (fd w) (fa w))
  | 14 => some (.fcvtLuS hd (fd w) (fa w))
  | 16 => some (.fsgnjS hd (fd w) (fa w) (fb w))
  | 17 => some (.fsgnjnS hd (fd w) (fa w) (fb w))
  | 18 => some (.fsgnjxS hd (fd w) (fa w) (fb w))
  | _ => none

/-- FMA4 (R228, R303). -/
def selFma (hd : Head) (w : BitVec 32) : Option Instr :=
  match (w.extractLsb' 30 2).toNat with
  | 0 => some (.fmaddS hd (fd w) (fa w) (fb w) (w.extractLsb' 25 5))
  | 1 => some (.fmsubS hd (fd w) (fa w) (fb w) (w.extractLsb' 25 5))
  | 2 => some (.fnmaddS hd (fd w) (fa w) (fb w) (w.extractLsb' 25 5))
  | 3 => some (.fnmsubS hd (fd w) (fa w) (fb w) (w.extractLsb' 25 5))
  | _ => none

/-- SHI (R227, R242). -/
def selShi (hd : Head) (w : BitVec 32) : Option Instr :=
  match (w.extractLsb' 26 6).toNat with
  | 0 => some (.slli hd (fd w) (fa w) (w.extractLsb' 20 6))
  | 1 => some (.srli hd (fd w) (fa w) (w.extractLsb' 20 6))
  | 2 => some (.srai hd (fd w) (fa w) (w.extractLsb' 20 6))
  | 3 => some (.rori hd (fd w) (fa w) (w.extractLsb' 20 6))
  | _ => none

/-- LD (R228, R270): ord 11 is illegal (R219). -/
def selLd (hd : Head) (w : BitVec 32) : Option Instr :=
  match (w.extractLsb' 23 2).toNat with
  | 0 => some (.ld hd (fd w) (fa w) (w.extractLsb' 20 2) (w.extractLsb' 22 1) (w.extractLsb' 25 7))
  | 1 => some (.ldAcq hd (fd w) (fa w) (w.extractLsb' 20 2) (w.extractLsb' 22 1) (w.extractLsb' 25 7))
  | 2 => some (.ldl hd (fd w) (fa w) (w.extractLsb' 20 2) (w.extractLsb' 22 1) (w.extractLsb' 25 7))
  | _ => none

/-- ST (R228, R270). -/
def selSt (hd : Head) (w : BitVec 32) : Option Instr :=
  match (w.extractLsb' 23 2).toNat with
  | 0 => some (.st hd (fd w) (fa w) (w.extractLsb' 20 2) (w.extractLsb' 25 7))
  | 1 => some (.stRel hd (fd w) (fa w) (w.extractLsb' 20 2) (w.extractLsb' 25 7))
  | 2 => some (.stu hd (fd w) (fa w) (w.extractLsb' 20 2) (w.extractLsb' 25 7))
  | _ => none

/-- AMO (R227, R228, R272). -/
def selAmo (hd : Head) (w : BitVec 32) : Option Instr :=
  match (w.extractLsb' 25 4).toNat with
  | 0 => some (.amoadd hd (fd w) (fa w) (fb w) (w.extractLsb' 29 1) (w.extractLsb' 30 2))
  | 1 => some (.amoand hd (fd w) (fa w) (fb w) (w.extractLsb' 29 1) (w.extractLsb' 30 2))
  | 2 => some (.amoor hd (fd w) (fa w) (fb w) (w.extractLsb' 29 1) (w.extractLsb' 30 2))
  | 3 => some (.amoxor hd (fd w) (fa w) (fb w) (w.extractLsb' 29 1) (w.extractLsb' 30 2))
  | 4 => some (.amomin hd (fd w) (fa w) (fb w) (w.extractLsb' 29 1) (w.extractLsb' 30 2))
  | 5 => some (.amomax hd (fd w) (fa w) (fb w) (w.extractLsb' 29 1) (w.extractLsb' 30 2))
  | 6 => some (.amominu hd (fd w) (fa w) (fb w) (w.extractLsb' 29 1) (w.extractLsb' 30 2))
  | 7 => some (.amomaxu hd (fd w) (fa w) (fb w) (w.extractLsb' 29 1) (w.extractLsb' 30 2))
  | 8 => some (.amoswap hd (fd w) (fa w) (fb w) (w.extractLsb' 29 1) (w.extractLsb' 30 2))
  | 9 => some (.amocas hd (fd w) (fa w) (fb w) (w.extractLsb' 29 1) (w.extractLsb' 30 2))
  | _ => none

/-- FENCE (R227, R228): scopes 6 and 7 are illegal (R273). -/
def selFence (hd : Head) (w : BitVec 32) : Option Instr :=
  match (w.extractLsb' 28 2).toNat with
  | 0 => if scopeOk (w.extractLsb' 25 3) then some (.fence hd (w.extractLsb' 25 3)) else none
  | 1 => if scopeOk (w.extractLsb' 25 3) then some (.fenceAcq hd (w.extractLsb' 25 3)) else none
  | 2 => if scopeOk (w.extractLsb' 25 3) then some (.fenceRel hd (w.extractLsb' 25 3)) else none
  | 3 => if scopeOk (w.extractLsb' 25 3) then some (.fenceV hd (w.extractLsb' 25 3)) else none
  | _ => none

/-- VAULT (R228, R275): a non-zero rd field makes the engine form of ACT and PRE. -/
def selVault (hd : Head) (w : BitVec 32) : Option Instr :=
  match (fn7 w).toNat with
  | 0 => some (if fd w == 0 then .act hd (fa w) else .actEngine hd (fd w) (fa w))
  | 1 => some (if fd w == 0 then .pre hd (fa w) else .preEngine hd (fd w) (fa w))
  | 2 => some (.prea hd)
  | 3 => some (.vstat hd (fd w) (fa w))
  | 4 => some (.vevt hd (fd w))
  | _ => none

/-- RPC (R228, R278, R281 to R283). -/
def selRpc (hd : Head) (w : BitVec 32) : Option Instr :=
  match (fn7 w).toNat with
  | 0 => some (.rload hd (fd w) (fa w) (w.extractLsb' 20 2) (w.extractLsb' 22 2))
  | 1 => some (.rstore hd (fd w) (fa w) (w.extractLsb' 20 2) (w.extractLsb' 22 2))
  | 16 => some (.ramoadd hd (fd w) (fa w) (w.extractLsb' 20 2) (w.extractLsb' 22 2))
  | 17 => some (.ramoand hd (fd w) (fa w) (w.extractLsb' 20 2) (w.extractLsb' 22 2))
  | 18 => some (.ramoor hd (fd w) (fa w) (w.extractLsb' 20 2) (w.extractLsb' 22 2))
  | 19 => some (.ramoxor hd (fd w) (fa w) (w.extractLsb' 20 2) (w.extractLsb' 22 2))
  | 20 => some (.ramomin hd (fd w) (fa w) (w.extractLsb' 20 2) (w.extractLsb' 22 2))
  | 21 => some (.ramomax hd (fd w) (fa w) (w.extractLsb' 20 2) (w.extractLsb' 22 2))
  | 22 => some (.ramominu hd (fd w) (fa w) (w.extractLsb' 20 2) (w.extractLsb' 22 2))
  | 23 => some (.ramomaxu hd (fd w) (fa w) (w.extractLsb' 20 2) (w.extractLsb' 22 2))
  | 24 => some (.ramoswap hd (fd w) (fa w) (w.extractLsb' 20 2) (w.extractLsb' 22 2))
  | 25 => some (.ramocas hd (fd w) (fa w) (w.extractLsb' 20 2) (w.extractLsb' 22 2))
  | 3 => some (.migrate hd (fd w) (fa w) (fb w))
  | 4 => some (.reply hd (fa w))
  | 5 => some (.hret hd)
  | 6 => some (.hset hd (fa w) (fb w))
  | 7 => some (.hclr hd (fa w))
  | _ => none

/-- MBX (R228, R285): a non-zero rd field makes the engine form of MBX.ADD. -/
def selMbx (hd : Head) (w : BitVec 32) : Option Instr :=
  match (fn7 w).toNat with
  | 0 => some (if fd w == 0 then .mbxAdd hd (fa w) (fb w) else .mbxAddEngine hd (fd w) (fa w) (fb w))
  | 1 => some (.mbxWait hd (fd w) (fa w) (fb w))
  | 2 => some (.mbxRead hd (fd w) (fa w))
  | 3 => some (.mbxSet hd (fa w) (fb w))
  | 4 => some (.bfree hd (fa w))
  | _ => none

/-- FE (R228, R287). -/
def selFe (hd : Head) (w : BitVec 32) : Option Instr :=
  match (fn7 w).toNat with
  | 0 => some (.sete hd (fd w) (w.extractLsb' 20 1))
  | 1 => some (.isfull hd (fd w) (fa w) (w.extractLsb' 20 1))
  | 2 => some (.tkq hd (fd w) (w.extractLsb' 15 3))
  | 3 => some (.tkflt hd (fd w) (w.extractLsb' 15 3))
  | _ => none

/-- SYS (R228, R252). -/
def selSys (hd : Head) (w : BitVec 32) : Option Instr :=
  match (fn7 w).toNat with
  | 0 => some (.trap hd (fa w))
  | 1 => some (.eret hd)
  | 2 => some (.halt hd)
  | 3 => some (.yield hd)
  | 4 => some (.exit hd)
  | 5 => some (.vmodeL hd)
  | 6 => some (.vmodeS hd)
  | 7 => some (.launch hd (fd w) (fa w))
  | 8 => some (.cancel hd (fd w) (fa w))
  | 9 => some (.waitctr hd (fd w) (fa w))
  | 10 => some (.brk hd)
  | 11 => some (.pause hd (fa w))
  | 12 => some (.tlbinv hd (fa w) (fb w))
  | 13 => some (.fenceI hd)
  | 14 => some (.xbegin hd)
  | 15 => some (.xcommit hd (fd w))
  | 16 => some (.xabort hd)
  | _ => none

/-- VA (R228, R304): a type that the row does not list is illegal (R223). -/
def selVa (hd : Head) (w : BitVec 32) : Option Instr :=
  match (w.extractLsb' 28 4).toNat with
  | 0 => some (.vadd hd (fd w) (fa w) (fb w) (ft w))
  | 1 => some (.vsub hd (fd w) (fa w) (fb w) (ft w))
  | 2 => some (.vmul hd (fd w) (fa w) (fb w) (ft w))
  | 3 => some (.vmin hd (fd w) (fa w) (fb w) (ft w))
  | 4 => some (.vmax hd (fd w) (fa w) (fb w) (ft w))
  | 5 => some (.vabsd hd (fd w) (fa w) (fb w) (ft w))
  | 6 => some (.vand hd (fd w) (fa w) (fb w) (ft w))
  | 7 => some (.vor hd (fd w) (fa w) (fb w) (ft w))
  | 8 => some (.vxor hd (fd w) (fa w) (fb w) (ft w))
  | 9 => if typeI (ft w) then some (.vshl hd (fd w) (fa w) (fb w) (ft w)) else none
  | 10 => if typeI (ft w) then some (.vshr hd (fd w) (fa w) (fb w) (ft w)) else none
  | 11 => if typeI (ft w) then some (.vsra hd (fd w) (fa w) (fb w) (ft w)) else none
  | 12 => if typeI (ft w) then some (.vadds hd (fd w) (fa w) (fb w) (ft w)) else none
  | 13 => if typeI (ft w) then some (.vsubs hd (fd w) (fa w) (fb w) (ft w)) else none
  | 14 => if typeI (ft w) then some (.vmulh hd (fd w) (fa w) (fb w) (ft w)) else none
  | 15 => some (.vavg hd (fd w) (fa w) (fb w) (ft w))
  | _ => none

/-- VC (R228, R305). -/
def selVc (hd : Head) (w : BitVec 32) : Option Instr :=
  match (w.extractLsb' 28 4).toNat with
  | 0 => some (.vceq hd (fd w) (fa w) (fb w) (ft w))
  | 1 => some (.vclt hd (fd w) (fa w) (fb w) (ft w))
  | 2 => some (.vcle hd (fd w) (fa w) (fb w) (ft w))
  | 3 => if typeI (ft w) then some (.vcltu hd (fd w) (fa w) (fb w) (ft w)) else none
  | 4 => some (.vsel hd (fd w) (fa w) (fb w) (ft w))
  | 5 => some (.vfma hd (fd w) (fa w) (fb w) (ft w))
  | 6 => some (.vfms hd (fd w) (fa w) (fb w) (ft w))
  | 7 => some (.vdot hd (fd w) (fa w) (fb w) (ft w))
  | 8 => if type64 (ft w) then some (.vclmul hd (fd w) (fa w) (fb w) (ft w)) else none
  | 9 => if type64 (ft w) then some (.vclmulh hd (fd w) (fa w) (fb w) (ft w)) else none
  | 10 => if ft w == 0 then some (.vrcps hd (fd w) (fa w) (fb w)) else none
  | 11 => if ft w == 0 then some (.vrsqs hd (fd w) (fa w) (fb w)) else none
  | _ => none

/-- VU (R220, R228, R308): the subop stands in the vs2 field. -/
def selVu (hd : Head) (w : BitVec 32) : Option Instr :=
  if (w.extractLsb' 23 2) == 1 then
    (if typeCvt (ft w) (w.extractLsb' 20 3) then some (.vcvt hd (fd w) (fa w) (w.extractLsb' 20 3) (ft w)) else none)
  else
  match (fb w).toNat with
  | 0 => if ft w == 0 then some (.vrcp hd (fd w) (fa w)) else none
  | 1 => if ft w == 0 then some (.vrsq hd (fd w) (fa w)) else none
  | 2 => if ft w == 0 then some (.vexp2 hd (fd w) (fa w)) else none
  | 3 => if ft w == 0 then some (.vlog2 hd (fd w) (fa w)) else none
  | 4 => if typeF (ft w) then some (.vsqrt hd (fd w) (fa w) (ft w)) else none
  | 5 => some (.vabs hd (fd w) (fa w) (ft w))
  | 6 => some (.vneg hd (fd w) (fa w) (ft w))
  | 7 => if typeI (ft w) then some (.vpopc hd (fd w) (fa w) (ft w)) else none
  | 16 => some (.vredadd hd (fd w) (fa w) (ft w))
  | 17 => some (.vredmax hd (fd w) (fa w) (ft w))
  | 18 => some (.vredmin hd (fd w) (fa w) (ft w))
  | 19 => if typeI (ft w) then some (.vclz hd (fd w) (fa w) (ft w)) else none
  | _ => none

/-- VM (R220, R228, R312). -/
def selVm (hd : Head) (w : BitVec 32) : Option Instr :=
  match (w.extractLsb' 28 4).toNat with
  | 0 => some (.vld hd (fd w) (fa w))
  | 1 => some (.vst hd (fd w) (fa w))
  | 2 => some (.vlds hd (fd w) (fa w) (fb w) (ft w))
  | 3 => some (.vsts hd (fd w) (fa w) (fb w) (ft w))
  | 4 => some (.vbcast hd (fd w) (fa w) (ft w))
  | 5 => some (.vins hd (fd w) (fa w) (fb w) (ft w))
  | 6 => some (.vext hd (fd w) (fa w) (fb w) (ft w))
  | 7 => some (.vldrow hd (fd w) (fa w))
  | _ => none

/-- VP (R228, R315). -/
def selVp (hd : Head) (w : BitVec 32) : Option Instr :=
  match (w.extractLsb' 28 4).toNat with
  | 0 => some (.vperm hd (fd w) (fa w) (fb w) (ft w))
  | 1 => some (.vzip hd (fd w) (fa w) (fb w) (ft w))
  | 2 => some (.vunzip hd (fd w) (fa w) (fb w) (ft w))
  | 3 => if typeKey (ft w) then some (.vmergeLo hd (fd w) (fa w) (fb w) (ft w)) else none
  | 4 => if typeKey (ft w) then some (.vmergeHi hd (fd w) (fa w) (fb w) (ft w)) else none
  | 5 => if typeKey (ft w) then some (.vsort hd (fd w) (fa w) (ft w)) else none
  | 6 => some (.vslide hd (fd w) (fa w) (fb w) (ft w))
  | _ => none

/-- EXT with xop7 from 0x00 to 0x16 but TMPL (R224, R228): the selector is xop7; c is the control word. -/
def selExtLow (hd : Head) (w c : BitVec 32) : Option Instr :=
  match (fn7 w).toNat with
  | 0 => some (.tld hd (fa w) (c.extractLsb' 0 3) (c.extractLsb' 3 8) (c.extractLsb' 11 2) (c.extractLsb' 13 4) (c.extractLsb' 17 7) (c.extractLsb' 24 1) (c.extractLsb' 25 7))
  | 1 => some (.tldP hd (fd w) (fa w) (fb w) (c.extractLsb' 0 3) (c.extractLsb' 3 8) (c.extractLsb' 13 4) (c.extractLsb' 17 7) (c.extractLsb' 24 1) (c.extractLsb' 25 7))
  | 2 => some (.tst hd (fa w) (c.extractLsb' 0 3) (c.extractLsb' 3 8) (c.extractLsb' 11 7) (c.extractLsb' 18 7) (c.extractLsb' 25 2) (c.extractLsb' 27 1))
  | 3 => some (.wload hd (fd w) (fa w) (fb w) (c.extractLsb' 0 3) (c.extractLsb' 3 8) (c.extractLsb' 11 1) (c.extractLsb' 12 4) (c.extractLsb' 16 1) (c.extractLsb' 17 7))
  | 4 => some (.mma hd (fd w) (fb w) (c.extractLsb' 0 3) (c.extractLsb' 3 8) (c.extractLsb' 11 2) (c.extractLsb' 13 4) (c.extractLsb' 17 7) (c.extractLsb' 24 1) (c.extractLsb' 25 1) (c.extractLsb' 26 1) (c.extractLsb' 27 3))
  | 5 => some (.aswap hd (c.extractLsb' 0 3) (c.extractLsb' 3 8))
  | 6 => some (.aclr hd (c.extractLsb' 0 3) (c.extractLsb' 3 8) (c.extractLsb' 11 1))
  | 7 => some (.ard hd (c.extractLsb' 0 3) (c.extractLsb' 3 8) (c.extractLsb' 11 7) (c.extractLsb' 18 7) (c.extractLsb' 25 3))
  | 8 => some (.ast hd (fd w) (fb w) (c.extractLsb' 0 3) (c.extractLsb' 3 8) (c.extractLsb' 11 7) (c.extractLsb' 18 7) (c.extractLsb' 25 2) (c.extractLsb' 27 1))
  | 9 => some (.lease hd (fd w) (c.extractLsb' 0 1))
  | 10 => some (.release hd)
  | 11 => some (.vpipe hd (fd w) (fa w) (fb w) (c.extractLsb' 0 3) (c.extractLsb' 3 8) (c.extractLsb' 11 1) (c.extractLsb' 12 1))
  | 12 => some (.selq hd (fd w) (fa w) (fb w) (c.extractLsb' 0 3) (c.extractLsb' 3 8) (c.extractLsb' 11 1) (c.extractLsb' 12 1))
  | 13 => some (.copy hd (fa w) (fb w) (c.extractLsb' 0 3) (c.extractLsb' 3 8) (c.extractLsb' 11 4))
  | 14 => some (.copyMc hd (fd w) (fa w) (fb w) (c.extractLsb' 0 3) (c.extractLsb' 3 8) (c.extractLsb' 11 4))
  | 16 => some (.rcall hd (fd w) (fa w) (c.extractLsb' 0 3) (c.extractLsb' 3 8) (c.extractLsb' 11 6) (c.extractLsb' 17 1) (c.extractLsb' 18 2))
  | 17 => some (.tapeRec hd (fd w) (c.extractLsb' 0 3) (c.extractLsb' 3 10))
  | 18 => some (.tapeEnd hd (fd w))
  | 19 => some (.tapePlay hd (fa w) (c.extractLsb' 0 3) (c.extractLsb' 3 8) (c.extractLsb' 11 3))
  | 20 => some (.tapePatch hd (fa w) (fb w) (c.extractLsb' 0 4))
  | 21 => some (.tapeSave hd (fa w) (c.extractLsb' 0 3) (c.extractLsb' 3 8) (c.extractLsb' 11 3))
  | 22 => some (.tapeLoad hd (fa w) (c.extractLsb' 0 3) (c.extractLsb' 3 8) (c.extractLsb' 11 3))
  | _ => none

/-- EXT (R224, R228). -/
noncomputable def selExt (hd : Head) (w c : BitVec 32) : Option Instr :=
  match (fn7 w).toNat with
  | 15 => some (.tmpl hd (fa w) (c.extractLsb' 0 4))
  | 23 => some (.tapeInv hd (c.extractLsb' 0 3))
  | 24 => some (.li32 hd (fd w) (fa w) c)
  | 25 => some (.xstore hd (fa w) (fb w) (c.extractLsb' 0 2))
  | _ => selExtLow hd w c

/-- The instruction that the selectors of a 32-bit word name (R227, R228). -/
def selectBase (hd : Head) (w : BitVec 32) : Option Instr :=
  match (maj w).toNat with
  | 0x01 => selAlu hd w
  | 0x02 => some (.addi hd (fd w) (fa w) (w.extractLsb' 20 12))
  | 0x03 => some (.andi hd (fd w) (fa w) (w.extractLsb' 20 12))
  | 0x04 => some (.ori hd (fd w) (fa w) (w.extractLsb' 20 12))
  | 0x05 => some (.xori hd (fd w) (fa w) (w.extractLsb' 20 12))
  | 0x06 => selShi hd w
  | 0x07 => some (.slti hd (fd w) (fa w) (w.extractLsb' 20 12))
  | 0x08 => some (.sltiu hd (fd w) (fa w) (w.extractLsb' 20 12))
  | 0x09 => some (.lhi hd (fd w) (w.extractLsb' 15 17))
  | 0x0A => some (.addpc hd (fd w) (w.extractLsb' 15 17))
  | 0x0B => selMul hd w
  | 0x0C => selBit hd w
  | 0x0D => selFps hd w
  | 0x0E => selFma hd w
  | 0x10 => some (.beq hd (fd w) (fa w) (w.extractLsb' 20 12))
  | 0x11 => some (.bne hd (fd w) (fa w) (w.extractLsb' 20 12))
  | 0x12 => some (.blt hd (fd w) (fa w) (w.extractLsb' 20 12))
  | 0x13 => some (.bge hd (fd w) (fa w) (w.extractLsb' 20 12))
  | 0x14 => some (.bltu hd (fd w) (fa w) (w.extractLsb' 20 12))
  | 0x15 => some (.bgeu hd (fd w) (fa w) (w.extractLsb' 20 12))
  | 0x16 => some (.jal hd (fd w) (w.extractLsb' 15 17))
  | 0x17 => some (.jalr hd (fd w) (fa w) (w.extractLsb' 20 12))
  | 0x18 => some (.loop hd (fa w) (w.extractLsb' 20 12))
  | 0x19 => some (.loopi hd (w.extractLsb' 10 10) (w.extractLsb' 20 12))
  | 0x1A => selLd hd w
  | 0x1B => selSt hd w
  | 0x1C => selAmo hd w
  | 0x1D => selFence hd w
  | 0x1E => some (.ldx hd (fd w) (fa w) (fb w) (w.extractLsb' 25 2) (w.extractLsb' 27 1) (w.extractLsb' 28 1))
  | 0x1F => some (.stx hd (fd w) (fa w) (fb w) (w.extractLsb' 25 2) (w.extractLsb' 28 1))
  | 0x20 => selVault hd w
  | 0x21 => selRpc hd w
  | 0x22 => selMbx hd w
  | 0x23 => selFe hd w
  | 0x24 => some (.waittk hd (w.extractLsb' 20 8))
  | 0x26 => selSys hd w
  | 0x27 => some (.csrxch hd (fd w) (fa w) (w.extractLsb' 20 12))
  | 0x28 => some (.csrbis hd (fd w) (fa w) (w.extractLsb' 20 12))
  | 0x29 => some (.csrbic hd (fd w) (fa w) (w.extractLsb' 20 12))
  | 0x2A => selVa hd w
  | 0x2B => selVc hd w
  | 0x2C => selVu hd w
  | 0x2D => selVm hd w
  | 0x2E => selVp hd w
  | _ => none

/-- The instruction that the selectors of a 32-bit word, or of a 64-bit instruction with control word c, name. -/
noncomputable def select32 (hd : Head) (w c : BitVec 32) : Option Instr :=
  if maj w == 0x3F then selExt hd w c else selectBase hd w

/-- The register forms of quadrant 10, op 011 (R225): F is bit 15. -/
noncomputable def selCReg (h : BitVec 16) : Option Instr :=
  if (h.extractLsb' 10 5) == 0 then
    (if (h.extractLsb' 5 5) == 0 then (if (h.extractLsb' 15 1) == 1 then some .cExit else none)
     else if (h.extractLsb' 15 1) == 1 then some (.cJalr (h.extractLsb' 5 5)) else some (.cJr (h.extractLsb' 5 5)))
  else if (h.extractLsb' 5 5) == 0 then none
  else if (h.extractLsb' 15 1) == 1 then some (.cAdd (h.extractLsb' 5 5) (h.extractLsb' 10 5)) else some (.cMv (h.extractLsb' 5 5) (h.extractLsb' 10 5))

/-- C.ALU (R225): sel in bits [9:8]. -/
noncomputable def selCAlu (h : BitVec 16) : Option Instr :=
  match (h.extractLsb' 8 2).toNat with
  | 0 => some (.cSrli (h.extractLsb' 5 3) (h.extractLsb' 10 6))
  | 1 => some (.cSrai (h.extractLsb' 5 3) (h.extractLsb' 10 6))
  | 2 => some (.cAndi (h.extractLsb' 5 3) (h.extractLsb' 10 6))
  | _ =>
    if (h.extractLsb' 15 1) == 1 then none
    else match (h.extractLsb' 13 2).toNat with
      | 0 => some (.cSub (h.extractLsb' 5 3) (h.extractLsb' 10 3))
      | 1 => some (.cXor (h.extractLsb' 5 3) (h.extractLsb' 10 3))
      | 2 => some (.cOr (h.extractLsb' 5 3) (h.extractLsb' 10 3))
      | _ => some (.cAnd (h.extractLsb' 5 3) (h.extractLsb' 10 3))

/-- The instruction that the selectors of a compressed form name, its illegal cases left out (R225). -/
noncomputable def select16 (h : BitVec 16) : Option Instr :=
  match (h.extractLsb' 0 2).toNat, (h.extractLsb' 2 3).toNat with
  | 0, 0 => if (h.extractLsb' 8 8) == 0 then none else some (.cAddisp (h.extractLsb' 5 3) (h.extractLsb' 8 8))
  | 0, 1 => some (.cLd (h.extractLsb' 5 3) (h.extractLsb' 8 3) (h.extractLsb' 11 5))
  | 0, 2 => some (.cSt (h.extractLsb' 5 3) (h.extractLsb' 8 3) (h.extractLsb' 11 5))
  | 0, 3 => some (.cWaittk (h.extractLsb' 8 8))
  | 1, 0 => if (h.extractLsb' 5 5) == 0 then none else some (.cAddi (h.extractLsb' 5 5) (h.extractLsb' 10 6))
  | 1, 1 => if (h.extractLsb' 5 5) == 0 then none else some (.cLi (h.extractLsb' 5 5) (h.extractLsb' 10 6))
  | 1, 2 => selCAlu h
  | 1, 3 => some (.cJ (h.extractLsb' 5 11))
  | 1, 4 => some (.cBeqz (h.extractLsb' 5 3) (h.extractLsb' 8 8))
  | 1, 5 => some (.cBnez (h.extractLsb' 5 3) (h.extractLsb' 8 8))
  | 2, 0 => if (h.extractLsb' 5 5) == 0 then none else some (.cSlli (h.extractLsb' 5 5) (h.extractLsb' 10 6))
  | 2, 1 => if (h.extractLsb' 5 5) == 0 then none else some (.cLdsp (h.extractLsb' 5 5) (h.extractLsb' 10 6))
  | 2, 2 => some (.cStsp (h.extractLsb' 5 5) (h.extractLsb' 10 6))
  | 2, 3 => selCReg h
  | _, _ => none

/-- The field checks of step 2 of R222 that an instruction's chapter makes on its fields alone. -/
def fieldsOk (i : Instr) : Bool := i.wellFormed

/-- Steps 1 and 2 of R222 on an encoding. -/
noncomputable def decodeCode (k : Code) : Except DecodeError Instr :=
  match (if k.len = 2 then select16 (k.w.setWidth 16)
         else select32 (headOf k.w (k.mask.getD 0)) k.w k.c) with
  | none => .error .illegal
  | some i => if fieldsOk i && encode i == some k then .ok i else .error .reserved

/-- Length in bytes of the instruction that begins with a parcel, without its mask word (R216). -/
def parcelLen (p : BitVec 16) : Nat :=
  if p.extractLsb' 0 2 != 3 then 2 else if p.extractLsb' 4 6 != 0x3F then 4 else 8

/-- Length of the live-mask word that follows, if any (R180). -/
def maskLen (p : BitVec 16) : Nat :=
  if p.extractLsb' 0 2 == 3 && p.extractLsb' 2 1 == 1 then 4 else 0

/-- Little-endian bytes of a number (R132). -/
def bytesOf (n : Nat) (v : Nat) : List Byte :=
  match n with
  | 0 => []
  | k + 1 => BitVec.ofNat 8 v :: bytesOf k (v / 256)

/-- The number that little-endian bytes form. -/
def ofBytes (bs : List Byte) : Nat :=
  match bs with
  | [] => 0
  | b :: r => b.toNat + 256 * ofBytes r

/-- The encoding at the head of a list of bytes (R216). -/
def codeOfBytes (bs : List Byte) : Option Code :=
  let p : BitVec 16 := BitVec.ofNat 16 (ofBytes (bs.take 2))
  let n := parcelLen p
  let k := maskLen p
  if bs.length < 2 ∨ bs.length < n + k then none
  else some ⟨n, BitVec.ofNat 32 (ofBytes (bs.take (min n 4))), if n = 8 then BitVec.ofNat 32 (ofBytes ((bs.drop 4).take 4)) else 0,
    if k = 4 then some (BitVec.ofNat 32 (ofBytes ((bs.drop n).take 4))) else none⟩

/-- The instruction at the head of a list of bytes, and the rest of the list. -/
noncomputable def decode (bs : List Byte) : Except DecodeError (Instr × List Byte) :=
  match codeOfBytes bs with
  | none => .error .short
  | some k =>
    match decodeCode k with
    | .error e => .error e
    | .ok i => .ok (i, bs.drop k.size)

/-- The bytes of an encoding: each word little-endian, the first at the lowest address (R216). -/
def Code.bytes (k : Code) : List Byte :=
  bytesOf (min k.len 4) k.w.toNat ++ (if k.len = 8 then bytesOf 4 k.c.toNat else []) ++
    (match k.mask with | some m => bytesOf 4 m.toNat | none => [])

/-- The longest instruction in bytes: two words and a mask word. -/
def maxInstrBytes : Nat := 12

/-- The bytes of an instruction whose bits are w as the opcode table numbers them, the bits above nbits zero. -/
def tableBytes (nbits w : Nat) : List Byte := bytesOf maxInstrBytes (w % 2 ^ nbits)

/-- The instruction that the decoder reads from the table's bits of a row. -/
noncomputable def decodeTableWord (nbits w : Nat) : Option Instr :=
  match decode (tableBytes nbits w) with
  | .ok (i, _) => some i
  | .error _ => none

/-- The encoding of an instruction, the empty one for an event: what retiring it and trapping at it need. -/
def codeOf (i : Instr) : Code := (encode i).getD ⟨0, 0, 0, none⟩

end Sys2Proof
end

