-- ==== Sys2Proof/Config.lean ====
section
/-! DEFINITION. Sys2Proof/Config.lean: the fixed figures of the device (R1, R46) and the free values: opaque constants with
no body, applied to a plain counter of State or to the operands, wherever the spec leaves a value open. -/

namespace Sys2Proof.Config

/-- A free 64-bit value (log 6): nothing constrains it. -/
opaque freeWord : Nat → Word

/-- A free byte (log 6). -/
opaque freeByte : Nat → Byte

/-- A free natural number, for an unspecified choice among numbered alternatives (log 6). -/
opaque freeNat : Nat → Nat

/-- The bytes after the old line in an entry of the checkpoint log: the line's PA, the writer's ASID and NUM in a layout that R404 does
not state, by their place (log 13). -/
opaque ckptByte : Nat → BitVec 12 → Nat → Nat → Byte

/-- What the management core answers over SPDM and PLDM (R409): the certificate chain of a slot, the measurements of the firmware of a
version, and the readings of platform monitoring; contents that the spec does not give (log 70). -/
opaque certificate : Nat → List Byte
opaque measurement : Option Nat → List Byte
opaque monitoring : Nat → List Byte

/-- Whether the host's completer supports the AtomicOps (R18). -/
opaque hostAtomics : Bool

/-- Number of cores (R1). -/
def cores : Nat := 2048

/-- Number of clusters (R1). -/
def clusters : Nat := 256

/-- tRCD (R46). -/
def tRCD : Nat := 14
/-- tRP (R46). -/
def tRP : Nat := 14
/-- tRAS (R46). -/
def tRAS : Nat := 34
/-- tRC (R46). -/
def tRC : Nat := 48
/-- tRFCpb (R46). -/
def tRFC : Nat := 256
/-- tRFM (R46). -/
def tRFM : Nat := 384
/-- Spacing of refresh slots (R46). -/
def tSlot : Nat := 2000
/-- Spacing of refresh slots while refresh is doubled (R46). -/
def tSlotDoubled : Nat := 1000
/-- Copy of an open row into the refresh shadow (R56). -/
def tShadow : Nat := 16
/-- Period at which the temperature sensors are sampled (R69). -/
def samplePeriod : Nat := 10000
/-- The two-millisecond watchdogs (R103, R398). -/
def watchdog : Nat := 2100000
/-- The busy timeout of a handler entry (R113). -/
def busyTimeout : Nat := 10500
/-- Resend interval of a refused watch (R123). -/
def watchRetry : Nat := 1050
/-- Life of a watch in TIME ticks (R124). -/
def watchTicks : Nat := 100000000
/-- Timeout of MBX.WAIT in clk (R286). -/
def mbxTimeout : Nat := 1050000000
/-- Wait on a locked line before a machine check (R152). -/
def lineTimeout : Nat := 21000
/-- One step of priority ageing (R386). -/
def ageStep : Nat := 52500
/-- Migration deadline (R398). -/
def migrateClk : Nat := 105000
/-- Retry interval of a pool lock (R95). -/
def lockRetry : Nat := 4
/-- Resend interval of a refused LOCK (R150). -/
def commitRetry : Nat := 64

end Sys2Proof.Config
end

