-- ==== Sys2Proof/Machine/State.lean ====
section
/-! DEFINITION. Sys2Proof/Machine/State.lean: the state of the device as plain data, unit by unit, its reset, and the reasons
for which a step stops. Each field cites the rule that gives it. -/

namespace Sys2Proof.Machine

/-- Bytes at addresses in one canonical form: addresses strictly rising, no entry zero; an unlisted address reads zero
(R83 for pools; log 3 elsewhere). -/
abbrev Memory := List Host.Cell

/-- The three states of a register (R183). -/
inductive RegSt where
  | full | pending | void
  deriving DecidableEq, Repr

/-- One entry of the live loop stack (R176). -/
structure LoopEnt where
  start : Word
  stop : Word
  count : Word
  deriving DecidableEq, Repr

/-- A token (R185) with the record of its first fault (R392). -/
structure Token where
  count : Nat
  fault : Bool
  more : Bool
  record : Word
  deriving DecidableEq, Repr

/-- A fault signalled under a token and the command number at which a WAITTK discharged it (R187). -/
structure FaultRec where
  seq : Nat
  tok : BitVec 3
  discharged : Option Nat
  deriving DecidableEq, Repr

/-- Kinds of message (R109). -/
inductive MsgKind where
  | rload | rstore | ramo | rcall | travel | mbxadd | mbxwatch | chunk | copyreq | vpjob | repcommit | xact | ptread
  deriving DecidableEq, Repr

/-- A vault pipeline job as the issuing core sends it (R343 to R347). -/
structure Job where
  /-- SELQ rather than VPIPE -/
  sel : Bool
  block : List Byte
  /-- physical addresses of the bytes of the elements of the four streams, translated at issue (R36) -/
  streams : List (List Nat)
  /-- physical address and length of each line of the result area -/
  dest : List (Nat × Nat)
  resident : Bool
  flt : Bool
  rr : Bool
  deriving DecidableEq, Repr

/-- Where a message comes from: a hart of this device, the device itself on behalf of a hart (REPCOMMIT), a peer device, or a function
of the host; each peer device and each host function counts as a source of its own (R117, R122, R136). -/
inductive Origin where
  | own
  | protocol
  | peer
  | host (fn : Nat)
  deriving DecidableEq, Repr

/-- Whom an acceptance notice acknowledges: the sender, its epoch and the message (R140). -/
structure Ack where
  dst : HartId
  epoch : BitVec 8
  msg : Nat
  deriving DecidableEq, Repr

/-- A message: an arrival record of R108 with what the model carries beside its fields. -/
structure Msg where
  /-- number of the message in sending order, device wide -/
  id : Nat
  kind : MsgKind
  src : HartId
  srcDev : BitVec 16
  /-- core from which it was sent (R121) -/
  sentBy : Nat
  /-- target device and core -/
  dev : BitVec 16
  core : Nat
  hidx : Nat
  rr : Bool
  rreg : Reg
  asid : BitVec 12
  ord : BitVec 2
  addr : Word
  data : Word
  cmp : Word
  /-- access size in bytes -/
  size : Nat
  op : Nat
  hops : Nat
  /-- the engine command that the message belongs to (TK, TKV) -/
  cmd : Option Nat
  tk : BitVec 3
  epoch : BitVec 8
  seq : BitVec 32
  /-- argument entry x8 to x15 -/
  args : List Word
  /-- payload bytes with their physical addresses (CHUNK, REPCOMMIT, XACT); of a COPYREQ, what its sources held before elements of
  the same copy were written over them (R126) -/
  bytes : List Host.Cell
  /-- copy elements: source, destination, size -/
  elems : List (Nat × Nat × Nat)
  job : Option Job
  /-- step of a protocol message: 0 lock, 1 data, 2 unlock; MBXWATCH: 0 read, 1 watch, 2 withdrawal -/
  sub : Nat
  /-- loads and stores of the sender that come before the execution (R136) -/
  afterLoads : Nat
  afterSb : Nat
  /-- release ordering (R136) -/
  rel : Bool
  /-- what a FENCE.REL before it orders before its execution: stores and messages by their numbers (R140) -/
  relSb : List Nat
  relIds : List Nat
  /-- clk since which the arrival has waited on a BUSY entry (R113) -/
  since : Option Nat
  org : Origin
  /-- a buffer-free notice: the router (a cluster of the stack) at which it stands, and the child from which it came (R129) -/
  router : Option (Nat × Nat)
  /-- buffer-free notices that it combines, acknowledged with it -/
  acks : List Ack
  deriving DecidableEq, Repr

/-- Kinds of answer on the reply channel (R118). -/
inductive ReplyKind where
  | fill | nack | endNotice | accept | vote | ack | repGrant | repAck | repFull | watchRetry | pte
  deriving DecidableEq, Repr

/-- An answer on the reply channel (R115, R117, R121, R140, R150, R155). -/
structure Reply where
  kind : ReplyKind
  /-- the message it answers -/
  msg : Nat
  mkind : MsgKind
  dst : HartId
  epoch : BitVec 8
  /-- the register to fill -/
  reg : Option Reg
  value : Word
  cause : BitVec 8
  status : BitVec 8
  /-- the target core and device of the message answered -/
  core : Nat
  dev : BitVec 16
  /-- vault status (R67) of a read -/
  vst : Option Nat
  waited : Nat
  hit : Bool
  /-- the engine command to signal -/
  cmd : Option Nat
  /-- traveller count of this core to decrement (R121) -/
  trav : Option Nat
  /-- copy elements that the answer accounts for (R126) -/
  parts : Nat
  /-- the word that no code corrects, for which a copy was refused (R127, R392) -/
  word : Option Nat
  ok : Bool
  org : Origin
  deriving DecidableEq, Repr

/-- An engine command as it was issued (R142, R185, R224, R440). -/
structure Cmd where
  /-- program order among the commands of the thread -/
  seq : Nat
  ins : Instr
  tk : BitVec 3
  wait : BitVec 8
  /-- values of the registers named by rd, rs1 and rs2 at issue -/
  vd : Word
  va : Word
  vb : Word
  /-- x8 to x15 of an RCALL -/
  args : List Word
  /-- w rows of an MMA with ASRC = 3, read at issue (R336) -/
  wdata : Memory
  /-- loads and stores before the kick, and messages before it (R142) -/
  kickLoads : Nat
  kickSb : Nat
  kickMsg : Nat
  /-- lease slot on which a matrix command acts -/
  slot : Option Nat
  /-- issued by the tape sequencer (R145) -/
  tape : Bool
  /-- PTROOT.ASID at issue (R41) -/
  asid : BitVec 12
  /-- core from which it was issued: its engines go on with it when its thread resumes on another core (R159, R188) -/
  home : Nat
  deriving DecidableEq, Repr

/-- Why the preparation of a tile load's next segment did not begin (R60, R72). -/
inductive SegStop where
  | repair
  | band
  deriving DecidableEq, Repr

/-- A segment of a tile load: the bytes of the tile in one row of one bank (R53). -/
structure Seg where
  bank : Nat
  row : Nat
  /-- source physical address, destination key, size, tile row; destination keys name buffer bytes or pool addresses -/
  moves : List (Nat × Nat × Nat × Nat)
  /-- moves of it that have been made ahead of the rest (R134) -/
  done : List (Nat × Nat × Nat × Nat)
  deriving DecidableEq, Repr

/-- A command that has left its queue and has not signalled. -/
structure Flight where
  cmd : Cmd
  /-- physical addresses of its footprint: reads and writes, element by element (R36) -/
  src : List (Nat × Nat × Nat)
  /-- segments of a tile load: those to come and those moved -/
  segs : List Seg
  moved : List Seg
  /-- tile rows complete (R54) -/
  rows : Nat
  /-- fault with which it will signal: cause, status, VALUE (R392) -/
  fault : Option (BitVec 8 × BitVec 4 × BitVec 48)
  /-- its answer is outstanding at another unit: copy, call, job, play -/
  remote : Bool
  /-- parts of a copy still to be accepted -/
  parts : Nat
  /-- a tile load that has moved a segment -/
  started : Bool
  /-- segments of a tile load whose preparation has begun (R53) -/
  asked : Nat
  /-- the next segment is stopped, as found at a clk when its preparation would have begun (R60, R72, R77) -/
  stopped : Option (SegStop × Nat)
  /-- what it writes has been computed, and the units of it that are still to be accepted (R134) -/
  written : Bool
  out : List (Nat × List Byte)
  deriving DecidableEq, Repr

/-- What a store-buffer entry does when its home accepts it (R135). -/
structure SbEnt where
  num : Nat
  /-- physical address, size and data of each part -/
  parts : List (Nat × Nat × Word)
  /-- loads of the hart before it, which must be performed first -/
  afterLoads : Nat
  /-- messages of the hart before it, for a release (R141) -/
  afterMsg : Option Nat
  /-- messages that a FENCE.REL before it orders before it (R140) -/
  afterIds : List Nat
  /-- port of its requests at pool banks (R84) -/
  port : Nat
  /-- STU: the pool lock cleared at acceptance (R95) -/
  unlock : Option (Nat × Nat × Nat)
  /-- replicated page: the mask of its translation (R31) -/
  rep : Option (BitVec 256)
  asid : BitVec 12
  deriving DecidableEq, Repr

/-- Destination of a load in flight (R268, R298). -/
inductive LoadDst where
  /-- an x register; sign-extended unless zero-extended -/
  | x (rd : Reg) (sx : Bool)
  /-- a vector register, lane by lane -/
  | v (vd : Reg)
  /-- a long vector register -/
  | w (vd : Reg)
  deriving DecidableEq, Repr

/-- A load in flight (R135, R268). -/
structure LoadEnt where
  num : Nat
  dst : LoadDst
  /-- physical address and size of each part in lane order -/
  parts : List (Nat × Nat)
  /-- lines asked of banks of a vault, as physical addresses divided by 64 (R50) -/
  asks : List Nat
  /-- lines that pool banks have not served yet (R84) -/
  pool : Nat
  /-- bytes of units bound already (R134) -/
  got : List Host.Cell
  /-- LD.ACQ: every later access comes after it (R141) -/
  acq : Bool
  /-- PTROOT.ASID at issue (R41) -/
  asid : BitVec 12
  deriving DecidableEq, Repr

/-- A cached leaf (R24, R32). -/
structure TlbEnt where
  asid : BitVec 12
  va : Nat
  size : Nat
  pa : Nat
  r : Bool
  w : Bool
  x : Bool
  u : Bool
  g : Bool
  clid : BitVec 4
  /-- replicated page: its mask (R29) -/
  rep : Option (BitVec 256)
  deriving DecidableEq, Repr

/-- What asks for a translation: the instruction at which a hart stands, or a command of its engine queues (R33, R36). -/
structure Asker where
  hart : HartId
  /-- number of the command -/
  cmd : Option Nat
  /-- the core whose TLBs it uses -/
  home : Nat
  deriving DecidableEq, Repr

/-- A miss of a second-level TLB (R33 to R35). -/
structure Miss where
  who : Asker
  asid : BitVec 12
  va : Nat
  ptroot : Word
  repset : Word
  deriving DecidableEq, Repr

/-- The answer of a walk to an asker that has not used it yet (R34); one of a walk that a TLBINV has overtaken serves once
(R40). -/
structure Walked where
  cmd : Option Nat
  /-- the 4 KB page asked for, and the registers under which it was (R22, R29) -/
  va : Nat
  ptroot : Word
  repset : Word
  /-- none where translation fails, with the cause of it -/
  leaf : Option TlbEnt
  cause : BitVec 8
  stale : Bool
  deriving DecidableEq, Repr

/-- An entry of a transaction (R293). -/
structure XEnt where
  pa : Nat
  size : Nat
  data : Word
  /-- the leaf through which its address was translated (R296) -/
  leaf : TlbEnt
  deriving DecidableEq, Repr

/-- A transaction (R154, R155, R293, R294). -/
structure Xact where
  ents : List XEnt
  overflow : Bool
  interrupted : Bool
  /-- the commit: vaults asked, those that granted, those that refused (false) or failed (true), data acknowledged -/
  asked : List Nat
  granted : List Nat
  refused : List (Nat × Bool)
  acked : List Nat
  committing : Bool
  deriving DecidableEq, Repr

/-- A replicated commit under way (R150). -/
structure Commit where
  /-- offsets of the lines in every copy's vault, divided by 64 -/
  lines : List Nat
  home : Nat
  others : List Nat
  /-- 1 HOMELOCK, 2 LOCKALL, 3 UPDATE, 4 HOMEUPD -/
  stage : Nat
  waiting : List Nat
  retry : Table Nat Nat
  num : Nat
  deriving DecidableEq, Repr

/-- How a handler context ends (R103). -/
inductive Ending where
  /-- REPLY, HRET or EXIT with the reply value -/
  | reply (v : Word)
  /-- a trap, the watchdog or a faulted copy: cause and status of the NACK -/
  | nack (cause status : BitVec 8)
  /-- MIGRATE of a traveller: the next hop -/
  | hop (m : Msg)
  deriving DecidableEq, Repr

/-- A safe-point or blocking wait at which a thread stands (R172, R181). -/
inductive Wait where
  /-- LDL or pool AMO retrying lock (bank, index): retries, clk of the next one (R95) -/
  | lock (cluster bank idx : Nat) (n : Nat) (next : Nat)
  /-- the lock was granted at a retry, and the instruction goes on -/
  | locked (cluster bank idx : Nat)
  /-- MBX.WAIT with rd = x0: message or own watch outstanding (R286) -/
  | mbx
  /-- LEASE queued (R322) -/
  | lease
  /-- LEASE granted slot n, to be written by the instruction -/
  | leased (n : Nat)
  /-- XCOMMIT under way (R155) -/
  | commit
  /-- HSET or HCLR under way on an entry (R113) -/
  | entry (n : Nat)
  /-- the entry write has completed -/
  | entryDone (n : Nat)
  /-- EXIT draining (R170) -/
  | exit
  /-- HALT draining (R255) -/
  | halt
  /-- the unit was killed, with the cause recorded for it; it completes once its commands have signalled (R163) -/
  | killed (cause : BitVec 8)
  /-- taken at a safe point under a live mask, its state to be saved (R181, R397) -/
  | taken (mask : BitVec 32)
  /-- a handler context ending once its copies have signalled (R282, R291) -/
  | ending (e : Ending)
  /-- a long-mode instruction waits for the unit (R175) -/
  | lvu
  /-- the bytes of the instruction: a bank that an event blocks, a held line or a walk -/
  | fetch
  /-- a TLBINV that has dropped its entries waits for the holders of R41: harts with the loads, stores and commands that they
  had issued, and the messages sent before it -/
  | inv (holders : List (HartId × Nat × Nat × Nat)) (msgs : Nat)
  /-- any other stall at the instruction: register, token count, fence, buffer, TRAVMAX, table, tape -/
  | stall
  deriving DecidableEq, Repr

/-- The guard values and the state of a recording (R360 to R364). -/
structure Recording where
  id : Nat
  base : Nat
  max : Nat
  n : Nat
  full : Bool
  abandoned : Bool
  asid : BitVec 12
  asgen : Word
  vaultgen : BitVec 32
  long : Bool
  core : Nat
  pmask : BitVec 16
  exts : Table Nat Nat
  wneed : Bool
  wsrc : Bool
  wfmt0 : BitVec 4
  /-- WSH or WLAT format set since TAPE.REC -/
  wshSet : Bool
  wlatSet : Bool
  deriving DecidableEq, Repr

/-- The tape sequencer of a slot (R369 to R373). -/
structure Play where
  seq : Nat
  id : Nat
  start : Nat
  next : Nat
  /-- commands it has issued -/
  issued : List Nat
  /-- the reason and the index at which it stopped (R369, R373) -/
  stopped : Option (BitVec 4 × Nat)
  /-- accesses before TAPE.PLAY (R145) -/
  kickLoads : Nat
  kickSb : Nat
  kickMsg : Nat
  deriving DecidableEq, Repr

/-- State of a thread slot (R394) and its freezing by a machine check (R389). -/
inductive SlotSt where
  | idle | running | halted | saved | frozen
  deriving DecidableEq, Repr

/-- A watch on a mailbox counter (R123, R124, R286). -/
structure Watch where
  src : HartId
  epoch : BitVec 8
  counter : Nat
  target : BitVec 32
  expiry : Word
  reg : Option Reg
  msg : Nat
  org : Origin
  deriving DecidableEq, Repr

/-- An MBX.WAIT of a thread under way (R286). -/
structure MbxWait where
  name : Word
  target : BitVec 32
  reg : Option Reg
  issued : Nat
  /-- own counter: the slot's own watch; otherwise a message, with the clk at which it is sent again -/
  own : Bool
  msg : Nat
  resend : Option Nat
  deriving DecidableEq, Repr

/-- The control and status registers a hart holds (R264). -/
structure HartCsrs where
  fcsr : Word
  vcsr : Word
  unitid : Word
  launchid : Word
  tkfault : Word
  msgerr : Word
  /-- save area of the loop stack (R179): starts, ends, counts, depth -/
  lstart : Table Nat Word
  lend : Table Nat Word
  lcount : Table Nat Word
  ldepth : Word
  tstatus : Word
  tvec : Word
  tepc : Word
  tcause : Word
  tval : Word
  tscratch : Word
  ptroot : Word
  safemask : Word
  preempt : Word
  repset : Word
  vlast : Word
  plockstat : Word
  /-- patch windows (R354) -/
  pbase : Table Nat Word
  plen : Table Nat Word
  deriving DecidableEq, Repr

/-- A message sent and not yet performed in the sense of R140: its number, target core and device, whether it reads, whether it writes, and
the epoch of the unit or context that sent it. -/
structure Sent where
  id : Nat
  core : Nat
  dev : BitVec 16
  read : Bool
  writes : Bool
  epoch : BitVec 8
  deriving DecidableEq, Repr

/-- A register that a message, a watch or a job will fill (R138), with the target of its producer. -/
structure Fill where
  reg : Reg
  core : Nat
  dev : BitVec 16
  deriving DecidableEq, Repr

/-- What a hart has under way with other units. -/
structure HartBusy where
  /-- tokens k0 to k7 (R185) -/
  tokens : Table (BitVec 3) Token
  faults : List FaultRec
  /-- the seven engine queues (R440) -/
  queues : Table Nat (List Cmd)
  flights : List Flight
  nextSeq : Nat
  /-- store buffer (R135): entries, stores issued, stores visible -/
  sb : List SbEnt
  sbNext : Nat
  /-- loads in flight, loads issued -/
  loads : List LoadEnt
  loadNext : Nat
  /-- messages sent and not yet performed (R140) -/
  posted : List Sent
  /-- registers awaiting their fill (R138) -/
  fills : List Fill
  /-- acquire messages whose reply has not arrived (R136) -/
  acq : List Nat
  /-- messages sent to each core of each device, by device × 65,536 + core (R108) -/
  sent : Table Nat Nat
  xact : Option Xact
  commit : Option Commit
  mbx : List MbxWait
  /-- how the MBX.WAIT with rd = x0 at which the hart stands has ended: 0, or the cause of its timeout or NACK, with the status -/
  mbxEnd : Option (BitVec 8 × BitVec 8)
  recording : Option Recording
  play : Option Play
  plays : List Play
  /-- answers of walks not used yet (R34) -/
  walked : List Walked
  /-- what FENCE.REL orders before later stores, AMOs and sends: loads, stores and messages by their numbers (R140) -/
  relLoads : List Nat
  relSb : List Nat
  relIds : List Nat
  deriving DecidableEq, Repr

/-- What a handler context holds beside a thread's registers (R102 to R104, R120, R291). -/
structure CtxInfo where
  arrival : Option Msg
  traveller : Bool
  start : Nat
  copies : List Nat
  copyFault : Option (BitVec 8)
  deriving DecidableEq, Repr

/-- A hart: thread slot, handler context or management core (R131, R230). -/
structure Hart where
  x : Table Reg Word
  xSt : Table Reg RegSt
  v : Table Reg (BitVec 256)
  vSt : Table Reg RegSt
  pc : Word
  csr : HartCsrs
  loops : List LoopEnt
  st : SlotSt
  wait : Option Wait
  /-- live mask of the safe point at which the hart stands (R181) -/
  safe : Option (BitVec 32)
  epoch : BitVec 8
  lease : Option Nat
  /-- pool lock held: cluster, bank, index (R95) -/
  lock : Option (Nat × Nat × Nat)
  pauseTo : Nat
  /-- clk at which REQ or KILL was set, and whether the migration deadline has passed since (R398) -/
  reqClk : Nat
  late : Bool
  /-- instruction bytes fetched ahead (R260) -/
  fetched : Memory
  busy : HartBusy
  ctx : CtxInfo
  /-- the unit that runs: stack, launch slot, unit index (R160) -/
  unit : Option (Nat × Nat × Nat)
  deriving DecidableEq, Repr

/-- A row of a bank, addressable or spare (R43). -/
structure RowRef where
  row : Nat
  spare : Bool
  deriving DecidableEq, Repr

/-- What asks a bank for bytes of a row: a load in flight, the instruction at which a hart stands, an arrival or a job by its
message, an engine command, a walk of a stack, a host function, a fetch ahead, or the drain of the write buffer (R45, R51, R79, R148). -/
inductive Reader where
  | load (h : HartId) (num : Nat)
  | instr (h : HartId)
  | msg (id : Nat)
  | cmd (h : HartId) (seq : Nat)
  | walk (stack id : Nat)
  /-- a host function reads at an address -/
  | host (fn pa : Nat)
  /-- bytes fetched ahead of their use (R260) -/
  | ahead (h : HartId)
  /-- a line of the write buffer is written into its row (R79) -/
  | drain (line : Nat)
  deriving DecidableEq, Repr

/-- What a request in a bank's queue asks (R50, R51). -/
inductive VReqKind where
  | read (who : Reader)
  | act
  | pre
  deriving DecidableEq, Repr

/-- A request in a bank's queue with the events it has waited for (R51, R67). -/
structure VReq where
  kind : VReqKind
  row : Nat
  line : Nat
  /-- bytes read: from this offset in the line on, within the row -/
  lo : Nat
  n : Nat
  at_ : Nat
  vst : Nat
  lastEv : Nat
  waited : Nat
  /-- queued ahead of an activation that reached MAT, or the cause of it (R65) -/
  ahead : Bool
  /-- its row is activated on its account -/
  opened : Bool
  deriving DecidableEq, Repr

/-- A read of a row that has been served: its transfer has begun (R51, R67). -/
structure Grant where
  who : Reader
  /-- its first line, and how many there are -/
  line : Nat
  lines : Nat
  vst : Nat
  lastEv : Nat
  waited : Nat
  hit : Bool
  /-- clk at which the transfer ends -/
  stop : Nat
  /-- it serves bytes of one aligned 8-byte word: one event of the device order (R134) -/
  single : Bool
  deriving DecidableEq, Repr

/-- A row repair under way (R58). -/
structure Repair where
  row : Nat
  spare : Nat
  start : Nat
  /-- clk at which the copy began, once it has -/
  copy : Option Nat
  deriving DecidableEq, Repr

/-- A bank of a vault (R43, R48, R51, R55, R58, R63, R65). -/
structure Bank where
  opened : Option RowRef
  /-- clk of the latest activation and of the latest precharge (R46) -/
  actClk : Option Nat
  preClk : Option Nat
  /-- the bank before its latest activation: the row then open, the clk at which it was precharged for it, and the activation of that -/
  prior : Option (Option RowRef × Nat × Option Nat)
  /-- end of the latest transfer, and of the latest transfer of a tile load's segment (R65, R73) -/
  xferEnd : Nat
  segEnd : Nat
  q : List VReq
  /-- start of the refresh in progress and the shadowed row (R56) -/
  refresh : Option (Nat × Option RowRef)
  refPending : Bool
  refPtr : Nat
  /-- row that reached MAT and awaits its hold -/
  holdPend : Option RowRef
  /-- hold in progress: aggressor and start -/
  hold : Option (RowRef × Nat)
  repairReq : List Nat
  repair : Option Repair
  /-- rows replaced by spares, the latest replacement first: every spare here is used -/
  map : Table Nat Nat
  counts : Table (Bool × Nat) Nat
  deriving DecidableEq, Repr

/-- What writes bytes at their home: a hart, by its own access or by a message, under an address space. -/
structure Writer where
  hart : HartId
  asid : BitVec 12
  msg : Bool
  deriving DecidableEq, Repr

/-- A line of the vault write buffer (R79): line number in the vault, bytes by offset, its 8-byte words that SEC-DED cannot correct
(R400), the harts that stored and whether by a message (R80). -/
structure WLine where
  line : Nat
  bytes : List (Nat × Byte)
  bad : List Nat
  by_ : List (HartId × Bool)
  asid : BitVec 12
  deriving DecidableEq, Repr

/-- A held line of the line-lock table (R149, R151): owner hart, whether a transaction, queued locks, and since when an access has
waited on it (R152). -/
structure LineLock where
  line : Nat
  owner : HartId
  xact : Bool
  queue : List Msg
  since : Option Nat
  checked : Bool
  /-- a write from outside the device has met it -/
  outside : Bool
  deriving DecidableEq, Repr

/-- A checkpoint log entry (R404): line address, old bytes, writer's ASID, interval. -/
structure CkptEnt where
  pa : Nat
  old : List Byte
  asid : BitVec 12
  num : Nat
  deriving DecidableEq, Repr

/-- A job taken by the vault pipeline, with its outcome awaiting acceptance (R348). -/
structure JobRun where
  msg : Msg
  writes : List (Nat × List Byte)
  fill : Word
  fault : Option (BitVec 8 × BitVec 48)
  deriving DecidableEq, Repr

/-- A vault and its controller. -/
structure Vault where
  banks : Table Nat Bank
  /-- clk of the latest activations (R47) -/
  acts : List Nat
  wbuf : List WLine
  log : List (BitVec 128)
  lost : Nat
  ie : Bool
  gen : BitVec 32
  mat : Nat
  /-- number and clk of the next refresh slot (R55) -/
  slotN : Nat
  slotClk : Nat
  locks : List LineLock
  jobs : List JobRun
  ckpt : List CkptEnt
  ckptLines : List Nat
  /-- reads served and not yet used by what asked for them -/
  served : List Grant
  /-- end of the bus's latest transfer in half clk, and the line that it moved last (R45) -/
  busHalf : Nat
  lastLine : Option Nat
  /-- reported degraded, a repair of a row with a lasting fault having failed (R401) -/
  degraded : Bool
  deriving DecidableEq, Repr

/-- State of a handler-table entry (R111). -/
inductive EntrySt where
  | empty | valid | busy
  deriving DecidableEq, Repr

/-- A handler-table entry (R111), with what an HSET in progress will make of it. -/
structure HEntry where
  ptroot : Word
  pc : Word
  st : EntrySt
  priv : Bool
  anyas : Bool
  /-- the writing hart and the new entry (none: HCLR) -/
  next : Option (HartId × Option (Word × Word × Bool × Bool))
  deriving DecidableEq, Repr

/-- State of a tape ID (R353). -/
inductive TapeSt where
  | empty | recording | loading | valid
  deriving DecidableEq, Repr

/-- A tape of a core (R352): first slot, slots reserved. -/
structure TapeEnt where
  st : TapeSt
  base : Nat
  len : Nat
  deriving DecidableEq, Repr

/-- A core with its agent. -/
structure Core where
  long : Bool
  w : Table Reg (BitVec 16384)
  wSt : Table Reg RegSt
  tlb : List TlbEnt
  agentTlb : List TlbEnt
  tmpl : Table Nat (List Byte)
  mbx : Table Nat (BitVec 32)
  watches : List Watch
  ht : Table Nat HEntry
  htbase : Word
  htgen : BitVec 32
  spillBase : Nat
  spillQuota : Nat
  /-- SPILLBASE and SPILLQUOTA written while the ring held entries (R107) -/
  spillNext : Option (Nat × Nat)
  travMax : Nat
  inflight : Nat
  hfault : Bool
  hwm : Nat
  breach : Nat
  breachEp : Bool
  rhead : Nat
  ondie : List Msg
  ring : List Msg
  /-- arrivals that the service path has taken and whose accesses are not done (R105, R110) -/
  serving : List Msg
  tapes : Table Nat TapeEnt
  /-- thread slots, least recently issued first, and in how many turns of the core each has been passed over while ready (R172) -/
  order : List Nat
  passed : Table Nat Nat
  retired : Bool
  /-- bound to a resumed core group (R182) -/
  reserved : Bool
  cycOff : Word
  /-- CYCLE written: from this count of the cluster's cycles on, another offset (R265) -/
  cycNext : Option (Nat × Word)
  deriving DecidableEq, Repr

/-- A pool lock bit (R94, R95): holder and the port to which it was last granted. -/
structure PLock where
  holder : Option HartId
  port : Nat
  deriving DecidableEq, Repr

/-- A load waiting for a pool bank to serve a line (R84); the line as its physical address divided by 64. -/
structure PReq where
  port : Nat
  bank : Nat
  line : Nat
  h : HartId
  num : Nat
  deriving DecidableEq, Repr

/-- State of a lease slot (R323). -/
inductive LeaseSt where
  | free | held | draining
  deriving DecidableEq, Repr

/-- A lease slot of the matrix array (R321, R326). -/
structure LeaseSlot where
  st : LeaseSt
  holder : Option HartId
  ob0 : Memory
  ob1 : Memory
  wsh : Memory
  wshFmt : BitVec 4
  wshScale : BitVec 32
  wlat : Memory
  wlatFmt : BitVec 4
  wlatScale : BitVec 32
  working : Memory
  visible : Memory
  /-- NX, UF, OF, DZ, NV in bits 0 to 4, as FCSR orders them -/
  flags : BitVec 5
  poisonW : List Nat
  poisonV : List Nat
  /-- 8-byte words of OB0, OB1, WSH and WLAT (0 to 3) that SEC-DED cannot correct (R321, R336) -/
  ecc : List (Nat × Nat)
  /-- last writer of OB0, OB1, WSH faulted (R332) -/
  badOb0 : Bool
  badOb1 : Bool
  badWsh : Bool
  /-- formats tracked at issue (R362) -/
  trkWsh : BitVec 4
  trkWlat : BitVec 4
  deriving DecidableEq, Repr

/-- A unit saved by pre-emption (R181, R397). Its thread is kept as a hart of the core whose number is none of the four slots', where
its commands go on and its fills arrive (R117, R159, R188). -/
structure Saved where
  who : HartId
  /-- the mask used -/
  mask : BitVec 32
  long : Bool
  w : Table Reg (BitVec 16384)
  acc : Option LeaseSlot
  /-- saved pool ranges, by plain offset -/
  pool : Memory
  ranges : List (Nat × Nat)
  /-- words of those ranges that no code corrects, by plain offset ÷ 8 (R83) -/
  poolBad : List Nat
  spilled : Bool
  /-- the slot from which it was taken, and the clk of the save: what one save took from a core is a core group (R182) -/
  owner : HartId
  clk : Nat
  /-- whether the thread runs or is halted once it resumes -/
  st : SlotSt
  deriving DecidableEq, Repr

/-- A combine entry of a router (R129): sender core, counter, the router next towards the sender, the notices of each child that have not
been forwarded, tiles outstanding. A child is a core of the router's cluster, or another router, numbered from 2,048 on. -/
structure Combine where
  core : Nat
  mbx : Nat
  up : Option Nat
  queues : Table Nat (List (List Ack))
  tiles : Nat
  deriving DecidableEq, Repr

/-- What a leader of a lockstep pair has committed with an instruction: the hart afterwards, and what the trailer has on the same
inputs, 2 clk behind (R402). -/
structure Trail where
  hart : HartId
  due : Nat
  lead : Hart
  trail : Hart
  deriving DecidableEq, Repr

/-- A cluster: pool, array, long vector unit, shadow storage. -/
structure Cluster where
  locks : Table (Nat × Nat) PLock
  pq : List PReq
  ports : Table Nat Nat
  tlb : List TlbEnt
  /-- miss queue of the second-level TLB (R35) -/
  misses : List Miss
  slots : Table Nat LeaseSlot
  turn : Option Nat
  turnCmds : Nat
  turnClk : Nat
  turnSpent : Bool
  lastTurn : Nat
  leaseQ : List HartId
  budCmds : Nat
  budTclk : Nat
  lvuLast : Nat
  lvuQ : List HartId
  /-- hart whose instruction the long vector unit has taken (R175) -/
  lvuNow : Option HartId
  step : Nat
  cycBase : Nat
  cycClk : Nat
  saves : List Saved
  saving : List HartId
  combine : List Combine
  gated : Bool
  engRetired : Bool
  halted : Bool
  /-- commits of this cluster as the leader of a pair that have not been compared, oldest first (R402) -/
  trail : List Trail
  deriving DecidableEq, Repr

/-- State of a work item (R161). -/
inductive ItemSt where
  | opened | sealed | cancelling | done
  deriving DecidableEq, Repr

/-- A work item above the unit (R160 to R162, R388). -/
structure Item where
  used : Bool
  st : ItemSt
  isSealed : Bool
  status : Nat
  live : Nat
  errcause : BitVec 8
  errunit : BitVec 32
  gen : BitVec 16
  parent : Nat
  ccb : Nat
  deriving DecidableEq, Repr

/-- A launch (R160, R382 to R386). -/
structure Launch where
  item : Item
  record : List Byte
  hq : Nat
  prio : Nat
  ptroot : Word
  /-- order of creation in the stack -/
  num : Nat
  /-- items it depends on: table (0 launch, 1 graph, 2 phase) and ID -/
  deps : List (Nat × Nat)
  /-- clk at which it became ready -/
  ready : Option Nat
  /-- clk since which it is ready without dispatching, and the levels gained since (R386) -/
  since : Nat
  boost : Nat
  /-- every unit below it is dispatched or ended; the others that are -/
  next : Nat
  sent : List Nat
  deriving DecidableEq, Repr

/-- A hardware queue (R378, R379). -/
structure Hq where
  ctl : Word
  root : Word
  ccb : Word
  base : Word
  head : BitVec 32
  tail : BitVec 32
  st : Nat
  ecause : BitVec 8
  flushed : BitVec 24
  deriving DecidableEq, Repr

/-- A walk in flight (R33, R34). -/
structure Walk where
  id : Nat
  asid : BitVec 12
  va : Nat
  level : Nat
  table : Nat
  repset : Word
  /-- what has been read for the level at which it stands, by address: an entry, the other members of its contiguity group, the masks of
  replica sets; none for one that no code corrects (R27, R29, R33, R81) -/
  got : Table Nat (Option Nat)
  waiters : List Miss
  stale : Bool
  deriving DecidableEq, Repr

/-- A walk-cache pointer entry (R33): ASID, level reached, index path, table. -/
structure WalkPtr where
  asid : BitVec 12
  level : Nat
  path : Nat
  table : Nat
  deriving DecidableEq, Repr

/-- Notices on the management channel (R118). -/
inductive Notice where
  | queueFault (core : Nat)
  | hqFault (q : Nat)
  | vaultEvent (core : Nat)
  | rollback (num : Nat)
  | machineCheck (core : Nat) (val : Word)
  | lineCheck (core line : Nat) (owner : HartId)
  | recovery (layer : Nat)
  deriving DecidableEq, Repr

/-- What the snapshot registers of a stack's blocks have latched, at a clk: the blocks as they were (R405, R414). -/
structure Snapshot where
  clk : Nat
  harts : Table HartId Hart
  cores : Table Nat Core
  vaults : Table Nat Vault
  clusters : Table Nat Cluster
  hqs : Table Nat Hq
  launches : Table Nat Launch
  walks : List Walk
  deriving DecidableEq, Repr

/-- A stack: scheduler, walkers, sensors. -/
structure Stack where
  temps : Table Nat Nat
  bands : Table Nat Nat
  resetClk : Nat
  hqs : Table Nat Hq
  launches : Table Nat Launch
  graphs : Table Nat Item
  phases : Table Nat Item
  jobs : Table Nat Item
  launchNum : Nat
  walks : List Walk
  wcache : List WalkPtr
  walkNum : Nat
  /-- cluster whose miss the walker pool took last (R33) -/
  missLast : Nat
  /-- clk since reset of the next sample of the sensors (R69) -/
  sampleClk : Nat
  /-- a snapshot that management has not read, DONE, and what the snapshot registers of the blocks hold (R405) -/
  snap : Bool
  snapDone : Bool
  snapHeld : Option Snapshot
  notices : List Notice
  delivered : List Notice
  /-- MSI-X messages sent: function and vector (R378, R407) -/
  msix : List (Nat × Nat)
  gated : List Nat
  ready : List Nat
  deriving DecidableEq, Repr

/-- An Ixlink port (R408). -/
structure Port where
  st : BitVec 2
  peer : BitVec 16
  retry : BitVec 32
  /-- it trains without a lane that has a lasting fault (R401) -/
  narrow : Bool
  deriving DecidableEq, Repr

/-- An answer of the management core over MCTP: over I3C rather than PCIe, the request, its contents, and a layer whose failure it reports
(R409, R412). -/
structure MctpAnswer where
  i3c : Bool
  req : MctpReq
  body : List Byte
  failed : Option Nat
  deriving DecidableEq, Repr

/-- A block whose state management reads back, with what the read returned (R406). -/
inductive ReadBack where
  | hart (h : HartId) (v : Hart)
  | core (c : Nat) (v : Core)
  | vault (c : Nat) (v : Vault)
  | cluster (c : Nat) (v : Cluster)
  | stack (k : Nat) (v : Stack)
  deriving DecidableEq, Repr

/-- What the device as a whole holds. -/
structure Device where
  devnum : BitVec 16
  asgen : Table Nat Word
  timeOff : Word
  /-- TIME written: from this tick on, another offset (R265) -/
  timeNext : Option (Nat × Word)
  net : List Msg
  replies : List Reply
  nextMsg : Nat
  ckptEn : Bool
  ckptUs : Nat
  ckptNum : BitVec 32
  ckptOff : Nat
  ckptLen : Nat
  ckptClk : Nat
  /-- an interval that is closing: the lines, by core and number, accepted before its boundary and not yet committed (R404) -/
  closing : Option (List (Nat × Nat))
  cfg : ConfigRec
  fwA : Option Nat
  fwB : Option Nat
  fwActive : Option Bool
  fwMin : Nat
  recovery : Bool
  errors : Table UnitId (List Nat)
  lasting : List UnitId
  ports : Table Nat Port
  mctp : List MctpAnswer
  /-- power-up under way: the layers, stack × 8 + layer, that have yet to report ready, and the one that will not (R412) -/
  bringUp : List Nat
  layerFail : Option Nat
  /-- contexts, by their control blocks, that management has to roll back, and why (R404) -/
  rolls : List (Nat × RollCause)
  /-- what management has read back through the window (R406) -/
  readBacks : List ReadBack
  /-- what host reads and AtomicOps have returned: function, address, bytes (R148, R407) -/
  hostReads : List (Nat × Nat × List Byte)
  /-- answers that have left the device, to peers and to the host -/
  outside : List Reply
  /-- bytes that readers have read ahead of the rest of an access of several units (R134) -/
  early : List (Reader × Host.Cell)
  /-- requests that have entered bank queues and miss queues so far (the model's own count) -/
  asks : Nat
  deriving DecidableEq, Repr

/-- What a turn of the agenda lets happen. -/
inductive Act where
  /-- a hart issues its next instruction -/
  | issue (h : HartId)
  /-- a hart fetches bytes at an address ahead of their use (R260) -/
  | fetchAhead (h : HartId) (va : Word) (n : Nat)
  /-- a device event of the opcode table -/
  | event (e : Instr)
  /-- an error that SEC-DED cannot correct falls on an aligned 8-byte word, named by its address ÷ 8 (R81, R83, R376) -/
  | corrupt (word : Nat)
  /-- an 8-byte unit of the store at the head of a hart's buffer becomes visible, ahead of the units before it (R134) -/
  | storeUnit (h : HartId) (n : Nat)
  /-- a part of a load in flight is bound, ahead of the others (R134) -/
  | loadUnit (h : HartId) (num n : Nat)
  /-- a unit of an access of several units is read, ahead of the others: by an engine command, a copy or a job (R134, R143) -/
  | readUnit (who : Reader) (pa : Nat)
  /-- a unit of a write of several units is made visible, ahead of the others: of an engine command, a job's result or a chunk (R134) -/
  | writeUnit (who : Reader) (n : Nat)
  /-- such an error falls on a word of a write-buffer entry of a vault (R400) -/
  | corruptLine (core n word : Nat)
  /-- a message comes from a peer device, or an increment from the host (R11, R122, R130) -/
  | arrive (m : Msg)
  /-- such an error falls on a row of a bank of an accumulator (R341) -/
  | poison (cluster slot row : Nat) (visible : Bool)
  /-- a port that is down begins to train (R408) -/
  | train (port : Nat)
  /-- management reads back the state of a hart, core, vault, cluster or stack (R406) -/
  | readHart (h : HartId)
  | readCore (core : Nat)
  | readVault (core : Nat)
  | readCluster (cluster : Nat)
  | readStack (stack : Nat)
  /-- an error in one cluster of a lockstep pair: the trailer's x register differs in a commit that is to be compared (R402) -/
  | trailError (cluster n : Nat) (r : Reg) (v : Word)
  /-- such an error falls on an 8-byte word of OB0, OB1, WSH or WLAT (0 to 3) of a lease slot (R321, R336) -/
  | corruptBuf (cluster slot buf word : Nat)
  deriving DecidableEq, Repr

/-- A turn: what happens next and the main-clock time at which it does (log 5). -/
structure Turn where
  clk : Nat
  act : Act
  deriving DecidableEq, Repr

/-- The whole device. -/
structure State where
  clk : Nat
  cur : HartId
  agenda : List Turn
  freeCtr : Nat
  mem : Memory
  /-- aligned 8-byte words that SEC-DED cannot correct, by address ÷ 8 (R81, R83, R376) -/
  bad : List Nat
  harts : Table HartId Hart
  cores : Table Nat Core
  vaults : Table Nat Vault
  clusters : Table Nat Cluster
  stks : Table Nat Stack
  dev : Device
  deriving DecidableEq, Repr

/-- Reasons for which the machine stops with a fault. -/
inductive Fault where
  /-- A write at management level to an MMIO address at which the spec places no register (R14); raised by REGISTER_WRITE
  alone; safe. -/
  | noSuchRegister (pa : Nat)
  deriving DecidableEq, Repr

/-- Reasons for which the model refuses. -/
inductive Refusal where
  /-- No meaning written for the instruction; raised by exec's arm of that instruction alone; safe. -/
  | notModelled (mnemonic : String)
  deriving DecidableEq, Repr

/-- The CSRs of a hart before dispatch (R204 and the rules of each register). -/
def HartCsrs.reset : HartCsrs :=
  { fcsr := 0, vcsr := 0, unitid := 0, launchid := 0, tkfault := 0, msgerr := 0, lstart := [], lend := [], lcount := [],
    ldepth := 0, tstatus := 0, tvec := 0, tepc := 0, tcause := 0, tval := 0, tscratch := 0, ptroot := 0, safemask := 0,
    preempt := 0, repset := 0, vlast := 0, plockstat := 0, pbase := [], plen := [] }

/-- A token at count 0 with no fault (R169). -/
def Token.zero : Token := ⟨0, false, false, 0⟩

/-- Nothing under way. -/
def HartBusy.none : HartBusy :=
  { tokens := [], faults := [], queues := [], flights := [], nextSeq := 0, sb := [], sbNext := 0, loads := [],
    loadNext := 0, posted := [], fills := [], acq := [], sent := [], xact := Option.none, commit := Option.none, mbx := [], mbxEnd := Option.none,
    recording := Option.none, play := Option.none, plays := [], walked := [], relLoads := [], relSb := [], relIds := [] }

/-- No arrival. -/
def CtxInfo.none : CtxInfo := ⟨Option.none, false, 0, [], Option.none⟩

/-- A hart after reset: idle, registers at the values log 1 names, every register full (DESIGN CHOICE, unsafe; log 1). -/
def Hart.reset : Hart :=
  { x := [], xSt := [], v := [], vSt := [], pc := 0, csr := HartCsrs.reset, loops := [], st := .idle, wait := none,
    safe := none, epoch := 0, lease := none, lock := none, pauseTo := 0, reqClk := 0, late := false, fetched := [],
    busy := HartBusy.none, ctx := CtxInfo.none, unit := none }

/-- A management core after reset: running at management level (R2, R131) (DEDUCED, unsafe; log 2). -/
def Hart.resetMgmt : Hart :=
  { Hart.reset with st := .running, csr := { HartCsrs.reset with tstatus := 2 } }

/-- A bank after reset (R48) (DESIGN CHOICE, unsafe; log 1). -/
def Bank.reset : Bank :=
  { opened := none, actClk := none, preClk := none, prior := none, xferEnd := 0, segEnd := 0, q := [], refresh := none, refPending := false, refPtr := 0,
    holdPend := none, hold := none, repairReq := [], repair := none, map := [], counts := [] }

/-- A vault after reset; MAT is 2,048 (R64). -/
def Vault.reset : Vault :=
  { banks := [], acts := [], wbuf := [], log := [], lost := 0, ie := false, gen := 0, mat := 2048, slotN := 0,
    slotClk := 0, locks := [], jobs := [], ckpt := [], ckptLines := [], served := [], busHalf := 0, lastLine := none,
    degraded := false }

/-- A handler-table entry that is empty (R110). -/
def HEntry.empty : HEntry := ⟨0, 0, .empty, false, false, none⟩

/-- A system handler entry as firmware leaves it: valid, supervisor level, any sender (R2, R110) (DESIGN CHOICE, unsafe; log 7). -/
def HEntry.system : HEntry := ⟨0, 0, .valid, true, true, none⟩

/-- The handler table at stack reset: entries 0 to 10 valid, the rest empty (R110). -/
def resetTable : Table Nat HEntry := (List.range 11).map (fun n => (n, HEntry.system))

/-- A core after reset; SPILLQUOTA is 4,096 (R107) and TRAVMAX 256 (R121). -/
def Core.reset : Core :=
  { long := false, w := [], wSt := [], tlb := [], agentTlb := [], tmpl := [], mbx := [], watches := [], ht := resetTable,
    htbase := 0, htgen := 0, spillBase := 0, spillQuota := 4096, spillNext := none, travMax := 256, inflight := 0,
    hfault := false, hwm := 0, breach := 0, breachEp := false, rhead := 0, ondie := [], ring := [], serving := [], tapes := [],
    order := [0, 1, 2, 3], passed := [], retired := false, reserved := false, cycOff := 0, cycNext := none }

/-- The port of shadow storage, the last in the port order of R84. -/
def shadowPort : Nat := 20

/-- A free pool lock (R83, R95). -/
def PLock.free : PLock := ⟨none, shadowPort⟩

/-- FP32 1.0. -/
def oneF32 : BitVec 32 := 0x3F800000

/-- A lease slot that is free (R321). -/
def LeaseSlot.reset : LeaseSlot :=
  { st := .free, holder := none, ob0 := [], ob1 := [], wsh := [], wshFmt := 0, wshScale := oneF32, wlat := [],
    wlatFmt := 0, wlatScale := oneF32, working := [], visible := [], flags := 0, poisonW := [], poisonV := [], ecc := [],
    badOb0 := false, badOb1 := false, badWsh := false, trkWsh := 0, trkWlat := 0 }

/-- A cluster after reset: LEASEBUDGET 64 and 16,384 (R325), step 16 (R413), core 7 served last (R175). -/
def Cluster.reset : Cluster :=
  { locks := [], pq := [], ports := [], tlb := [], misses := [], slots := [], turn := none, turnCmds := 0, turnClk := 0,
    turnSpent := false, lastTurn := 1, leaseQ := [], budCmds := 64, budTclk := 16384, lvuLast := 7, lvuQ := [],
    lvuNow := none,
    step := 16, cycBase := 0, cycClk := 0, saves := [], saving := [], combine := [], gated := false,
    engRetired := false, halted := false, trail := [] }

/-- An unused item. -/
def Item.unused : Item := ⟨false, .opened, false, 0, 0, 0, 0, 0, 0, 0⟩

/-- An unused launch entry. -/
def Launch.unused : Launch := ⟨Item.unused, [], 0, 0, 0, 0, [], none, 0, 0, 0, []⟩

/-- A hardware queue after reset (R378). -/
def Hq.reset : Hq := ⟨0, 0, 0, 0, 0, 0, 0, 0, 0⟩

/-- A stack after reset. -/
def Stack.reset : Stack :=
  { temps := [], bands := [], resetClk := 0, hqs := [], launches := [], graphs := [], phases := [], jobs := [],
    launchNum := 0, walks := [], wcache := [], walkNum := 0, missLast := 63, sampleClk := 0, snap := false, snapDone := false, snapHeld := none, notices := [],
    delivered := [], msix := [], gated := [], ready := [0, 1, 2, 3, 4, 5, 6, 7] }

/-- An Ixlink port after reset (R408). -/
def Port.reset : Port := ⟨0, 0xFFFF, 0, false⟩

/-- The configuration record in force when none has been accepted: THRESH 3, WIN 10 s, MAT 2,048, TRAVMAX 256 (R64, R121,
R401). -/
def ConfigRec.default : ConfigRec := ⟨true, true, [], 3, 10, 2048, 256, false⟩

/-- The device after reset (R11, R42, R403), booted from firmware slot A (R410) (DESIGN CHOICE, unsafe; log 119). -/
def Device.reset : Device :=
  { devnum := 0xFFFF, asgen := [], timeOff := 0, timeNext := none, net := [], replies := [], nextMsg := 0, ckptEn := false, ckptUs := 1000,
    ckptNum := 0, ckptOff := 0, ckptLen := 0, ckptClk := 0, closing := none, cfg := ConfigRec.default,
    fwA := some 0, fwB := none, fwActive := some false, fwMin := 0, recovery := false, errors := [], lasting := [], ports := [], mctp := [],
    bringUp := [], layerFail := none, rolls := [], readBacks := [], hostReads := [], outside := [], early := [], asks := 0 }

/-- The hart in which the model begins (DESIGN CHOICE, unsafe; log 5). -/
def firstHart : HartId := ⟨.thread, 0, 0⟩

/-- The machine right after reset: nothing listed in memory, every slot idle, every unit at its reset. -/
def State.reset : State :=
  { clk := 0, cur := firstHart, agenda := [], freeCtr := 0, mem := [], bad := [], harts := [], cores := [], vaults := [],
    clusters := [], stks := [], dev := Device.reset }

end Sys2Proof.Machine
end

