-- ==== Sys2Proof/Machine/Ops.lean ====
section
/-! DEFINITION. Sys2Proof/Machine/Ops.lean: the operations that every meaning shares: the units of the state by name, registers
and their full bits, memory bytes, the loop stack, retiring an instruction, sending messages and answers, taking a trap,
returning from one, ending a handler context, and the gate through which every instruction issues. -/

namespace Sys2Proof

/-- The core that a hart belongs to (R9); a management core takes the place of the first core of its stack (DEDUCED, unsafe; log 9). -/
def HartId.home (h : HartId) : Nat := if h.kind = .mgmt then 512 * h.core else h.core

/-- Whether a hart is a handler context. -/
def HartId.isCtx (h : HartId) : Bool := h.kind == .ctx

/-- Whether a hart is a thread that pre-emption has saved: it is kept beside the four slots of its core (R117, R159). -/
def HartId.kept (h : HartId) : Bool := h.kind == .thread && decide (4 ≤ h.idx)

/-- The live mask at which a safe-point instruction leaves the hart (R180, R181). -/
def Head.safe (hd : Head) : Option (BitVec 32) := if hd.s then some hd.mask else none

end Sys2Proof

namespace Sys2Proof.Machine

/-! ### Bit fields -/

/-- Bits [lo + n − 1 : lo] of a number. -/
def bits (v lo n : Nat) : Nat := v / 2 ^ lo % 2 ^ n

/-- Bits [lo + n − 1 : lo] of a word, as a number. -/
def wbits (v : Word) (lo n : Nat) : Nat := bits v.toNat lo n

/-- One bit of a word. -/
def wbit (v : Word) (n : Nat) : Bool := v.getLsbD n

/-- A word with bits [lo + n − 1 : lo] replaced. -/
def setBits (v : Word) (lo n : Nat) (x : Nat) : Word :=
  let m : Word := BitVec.ofNat 64 ((2 ^ n - 1) * 2 ^ lo)
  (v &&& ~~~m) ||| (BitVec.ofNat 64 (x % 2 ^ n * 2 ^ lo))

/-- 1 or 0. -/
def b2n (b : Bool) : Nat := if b then 1 else 0

/-- The value that marks an error in a register (R115). -/
def allOnes : Word := 0xFFFFFFFFFFFFFFFF

/-- Addition that stops at a bound. -/
def satAdd (a b top : Nat) : Nat := min (a + b) top

/-! ### Units of the state -/

/-- A hart; one never touched is as reset leaves it. -/
def State.hart (s : State) (h : HartId) : Hart :=
  s.harts.get h (if h.kind = .mgmt then Hart.resetMgmt else Hart.reset)

/-- The state with one hart replaced. -/
def State.setHart (s : State) (h : HartId) (x : Hart) : State := { s with harts := s.harts.set h x }

/-- The state with one hart changed. -/
def State.modHart (s : State) (h : HartId) (f : Hart → Hart) : State := s.setHart h (f (s.hart h))

/-- The hart that issues. -/
def State.me (s : State) : Hart := s.hart s.cur

/-- The state with the issuing hart changed. -/
def State.modMe (s : State) (f : Hart → Hart) : State := s.modHart s.cur f

/-- What a hart has under way, changed. -/
def Hart.modBusy (h : Hart) (f : HartBusy → HartBusy) : Hart := { h with busy := f h.busy }

/-- The CSRs of a hart, changed. -/
def Hart.modCsr (h : Hart) (f : HartCsrs → HartCsrs) : Hart := { h with csr := f h.csr }

/-- A core. -/
def State.core (s : State) (c : Nat) : Core := s.cores.get c Core.reset

/-- The state with one core changed. -/
def State.modCore (s : State) (c : Nat) (f : Core → Core) : State := { s with cores := s.cores.set c (f (s.core c)) }

/-- A vault, named by its core. -/
def State.vault (s : State) (c : Nat) : Vault := s.vaults.get c Vault.reset

/-- The state with one vault changed. -/
def State.modVault (s : State) (c : Nat) (f : Vault → Vault) : State := { s with vaults := s.vaults.set c (f (s.vault c)) }

/-- A cluster. -/
def State.cluster (s : State) (c : Nat) : Cluster := s.clusters.get c Cluster.reset

/-- The state with one cluster changed. -/
def State.modCluster (s : State) (c : Nat) (f : Cluster → Cluster) : State :=
  { s with clusters := s.clusters.set c (f (s.cluster c)) }

/-- A stack. -/
def State.stk (s : State) (k : Nat) : Stack := s.stks.get k Stack.reset

/-- The state with one stack changed. -/
def State.modStk (s : State) (k : Nat) (f : Stack → Stack) : State := { s with stks := s.stks.set k (f (s.stk k)) }

/-- The state with the device-wide part changed. -/
def State.modDev (s : State) (f : Device → Device) : State := { s with dev := f s.dev }

/-- The core of the issuing hart. -/
def State.myCore (s : State) : Nat := s.cur.home

/-- Privilege level: 0 kernel, 1 supervisor, 2 management (R267). -/
def Hart.priv (h : Hart) : Nat := wbits h.csr.tstatus 0 2

/-- Whether a trap is being handled (R267). -/
def Hart.inTrap (h : Hart) : Bool := wbit h.csr.tstatus 4

/-- PTROOT.ASID (R22). -/
def Hart.asid (h : Hart) : BitVec 12 := h.csr.ptroot.extractLsb' 4 12

/-- A free value and the state with the counter advanced (log 6). -/
def State.free (s : State) : Nat × State := (s.freeCtr, { s with freeCtr := s.freeCtr + 1 })

/-! ### Registers and full bits (R183, R230) -/

/-- An x register; x0 reads zero. -/
def Hart.rx (h : Hart) (r : Reg) : Word := if r = 0 then 0 else h.x.get r 0

/-- An x register written, and full; a write to x0 is discarded. -/
def Hart.wx (h : Hart) (r : Reg) (v : Word) : Hart :=
  if r = 0 then h else { h with x := h.x.set r v, xSt := h.xSt.set r .full }

/-- State of an x register; x0 is always full. -/
def Hart.stx (h : Hart) (r : Reg) : RegSt := if r = 0 then .full else h.xSt.get r .full

/-- An x register marked pending or void; x0 is unaffected. -/
def Hart.markX (h : Hart) (r : Reg) (t : RegSt) : Hart := if r = 0 then h else { h with xSt := h.xSt.set r t }

/-- An x register of the issuing hart. -/
def State.rx (s : State) (r : Reg) : Word := s.me.rx r

/-- An x register of the issuing hart written. -/
def State.wx (s : State) (r : Reg) (v : Word) : State := s.modMe (fun h => h.wx r v)

/-- Whether the core of the issuing hart is in long mode (R173). -/
def State.long (s : State) : Bool := (s.core s.myCore).long

/-- A short vector register. -/
def Hart.rv (h : Hart) (r : Reg) : BitVec 256 := h.v.get r 0

/-- A short vector register written, and full. -/
def Hart.wv (h : Hart) (r : Reg) (v : BitVec 256) : Hart := { h with v := h.v.set r v, vSt := h.vSt.set r .full }

/-- A long vector register. -/
def Core.rw (c : Core) (r : Reg) : BitVec 16384 := c.w.get r 0

/-- A long vector register written, and full. -/
def Core.ww (c : Core) (r : Reg) (v : BitVec 16384) : Core := { c with w := c.w.set r v, wSt := c.wSt.set r .full }

/-- State of a vector register of the core's mode (R220). -/
def State.stv (s : State) (r : Reg) : RegSt :=
  if s.long then (s.core s.myCore).wSt.get r .full else s.me.vSt.get r .full

/-- A register named by an instruction: an x register or a vector register of the core's mode (R220). -/
inductive RegRef where
  | x (r : Reg)
  | v (r : Reg)
  deriving DecidableEq, Repr

/-- State of a register named by an instruction. -/
def State.regSt (s : State) (r : RegRef) : RegSt :=
  match r with
  | .x r => s.me.stx r
  | .v r => s.stv r

/-- TVAL of cause 0x08 (R391). -/
def RegRef.tval (r : RegRef) : Word :=
  match r with
  | .x r => r.setWidth 64
  | .v r => r.setWidth 64 ||| 0x20

/-- The slots of a core. -/
def threadsOf (c : Nat) : List HartId := [⟨.thread, c, 0⟩, ⟨.thread, c, 1⟩, ⟨.thread, c, 2⟩, ⟨.thread, c, 3⟩]

/-- The threads of a core that are in its slots or saved (R117, R159). -/
def State.threadsAt (s : State) (c : Nat) : List HartId :=
  threadsOf c ++ (s.harts.map (·.1)).filter (fun h => h.kept && h.core == c)

/-- The handler contexts of a core. -/
def ctxsOf (c : Nat) : List HartId := [⟨.ctx, c, 0⟩, ⟨.ctx, c, 1⟩, ⟨.ctx, c, 2⟩, ⟨.ctx, c, 3⟩]

/-- Whether a load in flight has yet to write a register (R268, R298, R299). -/
def State.loading (s : State) (r : RegRef) : Bool :=
  match r with
  | .x r => r != 0 && s.me.busy.loads.any (fun l => match l.dst with | .x d _ => d == r | _ => false)
  | .v r =>
    if s.long then
      (threadsOf s.myCore).any (fun h => (s.hart h).busy.loads.any (fun l => match l.dst with | .w d => d == r | _ => false))
    else s.me.busy.loads.any (fun l => match l.dst with | .v d => d == r | _ => false)

/-! ### Memory (R12, R13) -/

/-- The byte at an address: zero where nothing is listed (DESIGN CHOICE, unsafe; log 3). -/
def Memory.read (m : Memory) (a : Nat) : Byte :=
  match m.find? (fun c => c.1 == a) with
  | some c => c.2
  | none => 0

/-- The entries of a run of bytes: none for a zero byte. -/
def Memory.cells (a : Nat) (bs : List Byte) : Memory :=
  match bs with
  | [] => []
  | b :: r => if b = 0 then Memory.cells (a + 1) r else (a, b) :: Memory.cells (a + 1) r

/-- Memory with a run of bytes written at an address. -/
def Memory.write (m : Memory) (a : Nat) (bs : List Byte) : Memory :=
  m.filter (fun c => decide (c.1 < a)) ++ Memory.cells a bs ++ m.filter (fun c => decide (a + bs.length ≤ c.1))

/-- The canonical form: addresses strictly rising, no entry zero. -/
def Memory.wf (m : Memory) : Bool :=
  match m with
  | [] => true
  | (a, b) :: r =>
    b != 0 && (match r with | [] => true | (a', _) :: _ => decide (a < a')) && Memory.wf r

/-- n bytes from an address on. -/
def Memory.slice (m : Memory) (a n : Nat) : List Byte := (List.range n).map (fun k => m.read (a + k))

/-- Memory with separate bytes written. -/
def Memory.writeCells (m : Memory) (cs : List Host.Cell) : Memory := cs.foldl (fun m c => m.write c.1 [c.2]) m

/-- Region of a physical address (R12). -/
def region (pa : Nat) : Nat := bits pa 44 4

/-- Core field of a vault address (R13). -/
def paCore (pa : Nat) : Nat := bits pa 28 11

/-- Vault offset (R13). -/
def paOff (pa : Nat) : Nat := bits pa 0 28

/-- Cluster field of a pool, shadow or tape address (R13). -/
def paCluster (pa : Nat) : Nat := bits pa 21 8

/-- A vault address (R13). -/
def vaultPa (core off : Nat) : Nat := core * 2 ^ 28 + off

/-- A pool address (R13). -/
def poolPa (cluster off : Nat) : Nat := 2 ^ 44 + cluster * 2 ^ 21 + off

/-- An address of shadow storage (R13). -/
def shadowPa (cluster off : Nat) : Nat := 3 * 2 ^ 44 + cluster * 2 ^ 21 + off

/-- The tape buffer of a core (R13, R352). -/
def tapePa (core off : Nat) : Nat := shadowPa (clusterOf core) (0xC0000 + core % 8 * 0x8000 + off)

/-- The device number names this device (R10). -/
def State.ownDev (s : State) (d : BitVec 16) : Bool := d == 0xFFFF || d == s.dev.devnum

/-- A malformed physical address (R16). -/
def State.malformed (s : State) (pa : Nat) : Bool :=
  decide (2 ^ 48 ≤ pa) ||
  match region pa with
  | 0 => decide (bits pa 39 5 ≠ 0) || (s.core (paCore pa)).retired
  | 1 => decide (bits pa 29 15 ≠ 0)
  | 2 => decide (bits pa 19 9 ≠ 0) || decide (bits pa 0 2 ≠ 0) ||
      (s.ownDev (BitVec.ofNat 16 (bits pa 28 16)) && (s.core (bits pa 8 11)).retired)
  | 3 => decide (bits pa 29 15 ≠ 0) || decide (bits pa 20 1 ≠ 0)
  | 4 => decide (bits pa 42 2 ≠ 0)
  | 5 => true
  | 6 => true
  | 7 => true
  | _ => false

/-- Where a physical address is stored: a host-visible window names the same PCIe address as host memory (R13). -/
def homePa (pa : Nat) : Nat := if 8 ≤ region pa then 2 ^ 47 + bits pa 0 46 else pa

/-- The byte of a write-buffer line at an offset within the line. -/
def WLine.byte (l : WLine) (k : Nat) : Option Byte := (l.bytes.find? (fun b => b.1 == k)).map (·.2)

/-- The line of a vault's write buffer that holds an offset. -/
def Vault.bufLine (v : Vault) (off : Nat) : Option WLine := v.wbuf.find? (fun l => l.line == off / 64)

/-- The visible byte at a physical address of a vault, a pool, shadow storage or the host (R79, R133). -/
def State.readByte (s : State) (pa : Nat) : Byte :=
  if region pa = 0 then
    match (s.vault (paCore pa)).bufLine (paOff pa) with
    | some l => (l.byte (paOff pa % 64)).getD (s.mem.read pa)
    | none => s.mem.read pa
  else s.mem.read (homePa pa)

/-- n visible bytes from a physical address on. -/
def State.readBytes (s : State) (pa n : Nat) : List Byte := (List.range n).map (fun k => s.readByte (pa + k))

/-- The number in n visible bytes, little-endian (R132). -/
def State.readNum (s : State) (pa n : Nat) : Nat := ofBytes (s.readBytes pa n)

/-- Committed bytes written at a physical address; an aligned word written whole is correct again. -/
def State.writeMem (s : State) (pa : Nat) (bs : List Byte) : State :=
  { s with mem := s.mem.write (homePa pa) bs, bad := s.bad.filter (fun w => !(decide (pa ≤ 8 * w) && decide (8 * w + 8 ≤ pa + bs.length))) }

/-- The bytes [off, off + n) of a vault that its write buffer holds, none where it lacks one (R57, R79). -/
def Vault.holds (v : Vault) (off n : Nat) : Bool :=
  (List.range n).all (fun k => match v.bufLine (off + k) with | some l => (l.byte ((off + k) % 64)).isSome | none => false)

/-- Whether the visible bytes of a word come wholly from the write buffer of its vault. -/
def State.wordBuffered (s : State) (w : Nat) : Bool :=
  decide (region (8 * w) = 0) &&
  match (s.vault (paCore (8 * w))).bufLine (paOff (8 * w)) with
  | none => false
  | some l => (List.range 8).all (fun k => (l.byte ((8 * w + k) % 64)).isSome)

/-- The lowest number of a list. -/
def least (l : List Nat) : Option Nat := l.foldl (fun r n => some (match r with | some m => min m n | none => n)) none

/-- The words of the write buffer of a vault that no code corrects (R400). -/
def State.bufBad (s : State) (core : Nat) : List Nat :=
  (s.vault core).wbuf.flatMap (fun l => l.bad.map (fun k => vaultPa core (l.line * 64) / 8 + k))

/-- The first uncorrectable word that a read of n bytes meets, in the write buffer or at home (R81, R83, R400). -/
def State.badWord (s : State) (pa n : Nat) : Option Nat :=
  least ((s.bad.filter (fun w => !s.wordBuffered w) ++ (if region pa = 0 then s.bufBad (paCore pa) else [])).filter
    (fun w => decide (pa < 8 * w + 8) && decide (8 * w < pa + n)))

/-! ### Requests of a reader at the banks of a vault (R51) -/

/-- Whether a request or a grant of a vault belongs to a reader. -/
def Vault.reads (v : Vault) (who : Reader) : Bool :=
  v.served.any (fun g => g.who == who) || v.banks.any (fun e => e.2.q.any (fun q => q.kind == .read who))

/-- The requests and grants of a reader taken out of a vault. -/
def Vault.drop (v : Vault) (who : Reader) : Vault :=
  { v with
    served := v.served.filter (fun g => g.who != who)
    banks := v.banks.map (fun e => (e.1, { e.2 with q := e.2.q.filter (fun q => q.kind != .read who) })) }

/-- The hart for which a reader reads, where it is one of a hart. -/
def Reader.hart (who : Reader) : Option HartId :=
  match who with
  | .load h _ | .instr h | .cmd h _ | .ahead h => some h
  | _ => none

/-- Bytes that a reader has read ahead of the rest of an access of several units, forgotten (R134). -/
def State.forgetEarly (s : State) (who : Reader) : State :=
  if s.dev.early.any (fun e => e.1 == who) then s.modDev (fun d => { d with early := d.early.filter (fun e => e.1 != who) }) else s

/-- What a reader asked of a vault is used, or no longer wanted. -/
def State.dropReads (s : State) (core : Nat) (who : Reader) : State :=
  let s := s.forgetEarly who
  if (s.vault core).reads who then s.modVault core (fun v => v.drop who) else s

/-- n bytes as a reader takes them: those it has read ahead, otherwise the visible ones (R134). -/
def State.readAs (s : State) (who : Reader) (pa n : Nat) : List Byte :=
  let mine := s.dev.early.filter (fun e => e.1 == who)
  (List.range n).map (fun k =>
    match mine.find? (fun e => e.2.1 == pa + k) with
    | some e => e.2.2
    | none => s.readByte (pa + k))

/-- Whether a reader has read a byte ahead. -/
def State.hasEarly (s : State) (who : Reader) (pa : Nat) : Bool := s.dev.early.any (fun e => e.1 == who && e.2.1 == pa)

/-- What management reads back through the window, which changes nothing of what it reads (R406). -/
def State.readBack (s : State) (r : ReadBack) : State := s.modDev (fun d => { d with readBacks := d.readBacks ++ [r] })

/-! ### The loop stack (R176 to R179) -/

/-- R177's end check: the entries left and the next address. -/
def loopEndCheck (next : Word) (l : List LoopEnt) : List LoopEnt × Word :=
  match l with
  | [] => ([], next)
  | e :: r =>
    if e.stop = next then
      (if 1 < e.count.toNat then ({ e with count := e.count - 1 } :: r, e.start) else loopEndCheck next r)
    else (e :: r, next)

/-- R178: a taken branch pops entries from the top while their range does not contain the target. -/
def loopJump (target : Word) (l : List LoopEnt) : List LoopEnt :=
  match l with
  | [] => []
  | e :: r =>
    if e.start.toNat ≤ target.toNat && decide (target.toNat < e.stop.toNat) then e :: r else loopJump target r

/-- The loop stack saved into LSTART, LEND, LCOUNT and LDEPTH, zero at and above the depth (R178, R179). -/
def HartCsrs.saveLoops (c : HartCsrs) (l : List LoopEnt) : HartCsrs :=
  let b := l.reverse
  let col (f : LoopEnt → Word) : Table Nat Word := (List.range 4).map (fun n => (n, match b[n]? with | some e => f e | none => 0))
  let va (w : Word) : Word := setBits (setBits w 0 1 0) 48 16 0
  { c with lstart := col (fun e => va e.start), lend := col (fun e => va e.stop), lcount := col (·.count), ldepth := BitVec.ofNat 64 l.length }

/-- The loop stack that LSTART, LEND, LCOUNT and LDEPTH hold (R178). -/
def HartCsrs.loops (c : HartCsrs) : List LoopEnt :=
  ((List.range (min (wbits c.ldepth 0 3) 4)).map (fun n => (⟨c.lstart.get n 0, c.lend.get n 0, c.lcount.get n 0⟩ : LoopEnt))).reverse

/-! ### Retiring -/

/-- The answers of walks that the instruction at which a hart stands has got are used (R34). -/
def Hart.forgetWalks (h : Hart) : Hart := h.modBusy (fun b => { b with walked := b.walked.filter (fun w => w.cmd.isSome) })

/-- The sequential successor of an instruction (R217). -/
def State.succ (s : State) (ik : Code) : Word := s.me.pc + BitVec.ofNat 64 ik.size

/-- Completion of an instruction that goes to an address without a taken branch: R177's end check applies. -/
def finishAt (hd : Head) (next : Word) (s : State) : State :=
  s.modMe (fun h => { h.forgetWalks with pc := (loopEndCheck next h.loops).2, loops := (loopEndCheck next h.loops).1,
                                         safe := hd.safe, wait := none })

/-- Completion of an instruction at its sequential successor. -/
def finish (ik : Code) (hd : Head) (s : State) : State := finishAt hd (s.succ ik) s

/-- Completion by a taken branch or jump (R178). -/
def jump (hd : Head) (target : Word) (s : State) : State :=
  s.modMe (fun h => { h.forgetWalks with pc := target, loops := loopJump target h.loops, safe := hd.safe, wait := none })

/-- The hart waits at its instruction and issues it again. A blocked safe-point instruction may be taken before it
completes, so its own mask stands (R181). -/
def stallAt (hd : Head) (w : Wait) (takeable : Bool) (s : State) : State :=
  s.modMe (fun h => { h with wait := some w, safe := if takeable && hd.s then some hd.mask else none })

/-- A wait that no pre-emption may break; one for a pool lock, or under the lock granted at its end, goes on (R95). -/
def stall (s : State) : State :=
  match s.me.wait with
  | some (.lock _ _ _ _ _) | some (.locked _ _ _) => s
  | _ => stallAt Head.plain .stall false s

/-! ### Notices, messages and answers -/

/-- A notice on the management channel of a stack (R118). -/
def State.notify (s : State) (k : Nat) (n : Notice) : State := s.modStk k (fun t => { t with notices := t.notices ++ [n] })

/-- What the snapshot registers of the blocks of a stack latch: the blocks as they stand (R405, R414). -/
def State.latch (s : State) (k : Nat) : Snapshot :=
  let t := s.stk k
  { clk := s.clk
    harts := s.harts.filter (fun (e : HartId × Hart) => stackOf e.1.home == k)
    cores := s.cores.filter (fun (e : Nat × Core) => stackOf e.1 == k)
    vaults := s.vaults.filter (fun (e : Nat × Vault) => stackOf e.1 == k)
    clusters := s.clusters.filter (fun (e : Nat × Cluster) => e.1 / 64 == k)
    hqs := t.hqs, launches := t.launches, walks := t.walks }

/-- The snapshot trigger of a stack: ignored while a snapshot has not been read (R405) (DESIGN CHOICE, safe; log 69). -/
def State.snapshot (s : State) (k : Nat) : State :=
  if (s.stk k).snap then s else s.modStk k (fun t => { t with snap := true, snapDone := true, snapHeld := some (s.latch k) })

/-- A machine check of a core, cause 0x1A, to management (R389, R405). -/
def State.machineCheck (s : State) (core : Nat) (v : Word) : State :=
  (s.notify (stackOf core) (.machineCheck core v)).snapshot (stackOf core)

/-- A context, by its control block, that management has to roll back, and why: it is rolled back once (R404). -/
def State.noteRoll (s : State) (ccb : Nat) (why : RollCause) : State :=
  s.modDev (fun d => if d.rolls.any (fun e => e.1 == ccb) then d else { d with rolls := d.rolls ++ [(ccb, why)] })

/-- A unit consumes data that no code corrects: while lines are logged, management has to roll its context back (R404). -/
def State.rollHart (s : State) (id : HartId) : State :=
  match (s.hart id).unit with
  | some (k, l, _) => if s.dev.ckptEn then s.noteRoll ((s.stk k).launches.get l Launch.unused).item.ccb .uncorrectable else s
  | none => s

/-- Whether a cause is that of data that no code corrects (R81, R83). -/
def causeUncorr (c : BitVec 8) : Bool := c == 0x0B || c == 0x1A

/-- KIND of a message (R109). -/
def MsgKind.code (k : MsgKind) : Nat :=
  match k with
  | .rload => 1 | .rstore => 2 | .ramo => 3 | .rcall => 4 | .travel => 5 | .mbxadd => 6 | .mbxwatch => 7 | .chunk => 8
  | .copyreq => 9 | .vpjob => 10 | .repcommit => 11 | .xact => 12 | .ptread => 13

/-- The device that a device number names: this one by 0xFFFF (R10). -/
def State.devOf (s : State) (d : BitVec 16) : BitVec 16 := if s.ownDev d then 0xFFFF else d

/-- Place in the count of messages of a target (R108). -/
def State.seqKey (s : State) (d : BitVec 16) (core : Nat) : Nat := (s.devOf d).toNat * 2 ^ 16 + core

/-- A message of a hart to a core, with the fields of R108 that every message carries. -/
def State.newMsg (s : State) (src : HartId) (kind : MsgKind) (dev : BitVec 16) (core : Nat) : Msg :=
  let h := s.hart src
  { id := s.dev.nextMsg, kind := kind, src := src, srcDev := s.dev.devnum, sentBy := src.home, dev := dev, core := core, hidx := 0, rr := false,
    rreg := 0, asid := h.asid, ord := 0, addr := 0, data := 0, cmp := 0, size := 8, op := 0, hops := 0, cmd := none, tk := 0,
    epoch := h.epoch, seq := BitVec.ofNat 32 (h.busy.sent.get (s.seqKey dev core) 0), args := [], bytes := [], elems := [], job := none,
    sub := 0, afterLoads := h.busy.loadNext, afterSb := h.busy.sbNext, rel := false, relSb := h.busy.relSb, relIds := h.busy.relIds, since := none,
    org := .own, router := none, acks := [] }

/-- Whether a message is a read in the table of R140. -/
def Msg.reads (m : Msg) : Bool :=
  match m.kind with
  | .rload | .ramo | .mbxwatch => true
  | _ => false

/-- Whether executing a message can change what another hart sees: all but a plain read and a watch. -/
def Msg.writes (m : Msg) : Bool :=
  match m.kind with
  | .rload | .mbxwatch => false
  | _ => true

/-- An answer to a message (R115, R118). -/
def Msg.answer (m : Msg) (k : ReplyKind) : Reply :=
  { kind := k, msg := m.id, mkind := m.kind, dst := m.src, epoch := m.epoch, reg := if m.rr then some m.rreg else none,
    value := 0, cause := 0, status := 0, core := m.core, dev := m.dev, vst := none, waited := 0, hit := false,
    cmd := m.cmd, trav := if m.kind = .travel then some m.sentBy else none,
    parts := if m.kind = .copyreq ∨ m.kind = .chunk then m.elems.length else 0, word := none, ok := true, org := m.org }

/-- An answer put on the reply channel; one to a peer or to the host leaves the device. -/
def State.reply (s : State) (r : Reply) : State :=
  s.modDev (fun d => match r.org with
    | .peer | .host _ => { d with outside := d.outside ++ [r] }
    | .own | .protocol => { d with replies := d.replies ++ [r] })

/-- An answer to the sender of a message, or one to the sender of each buffer-free notice that it combines (R129, R140). -/
def State.replyAll (s : State) (m : Msg) (r : Reply) : State :=
  if m.acks.isEmpty then s.reply r
  else m.acks.foldl (fun s a => s.reply { r with dst := a.dst, epoch := a.epoch, msg := a.msg }) s

/-- A NACK of a message with a cause and a status (R115); each buffer-free notice that it combines is answered (DEDUCED, unsafe; log 120). -/
def State.nackMsg (s : State) (m : Msg) (cause status : BitVec 8) : State :=
  s.replyAll m { m.answer .nack with value := allOnes, cause := cause, status := status, ok := false }

/-- Whether the fabric reaches a device: this one, or the peer of a port that is not down (R130, R408). -/
def State.reachable (s : State) (d : BitVec 16) : Bool :=
  s.ownDev d || s.dev.ports.any (fun p => p.2.peer == d && p.2.st != 0)

/-- Whether messages to a device can go out: one to a peer waits while its port trains (R408). -/
def State.linkOpen (s : State) (d : BitVec 16) : Bool :=
  s.ownDev d || s.dev.ports.any (fun p => p.2.peer == d && decide (2 ≤ p.2.st.toNat))

/-- A message put on the request channel. A tracked one counts against the sender's fences until it is performed
(R140); one to a device out of reach is answered with a NACK at once (R130). -/
def State.send (s : State) (m : Msg) (track : Bool) : State :=
  let k := s.seqKey m.dev m.core
  let mine := m.org == .own || m.org == .protocol
  let m := { m with id := s.dev.nextMsg, seq := if mine then BitVec.ofNat 32 ((s.hart m.src).busy.sent.get k 0) else m.seq }
  let s := s.modDev (fun d => { d with nextMsg := d.nextMsg + 1 })
  let s := if !mine then s else s.modHart m.src (fun h => h.modBusy (fun b =>
    { b with sent := if s.reachable m.dev then b.sent.set k (b.sent.get k 0 + 1) else b.sent,
             posted := if track then b.posted ++ [⟨m.id, m.core, m.dev, m.reads, m.writes, m.epoch⟩] else b.posted }))
  if s.reachable m.dev then s.modDev (fun d => { d with net := d.net ++ [m] }) else s.nackMsg m 0x0D 0

/-- A replay stopped at its next record with a reason of R369, unless it has stopped already; 0 is a cancel (R375). -/
def Play.stop (p : Play) (r : BitVec 4) : Play := { p with stopped := some (p.stopped.getD (r, p.next)) }

/-! ### Ports and locks of a pool (R84, R94 to R97) -/

/-- Place of a port in the order that starts after a given one (R84, R95). -/
def portRank (last p : Nat) : Nat := (p + 20 - last) % 21

/-- Ports of the clients of a pool's banks in port order: core ports 0 to 7, agent ports 8 to 15, then these (R84). -/
def matrixPort : Nat := 16
def lvuPort : Nat := 17
def tilePort : Nat := 18
def pipePort : Nat := 19

/-- Port of an agent, named by its core. -/
def agentPort (core : Nat) : Nat := 8 + core % 8

/-- Port of a hart at the banks of its pool (R84). -/
def portOf (id : HartId) (long : Bool) : Nat :=
  if long then lvuPort else if id.isCtx then agentPort id.core else id.home % 8

/-- A pool lock. -/
def State.plock (s : State) (k : Nat × Nat × Nat) : PLock := (s.cluster k.1).locks.get k.2 PLock.free

/-- A pool lock changed. -/
def State.modLock (s : State) (k : Nat × Nat × Nat) (f : PLock → PLock) : State :=
  s.modCluster k.1 (fun c => { c with locks := c.locks.set k.2 (f (c.locks.get k.2 PLock.free)) })

/-- The retries of a hart that waits for a lock. -/
def Hart.lockTries (h : Hart) (k : Nat × Nat × Nat) : Option Nat :=
  match h.wait with
  | some (.lock c b i n _) => if (c, b, i) = k then some n else none
  | _ => none

/-- The waiter to which a lock goes when a hart gives it up: the one with the most retries, and among these the first in port order after
the last grant (R95); of two with equal counts on one port the first in the table of the harts (DESIGN CHOICE, unsafe; log 121). -/
def State.lockNext (s : State) (id : HartId) (k : Nat × Nat × Nat) : Option HartId :=
  let rank (h : HartId) : Nat := portRank (s.plock k).port (portOf h false)
  ((s.harts.filterMap (fun (e : HartId × Hart) => if e.1 == id then none else (e.2.lockTries k).map (fun n => (e.1, n)))).foldl
    (fun (b : Option (HartId × Nat)) x =>
      match b with
      | none => some x
      | some y => if y.2 < x.2 ∨ (y.2 = x.2 ∧ rank x.1 < rank y.1) then some x else some y) none).map (·.1)

/-- A lock bit cleared by a hart: its bank grants it at once to the waiter that comes next (R95). -/
def State.dropLock (s : State) (id : HartId) (k : Nat × Nat × Nat) : State :=
  match s.lockNext id k with
  | none => s.modLock k (fun p => { p with holder := none })
  | some h => s.modLock k (fun _ => ⟨some h, portOf h false⟩)

/-- The lock that a hart holds, or that its bank has granted to it while it waits (R95, R97). -/
def State.lockHeld (s : State) (id : HartId) : Option (Nat × Nat × Nat) :=
  match (s.hart id).lock, (s.hart id).wait with
  | some k, _ => some k
  | none, some (.lock cl b k _ _) => if (s.plock (cl, b, k)).holder = some id then some (cl, b, k) else none
  | none, some (.locked cl b k) => some (cl, b, k)
  | none, _ => none

/-- A pool lock that a hart holds, cleared (R97). -/
def State.clearLock (s : State) (id : HartId) : State :=
  match s.lockHeld id with
  | none => s
  | some k =>
    (s.dropLock id k).modHart id (fun h => { h with lock := none, csr := { h.csr with plockstat := setBits h.csr.plockstat 16 1 0 } })

/-- A lock that its bank has granted to a waiting hart, given up as its instruction traps (R390). -/
def State.ungrant (s : State) (id : HartId) : State := if (s.hart id).lock.isSome then s else s.clearLock id

/-! ### Ending a handler context (R103) -/

/-- The context ends: the answer of the ending goes out, with a value where the arrival asked for one (R282), the lock is cleared and
the context is idle. -/
def State.closeCtx (s : State) (id : HartId) (e : Ending) : State :=
  let h := s.hart id
  let s := s.clearLock id
  let s := match h.ctx.arrival with
    | none => s
    | some m =>
      match h.ctx.copyFault, e with
      | some c, _ => s.nackMsg m c 0
      | none, .reply v =>
        s.reply { m.answer (if m.kind = MsgKind.travel then ReplyKind.endNotice else ReplyKind.fill) with value := if m.rr then v else 0 }
      | none, .nack c t => s.nackMsg m c t
      | none, .hop n => s.send n false
  s.modHart id (fun h => { h with st := .idle, wait := none, ctx := CtxInfo.none, loops := [] })

/-- Copies of a context that have not signalled (R291). -/
def Hart.copiesOut (h : Hart) : Bool :=
  h.busy.flights.any (fun f => h.ctx.copies.contains f.cmd.seq) ||
  (h.busy.queues.get 2 []).any (fun c => h.ctx.copies.contains c.seq)

/-- What stands between a context and the answer of its ending: copies (R291), its own accesses (R137) and, before a next
hop, its messages (R136). -/
def Hart.endingOut (h : Hart) (e : Ending) : Bool :=
  h.copiesOut || !h.busy.sb.isEmpty || !h.busy.loads.isEmpty ||
  (match e with | .hop _ => h.busy.posted.any (fun p => p.epoch == h.epoch) | _ => false)

/-- A context that stands at its end closes once nothing is in the way. -/
def State.settle (s : State) (id : HartId) : State :=
  match (s.hart id).wait with
  | some (.ending e) => if (s.hart id).endingOut e then s else s.closeCtx id e
  | _ => s

/-- A context comes to its end (R103). -/
def State.endCtx (s : State) (id : HartId) (e : Ending) : State :=
  ((s.ungrant id).modHart id (fun h => { h with wait := some (.ending e), st := .halted })).settle id

/-! ### Traps (R389) -/

/-- TSTATUS with its three fields. -/
def tstatusOf (priv ppriv : Nat) (intrap : Bool) : Word := BitVec.ofNat 64 (priv % 4 + ppriv % 4 * 4 + b2n intrap * 16)

/-- TCAUSE with its two fields (R267). -/
def tcauseOf (cause status : BitVec 8) : Word := (0 : BitVec 48) ++ status ++ cause

/-- A trap discards the open transaction, unless it is already committing (R296). -/
def HartBusy.trapXact (b : HartBusy) : HartBusy :=
  { b with xact := b.xact.map (fun x => if x.committing then x else { x with ents := [], interrupted := true }) }

/-- What the issuing instruction had asked for, given up: its reads at the banks of its vault and a lock granted to it (R390). -/
def State.giveUp (s : State) : State := (s.dropReads s.myCore (.instr s.cur)).ungrant s.cur

/-- A trap of the issuing hart (R389): a thread enters its handler, or freezes when it is handling a trap already; a
handler context ends (R103). -/
def takeTrap (cause status : BitVec 8) (val epc : Word) (s : State) : State :=
  let s := s.giveUp
  if s.cur.isCtx then
    let s := s.modMe (fun h => h.forgetWalks.modCsr (fun c => { c with tcause := tcauseOf cause status, tval := val, tepc := setBits epc 48 16 0 }))
    let s := s.modCore s.myCore (fun c => { c with hfault := true })
    let s := s.notify (stackOf s.myCore) (.queueFault s.myCore)
    s.endCtx s.cur (.nack cause 0)
  else if s.me.inTrap then
    (s.modMe (fun h => { h.forgetWalks with st := .frozen })).machineCheck s.myCore 0
  else
    s.modMe (fun h =>
      { h with
        pc := setBits (setBits h.csr.tvec 0 1 0) 48 16 0
        loops := []
        wait := none
        safe := none
        busy := h.forgetWalks.busy.trapXact
        csr := { (h.csr.saveLoops h.loops) with
                 tstatus := tstatusOf (max h.priv 1) h.priv true
                 tepc := setBits epc 48 16 0
                 tcause := tcauseOf cause status
                 tval := val } })

/-- A trap at the issuing instruction with a value in TVAL. -/
def trapVal (cause : BitVec 8) (v : Word) (s : State) : State := takeTrap cause 0 v s.me.pc s

/-- A trap at the issuing instruction with the instruction word in TVAL (R391). -/
def trapInstr (cause : BitVec 8) (ik : Code) (s : State) : State := trapVal cause (ik.w.setWidth 64) s

/-- The return from a trap (R254): every later instruction is fetched after it. -/
def returnTrap (hd : Head) (ik : Code) (s : State) : State :=
  let h := s.me
  let target := setBits h.csr.tepc 48 16 0
  if h.priv = 1 ∧ wbits h.csr.tstatus 2 2 = 2 then trapInstr 0x03 ik s
  else if wbit target 0 then trapVal 0x04 target s
  else s.modMe (fun h =>
    { h.forgetWalks with pc := target, loops := h.csr.loops, wait := none, safe := hd.safe, fetched := [],
                         csr := { h.csr with tstatus := tstatusOf (wbits h.csr.tstatus 2 2) (wbits h.csr.tstatus 2 2) false } })

/-! ### The gate of every instruction (R222, R184) -/

/-- What the registers of an instruction allow it to do. -/
inductive Gate where
  | go
  | wait (takeable : Bool)
  | empty (v : Word)
  deriving DecidableEq, Repr

/-- The gate of one register: one that a load in flight will write waits for it, whatever its state (R268, R298); a thread may be
taken where it waits to read an empty one (R97, R104, R181, R183, R184). -/
def State.gate1 (s : State) (e src : Bool) (r : RegRef) : Gate :=
  if s.loading r then .wait false
  else
    match s.regSt r with
    | .full => .go
    | .void => if src then .empty r.tval else .go
    | .pending => if e || s.me.lock.isSome || s.cur.isCtx then .empty r.tval else .wait src

/-- The gate of a list of registers, in field order. -/
def State.gateAll (s : State) (e src : Bool) (rs : List RegRef) : Gate :=
  match rs with
  | [] => .go
  | r :: t =>
    match s.gate1 e src r with
    | .go => s.gateAll e src t
    | g => g

/-- The gate of an instruction: its sources, then its destinations (DEDUCED, unsafe; log 87). -/
def State.gate (s : State) (hd : Head) (srcs dsts : List RegRef) : Gate :=
  match s.gateAll hd.e true srcs with
  | .go => s.gateAll hd.e false dsts
  | g => g

/-- Steps 3 to 5 of R222, then the checks that an instruction's class makes before its operands (R97, R328, R360), which name a
cause, then the registers: the instruction has its effect only past all of them. -/
def issueOwn (ik : Code) (hd : Head) (level : Nat) (legal : Bool) (own : Option (BitVec 8)) (srcs dsts : List RegRef)
    (k : State → State) (s : State) : State :=
  if s.me.priv < level then trapInstr 0x03 ik s
  else if !legal then trapInstr 0x01 ik s
  else if hd.s && hd.mask.getLsbD 27 then trapInstr 0x02 ik s
  else
    match own with
    | some c => trapInstr c ik s
    | none =>
      match s.gate hd srcs dsts with
      | .empty v => trapVal 0x08 v s
      | .wait t => stallAt hd .stall t s
      | .go => k s

/-- The gate of an instruction whose class makes no check of its own before its operands. -/
def issue (ik : Code) (hd : Head) (level : Nat) (legal : Bool) (srcs dsts : List RegRef) (k : State → State) (s : State) :
    State := issueOwn ik hd level legal none srcs dsts k s

/-- Cause 0x15 of an instruction that a hart holding a pool lock must not issue (R97). -/
def State.lockBar (s : State) : Option (BitVec 8) := if s.me.lock.isSome then some 0x15 else none

/-- A register marked PENDING until its producer at a core of a device fills it (R138, R183). -/
def State.pend (s : State) (r : Reg) (core : Nat) (dev : BitVec 16) : State :=
  if r = 0 then s
  else s.modMe (fun h => (h.markX r .pending).modBusy (fun b => { b with fills := b.fills ++ [⟨r, core, dev⟩] }))

/-- Whether the issuing hart is no handler context (R101). -/
def State.noCtx (s : State) : Bool := !s.cur.isCtx

end Sys2Proof.Machine
end

