-- ==== Sys2Proof/Machine/Bank.lean ====
section
/-! DEFINITION. Sys2Proof/Machine/Bank.lean: the banks of a vault: where rows stand, activation and its timing (R43 to R49), what blocks
a request (R57, R59, R66), the queues and the bus (R45, R50 to R53), the event log (R74 to R77), the write buffer and its drain
(R79, R80), the checkpoint log (R404), and the turns of a pool's banks (R84). -/

namespace Sys2Proof.Machine

/-- Bank of a vault offset (R44). -/
def bankOf (off : Nat) : Nat := bits off 11 5
/-- Row of a vault offset (R44). -/
def rowOf (off : Nat) : Nat := bits off 16 12

/-- A bank of a vault. -/
def State.bank (s : State) (core b : Nat) : Bank := (s.vault core).banks.get b Bank.reset

/-- A vault with one bank changed. -/
def Vault.modBank (v : Vault) (b : Nat) (f : Bank → Bank) : Vault := { v with banks := v.banks.set b (f (v.banks.get b Bank.reset)) }

/-- The state with one bank changed. -/
def State.modBank (s : State) (core b : Nat) (f : Bank → Bank) : State := s.modVault core (fun v => v.modBank b f)

/-- Band of a layer of the stack of a core (R69, R71). -/
def State.band (s : State) (core layer : Nat) : Nat := (s.stk (stackOf core)).bands.get layer 0

/-- Where an addressable row stands: in its own place or in the spare that replaced it last (R58). -/
def Bank.place (bk : Bank) (row : Nat) : RowRef :=
  match bk.map.find? (fun e => e.1 == row) with
  | some e => ⟨e.2, true⟩
  | none => ⟨row, false⟩

/-- Spare rows of a bank that no repair has used (R58, R62). -/
def Bank.freeSpares (bk : Bank) : List Nat :=
  (List.range 64).filter (fun n => !bk.map.any (fun e => e.2 == n) && bk.repair.all (fun r => r.spare != n))

/-- Why a request to a row waits, as its vault status (R67): a hold, a refresh of a row that is not in the shadow, a
repair of the row or its copy (R57, R59, R66). -/
def Bank.block (bk : Bank) (row : Nat) : Option Nat :=
  if bk.hold.isSome || bk.holdPend.isSome then some 1
  else if (match bk.refresh with | some (_, sh) => sh != some (bk.place row) | none => false) then some 2
  else if (match bk.repair with | some r => r.copy.isSome || r.row == row | none => false) then some 3
  else none

/-- The bank is refreshing, held or under a repair copy (R79). -/
def Bank.passedOver (bk : Bank) : Bool :=
  bk.hold.isSome || bk.holdPend.isSome || bk.refresh.isSome || (match bk.repair with | some r => r.copy.isSome | none => false)

/-- Whether a row is under repair (R58, R59). -/
def Bank.underRepair (bk : Bank) (row : Nat) : Bool := match bk.repair with | some r => r.row == row | none => false

/-- Whether a row is the one in the bank's row buffer (R48). -/
def Bank.isOpen (bk : Bank) (row : Nat) : Bool := bk.opened == some (bk.place row)

/-- A time some clk after an event, zero when the event never happened. -/
def after (t : Option Nat) (n : Nat) : Nat := match t with | some t => t + n | none => 0

/-- Insertion of a time into a list, latest first. -/
def insertDesc (t : Nat) (l : List Nat) : List Nat :=
  match l with
  | [] => [t]
  | x :: r => if x ≤ t then t :: x :: r else x :: insertDesc t r

/-- The moment at which an activation asked for at a clk happens, under tRAS, tRP, tRC and the limit of eight in 32 clk
(R46, R47, R48). -/
def Vault.actTime (v : Vault) (bk : Bank) (clk : Nat) : Nat :=
  let base :=
    if bk.opened.isSome then max (max (max clk (after bk.actClk Config.tRAS)) bk.xferEnd + Config.tRP) (after bk.actClk Config.tRC)
    else max clk (max (after bk.preClk Config.tRP) (after bk.actClk Config.tRC))
  match v.acts[7]? with
  | some t => max base (t + 32)
  | none => base

/-- Clk at which the shadow copy of the refresh in progress ends; without an open row there is none (R56). -/
def Bank.copyEnd (bk : Bank) : Nat :=
  match bk.refresh with
  | some (t, some _) => t + Config.tShadow
  | some (t, none) => t
  | none => 0

/-- The row open at a clk: a refresh leaves its row open while it copies it (R56). -/
def Bank.live (bk : Bank) (clk : Nat) : Option RowRef := if bk.refresh.isSome && decide (bk.copyEnd ≤ clk) then none else bk.opened

/-- Activation of a row by a request asked for at a clk (R49). When the count reaches MAT the row awaits its hold (R65). -/
def Vault.activate (v : Vault) (b clk : Nat) (row : Nat) : Vault :=
  let bk := v.banks.get b Bank.reset
  let r := bk.place row
  let t := v.actTime bk clk
  let n := bk.counts.get (r.spare, r.row) 0 + 1
  let hit := decide (v.mat ≤ n)
  { v with
    acts := (insertDesc t v.acts).take 16
    banks := v.banks.set b
      { bk with
        opened := some r
        actClk := some t
        prior := some (bk.opened, t - Config.tRP, bk.actClk)
        counts := bk.counts.set (r.spare, r.row) n
        holdPend := if hit then some r else bk.holdPend } }

/-! ### The queues of the banks and the bus (R45, R50 to R53) -/

/-- Lines that the bytes of some parts touch, each once, in order. -/
def linesOf (parts : List (Nat × Nat)) : List Nat :=
  (parts.flatMap (fun p => (List.range ((p.1 % 64 + p.2 + 63) / 64)).map (fun k => p.1 / 64 + k))).eraseDups

/-- The bytes that some parts touch in a line: the offset of the first and their extent. -/
def spanIn (parts : List (Nat × Nat)) (line : Nat) : Nat × Nat :=
  let here := parts.filter (fun p => decide (p.1 < line * 64 + 64) && decide (line * 64 < p.1 + p.2))
  let lo := (least (here.map (fun p => p.1 - line * 64))).getD 0
  (lo, here.foldl (fun m p => max m (min (p.1 + p.2 - line * 64) 64)) lo - lo)

/-- A request put at the end of a bank's queue (R51). -/
def State.enter (s : State) (core b : Nat) (q : VReq) : State :=
  (s.modBank core b (fun bk => { bk with q := bk.q ++ [q] })).modDev (fun d => { d with asks := d.asks + 1 })

/-- Whether a reader's requests keep a place in the order of a line against those of others: bytes fetched ahead may be old ones (R260), and
a drain changes no value that is read (R79). -/
def Reader.ordered (who : Reader) : Bool :=
  match who with
  | .ahead _ | .drain _ => false
  | _ => true

/-- Whether a request reads bytes of one aligned 8-byte word for a reader that keeps an order: one event of the device order (R134). -/
def VReq.single (q : VReq) (who : Reader) : Bool := who.ordered && decide (q.lo % 8 + q.n ≤ 8)

/-- A read of n bytes of a row of a vault asked for, or the drain of a line (R50, R51, R79). -/
def State.askRead (s : State) (who : Reader) (core off n : Nat) : State :=
  s.enter core (bankOf off) ⟨.read who, rowOf off, off / 64, off % 64, n, s.clk, 0, 0, 0, false, false⟩

/-- Lines that a request transfers. -/
def VReq.lines (q : VReq) : Nat := (q.lo + q.n + 63) / 64

/-- Whether a request is the drain of a line of the write buffer (R79). -/
def VReqKind.isDrain (k : VReqKind) : Bool :=
  match k with
  | .read (.drain _) => true
  | _ => false

/-- Whether two requests touch a line in common, in an order that they keep. -/
def VReq.meets (p q : VReq) : Bool :=
  p.kind != .pre && q.kind != .pre && !p.kind.isDrain && !q.kind.isDrain && decide (p.line < q.line + q.lines) && decide (q.line < p.line + p.lines)

/-- Whether the write buffer holds every byte that a request reads (R49, R57); a drain needs its row. -/
def VReq.buffered (q : VReq) (v : Vault) : Bool := !q.kind.isDrain && v.holds (q.line * 64 + q.lo) q.n

/-- Why a request of a queue waits now, as its status: reads served from the write buffer pass a refresh, ACT and a drain of the shadowed row
wait for it (R57); requests that precede a hold are served ahead of it (R65). A read of a buffered line waits for a hold and for
a repair as any other does (DESIGN CHOICE, unsafe; log 99). -/
def Bank.waits (bk : Bank) (v : Vault) (q : VReq) : Option Nat :=
  if q.kind = .pre then (if bk.passedOver then some 1 else none)
  else if q.ahead && bk.hold.isNone then none
  else if q.kind = .act ∨ q.kind.isDrain = true then
    (if bk.hold.isSome || bk.holdPend.isSome then some 1 else if bk.refresh.isSome then some 2 else bk.block q.row)
  else match bk.block q.row with
    | some 2 => if q.buffered v then none else some 2
    | r => r

/-- The request that a bank serves next: the oldest that nothing holds, with its place; one behind a request of the same line
waits for it. -/
def Vault.nextReq (v : Vault) (b : Nat) : Option (Nat × VReq) :=
  let bk := v.banks.get b Bank.reset
  match (List.range bk.q.length).find? (fun n =>
    match bk.q[n]? with
    | none => false
    | some q => (bk.waits v q).isNone && (bk.q.take n).all (fun p => !p.meets q)) with
  | none => none
  | some n => (bk.q[n]?).map (fun q => (n, q))

/-- Whether a read must have its row opened first (R49). -/
def Vault.needsRow (v : Vault) (b : Nat) (q : VReq) : Bool :=
  let bk := v.banks.get b Bank.reset
  !q.buffered v && bk.refresh.isNone && !bk.isOpen q.row

/-- Whether the transfer of a read may begin at a clk: the shadow holds its row, or the row buffer does and tRCD has passed (R46, R56,
R57). -/
def Vault.rowReady (v : Vault) (b clk : Nat) (q : VReq) : Bool :=
  let bk := v.banks.get b Bank.reset
  !v.needsRow b q && ((bk.refresh.isSome && decide (bk.copyEnd ≤ clk)) || decide (after bk.actClk Config.tRCD ≤ clk))

/-- Whether the bus goes to a read of a bank: it is free, and no other bank, of a layer that is up, has an older transfer ready, or one as
old and comes first in bank order (R51). -/
def Vault.busFor (v : Vault) (up : Nat → Bool) (b clk : Nat) (q : VReq) : Bool :=
  decide (v.busHalf ≤ 2 * clk) &&
  v.banks.all (fun (e : Nat × Bank) => e.1 == b || !up (e.1 / 4) ||
    (match v.nextReq e.1 with
     | some (_, p) =>
       (match p.kind with
        | .read _ => p.buffered v || !v.rowReady e.1 clk p || decide (q.at_ < p.at_) || (q.at_ == p.at_ && decide (b < e.1))
        | _ => true)
     | none => true))

/-- Half clk that a transfer of some lines takes: a line takes one clk, a run of lines half a clk each, and the half that continues
a run (R45); on a layer in band HOT or above, one clk for each line (R69) (DEDUCED, unsafe; log 101). -/
def xferHalf (band lines : Nat) (more : Bool) : Nat := if 2 ≤ band then 2 * lines else if more then lines else max 2 lines

/-- Whether a bank can take a step on its queue: ACT and PRE at once, a read to open its row, or to be transferred. -/
def Vault.bankReady (v : Vault) (up : Nat → Bool) (b clk : Nat) : Bool :=
  match v.nextReq b with
  | none => false
  | some (_, q) =>
    match q.kind with
    | .read _ => q.buffered v || v.needsRow b q || (v.rowReady b clk q && v.busFor up b clk q)
    | _ => true

/-- Whether a layer of the stack of a core has reported ready and is not gated: its bond interface is no longer clamped (R412). -/
def State.layerUp (s : State) (core layer : Nat) : Bool :=
  (s.stk (stackOf core)).ready.contains layer && !(s.stk (stackOf core)).gated.contains layer

/-- Whether a bank of a vault can take a step on its queue now (R51, R412). -/
def State.bankReady (s : State) (core b : Nat) : Bool :=
  s.layerUp core (b / 4) && (s.vault core).bankReady (s.layerUp core) b s.clk

/-- The moves of a segment, those made ahead among them. -/
def Seg.all (g : Seg) : List (Nat × Nat × Nat × Nat) := g.moves ++ g.done

/-- The bytes of a segment in its row: offset of the first in the vault and their extent. -/
def Seg.span (g : Seg) : Nat × Nat :=
  let lo := (least (g.all.map (fun m => paOff m.1))).getD 0
  (lo, g.all.foldl (fun t m => max t (paOff m.1 + m.2.2.1)) lo - lo)

/-- The core in whose vault a segment lies. -/
def Seg.core (g : Seg) : Nat := ((g.all.head?).map (fun m => paCore m.1)).getD 0

/-- Why a segment of a tile load is stopped as its preparation would begin: its row is under repair, or its layer in band STOP
(R60, R72); both together count as a repair (R73). -/
def State.segStop (s : State) (g : Seg) : Option SegStop :=
  if (s.bank g.core g.bank).underRepair g.row then some .repair else if 3 ≤ s.band g.core (g.bank / 4) then some .band else none

/-- The preparation of a tile load's next segment begins, or the segment is stopped (R53, R60, R72). -/
def State.prepareSegment (s : State) (id : HartId) (seq : Nat) : State :=
  match (s.hart id).busy.flights.find? (fun f => f.cmd.seq == seq) with
  | none => s
  | some f =>
    match f.segs[f.asked - f.moved.length]? with
    | none => s
    | some g =>
      let put (u : Flight → Flight) (s : State) : State := s.modHart id (fun h => h.modBusy (fun b =>
        { b with flights := b.flights.map (fun x => if x.cmd.seq = seq then u x else x) }))
      match s.segStop g with
      | some w => put (fun x => { x with stopped := some (w, s.clk) }) s
      | none => put (fun x => { x with asked := x.asked + 1 }) (s.askRead (.cmd id seq) g.core g.span.1 g.span.2)

/-- What the beginning of a transfer starts: a tile load prepares its next segment (R53). -/
def State.afterTransfer (s : State) (k : VReqKind) : State :=
  match k with
  | .read (.cmd id seq) => s.prepareSegment id seq
  | _ => s

/-- Whether a reader is a tile load, whose transfers are segments (R53). -/
def State.isSegment (s : State) (k : VReqKind) : Bool :=
  match k with
  | .read (.cmd id seq) => (s.hart id).busy.flights.any (fun f => f.cmd.seq == seq && !f.segs.isEmpty)
  | _ => false

/-- The transfer of a read begins: the bus is taken, and the reader has its grant (R45, R51, R67). HIT of a read of a line of which the
write buffer holds a part is 1 where the request has opened no row (DESIGN CHOICE, unsafe; log 122). -/
def State.transfer (s : State) (core b n : Nat) (q : VReq) (who : Reader) : State :=
  let v := s.vault core
  let bk := s.bank core b
  let buf := q.buffered v
  let more := v.lastLine == some (q.line - 1) && v.busHalf == 2 * s.clk && decide (q.line % 32 ≠ 0)
  let half := 2 * s.clk + xferHalf (s.band core (b / 4)) q.lines more
  let stop := if buf then s.clk else (half + 1) / 2
  let hit := !q.opened && ((v.bufLine (q.line * 64)).isSome || bk.live s.clk == some (bk.place q.row))
  let seg := s.isSegment q.kind
  (s.modVault core (fun v =>
    { v.modBank b (fun bk =>
        { bk with q := bk.q.eraseIdx n, xferEnd := max bk.xferEnd stop, segEnd := if seg then stop else bk.segEnd }) with
      served := v.served ++ [⟨who, q.line, q.lines, q.vst, q.lastEv, q.waited, hit, stop, q.single who⟩]
      busHalf := if buf then v.busHalf else half
      lastLine := if buf then v.lastLine else some (q.line + q.lines - 1) })).afterTransfer q.kind

/-- BANK_REQUEST: a bank's next request takes a step. PRE and ACT are carried out (R48, R50); a read opens its row where it has to
(R49), and is transferred once the row is ready. -/
def bankRequestEffect (core b : Nat) (s : State) : State :=
  match (s.vault core).nextReq b with
  | none => s
  | some (n, q) =>
    let gone (s : State) : State := s.modBank core b (fun bk => { bk with q := bk.q.eraseIdx n })
    match q.kind with
    | .pre =>
      (gone s).modBank core b (fun bk =>
        if bk.opened.isSome then { bk with opened := none, preClk := some (max s.clk (after bk.actClk Config.tRAS)) } else bk)
    | .act =>
      if (s.bank core b).isOpen q.row then gone s else (gone s).modVault core (fun v => v.activate b s.clk q.row)
    | .read who =>
      if (s.vault core).needsRow b q then
        (s.modVault core (fun v => v.activate b s.clk q.row)).modBank core b (fun bk =>
          { bk with q := bk.q.modify n (fun e => { e with opened := true, ahead := e.ahead || bk.holdPend.isSome }) })
      else s.transfer core b n q who

/-- The lines of some parts that a reader has not asked for yet are asked for; a bank with nothing before them serves them at
once. -/
def State.askAll (s : State) (who : Reader) (parts : List (Nat × Nat)) : State :=
  (linesOf parts).foldl (fun s line =>
    let pa := line * 64
    let core := paCore pa
    let v := s.vault core
    if region pa ≠ 0 || v.served.any (fun g => g.who == who && g.line == paOff pa / 64) ||
        v.banks.any (fun (e : Nat × Bank) => e.2.q.any (fun q => q.kind == .read who && q.line == paOff pa / 64)) then s
    else
      let sp := spanIn parts line
      let s := s.askRead who core (paOff pa + sp.1) sp.2
      if s.bankReady core (bankOf (paOff pa)) then bankRequestEffect core (bankOf (paOff pa)) s else s) s

/-- Whether a grant serves a line. -/
def Grant.covers (g : Grant) (line : Nat) : Bool := decide (g.line ≤ line) && decide (line < g.line + g.lines)

/-- Whether a reader's turn at a line has come: it has its grant, and no other reader has an earlier one of a whole access (R51, R134). -/
def Vault.turnAt (v : Vault) (who : Reader) (line : Nat) : Bool :=
  match v.served.find? (fun g => g.covers line && (g.who == who || g.single)) with
  | some g => g.who == who
  | none => false

/-- Whether every line of some parts that lies in a vault has been served to a reader. -/
def State.readReady (s : State) (who : Reader) (parts : List (Nat × Nat)) : Bool :=
  (linesOf parts).all (fun line => region (line * 64) != 0 || (s.vault (paCore (line * 64))).turnAt who (paOff (line * 64) / 64))

/-- Status, clk spent waiting for events, and HIT of a read that several lines serve (R67). -/
structure Reading where
  vst : Nat
  waited : Nat
  hit : Bool
  deriving DecidableEq, Repr

/-- The reading that some grants give together: the status of the event that any line waited for last, the largest wait, and HIT
where every line hit (R67). -/
def readingOf (gs : List Grant) : Reading :=
  let r := gs.foldl (fun (t : Nat × Nat × Nat × Bool) g =>
    (if g.vst ≠ 0 ∧ t.2.1 ≤ g.lastEv then g.vst else t.1, max t.2.1 g.lastEv, max t.2.2.1 g.waited, t.2.2.2 && g.hit)) (0, 0, 0, true)
  ⟨r.1, r.2.2.1, r.2.2.2⟩

/-- The reading of a reader at a vault. -/
def State.reading (s : State) (core : Nat) (who : Reader) : Reading :=
  readingOf ((s.vault core).served.filter (fun g => g.who == who))

/-- Whether a whole access that reads a line of a vault is asked for or not yet done: what arrives later waits for it (R51, R158). An
access of several units does not keep a write back: each unit is an event of its own (R134). -/
def State.lineRead (s : State) (core line : Nat) : Bool :=
  let v := s.vault core
  v.served.any (fun g => g.single && g.covers line) ||
  (v.banks.get (bankOf (line * 64)) Bank.reset).q.any (fun q =>
    (match q.kind with | .read who => q.single who | _ => false) && decide (q.line ≤ line) && decide (line < q.line + q.lines))

/-! ### The event log -/

/-- A log record (R76). -/
def logRec (typ bank : Nat) (r : RowRef) (data stamp : Nat) : BitVec 128 :=
  BitVec.ofNat 128 (typ % 256 + bank % 32 * 2 ^ 8 + bank / 4 % 8 * 2 ^ 13 + r.row % 4096 * 2 ^ 16 + b2n r.spare * 2 ^ 28 +
    data % 2 ^ 32 * 2 ^ 32 + stamp % 2 ^ 64 * 2 ^ 64)

/-- A record added to the log of a vault: discarded and counted when the log is full (R74); with IE the supervisor is
notified (R75). -/
def State.addLog (s : State) (core : Nat) (r : BitVec 128) : State :=
  let v := s.vault core
  if v.log.length < 32 then
    let s := s.modVault core (fun v => { v with log := v.log ++ [r] })
    if v.ie then s.notify (stackOf core) (.vaultEvent core) else s
  else s.modVault core (fun v => { v with lost := satAdd v.lost 1 65535 })

/-- Clk since the reset of the stack of a core (R76). -/
def State.stackClk (s : State) (core : Nat) : Nat := s.clk - (s.stk (stackOf core)).resetClk

/-- A time as clk since the reset of the stack of a core. -/
def State.stamp (s : State) (core t : Nat) : Nat := t - (s.stk (stackOf core)).resetClk

/-- UNCORR for the word of a vault that a read could not correct (R77, R81). -/
def State.logUncorr (s : State) (word : Nat) : State :=
  if region (8 * word) = 0 then
    let core := paCore (8 * word)
    let off := paOff (8 * word)
    let b := bankOf off
    s.addLog core (logRec 6 b ((s.bank core b).place (rowOf off)) (bits off 0 11) (s.stackClk core))
  else s

/-! ### Locked lines (R149, R152) -/

/-- Whether a line of a vault is held in its line-lock table. -/
def State.lineHeld (s : State) (core line : Nat) : Bool := (s.vault core).locks.any (fun l => l.line == line)

/-- Whether a read or write of n bytes of a physical address meets a held line. -/
def State.heldAt (s : State) (pa n : Nat) : Bool :=
  decide (region pa = 0) &&
  (List.range ((paOff pa % 64 + n + 63) / 64)).any (fun k => s.lineHeld (paCore pa) (paOff pa / 64 + k))

/-! ### The checkpoint log (R404) -/

/-- Number of the interval to which a write accepted now belongs: the one after NUM, as soon as a close has begun (R404). -/
def State.ckptNow (s : State) : Nat := (s.dev.ckptNum.toNat + b2n s.dev.closing.isSome) % 2 ^ 32

/-- A line is logged the first time a write to it is accepted in an interval: its old bytes, its address, the writer's
ASID and NUM. The entry's bytes go to the log area; the layout of its second half is not stated (DESIGN CHOICE, safe; log 13). -/
def State.ckptNote (s : State) (core line : Nat) (asid : BitVec 12) : State :=
  let v := s.vault core
  if s.dev.ckptEn && !v.ckptLines.contains line then
    let pa := vaultPa core (line * 64)
    let old := s.readBytes pa 64
    let k := v.ckpt.length
    let num := s.ckptNow
    let s1 := s.modVault core (fun v => { v with ckpt := v.ckpt ++ [⟨pa, old, asid, num⟩], ckptLines := line :: v.ckptLines })
    if (k + 1) * 128 ≤ s.dev.ckptLen * 65536 then
      s1.writeMem (vaultPa core ((s.dev.ckptOff * 64 + k * 128) % 2 ^ 28)) (old ++ (List.range 64).map (Config.ckptByte pa asid num))
    else s1
  else s

/-! ### The write buffer (R79, R80) -/

/-- Entries of the write buffer (R79). -/
def wbufSize : Nat := 64

/-- Bytes merged into those of a line, a later byte replacing an earlier one. -/
def mergeBytes (old new : List (Nat × Byte)) : List (Nat × Byte) := new.foldl (fun t b => Table.set t b.1 b.2) old

/-- Whether bytes of a line cover an 8-byte word of it. -/
def coversWord (bs : List (Nat × Byte)) (k : Nat) : Bool := (List.range 8).all (fun i => bs.any (fun b => b.1 == 8 * k + i))

/-- The write buffer with the bytes of one line accepted from a hart; a word written whole is correct again. -/
def Vault.accept (v : Vault) (line : Nat) (bs : List (Nat × Byte)) (who : Writer) : Vault :=
  let w := (who.hart, who.msg)
  if v.wbuf.any (fun l => l.line == line) then
    { v with wbuf := v.wbuf.map (fun l =>
        if l.line = line then
          { l with bytes := mergeBytes l.bytes bs, bad := l.bad.filter (fun k => !coversWord bs k)
                   by_ := if l.by_.contains w then l.by_ else w :: l.by_, asid := who.asid }
        else l) }
  else { v with wbuf := v.wbuf ++ [⟨line, mergeBytes [] bs, [], [w], who.asid⟩] }

/-- Whether the write buffer of a vault has room (R79). -/
def State.bufRoom (s : State) (core : Nat) : Bool := decide ((s.vault core).wbuf.length < wbufSize)

/-- Bytes of one line of a vault accepted (R79), the line logged first when checkpointing (R404). -/
def State.acceptLine (s : State) (core line : Nat) (bs : List (Nat × Byte)) (who : Writer) : State :=
  (s.ckptNote core line who.asid).modVault core (fun v => v.accept line bs who)

/-- Whether a write-buffer entry may be drained: every entry before it is passed over, its own bank is not, its row is not
under repair and its line is not held (R79, R59, R152). -/
def State.drainable (s : State) (core n : Nat) : Bool :=
  let v := s.vault core
  let bankAt (l : WLine) : Bank := v.banks.get (bankOf (l.line * 64)) Bank.reset
  (v.wbuf.take n).all (fun l => (bankAt l).passedOver) &&
  (match v.wbuf[n]? with
   | none => false
   | some l => !(bankAt l).passedOver && !(bankAt l).underRepair (rowOf (l.line * 64)) && !s.lineHeld core l.line)

/-- The interval that is closing has none of its lines left to commit: its entries are discarded and NUM goes up (R404). -/
def State.closeEnd (s : State) : State :=
  if s.dev.closing = some [] then
    let num := (s.dev.ckptNum + 1).toNat
    ({ s with vaults := s.vaults.map (fun (e : Nat × Vault) => (e.1, { e.2 with ckpt := e.2.ckpt.filter (fun c => c.num == num) })) }).modDev
      (fun d => { d with ckptNum := d.ckptNum + 1, closing := none })
  else s

/-- Lines that an interval's close need no longer wait for. -/
def State.closeUnless (s : State) (gone : Nat × Nat → Bool) : State :=
  if s.dev.closing.isSome then (s.modDev (fun d => { d with closing := d.closing.map (fun ls => ls.filter (fun l => !gone l)) })).closeEnd else s

/-- An entry whose row is open written into it, and committed (R79, R80); an error in it stays one (R400). -/
def State.drainLine (s : State) (core n : Nat) : State :=
  match (s.vault core).wbuf[n]? with
  | none => s
  | some l =>
    let s := { s with bad := s.bad.filter (fun w => !(decide (8 * w / 64 * 64 = vaultPa core (l.line * 64)) && s.wordBuffered w)) }
    let s := (s.modVault core (fun v => { v with wbuf := v.wbuf.eraseIdx n })).dropReads core (.drain l.line)
    let s := l.bytes.foldl (fun s b => s.writeMem (vaultPa core (l.line * 64 + b.1)) [b.2]) s
    ({ s with bad := (l.bad.map (fun k => vaultPa core (l.line * 64) / 8 + k)) ++ s.bad }).closeUnless (· == (core, l.line))

/-- The drain of an entry takes a step: it asks its bank for the row as any request does, and once it has been served the entry is written
(R51, R79); none where neither can happen now. -/
def State.drain (s : State) (core n : Nat) : Option State :=
  match (s.vault core).wbuf[n]? with
  | none => none
  | some l =>
    let me : Reader := .drain l.line
    if (s.vault core).reads me then
      (if (s.vault core).turnAt me l.line && !s.lineHeld core l.line then some (s.drainLine core n) else none)
    else if s.drainable core n then
      let t := s.askAll me [(vaultPa core (l.line * 64), 64)]
      some (if (t.vault core).turnAt me l.line then t.drainLine core n else t)
    else none

/-- Bytes cut at the boundaries of 64-byte lines: the line and the bytes by offset in it. -/
def splitLines (off : Nat) (bs : List Byte) : List (Nat × List (Nat × Byte)) :=
  match bs with
  | [] => []
  | b :: r =>
    match splitLines (off + 1) r with
    | (l, ys) :: t => if l = off / 64 then (l, (off % 64, b) :: ys) :: t else (off / 64, [(off % 64, b)]) :: (l, ys) :: t
    | [] => [(off / 64, [(off % 64, b)])]

/-- Whether the write buffer of a vault takes bytes of a line now: it holds the line or has room, and the line is not held (R79, R152). -/
def State.takesLine (s : State) (core line : Nat) : Bool :=
  !s.lineHeld core line && (((s.vault core).wbuf.any (fun l => l.line == line)) || s.bufRoom core)

/-- Lines accepted one after another into a vault; none where the buffer cannot take one. -/
def State.acceptLines (s : State) (core : Nat) (ls : List (Nat × List (Nat × Byte))) (who : Writer) : Option State :=
  match ls with
  | [] => some s
  | (l, bs) :: r => if s.takesLine core l then (s.acceptLine core l bs who).acceptLines core r who else none

/-! ### The turns of a pool's banks (R84) -/

/-- Ports that present one line at a time; the others present one for each bank (R84). -/
def narrow (port : Nat) : Bool := decide (port < 16)

/-- Whether every byte of a part is bound already. -/
def bound (got : List Host.Cell) (p : Nat × Nat) : Bool := (List.range p.2).all (fun k => got.any (fun c => c.1 == p.1 + k))

/-- Whether a load has its place at its bank: the loads of the hart before it have been performed (R84, R135). -/
def State.issued (s : State) (q : PReq) : Bool :=
  (s.hart q.h).busy.loads.all (fun l => decide (q.num ≤ l.num) || l.parts.all (bound l.got))

/-- The requests that stand at the banks of a pool. -/
def State.poolQueue (s : State) (cl : Nat) : List PReq := (s.cluster cl).pq.filter s.issued

/-- The requests that a bank may grant now: each port presents its own first request. -/
def State.presented (s : State) (cl bank : Nat) : List PReq :=
  let pq := s.poolQueue cl
  pq.filter (fun q => q.bank == bank && (pq.find? (fun p => p.port == q.port && (narrow q.port || p.bank == bank))) == some q)

/-- The request that a bank grants: round-robin in port order after the port it granted last (R84). -/
def State.poolGrant (s : State) (cl bank : Nat) : Option PReq :=
  let last := (s.cluster cl).ports.get bank shadowPort
  (s.presented cl bank).foldl (fun r q =>
    match r with
    | none => some q
    | some p => if portRank last q.port < portRank last p.port then some q else some p) none

/-- Whether a bank grants a port now: no request of the port waits before it, and no other port that presents a request comes
first in the round (R84). -/
def State.poolGrants (s : State) (cl port bank : Nat) : Bool :=
  let last := (s.cluster cl).ports.get bank shadowPort
  !(s.poolQueue cl).any (fun q => q.port == port && (narrow port || q.bank == bank)) &&
  (s.presented cl bank).all (fun q => decide (portRank last port ≤ portRank last q.port))

/-- Accesses of a port to lines of pools, granted one after another; none where a bank grants another port first, and they are
presented again (R84). -/
def State.poolTurns (s : State) (port : Nat) (lines : List Nat) : Option State :=
  match lines with
  | [] => some s
  | l :: r =>
    let pa := l * 64
    if region pa ≠ 1 then s.poolTurns port r
    else if s.poolGrants (paCluster pa) port (bits pa 6 5) then
      (s.modCluster (paCluster pa) (fun c => { c with ports := c.ports.set (bits pa 6 5) port })).poolTurns port r
    else none

/-- A write of bytes at a physical address that its home accepts at once: the write buffer of a vault (R79), a pool's banks at
their turn (R84, R86), or shadow storage or host memory themselves (R132). None when a vault has no room and cannot drain, a line
is held, or a bank grants another port. -/
def State.acceptBytes (s : State) (port pa : Nat) (bs : List Byte) (who : Writer) : Option State :=
  if region pa = 0 then s.acceptLines (paCore pa) (splitLines (paOff pa) bs) who
  else (s.poolTurns port (linesOf [(pa, bs.length)])).map (fun s => s.writeMem pa bs)

/-- A write that keeps its place behind the reads of its lines that arrived before it (R51, R158). -/
def State.storeBytes (s : State) (port pa : Nat) (bs : List Byte) (who : Writer) : Option State :=
  if region pa = 0 ∧ (linesOf [(pa, bs.length)]).any (fun l => s.lineRead (paCore pa) (paOff (l * 64) / 64)) = true then none
  else s.acceptBytes port pa bs who

end Sys2Proof.Machine
end

