-- ==== Sys2Proof/Machine/Translate.lean ====
section
/-! DEFINITION. Sys2Proof/Machine/Translate.lean: the page-table walk (R23 to R28), replicated pages (R29 to R31), the TLBs
(R32), the checks of an ordinary access in the order of R19, and the reach of R18. -/

namespace Sys2Proof.Machine

/-! ### The walk -/

/-- Bytes that one entry maps at a level (R23). -/
def levelBytes (lvl : Nat) : Nat := 2 ^ (12 + 9 * lvl)

/-- Whether a size code is allowed at a level (R26). -/
def sizeAt (lvl size : Nat) : Bool :=
  match lvl with
  | 0 => decide (size < 2)
  | 1 => decide (2 ≤ size) && decide (size ≤ 4)
  | 2 => size == 5
  | _ => false

/-- Entries that build a page of a size code together (R26). -/
def groupOf (size : Nat) : Nat := if size = 1 then 16 else if size = 3 then 16 else if size = 4 then 128 else 1

/-- PPN × 4,096 of an entry (R24). -/
def ptePa (p : Word) : Nat := wbits p 16 36 * 4096

/-- An entry is valid and not a pointer (R25). -/
def pteLeaf (p : Word) : Bool := wbit p 0 && (wbit p 1 || wbit p 2 || wbit p 3)

/-- A well-formed pointer entry (R25): the table lies in the vault region (R23). -/
def State.ptePointer (s : State) (lvl : Nat) (p : Word) : Bool :=
  wbit p 0 && !pteLeaf p && decide (lvl ≠ 0) && decide (wbits p 4 12 = 0) && decide (wbits p 52 12 = 0) &&
  decide (region (ptePa p) = 0) && !s.malformed (ptePa p)

/-- Address of the mask that an RSI names (R29). -/
def repPa (repset : Word) (rsi : Nat) : Nat := wbits repset 11 37 * 2048 + rsi * 32

/-- The fields of a leaf that R25 checks, but for the mask of a replicated one. A table of replica sets outside the vault region, or at an
address that is malformed, makes its replicated leaves malformed, and is not read (R16, R29) (DESIGN CHOICE, unsafe; log 97); so does an
RSI other than 0 in a leaf that is not replicated (DESIGN CHOICE, unsafe; log 123). -/
def State.leafFields (s : State) (repset : Word) (lvl : Nat) (p : Word) : Bool :=
  pteLeaf p && decide (wbits p 14 2 = 0) && decide (wbits p 52 6 = 0) && (wbit p 1 || !wbit p 2) &&
  sizeAt lvl (wbits p 6 3) && !s.malformed (ptePa p) && decide (ptePa p % levelBytes lvl = 0) &&
  (if wbit p 9 then
     decide (region (repPa repset (wbits p 58 6)) = 0) && !s.malformed (repPa repset (wbits p 58 6)) && decide (lvl ≠ 2) && decide (region (ptePa p) = 0)
   else decide (wbits p 58 6 = 0))

/-- The replica mask of a leaf, of the masks read by the address of each (R29). -/
def maskOf (masks : Table Nat Nat) (repset p : Word) : BitVec 256 := BitVec.ofNat 256 (masks.get (repPa repset (wbits p 58 6)) 0)

/-- A leaf that is not malformed (R25): the mask of a replicated one is not zero (R29). -/
def State.pteOk (s : State) (masks : Table Nat Nat) (repset : Word) (lvl : Nat) (p : Word) : Bool :=
  s.leafFields repset lvl p && (!wbit p 9 || maskOf masks repset p != 0)

/-- The TLB entry of a page with a leaf's attributes (R24, R29, R32). -/
def leafEntry (asid : BitVec 12) (masks : Table Nat Nat) (repset p : Word) (va size pa : Nat) : TlbEnt :=
  { asid := asid, va := va, size := size, pa := pa, r := wbit p 1, w := wbit p 2, x := wbit p 3, u := wbit p 4, g := wbit p 5,
    clid := p.extractLsb' 10 4, rep := if wbit p 9 then some (maskOf masks repset p) else none }

/-- A contiguity group is consistent (R27): the attributes of each member equal the first's, the PPNs run on, and the first
is aligned to the group. -/
def groupConsistent (lvl : Nat) (ps : List Word) : Bool :=
  match ps with
  | [] => false
  | p0 :: _ =>
    decide (ptePa p0 % (levelBytes lvl * ps.length) = 0) &&
    ps.zipIdx.all (fun (p, i) => decide (wbits p 0 16 = wbits p0 0 16) && decide (wbits p 58 6 = wbits p0 58 6) &&
      decide (ptePa p = ptePa p0 + i * levelBytes lvl))

/-- The page that a leaf found by the walk gives, with the members of its group (R26, R27). For a group that is not consistent, a free
value chooses the member that translates. -/
def State.leafPage (s : State) (asid : BitVec 12) (masks : Table Nat Nat) (repset : Word) (lvl va : Nat) (p : Word) (ps : List Word) : Option TlbEnt :=
  if !s.pteOk masks repset lvl p then none
  else
    let size := wbits p 6 3
    let bytes := levelBytes lvl * groupOf size
    let base := va / bytes * bytes
    if ps.length ≤ 1 then some (leafEntry asid masks repset p base bytes (ptePa p))
    else if groupConsistent lvl ps then some (leafEntry asid masks repset p base bytes (ptePa (ps.headD 0)))
    else
      let good := ps.filter (fun q => s.pteOk masks repset lvl q && decide (wbits q 6 3 = size))
      (good[Config.freeNat s.freeCtr % good.length]?).map (fun q => leafEntry asid masks repset q base bytes (ptePa q / bytes * bytes))

/-- What a walk does next: it reads n bytes at an address, goes on from a pointer, or ends with a leaf or a cause (R23, R33). -/
inductive Walking where
  | read (pa n : Nat)
  | pointer (p : Word)
  | leaf (e : TlbEnt)
  | fault (cause : BitVec 8)
  deriving DecidableEq, Repr

/-- What has been read at an address: nothing yet, a word that no code corrects, or a number. -/
abbrev Reads := Nat → Nat → Option (Option Nat)

/-- Numbers read at some addresses: the first address that has not been read, or the numbers; none of them where a word is not corrected. -/
def readEach (rd : Reads) (n : Nat) (as : List Nat) : Except Nat (Option (List Nat)) :=
  match as.find? (fun a => (rd a n).isNone) with
  | some a => .error a
  | none =>
    let vs := as.map (fun a => (rd a n).getD none)
    .ok (if vs.any (·.isNone) then none else some (vs.map (·.getD 0)))

/-- The addresses of the entries of a leaf's group (R26). -/
def groupPas (lvl tbl va : Nat) (p : Word) : List Nat :=
  let n := groupOf (wbits p 6 3)
  if n = 1 then [] else (List.range n).map (fun i => tbl + (va / levelBytes lvl % 512 / n * n + i) * 8)

/-- The addresses of the masks of some leaves (R29). -/
def State.maskPas (s : State) (repset : Word) (lvl : Nat) (ps : List Word) : List Nat :=
  ((ps.filter (fun q => s.leafFields repset lvl q && wbit q 9)).map (fun q => repPa repset (wbits q 58 6))).eraseDups

/-- What a leaf makes of its walk: the other entries of its group and the masks are read, then it gives its page or ends the walk (R25,
R27, R29). A word of them that no code corrects ends it with 0x0B as one of the entry itself does (R81) (DEDUCED, unsafe; log 124). -/
def State.leafOf (s : State) (rd : Reads) (asid : BitVec 12) (repset : Word) (lvl tbl va : Nat) (p : Word) : Walking :=
  if !s.leafFields repset lvl p then .fault 0x06
  else match readEach rd 8 (groupPas lvl tbl va p) with
    | .error a => .read a 8
    | .ok none => .fault 0x0B
    | .ok (some ms) =>
      let ps := if ms.isEmpty then [p] else ms.map (BitVec.ofNat 64)
      let as := s.maskPas repset lvl ps
      match readEach rd 32 as with
      | .error a => .read a 32
      | .ok none => .fault 0x0B
      | .ok (some ks) =>
        match s.leafPage asid (as.zip ks) repset lvl va p ps with
        | some e => .leaf e
        | none => .fault 0x06

/-- What the walk does next at a level (R23, R25, R33, R81). -/
def State.walkAt (s : State) (rd : Reads) (asid : BitVec 12) (repset : Word) (lvl tbl va : Nat) : Walking :=
  let a := tbl + va / levelBytes lvl % 512 * 8
  match rd a 8 with
  | none => .read a 8
  | some none => .fault 0x0B
  | some (some n) =>
    let p : Word := BitVec.ofNat 64 n
    if s.ptePointer lvl p then .pointer p else s.leafOf rd asid repset lvl tbl va p

/-- The walk from a level down (R23), as far as what has been read carries it. -/
def State.walkFrom (s : State) (rd : Reads) (asid : BitVec 12) (repset : Word) (va : Nat) (lvl tbl : Nat) : Walking :=
  match s.walkAt rd asid repset lvl tbl va, lvl with
  | .pointer p, k + 1 => s.walkFrom rd asid repset va k (ptePa p)
  | r, _ => r

/-- The four-level walk under a PTROOT (R22, R23). -/
def State.walk (s : State) (rd : Reads) (ptroot repset : Word) (va : Nat) : Walking :=
  let root := wbits ptroot 16 36 * 4096
  if decide (region root = 0) && !s.malformed root then s.walkFrom rd (ptroot.extractLsb' 4 12) repset va 3 root else .fault 0x06

/-- What reads at their home give at once: nothing while a line is held (R81, R152). -/
def State.readNow (s : State) : Reads := fun a n =>
  if s.heldAt a n then none else some (if (s.badWord a n).isSome then none else some (s.readNum a n))

/-! ### TLBs -/

/-- An entry matches an address of an address space (R32). -/
def TlbEnt.hit (e : TlbEnt) (asid : BitVec 12) (va : Nat) : Bool :=
  (e.g || e.asid == asid) && decide (e.va ≤ va) && decide (va < e.va + e.size)

/-- An entry put in a TLB or the walk cache, of a capacity; where it is full, a free value chooses the entry that goes (R32)
(DESIGN CHOICE, safe; log 10). -/
def tlbPut {α : Type} (cap n : Nat) (e : α) (l : List α) : List α :=
  if l.length < cap then e :: l else e :: l.eraseIdx (Config.freeNat n % cap)

/-- The first-level TLB of a hart. -/
def State.l1 (s : State) (id : HartId) : List TlbEnt :=
  match id.kind with
  | .thread => (s.core id.core).tlb
  | .ctx => (s.core id.core).agentTlb
  | .mgmt => []

/-- An entry installed in the first-level TLB of a hart (R32). -/
def State.l1Put (s : State) (id : HartId) (e : TlbEnt) : State :=
  match id.kind with
  | .thread => { s.modCore id.core (fun c => { c with tlb := tlbPut 64 s.freeCtr e c.tlb }) with freeCtr := s.freeCtr + 1 }
  | .ctx => { s.modCore id.core (fun c => { c with agentTlb := tlbPut 16 s.freeCtr e c.agentTlb }) with freeCtr := s.freeCtr + 1 }
  | .mgmt => s

/-- An entry installed in the second-level TLB of a cluster (R32). -/
def State.l2Put (s : State) (cl : Nat) (e : TlbEnt) : State :=
  { s.modCluster cl (fun c => { c with tlb := tlbPut 2048 s.freeCtr e c.tlb }) with freeCtr := s.freeCtr + 1 }

/-- The instruction at which a hart stands, as what asks for a translation. -/
def Asker.instr (id : HartId) : Asker := ⟨id, none, id.home⟩

/-- The hart whose path of TLBs an asker uses: its own, or for a command the one at the core from which it was issued (R32, R159). -/
def Asker.place (w : Asker) : HartId := if w.hart.kind = .thread then { w.hart with core := w.home } else w.hart

/-- The page of an address: its leaf, the cause with which its translation fails, or a walk to be waited for. -/
inductive Page where
  | leaf (e : TlbEnt)
  | fault (cause : BitVec 8)
  | wait
  deriving DecidableEq, Repr

/-- Whether a miss of an asker for a page, under the registers that its hart has now (R263), is in the miss queue of its cluster or in the
walker pool of its stack. -/
def State.missing (s : State) (who : Asker) (va : Nat) : Bool :=
  let c := (s.hart who.hart).csr
  let mine (m : Miss) : Bool := m.who == who && m.va == va && m.ptroot == c.ptroot && m.repset == c.repset
  (s.cluster (clusterOf who.home)).misses.any mine || (s.stk (stackOf who.home)).walks.any (fun w => w.waiters.any mine)

/-- A second-level miss enters the miss queue of its cluster; with 128 requests there it is held (R35). -/
def State.askWalk (s : State) (who : Asker) (va : Nat) : State :=
  let cl := clusterOf who.home
  if s.missing who va || decide (128 ≤ (s.cluster cl).misses.length) then s
  else
    let h := s.hart who.hart
    (s.modCluster cl (fun c => { c with misses := c.misses ++ [⟨who, h.asid, va, h.csr.ptroot, h.csr.repset⟩] })).modDev
      (fun d => { d with asks := d.asks + 1 })

/-- An answer of a walk that a TLBINV overtook is used, and serves no more (R40). -/
def State.useWalked (s : State) (who : Asker) (w : Walked) : State :=
  if w.stale then s.modHart who.hart (fun h => h.modBusy (fun b => { b with walked := b.walked.erase w })) else s

/-- The page of an address under a hart's PTROOT: first-level TLB, the answer of a walk that waits for the asker, second-level TLB,
then a walk to be waited for (R32 to R35). -/
def State.page (s : State) (who : Asker) (va : Nat) : State × Page :=
  let h := s.hart who.hart
  match (s.l1 who.place).find? (·.hit h.asid va) with
  | some e => (s, .leaf e)
  | none =>
    match h.busy.walked.find? (fun w => w.cmd == who.cmd && w.va == va / 4096 * 4096 && w.ptroot == h.csr.ptroot && w.repset == h.csr.repset) with
    | some w => (s.useWalked who w, match w.leaf with | some e => .leaf e | none => .fault w.cause)
    | none =>
      match (s.cluster (clusterOf who.home)).tlb.find? (·.hit h.asid va) with
      | some e => (s.l1Put who.place e, .leaf e)
      | none => (s.askWalk who (va / 4096 * 4096), .wait)

/-- A translated address: the physical address, whether the page is replicated with its mask, and its attributes. -/
structure Xlat where
  pa : Nat
  ent : TlbEnt
  deriving DecidableEq, Repr

/-- What checks answer: the translated address, the cause of the first that fails, or a walk to be waited for. -/
inductive Checked where
  | ok (x : Xlat)
  | fault (cause : BitVec 8)
  | walk
  deriving DecidableEq, Repr

/-- The entry that bare mode stands for: identity, every permission (R22). -/
def bareEnt (va : Nat) : TlbEnt :=
  { asid := 0, va := va, size := 1, pa := va, r := true, w := true, x := true, u := true, g := true, clid := 0, rep := none }

/-- Whether a page is built from a group of entries (R26). -/
def TlbEnt.grouped (e : TlbEnt) : Bool := e.size == 2 ^ 16 || e.size == 2 ^ 25 || e.size == 2 ^ 28

/-- The address of an access on its page (R30): a replicated leaf gives the copy of the asker's own core. -/
def TlbEnt.at_ (e : TlbEnt) (core va : Nat) : Nat :=
  match e.rep with
  | none => homePa (e.pa + (va - e.va))
  | some _ => vaultPa core (paOff (e.pa + (va - e.va)))

/-- A mailbox counter of this device under the one device number that all its names share (R10, R13). -/
def State.counterPa (s : State) (pa : Nat) : Nat :=
  if region pa = 2 ∧ s.ownDev (BitVec.ofNat 16 (bits pa 28 16)) = true then 2 * 2 ^ 44 + 0xFFFF * 2 ^ 28 + pa % 2 ^ 28 else pa

/-- Translation of a register value for an asker (R21, R22). On a page built from a group, an address that the access's offset makes
malformed is a page fault (R27). -/
def State.translate (s : State) (who : Asker) (va : Word) : State × Checked :=
  let h := s.hart who.hart
  if wbits va 48 16 ≠ 0 then (s, .fault 0x06)
  else if !wbit h.csr.ptroot 0 then
    (s, if 2 ≤ h.priv then .ok ⟨s.counterPa (homePa va.toNat), bareEnt va.toNat⟩ else .fault 0x06)
  else
    match s.page who va.toNat with
    | (s', .wait) => (s', .walk)
    | (s', .fault c) => (s', .fault c)
    | (s', .leaf e) =>
      let pa := s'.counterPa (e.at_ who.home va.toNat)
      (s', if e.grouped && s'.malformed pa then .fault 0x06 else .ok ⟨pa, e⟩)

/-! ### Checks of an access -/

/-- The kinds of access of R18, and the engine, message and control accesses that are checked in the same order. -/
inductive Acc where
  /-- load of a width; vector loads are not scalar -/
  | load (width : Nat) (scalar : Bool)
  | store
  /-- whether the host takes the operation as an AtomicOp -/
  | amo (host : Bool)
  | ldl
  | stu
  | row
  | fetch
  /-- ACT and PRE (R276) -/
  | vault
  /-- RLOAD, RSTORE, RAMO and XSTORE (R279, R293) -/
  | remote (r w : Bool)
  /-- copy source and destination (R20) -/
  | copySrc
  | copyDst
  /-- engine reads and writes of the own vault or pool (R333, R339, R368) -/
  | engVaultR
  | engVaultW
  | engPoolR
  | engPoolW
  | engOwnR
  | engOwnW
  deriving DecidableEq, Repr

/-- Whether an access needs the read permission of its page (R28). -/
def Acc.needR (a : Acc) : Bool :=
  match a with
  | .store | .stu | .fetch | .copyDst | .engVaultW | .engPoolW | .engOwnW => false
  | .remote r _ => r
  | _ => true

/-- Whether an access needs the write permission of its page (R28). -/
def Acc.needW (a : Acc) : Bool :=
  match a with
  | .store | .stu | .amo _ | .copyDst | .engVaultW | .engPoolW | .engOwnW => true
  | .remote _ w => w
  | _ => false

/-- Whether an access may use a replicated page (R31). -/
def Acc.repOk (a : Acc) : Bool :=
  match a with
  | .load _ _ | .store | .fetch | .vault | .copySrc | .engVaultR | .row => true
  | _ => false

/-- The reach of R18 and of the rules that Acc names, for a hart of a core. -/
def State.reach (s : State) (a : Acc) (core pa : Nat) : Bool :=
  let ownV := decide (region pa = 0) && decide (paCore pa = core)
  let ownP := decide (region pa = 1) && decide (paCluster pa = clusterOf core)
  let host := decide (8 ≤ region pa)
  match a with
  | .load w sc =>
    ownV || ownP || decide (region pa = 3) || decide (region pa = 4) || host ||
    (decide (region pa = 2) && sc && w == 4 && s.ownDev (BitVec.ofNat 16 (bits pa 28 16)) && decide (bits pa 8 11 = core))
  | .store => ownV || ownP || decide (region pa = 3) || decide (region pa = 4) || host
  | .amo h => ownV || ownP || (host && h)
  | .ldl | .stu => ownP
  | .row | .vault | .engVaultR | .engVaultW => ownV
  | .fetch => ownV || ownP
  | .remote _ _ => decide (region pa = 0)
  | .copySrc | .copyDst => decide (region pa = 0) || decide (region pa = 1) || host
  | .engPoolR | .engPoolW => ownP
  | .engOwnR | .engOwnW => ownV || ownP

/-- Permission of a page for an access at a privilege level (R28). -/
def Acc.permitted (a : Acc) (priv : Nat) (e : TlbEnt) : Bool :=
  (!a.needR || e.r) && (!a.needW || e.w) && (a != .fetch || e.x) && (e.u || decide (1 ≤ priv))

/-- The reach of an access on its page: a replicated page serves only the clusters of its mask (R30, R31). An address that is
malformed by its offset in a page of one entry, or in bare mode, is beyond reach (DESIGN CHOICE, unsafe; log 96). -/
def State.reachPage (s : State) (a : Acc) (core : Nat) (x : Xlat) : Bool :=
  match x.ent.rep with
  | none => s.reach a core x.pa && !s.malformed x.pa
  | some m => a.repOk && m.getLsbD (clusterOf core) && s.reach a core x.pa

/-- Steps 2 to 5 of R19: the translated address, or the cause of the first check that fails. -/
def State.check (s : State) (who : Asker) (a : Acc) (va : Word) : State × Checked :=
  match s.translate who va with
  | (s', .ok x) =>
    if !a.permitted (s.hart who.hart).priv x.ent then (s', .fault 0x07)
    else if (s.hart who.hart).priv < (if region x.pa = 3 then 1 else if region x.pa = 4 then 2 else 0) then (s', .fault 0x03)
    else if !s'.reachPage a who.home x then (s', .fault 0x05)
    else (s', .ok x)
  | r => r

/-- The checks of an ordinary access in the order of R19, alignment first. -/
def State.access (s : State) (who : Asker) (a : Acc) (align : Nat) (va : Word) : State × Checked :=
  if va.toNat % align ≠ 0 then (s, .fault 0x04) else s.check who a va

/-- An ordinary access of the issuing hart: a failed check traps with the address in TVAL (R19), a walk is waited for at the
instruction (R35); otherwise the access goes on with its translation. -/
def withAccess (a : Acc) (align : Nat) (va : Word) (k : Xlat → State → State) (s : State) : State :=
  match s.access (.instr s.cur) a align va with
  | (s', .fault c) => trapVal c va s'
  | (s', .walk) => stall s'
  | (s', .ok x) => k x s'

/-- Rank of a cause in the order of R19. -/
def causeRank (c : BitVec 8) : Nat :=
  if c = 0x04 then 0 else if c = 0x06 ∨ c = 0x0B then 1 else if c = 0x07 then 2 else if c = 0x03 then 3 else 4

/-- The failure that decides among those of a footprint: the first check of R19 that any part fails, then the first part in
the order given (R36, R313). -/
def worstFault (fs : List (BitVec 8 × Word)) : Option (BitVec 8 × Word) :=
  match fs with
  | [] => none
  | f :: r =>
    match worstFault r with
    | none => some f
    | some g => if causeRank g.1 < causeRank f.1 then some g else some f

/-- What the checks of several parts answer together: the translations in order, the failures, and whether a walk is waited
for. -/
structure CheckedAll where
  xs : List Xlat
  faults : List (BitVec 8 × Word)
  walk : Bool
  deriving DecidableEq, Repr

/-- The answers of several parts with that of one before them. -/
def CheckedAll.cons (r : CheckedAll) (va : Word) (c : Checked) : CheckedAll :=
  match c with
  | .ok x => { r with xs := x :: r.xs }
  | .fault c => { r with faults := (c, va) :: r.faults }
  | .walk => { r with walk := true }

/-- Every part of a list checked as an access. -/
def State.accessAll (s : State) (who : Asker) (a : Acc) (align : Nat) (vas : List Word) : State × CheckedAll :=
  match vas with
  | [] => (s, ⟨[], [], false⟩)
  | va :: r =>
    let t := s.access who a align va
    let u := t.1.accessAll who a align r
    (u.1, u.2.cons va t.2)

end Sys2Proof.Machine
end

