-- ==== Sys2Proof/Machine/Fetch.lean ====
section
/-! DEFINITION. Sys2Proof/Machine/Fetch.lean: fetching an instruction (R28, R133, R216, R260) by parcels of 16 bits, from what the
hart has fetched ahead or from the home of the bytes, and the choice of the hart that issues (R172). -/

namespace Sys2Proof.Machine

/-- Why a fetch gives no bytes: it waits for a held line (R152), a blocked bank, a pool bank or a walk; a check of R19 failed at
an address; or the word cannot be corrected (R81, R83). -/
inductive FetchStop where
  | held
  | fault (cause : BitVec 8) (va : Word)
  | uncorr (word : Nat) (va : Word)
  deriving DecidableEq, Repr

/-- Whether the instruction at which a hart stands has been fetched and waits: it is not fetched anew from its row. -/
def Hart.fetchDone (h : Hart) : Bool := h.wait.isSome && h.wait != some .fetch

/-- The line of a byte as a part. -/
def linePart (pa : Nat) : Nat × Nat := (pa / 64 * 64, 64)

/-- The home of two bytes of an instruction read: the fetch asks the bank for the line as any request does, and waits for its row and for
whatever holds the bank (R46, R49, R51, R57, R59, R66), or the bank of a pool lets it in at its turn (R84) (DEDUCED, unsafe; log 111). -/
def State.fetchHome (s : State) (id : HartId) (pa : Nat) : State × Bool :=
  if (s.hart id).fetchDone then (s, true)
  else if region pa = 1 then
    match s.poolTurns (portOf id false) [pa / 64] with
    | some t => (t, true)
    | none => (s, false)
  else
    let t := s.askAll (.instr id) [linePart pa]
    (t, t.readReady (.instr id) [linePart pa])

/-- One parcel: a byte fetched ahead stands in place of the one at its home (R260); otherwise the fetch is checked by R19 and
reads the value at its home (R28, R133). -/
def State.fetchParcel (s : State) (id : HartId) (va : Word) : State × Except FetchStop (List Byte) :=
  let ahead (k : Nat) : Option Byte := ((s.hart id).fetched.find? (fun c => c.1 == va.toNat + k)).map (·.2)
  match ahead 0, ahead 1 with
  | some b0, some b1 => (s, .ok [b0, b1])
  | _, _ =>
    match s.check (.instr id) .fetch va with
    | (s', .fault c) => (s', .error (.fault c va))
    | (s', .walk) => (s', .error .held)
    | (s', .ok x) =>
      if s'.heldAt x.pa 2 then (s'.askAll (.instr id) [linePart x.pa], .error .held)
      else match s'.badWord x.pa 2 with
        | some w => (s', .error (.uncorr w va))
        | none =>
          let r := s'.fetchHome id x.pa
          (r.1, if r.2 then .ok (r.1.readBytes x.pa 2) else .error .held)

/-- A number of parcels from an address on, or why the first that fails does. -/
def State.fetchParcels (s : State) (id : HartId) (va : Word) (n : Nat) : State × Except FetchStop (List Byte) :=
  match n with
  | 0 => (s, .ok [])
  | k + 1 =>
    match s.fetchParcel id va with
    | (s1, .error e) => (s1, .error e)
    | (s1, .ok b) =>
      match s1.fetchParcels id (va + 2) k with
      | (s2, .error e) => (s2, .error e)
      | (s2, .ok r) => (s2, .ok (b ++ r))

/-- The first, and where there is one the control, word of the instruction at an address, its mask word read as zero: what
steps 1 and 2 of R222 look at. -/
def State.fetchBase (s : State) (id : HartId) (pc : Word) : State × Except FetchStop Code :=
  match s.fetchParcels id pc 1 with
  | (s1, .error e) => (s1, .error e)
  | (s1, .ok p) =>
    let parcel : BitVec 16 := BitVec.ofNat 16 (ofBytes p)
    let n := parcelLen parcel
    match s1.fetchParcels id (pc + 2) (n / 2 - 1) with
    | (s2, .error e) => (s2, .error e)
    | (s2, .ok r) =>
      let bs := p ++ r
      (s2, .ok ⟨n, BitVec.ofNat 32 (ofBytes (bs.take 4)), if n = 8 then BitVec.ofNat 32 (ofBytes (bs.drop 4)) else 0,
                if maskLen parcel = 4 then some 0 else none⟩)

/-- The live-mask word of an instruction that has one (R180). -/
def State.fetchMask (s : State) (id : HartId) (pc : Word) (k : Code) : State × Except FetchStop Code :=
  match k.mask with
  | none => (s, .ok k)
  | some _ =>
    match s.fetchParcels id (pc + BitVec.ofNat 64 k.len) 2 with
    | (s1, .error e) => (s1, .error e)
    | (s1, .ok b) => (s1, .ok { k with mask := some (BitVec.ofNat 32 (ofBytes b)) })

/-- Bytes from an address on fetched ahead of their use, as far as the checks, held lines and uncorrectable words let them (R83, R149,
R260): a bank is asked for the lines of a vault, or the bytes of lines that it has served are taken; those of a pool come at their turn
(R84) (DEDUCED, safe; log 90). -/
def State.aheadBytes (s : State) (id : HartId) (ask : Bool) (va : Word) (n : Nat) : State :=
  match n with
  | 0 => s
  | k + 1 =>
    match s.check (.instr id) .fetch va with
    | (s', .ok x) =>
      let take (t : State) : State :=
        (t.modHart id (fun h => { h with fetched := (va.toNat, t.readByte x.pa) :: h.fetched.filter (fun c => c.1 != va.toNat) })).aheadBytes id ask (va + 1) k
      if s'.heldAt x.pa 1 || (s'.badWord x.pa 1).isSome then s'
      else if region x.pa = 1 then (match s'.poolTurns (portOf id false) [x.pa / 64] with | some t => take t | none => s')
      else if ask then (s'.askAll (.ahead id) [linePart x.pa]).aheadBytes id ask (va + 1) k
      else if s'.readReady (.ahead id) [linePart x.pa] then take s'
      else s'
    | (s', _) => s'

/-- Whether a request of a reader still waits in the queue of a bank of a vault. -/
def Vault.queued (v : Vault) (who : Reader) : Bool := v.banks.any (fun e => e.2.q.any (fun q => q.kind == .read who))

/-- A fetch ahead of its use: it asks, or takes what it has asked for once that has been served (R260). -/
def State.fetchAhead (s : State) (id : HartId) (va : Word) (n : Nat) : State :=
  let v := s.vault id.home
  if v.queued (.ahead id) then s
  else if v.reads (.ahead id) then (s.aheadBytes id false va n).dropReads id.home (.ahead id)
  else s.aheadBytes id true va n

/-- Whether a wait ends by an event and not by issuing the instruction again. -/
def Wait.parked (w : Wait) : Bool :=
  match w with
  | .exit | .ending _ | .killed _ | .taken _ => true
  | _ => false

/-- A hart that may issue: running, in no pause, not at its end (R172, R255). -/
def State.canIssue (s : State) (id : HartId) : Bool :=
  (s.hart id).st == .running && decide ((s.hart id).pauseTo ≤ s.clk) &&
  (match (s.hart id).wait with | some w => !w.parked | none => true)

/-- The slot that issues becomes the most recently issued of its core, and the ready slots that it leaves behind have been passed over
once more (R172). -/
def State.noteIssue (s : State) (id : HartId) (behind : List HartId) : State :=
  if id.kind = .thread then
    s.modCore id.core (fun c =>
      { c with order := c.order.filter (· != id.idx) ++ [id.idx], passed := behind.map (fun g => (g.idx, c.passed.get g.idx 0 + 1)) })
  else s

/-- PRIO of a thread (R160, R172). -/
def Hart.prio (h : Hart) : Nat := wbits h.csr.launchid 22 2

/-- Whether a ready thread is chosen before another of its core (R172): one passed over in each of its core's last four issues before one
that was not; then the higher PRIO, unless both were; then the least recently issued (DEDUCED, unsafe; log 117). -/
def State.precedes (s : State) (g h : HartId) : Bool :=
  let c := s.core h.core
  let late (n : Nat) : Bool := decide (4 ≤ c.passed.get n 0)
  let older := decide (c.order.idxOf g.idx < c.order.idxOf h.idx)
  if late g.idx != late h.idx then late g.idx
  else if late g.idx || (s.hart g).prio == (s.hart h).prio then older
  else decide ((s.hart h).prio < (s.hart g).prio)

end Sys2Proof.Machine
end

