-- ==== Sys2Proof/Machine/Operands.lean ====
section
/-! DEFINITION. Sys2Proof/Machine/Operands.lean: the operand forms: immediates, effective addresses (R269), and the shapes in
which register instructions read their sources and write rd (R240). -/

namespace Sys2Proof.Machine

/-- Sign extension to 64 bits. -/
def sx {n : Nat} (i : BitVec n) : Word := i.signExtend 64

/-- Zero extension to 64 bits. -/
def zx {n : Nat} (i : BitVec n) : Word := i.setWidth 64

/-- sext32 of R240. -/
def sext32 (v : Word) : Word := (v.setWidth 32).signExtend 64

/-- A truth value as 1 or 0. -/
def bool64 (b : Bool) : Word := if b then 1 else 0

/-- A primed register field (R225): n names x(8 + n). -/
def prime (n : BitVec 3) : Reg := 0b01#2 ++ n

/-- Access width in bytes of a 2-bit width code (R219). -/
def widthOf (w : BitVec 2) : Nat := 2 ^ w.toNat

/-- Width in bytes of W (0) or D (1) (R272). -/
def widthAmo (w : BitVec 1) : Nat := if w = 0 then 4 else 8

/-- ea_m (R269). -/
def State.eaM (s : State) (a : Reg) (i : BitVec 7) (w : BitVec 2) : Word := s.rx a + (sx i <<< w.toNat)

/-- ea_x (R269). -/
def State.eaX (s : State) (a b : Reg) (w : BitVec 2) : Word := s.rx a + (s.rx b <<< w.toNat)

/-- rd written with a value and the instruction completed. -/
def writeRd (ik : Code) (hd : Head) (d : Reg) (v : Word) (s : State) : State := finish ik hd (s.wx d v)

/-- rd := f a b (R240, R241). -/
def regReg (ik : Code) (hd : Head) (d a b : Reg) (f : Word → Word → Word) (s : State) : State :=
  issue ik hd 0 true [.x a, .x b] [.x d] (fun s => writeRd ik hd d (f (s.rx a) (s.rx b)) s) s

/-- rd := f a (R240, R242, R246). -/
def regOne (ik : Code) (hd : Head) (d a : Reg) (f : Word → Word) (s : State) : State :=
  issue ik hd 0 true [.x a] [.x d] (fun s => writeRd ik hd d (f (s.rx a)) s) s

/-- rd := a value of no register (R243). -/
def regNone (ik : Code) (hd : Head) (d : Reg) (f : Word → Word) (s : State) : State :=
  issue ik hd 0 true [] [.x d] (fun s => writeRd ik hd d (f s.me.pc) s) s

/-- rd := f a b old, rd being a source too (R248). -/
def regRegRd (ik : Code) (hd : Head) (d a b : Reg) (f : Word → Word → Word → Word) (s : State) : State :=
  issue ik hd 0 true [.x a, .x b, .x d] [.x d] (fun s => writeRd ik hd d (f (s.rx a) (s.rx b) (s.rx d)) s) s

end Sys2Proof.Machine
end

