-- ==== Sys2Proof/Machine/Flags.lean ====
section
/-! DEFINITION. Sys2Proof/Machine/Flags.lean: the arithmetic flags, the rounding mode and the flush bit of FCSR and VCSR (R204,
R205, R206), and how an instruction adds its flags. -/

namespace Sys2Proof.Machine

/-- The five flags: NX, UF, OF, DZ, NV in bits 0 to 4, as FCSR[7:3] and VCSR[7:3] order them (R204, R205). -/
abbrev Flags := BitVec 5

/-- No flag. -/
def noFlags : Flags := 0
/-- Inexact. -/
def flagNX : Flags := 1
/-- Underflow. -/
def flagUF : Flags := 2
/-- Overflow. -/
def flagOF : Flags := 4
/-- Division by zero. -/
def flagDZ : Flags := 8
/-- Invalid operation. -/
def flagNV : Flags := 16

/-- A flag raised on a condition. -/
def Flags.when (f : Flags) (b : Bool) : Flags := if b then f else 0

/-- What governs one rounding: the mode of R206, FTZ of R207 and the saturation of R200 or R208. -/
structure FEnv where
  rm : Nat
  ftz : Bool
  sat : Bool
  deriving DecidableEq, Repr

/-- RM, FTZ and the saturation bit SATFP8 (bit 9) of FCSR or VCSR (R204, R205); FCSR[9] is zero. -/
def csrEnv (c : Word) : FEnv := ⟨wbits c 0 3, wbit c 8, wbit c 9⟩

/-- Rounding to nearest even with the same flush and saturation (R206). -/
def FEnv.rne (e : FEnv) : FEnv := { e with rm := 0 }

/-- FCSR or VCSR with flags added to its sticky bits (R204, R205). -/
def addFlags (c : Word) (f : Flags) : Word := c ||| (f.setWidth 64 <<< 3)

/-- The value that FCSR or VCSR keeps of a written RM: 5 to 7 are stored as 0 (R204, R205). -/
def storeRm (v : Word) : Word := if 5 ≤ wbits v 0 3 then setBits v 0 3 0 else v

/-- Flags added to FCSR of the issuing hart. -/
def addFcsr (f : Flags) (s : State) : State :=
  s.modMe (fun h => h.modCsr (fun c => { c with fcsr := addFlags c.fcsr f }))

/-- Flags added to VCSR of the issuing hart. -/
def addVcsr (f : Flags) (s : State) : State :=
  s.modMe (fun h => h.modCsr (fun c => { c with vcsr := addFlags c.vcsr f }))

end Sys2Proof.Machine
end

