-- ==== Sys2Proof/Machine/Csr.lean ====
section
/-! DEFINITION. Sys2Proof/Machine/Csr.lean: the CSR map (R264), what a read of each CSR gives, and what a write at a level does under
its field rules (R262 and the rule of each CSR). -/

namespace Sys2Proof.Machine

/-- Where a CSR is held (R264). -/
inductive CsrHold where
  | slot
  | slotCtx
  | shared
  deriving DecidableEq, Repr

/-- Row of the CSR map: holder, lowest level that reads, lowest level that writes (3: none). -/
structure CsrInfo where
  hold : CsrHold
  rd : Nat
  wr : Nat
  deriving DecidableEq, Repr

/-- The CSR map (R264). -/
def csrInfo (n : Nat) : Option CsrInfo :=
  if n = 0x000 then some ⟨.slotCtx, 0, 0⟩
  else if n = 0x001 then some ⟨.slot, 0, 0⟩
  else if n = 0x002 ∨ n = 0x003 then some ⟨.shared, 0, 2⟩
  else if n = 0x004 then some ⟨.slotCtx, 0, 3⟩
  else if n = 0x005 ∨ n = 0x006 then some ⟨.slot, 0, 3⟩
  else if n = 0x007 then some ⟨.shared, 0, 2⟩
  else if n = 0x008 then some ⟨.slot, 0, 0⟩
  else if n = 0x00A then some ⟨.slotCtx, 0, 0⟩
  else if 0x010 ≤ n ∧ n ≤ 0x02F then some ⟨.slot, 0, 0⟩
  else if 0x030 ≤ n ∧ n ≤ 0x03C then some ⟨.slotCtx, 0, 0⟩
  else if 0x100 ≤ n ∧ n ≤ 0x106 then some ⟨.slotCtx, 1, 1⟩
  else if n = 0x107 ∨ n = 0x108 then some ⟨.slot, 1, 1⟩
  else if n = 0x109 then some ⟨.slotCtx, 0, 2⟩
  else if n = 0x10A then some ⟨.slotCtx, 1, 1⟩
  else if n = 0x200 then some ⟨.shared, 1, 2⟩
  else if n = 0x201 then some ⟨.shared, 0, 2⟩
  else if 0x202 ≤ n ∧ n ≤ 0x206 then some ⟨.shared, 0, 1⟩
  else if n = 0x207 ∨ n = 0x209 then some ⟨.shared, 0, 2⟩
  else if n = 0x208 ∨ n = 0x20B then some ⟨.shared, 0, 3⟩
  else if n = 0x20A then some ⟨.slotCtx, 0, 0⟩
  else if n = 0x300 ∨ n = 0x301 then some ⟨.shared, 0, 1⟩
  else if n = 0x302 then some ⟨.slotCtx, 0, 0⟩
  else none

/-! ### Values that hardware keeps -/

/-- LEASEBUDGET of a cluster, CSR 0x301: CMDS in [7:0] and TCLK in [23:8] (R325). -/
def Cluster.leaseBudget (c : Cluster) : Word := BitVec.ofNat 64 (c.budCmds + c.budTclk * 2 ^ 8)

/-- Cycles of a core's cluster clock since the cluster began to count, at step k of 16 (R413). -/
def State.cycles (s : State) (core : Nat) : Nat :=
  let c := s.cluster (clusterOf core)
  c.cycBase + (s.clk - c.cycClk) * c.step / 16

/-- The offset of a counter at a count: a written one counts from the cycle or tick after the write on (R265). -/
def offsetAt (now : Nat) (old : Word) (next : Option (Nat × Word)) : Word :=
  match next with
  | some (t, w) => if t ≤ now then w else old
  | none => old

/-- CYCLE of a core (R265). -/
def State.cycle (s : State) (core : Nat) : Word :=
  BitVec.ofNat 64 (s.cycles core) + offsetAt (s.cycles core) (s.core core).cycOff (s.core core).cycNext

/-- 100 MHz ticks since device reset, two for each 21 clk of 1.05 GHz (R265). -/
def State.ticks (s : State) : Nat := s.clk * 2 / 21

/-- TIME (R265). -/
def State.time (s : State) : Word := BitVec.ofNat 64 s.ticks + offsetAt s.ticks s.dev.timeOff s.dev.timeNext

/-- A counter's offsets after a write of a value at a count: the value stands from the next count on (R265). -/
def offsetSet (now : Nat) (old : Word) (next : Option (Nat × Word)) (v : Word) : Word × Option (Nat × Word) :=
  (offsetAt now old next, some (now + 1, v - BitVec.ofNat 64 (now + 1)))

/-- Entries of 64 bytes that an arrival occupies (R108). -/
def Msg.entries (m : Msg) : Nat :=
  match m.kind with
  | .rcall | .travel => 2
  | .chunk => 5
  | _ => 1

/-- On-die entries occupied (R105). -/
def Core.onDie (c : Core) : Nat := (c.ondie.map Msg.entries).sum

/-- Ring entries occupied (R106). -/
def Core.spilled (c : Core) : Nat := (c.ring.map Msg.entries).sum

/-- THREADID of a hart (R266). -/
def threadIdOf (h : HartId) : Word := BitVec.ofNat 64 (h.home + h.idx % 4 * 2048 + b2n h.isCtx * 8192)

/-- One slot's half of ARRAYSTAT (R326). -/
def Cluster.slotStat (c : Cluster) (n : Nat) : Nat :=
  let l := c.slots.get n LeaseSlot.reset
  let st := match l.st with | .free => 0 | .held => 1 | .draining => 2
  let who := match l.holder with | some h => h.core * 4 + h.idx % 4 * 8192 | none => 0
  st + who + b2n (c.turn == some n) * 2 ^ 15 + l.flags.toNat * 2 ^ 16 + b2n (!l.poisonW.isEmpty || !l.poisonV.isEmpty) * 2 ^ 21

/-- PREEMPT of a hart with its WAIT (R396). -/
def State.preemptWord (s : State) (h : Hart) : Word :=
  if wbits h.csr.preempt 0 2 = 0 then h.csr.preempt else setBits h.csr.preempt 8 24 (min (s.clk - h.reqClk) (2 ^ 24 - 1))

/-- A read of a CSR by number for a hart (R261, R264). -/
def State.csrRead (s : State) (id : HartId) (n : Nat) : Word :=
  let h := s.hart id
  let r := h.csr
  let core := id.home
  let c := s.core core
  let v := s.vault core
  let t := s.stk (stackOf core)
  if n = 0x000 then r.fcsr
  else if n = 0x001 then setBits r.vcsr 10 1 (b2n c.long)
  else if n = 0x002 then s.cycle core
  else if n = 0x003 then s.time
  else if n = 0x004 then threadIdOf id
  else if n = 0x005 then r.unitid
  else if n = 0x006 then r.launchid
  else if n = 0x007 then s.dev.devnum.setWidth 64
  else if n = 0x008 then r.tkfault
  else if n = 0x00A then r.msgerr
  else if n < 0x010 then 0
  else if n ≤ 0x01F then r.pbase.get (n - 0x010) 0
  else if n ≤ 0x02F then r.plen.get (n - 0x020) 0
  else if n ≤ 0x033 then r.lstart.get (n - 0x030) 0
  else if n ≤ 0x037 then r.lend.get (n - 0x034) 0
  else if n ≤ 0x03B then r.lcount.get (n - 0x038) 0
  else if n = 0x03C then r.ldepth
  else if n = 0x100 then r.tstatus
  else if n = 0x101 then r.tvec
  else if n = 0x102 then r.tepc
  else if n = 0x103 then r.tcause
  else if n = 0x104 then r.tval
  else if n = 0x105 then r.tscratch
  else if n = 0x106 then r.ptroot
  else if n = 0x107 then r.safemask
  else if n = 0x108 then s.preemptWord h
  else if n = 0x109 then s.dev.asgen.get h.asid.toNat 0
  else if n = 0x10A then r.repset
  else if n = 0x200 then c.htbase
  else if n = 0x201 then c.htgen.setWidth 64
  else if n = 0x202 then BitVec.ofNat 64 (c.spillBase * 64)
  else if n = 0x203 then BitVec.ofNat 64 c.spillQuota
  else if n = 0x204 then BitVec.ofNat 64 (c.travMax + c.inflight % 65536 * 2 ^ 32)
  else if n = 0x205 then
    BitVec.ofNat 64 (c.onDie + b2n c.hfault * 2 ^ 7 + c.spilled * 2 ^ 8 + c.rhead * 2 ^ 24 + c.hwm * 2 ^ 40 + c.breach * 2 ^ 56)
  else if n = 0x206 then BitVec.ofNat 64 (v.log.length + v.lost * 2 ^ 16 + b2n v.ie * 2 ^ 32)
  else if n = 0x207 then v.gen.setWidth 64
  else if n = 0x208 then BitVec.ofNat 64 (((List.range 8).map (fun l => min (t.temps.get l 0) 255 * 2 ^ (8 * l))).sum)
  else if n = 0x209 then BitVec.ofNat 64 v.mat
  else if n = 0x20A then r.vlast
  else if n = 0x20B then BitVec.ofNat 64 (((List.range 8).map (fun l => t.bands.get l 0 % 4 * 2 ^ (2 * l))).sum)
  else if n = 0x300 then BitVec.ofNat 64 ((s.cluster (clusterOf core)).slotStat 0 + (s.cluster (clusterOf core)).slotStat 1 * 2 ^ 32)
  else if n = 0x301 then (s.cluster (clusterOf core)).leaseBudget
  else if n = 0x302 then r.plockstat
  else 0

/-! ### Writes with an effect of their own -/

/-- Outcome of a write: done, a trap with cause 0x03 (R262), or a wait. -/
inductive WRes where
  | ok (s : State)
  | trap
  | wait
  deriving DecidableEq, Repr

/-- The 16 bytes of the image of a handler-table entry (R111). -/
def HEntry.image (e : HEntry) : List Byte :=
  let st := match e.st with | .empty => 0 | .valid => 1 | .busy => 2
  bytesOf 8 e.ptroot.toNat ++ bytesOf 8 (wbits e.pc 1 47 * 2 + st * 2 ^ 48 + b2n e.priv * 2 ^ 50 + b2n e.anyas * 2 ^ 51)

/-- The agent of a core as the writer of its own lines. -/
def agentOf (core : Nat) : HartId := ⟨.ctx, core, 0⟩

/-- The agent of a core as a writer. -/
def agentWriter (core : Nat) : Writer := ⟨agentOf core, 0, false⟩

/-- HTBASE written: the images of all 64 entries are stored at the new base (R110, R111). One that does not name the agent's own
vault is kept, and no image is stored (DESIGN CHOICE, unsafe; log 102). None while the vault cannot accept the images. -/
def State.htbaseSet (s : State) (core : Nat) (v : Word) : Option State :=
  let base := wbits v 10 38 * 1024
  let s1 := s.modCore core (fun c => { c with htbase := BitVec.ofNat 64 base })
  if base = 0 ∨ region base ≠ 0 ∨ paCore base ≠ core then some s1
  else s1.storeBytes (agentPort core) base (((List.range 64).map (fun n => ((s.core core).ht.get n HEntry.empty).image)).flatten) (agentWriter core)

/-- The ring's base (in 64-byte units) and quota taking effect: a quota too large for the room to the end of the vault is
reduced to what fits; RHEAD is 0 again (R107) (DESIGN CHOICE, unsafe; log 100). -/
def State.spillApply (s : State) (core base quota : Nat) : State :=
  s.modCore core (fun c => { c with spillBase := base, spillQuota := min quota (2 ^ 22 - base), rhead := 0, spillNext := none })

/-- SPILLBASE or SPILLQUOTA written: at once while the ring is empty, otherwise when it next empties (R107). -/
def State.spillSet (s : State) (core : Nat) (quota : Bool) (v : Word) : State :=
  let c := s.core core
  let old := c.spillNext.getD (c.spillBase, c.spillQuota)
  let new := if quota then (old.1, wbits v 0 16) else (wbits v 6 22, old.2)
  if c.ring.isEmpty then s.spillApply core new.1 new.2 else s.modCore core (fun c => { c with spillNext := some new })

/-- AQSTAT written: HFAULT cleared by a 0, HWM set to SPILLED, BREACH cleared (R107). -/
def State.aqstatSet (s : State) (core : Nat) (v : Word) : State :=
  s.modCore core (fun c => { c with hfault := c.hfault && wbit v 7, hwm := c.spilled, breach := 0 })

/-- VAULTEVT written: LOST cleared, IE set (R75). -/
def State.vaultevtSet (s : State) (core : Nat) (v : Word) : State :=
  s.modVault core (fun t => { t with lost := 0, ie := wbit v 32 })

/-- MSGERR written: the whole register is cleared (R116). -/
def State.msgerrClear (s : State) (id : HartId) : State := s.modHart id (fun h => h.modCsr (fun c => { c with msgerr := 0 }))

/-- Whether a slot holds a unit that can be taken (R394). -/
def Hart.occupied (h : Hart) : Bool := h.st == .running || h.st == .halted || h.st == .frozen

/-- Whether a hart has been taken by pre-emption and not yet been saved (R181, R397). -/
def Hart.isTaken (h : Hart) : Bool := match h.wait with | some (.taken _) => true | _ => false

/-- REQ, KILL and STATE of PREEMPT as a write leaves them for one slot (R396, R398). -/
def State.preemptSet1 (s : State) (id : HartId) (req kill : Bool) : State :=
  s.modHart id (fun h =>
    let was := wbits h.csr.preempt 0 2 != 0
    let now := req || kill
    let st := wbits h.csr.preempt 2 2
    { h with
      reqClk := if now && !was then s.clk else h.reqClk
      late := if now && !was then false else h.late
      csr := { h.csr with
        preempt := setBits (setBits h.csr.preempt 0 2 (b2n req + 2 * b2n kill)) 2 2 (if 2 ≤ st then st else b2n now) } })

/-- A request to take an occupied slot, which has not been taken, is one to take every occupied slot of its core while that is in
long mode (R182). -/
def State.request (s : State) (id : HartId) : State :=
  let one (s : State) (h : HartId) : State :=
    if (s.hart h).occupied && !(s.hart h).isTaken then s.preemptSet1 h true (wbit (s.hart h).csr.preempt 1) else s
  if (s.core id.core).long then (threadsOf id.core).foldl one s else one s id

/-- PREEMPT written (R182, R396). A slot without a unit has nothing to take: REQ and KILL read 0 again at once (R397). -/
def State.preemptSet (s : State) (id : HartId) (req kill : Bool) : State :=
  if id.kind == .thread && !(s.hart id).occupied then s
  else
    let s1 := s.preemptSet1 id req kill
    if req && id.kind == .thread then s1.request id else s1

/-- TSTATUS as a write stores it (R267). -/
def tstatusStore (old v : Word) : Word :=
  tstatusOf (wbits old 0 2) (if wbits v 2 2 = 3 then 0 else wbits v 2 2) (wbit v 4)

/-- PTROOT as a write at a level stores it: a write of MODE 0 from supervisor level leaves MODE (R22). -/
def ptrootStore (priv : Nat) (old v : Word) : Word :=
  let mode := wbit v 0 || (decide (priv < 2) && wbit old 0)
  setBits (setBits (setBits 0 0 1 (b2n mode)) 4 12 (wbits v 4 12)) 16 36 (wbits v 16 36)

/-- LEASEBUDGET written (R325). -/
def State.leaseBudgetSet (s : State) (core : Nat) (v : Word) : State :=
  s.modCluster (clusterOf core) (fun c => { c with budCmds := max (wbits v 0 8) 1, budTclk := max (wbits v 8 16) 256 })

/-- The flags of both lease slots written through ARRAYSTAT; DZ stays 0 (R326). -/
def State.arraystatSet (s : State) (core : Nat) (v : Word) : State :=
  let one (c : Cluster) (n : Nat) : Cluster :=
    let f : Flags := BitVec.ofNat 5 (wbits v (32 * n + 16) 3 + wbits v (32 * n + 20) 1 * 16)
    { c with slots := c.slots.set n { (c.slots.get n LeaseSlot.reset) with flags := f } }
  s.modCluster (clusterOf core) (fun c => one (one c 0) 1)

/-- A CSR of a hart changed. -/
def State.hartCsr (s : State) (id : HartId) (f : HartCsrs → HartCsrs) : WRes := .ok (s.modHart id (fun h => h.modCsr f))

/-- A write that only some levels may make, otherwise without effect (R262). -/
def atLevel (priv least : Nat) (s t : State) : WRes := .ok (if least ≤ priv then t else s)

/-- A write that raises cause 0x03 below a level (R262). -/
def atLevelTrap (priv least : Nat) (t : State) : WRes := if least ≤ priv then .ok t else .trap

/-- A write of a CSR by number for a hart, made at a level (R262); one of PTROOT or REPSET also discards the instructions fetched
ahead, since the next instruction is fetched under the new value (R263). -/
def State.csrWrite (s : State) (id : HartId) (priv n : Nat) (v : Word) : WRes :=
  let core := id.home
  if n = 0x000 then s.hartCsr id (fun c => { c with fcsr := storeRm (BitVec.ofNat 64 (wbits v 0 9)) })
  else if n = 0x001 then s.hartCsr id (fun c => { c with vcsr := storeRm (BitVec.ofNat 64 (wbits v 0 10 + wbits v 11 1 * 2 ^ 11)) })
  else if n = 0x002 then
    atLevel priv 2 s (s.modCore core (fun c =>
      let o := offsetSet (s.cycles core) c.cycOff c.cycNext v
      { c with cycOff := o.1, cycNext := o.2 }))
  else if n = 0x003 then
    atLevel priv 2 s (s.modDev (fun d =>
      let o := offsetSet s.ticks d.timeOff d.timeNext v
      { d with timeOff := o.1, timeNext := o.2 }))
  else if n = 0x005 ∨ n = 0x006 then atLevelTrap priv 1 s
  else if n = 0x007 then atLevelTrap priv 2 (s.modDev (fun d => { d with devnum := v.setWidth 16 }))
  else if n = 0x008 then s.hartCsr id (fun c => { c with tkfault := v })
  else if n = 0x00A then .ok (s.msgerrClear id)
  else if n < 0x010 then .ok s
  else if n ≤ 0x01F then s.hartCsr id (fun c => { c with pbase := c.pbase.set (n - 0x010) (BitVec.ofNat 64 (wbits v 0 48)) })
  else if n ≤ 0x02F then s.hartCsr id (fun c => { c with plen := c.plen.set (n - 0x020) (BitVec.ofNat 64 (wbits v 0 16)) })
  else if n ≤ 0x033 then s.hartCsr id (fun c => { c with lstart := c.lstart.set (n - 0x030) (BitVec.ofNat 64 (wbits v 1 47 * 2)) })
  else if n ≤ 0x037 then s.hartCsr id (fun c => { c with lend := c.lend.set (n - 0x034) (BitVec.ofNat 64 (wbits v 1 47 * 2)) })
  else if n ≤ 0x03B then s.hartCsr id (fun c => { c with lcount := c.lcount.set (n - 0x038) v })
  else if n = 0x03C then s.hartCsr id (fun c => { c with ldepth := BitVec.ofNat 64 (min (wbits v 0 3) 4) })
  else if n = 0x100 then s.hartCsr id (fun c => { c with tstatus := tstatusStore c.tstatus v })
  else if n = 0x101 then s.hartCsr id (fun c => { c with tvec := BitVec.ofNat 64 (wbits v 1 47 * 2) })
  else if n = 0x102 then s.hartCsr id (fun c => { c with tepc := BitVec.ofNat 64 (wbits v 0 48) })
  else if n = 0x103 then s.hartCsr id (fun c => { c with tcause := BitVec.ofNat 64 (wbits v 0 16) })
  else if n = 0x104 then s.hartCsr id (fun c => { c with tval := v })
  else if n = 0x105 then s.hartCsr id (fun c => { c with tscratch := v })
  else if n = 0x106 then
    if priv < 1 then .trap
    else .ok (s.modHart id (fun h => { h.modCsr (fun c => { c with ptroot := ptrootStore priv c.ptroot v }) with fetched := [] }))
  else if n = 0x107 then atLevel priv 1 s (s.modHart id (fun h => h.modCsr (fun c => { c with safemask := setBits c.safemask 0 27 (wbits v 0 27) })))
  else if n = 0x108 then atLevel priv 1 s (s.preemptSet id (wbit v 0) (wbit v 1))
  else if n = 0x109 then
    atLevelTrap priv 2 (s.modDev (fun d => { d with asgen := d.asgen.set (s.hart id).asid.toNat v }))
  else if n = 0x10A then 
    atLevel priv 1 s (s.modHart id (fun h => { h.modCsr (fun c => { c with repset := BitVec.ofNat 64 (wbits v 11 37 * 2048) }) with fetched := [] }))
  else if n = 0x200 then
    if priv < 2 then .ok s else (match s.htbaseSet core v with | some t => .ok t | none => .wait)
  else if n = 0x201 then atLevelTrap priv 2 (s.modCore core (fun c => { c with htgen := v.setWidth 32 }))
  else if n = 0x202 then atLevelTrap priv 1 (s.spillSet core false v)
  else if n = 0x203 then atLevelTrap priv 1 (s.spillSet core true v)
  else if n = 0x204 then atLevel priv 1 s (s.modCore core (fun c => { c with travMax := max (wbits v 0 16) 1 }))
  else if n = 0x205 then atLevelTrap priv 1 (s.aqstatSet core v)
  else if n = 0x206 then atLevel priv 1 s (s.vaultevtSet core v)
  else if n = 0x207 then atLevelTrap priv 2 (s.modVault core (fun t => { t with gen := v.setWidth 32 }))
  else if n = 0x209 then atLevel priv 2 s (s.modVault core (fun t => { t with mat := max (wbits v 0 16) 256 }))
  else if n = 0x20A then s.hartCsr id (fun c => { c with vlast := setBits c.vlast 32 32 (wbits v 32 32) })
  else if n = 0x300 then atLevel priv 1 s (s.arraystatSet core v)
  else if n = 0x301 then atLevel priv 1 s (s.leaseBudgetSet core v)
  else if n = 0x302 then s.hartCsr id (fun c => { c with plockstat := setBits c.plockstat 32 32 (wbits v 32 32) })
  else .ok s

/-! ### The CSR instructions (R261 to R263) -/

/-- A CSR read by a hart waits for its loads when they record in it (R263) (DEDUCED, unsafe; log 85). -/
def Hart.csrBusy (h : Hart) (n : Nat) : Bool := n == 0x20A && h.busy.loads.any (fun l => !l.asks.isEmpty)

/-- Whether a CSR number is legal for a hart (R101, R261). -/
def csrLegal (ctx : Bool) (n : Nat) : Bool :=
  match csrInfo n with
  | none => false
  | some i => !(ctx && i.hold == .slot)

/-- Level that reads a CSR. -/
def csrLevel (ctx : Bool) (n : Nat) : Nat := if csrLegal ctx n then (match csrInfo n with | some i => i.rd | none => 0) else 0

/-- csr_access of R261: f gives the new value from the old one and a; always says whether a zero operand writes. -/
def csrOp (ik : Code) (hd : Head) (d a : Reg) (n : BitVec 12) (always : Bool) (f : Word → Word → Word) (s : State) : State :=
  issue ik hd (csrLevel s.cur.isCtx n.toNat) (csrLegal s.cur.isCtx n.toNat) [.x a] [.x d] (fun s =>
    if s.me.csrBusy n.toNat then stall s
    else
      let av := s.rx a
      let old := s.csrRead s.cur n.toNat
      if always || av != 0 then
        match s.csrWrite s.cur s.me.priv n.toNat (f old av) with
        | .trap => trapInstr 0x03 ik s
        | .wait => stall s
        | .ok t => writeRd ik hd d old t
      else writeRd ik hd d old s) s

/-- CSRXCH (R261): exchange. -/
def execCsrxch (hd : Head) (d a : Reg) (c : BitVec 12) (s : State) : Host.Outcome State Fault Refusal :=
  .next (csrOp (codeOf (.csrxch hd d a c)) hd d a c true (fun _ a => a) s)

/-- CSRBIS (R261): set bits; a zero operand writes nothing. -/
def execCsrbis (hd : Head) (d a : Reg) (c : BitVec 12) (s : State) : Host.Outcome State Fault Refusal :=
  .next (csrOp (codeOf (.csrbis hd d a c)) hd d a c false (fun o a => o ||| a) s)

/-- CSRBIC (R261): clear bits; a zero operand writes nothing. -/
def execCsrbic (hd : Head) (d a : Reg) (c : BitVec 12) (s : State) : Host.Outcome State Fault Refusal :=
  .next (csrOp (codeOf (.csrbic hd d a c)) hd d a c false (fun o a => o &&& ~~~a) s)

end Sys2Proof.Machine
end

