-- ==== Sys2Proof/Machine/Registers.lean ====
section
/-! DEFINITION. Sys2Proof/Machine/Registers.lean: the MMIO window (R14): which register stands at an address, what a read gives and
what a write does, with the operations that registers other than CSRs start: hardware queues (R378 to R381), SLOTCTL (R394),
CLKSTEP (R413), checkpointing (R403, R404) and SNAP (R405). -/

namespace Sys2Proof.Machine

/-- A register of the MMIO window (R14, R378, R388, R394, R403, R405, R408, R413). -/
inductive MmioReg where
  /-- a CSR of a slot or context of a core block -/
  | csr (h : HartId) (n : Nat)
  | slotctl (core slot : Nat)
  | clkstep (cluster : Nat)
  /-- register number 0 to 6 of a hardware queue -/
  | hq (q reg : Nat)
  /-- a half of an entry of the launch, graph, phase or job table (table 0 to 3) -/
  | item (stack table id half : Nat)
  | ckptctl
  | ckptlog
  | snap (stack : Nat)
  /-- one of the eight Ixlink ports -/
  | portstat (port : Nat)
  deriving DecidableEq, Repr

/-- A register of a core block at an offset (R14). -/
def coreReg (core off : Nat) : Option MmioReg :=
  if off < 0x20000 then
    (if (csrInfo (off % 0x8000 / 8)).isSome then some (.csr ⟨.thread, core, off / 0x8000⟩ (off % 0x8000 / 8)) else none)
  else if off < 0x28000 then
    (if csrLegal true (off % 0x2000 / 8) then some (.csr ⟨.ctx, core, (off - 0x20000) / 0x2000⟩ (off % 0x2000 / 8)) else none)
  else if 0x30000 ≤ off ∧ off ≤ 0x3001F then some (.slotctl core ((off - 0x30000) / 8))
  else none

/-- A register of block 0x730 at an offset (R378, R388). -/
def schedReg (stack off : Nat) : Option MmioReg :=
  if off < 0x400 then (if off % 0x40 / 8 < 7 then some (.hq (16 * stack + off / 0x40) (off % 0x40 / 8)) else none)
  else if 0x100000 ≤ off ∧ off < 0x110000 then some (.item stack 0 ((off - 0x100000) / 16) (off / 8 % 2))
  else if 0x200000 ≤ off ∧ off < 0x300000 then some (.item stack 1 ((off - 0x200000) / 16) (off / 8 % 2))
  else if 0x300000 ≤ off ∧ off < 0x400000 then some (.item stack 2 ((off - 0x300000) / 16) (off / 8 % 2))
  else if 0x400000 ≤ off ∧ off < 0x500000 then some (.item stack 3 ((off - 0x400000) / 16) (off / 8 % 2))
  else none

/-- The register at a physical address of the MMIO window, if any. -/
def mmioReg (pa : Nat) : Option MmioReg :=
  let stack := bits pa 40 2
  let blk := bits pa 28 12
  let off := bits pa 0 28
  if blk < 0x40 then (if off / 8 = 1 then some (.clkstep (64 * stack + blk)) else none)
  else if 0x200 ≤ blk ∧ blk < 0x400 then coreReg (512 * stack + (blk - 0x200)) off
  else if blk = 0x600 then (if off / 8 = 0x40 then some (.snap stack) else none)
  else if blk = 0x700 then (if off / 8 = 0x20 then some .ckptctl else if off / 8 = 0x21 then some .ckptlog else none)
  else if 0x710 ≤ blk ∧ blk < 0x718 then (if off / 8 = 0 then some (.portstat (blk - 0x710)) else none)
  else if blk = 0x730 then schedReg stack off
  else none

/-! ### Hardware queues -/

/-- A hardware queue. -/
def State.hq (s : State) (q : Nat) : Hq := (s.stk (q / 16)).hqs.get (q % 16) Hq.reset

/-- The state with a hardware queue changed. -/
def State.modHq (s : State) (q : Nat) (f : Hq → Hq) : State :=
  s.modStk (q / 16) (fun t => { t with hqs := t.hqs.set (q % 16) (f (t.hqs.get (q % 16) Hq.reset)) })

/-- Records of the ring of a queue: 2^LOG (R379). -/
def Hq.size (q : Hq) : Nat := 2 ^ wbits q.ctl 4 4

/-- A queue enters ERROR with a cause and sends its notices (R380, R381), its MSI-X to the function that the queue belongs to (R378, R407). -/
def State.queueError (s : State) (q cause : Nat) : State :=
  let h := s.hq q
  let s := s.modHq q (fun h => { h with st := 2, ecause := BitVec.ofNat 8 cause, flushed := 0 })
  let s := if wbit h.ctl 3 then s.modStk (q / 16) (fun t => { t with msix := t.msix ++ [(s.dev.cfg.queueFn.getD q 0, wbits h.ctl 8 11)] }) else s
  s.notify (q / 16) (.hqFault q)

/-- An ACTIVE queue whose tail runs ahead of its head by more than its ring enters ERROR (R380). -/
def State.tailCheck (s : State) (q : Nat) : State :=
  let h := s.hq q
  if h.st = 1 ∧ h.size < (h.tail - h.head).toNat then s.queueError q 0x02 else s

/-- HQTAIL written (R378, R380). -/
def State.hqtailSet (s : State) (q : Nat) (v : Word) : State := (s.modHq q (fun h => { h with tail := v.setWidth 32 })).tailCheck q

/-- HQCTL written: LOG holds only while EN is 0; in ERROR, EN starts and stops nothing (R379, R380). -/
def State.hqctlSet (s : State) (q : Nat) (v : Word) : State :=
  (s.modHq q (fun h =>
    let lg := if wbit h.ctl 0 then wbits h.ctl 4 4 else min (max (wbits v 4 4) 2) 14
    { h with
      ctl := BitVec.ofNat 64 (wbits v 0 4 + lg * 16 + wbits v 8 11 * 256)
      st := if h.st = 2 then 2 else wbits v 0 1 })).tailCheck q

/-- CLR written to HQSTAT (R379, R380). -/
def State.hqstatClear (s : State) (q : Nat) : State :=
  s.modHq q (fun h => if h.st = 2 then { h with st := 0, head := h.tail, flushed := 0 } else h)

/-- A read of a register of a queue (R378, R379). -/
def Hq.readReg (h : Hq) (reg : Nat) : Word :=
  match reg with
  | 0 => h.ctl
  | 1 => h.root
  | 2 => h.ccb
  | 3 => h.base
  | 4 => h.head.setWidth 64
  | 5 => h.tail.setWidth 64
  | _ => BitVec.ofNat 64 (h.st + h.ecause.toNat * 4 + h.flushed.toNat * 2 ^ 32)

/-- A write of a register of a queue (R378). -/
def State.hqSet (s : State) (q reg : Nat) (v : Word) : State :=
  let en := wbit (s.hq q).ctl 0
  match reg with
  | 0 => s.hqctlSet q v
  | 1 => if en then s else s.modHq q (fun h => { h with root := setBits (setBits v 1 3 0) 52 12 0 })
  | 2 => if en then s else s.modHq q (fun h => { h with ccb := BitVec.ofNat 64 (wbits v 6 42 * 64) })
  | 3 => if en then s else s.modHq q (fun h => { h with base := BitVec.ofNat 64 (wbits v 7 41 * 128) })
  | 5 => s.hqtailSet q v
  | 6 => if wbit v 63 then s.hqstatClear q else s
  | _ => s

/-! ### Slots, clocks, checkpoints and snapshots -/

/-- STATE of SLOTCTL (R394): a slot frozen by a machine check keeps its state and counts as running. -/
def SlotSt.code (t : SlotSt) : Nat :=
  match t with
  | .idle => 0
  | .running | .frozen => 1
  | .halted => 2
  | .saved => 3

/-- RESTART of a slot (R394): a halted slot that is not at the end of a context runs on at its pc. -/
def State.restart (s : State) (id : HartId) : State :=
  s.modHart id (fun h => if h.st = .halted then { h with st := .running, wait := (match h.wait with | some (.taken m) => some (.taken m) | _ => none) } else h)

/-- CLKSTEP written: CYCLE goes on from its present value at the new step (R413). -/
def State.clkstepSet (s : State) (cl : Nat) (v : Word) : State :=
  let k := wbits v 0 5
  s.modCluster cl (fun c =>
    { c with step := if 8 ≤ k ∧ k ≤ 16 then k else 16, cycBase := c.cycBase + (s.clk - c.cycClk) * c.step / 16, cycClk := s.clk })

/-- Vaults whose current interval holds no line yet. -/
def State.newInterval (s : State) : State :=
  { s with vaults := s.vaults.map (fun (e : Nat × Vault) => (e.1, { e.2 with ckptLines := [] })) }

/-- The close of an interval begins: writes accepted from here on belong to the next one, and the lines accepted before are to be committed
first (R80, R81, R404). One that is already closing goes on. -/
def State.closeInterval (s : State) : State :=
  if s.dev.closing.isSome then s
  else
    let lines := s.vaults.flatMap (fun (e : Nat × Vault) => e.2.wbuf.map (fun l => (e.1, l.line)))
    (s.newInterval.modDev (fun d => { d with closing := some lines, ckptClk := s.clk })).closeEnd

/-- CKPTCTL written: EN starts or stops logging, CLOSE closes the interval (R403). -/
def State.ckptctlSet (s : State) (v : Word) : State :=
  let s := if wbit v 21 && s.dev.ckptEn then s.closeInterval else s
  let start := wbit v 0 && !s.dev.ckptEn
  let s := s.modDev (fun d =>
    { d with ckptEn := wbit v 0, ckptUs := max (wbits v 1 20) 1, ckptClk := if start then s.clk else d.ckptClk })
  if start then { s with vaults := s.vaults.map (fun (e : Nat × Vault) => (e.1, { e.2 with ckpt := [], ckptLines := [] })) } else s

/-- CKPTLOG written: it holds only while EN is 0 (R403). -/
def State.ckptlogSet (s : State) (v : Word) : State :=
  if s.dev.ckptEn then s else s.modDev (fun d => { d with ckptOff := wbits v 6 22, ckptLen := wbits v 28 16 })

/-- SNAP written: DONE is cleared, and bit 0 fires the trigger unless a snapshot has not been read (R405). -/
def State.snapSet (s : State) (k : Nat) (v : Word) : State :=
  let s := s.modStk k (fun t => { t with snapDone := false })
  if wbit v 0 then s.snapshot k else s

/-! ### Reads and writes by address -/

/-- The two words of a table entry, with its status (R388). -/
def Item.word (i : Item) (status half : Nat) : Word :=
  let st := match i.st with | .opened => 0 | .sealed => 1 | .cancelling => 2 | .done => 3
  if half = 0 then BitVec.ofNat 64 (st + b2n i.used * 4 + status % 4 * 8 + i.live % 2 ^ 32 * 2 ^ 32)
  else BitVec.ofNat 64 (i.errcause.toNat + i.errunit.toNat * 2 ^ 8 + i.gen.toNat * 2 ^ 40)

/-- An entry of one of the four tables of a stack. -/
def State.item (s : State) (stack table id : Nat) : Item :=
  let t := s.stk stack
  match table with
  | 0 => (t.launches.get id Launch.unused).item
  | 1 => t.graphs.get id Item.unused
  | 2 => t.phases.get id Item.unused
  | _ => t.jobs.get id Item.unused

/-- Whether an item of table 3 − n or an item above it is being cancelled (R162). -/
def State.cancelledUp (s : State) (k n id : Nat) : Bool :=
  let i := s.item k (3 - n) id
  i.st == .cancelling || (match n with | 0 => false | m + 1 => s.cancelledUp k m i.parent)

/-- STATUS of an entry: CANCELLED as soon as the item or one above it is cancelled (R162, R388). -/
def State.itemStatus (s : State) (k table id : Nat) : Nat :=
  let i := s.item k table id
  if i.used && i.st != .done && s.cancelledUp k (3 - table) id then 1 else i.status

/-- Value of a register of the window. -/
def State.mmioValue (s : State) (r : MmioReg) : Word :=
  match r with
  | .csr h n => s.csrRead h n
  | .slotctl core k => BitVec.ofNat 64 (s.hart ⟨.thread, core, k⟩).st.code
  | .clkstep cl => BitVec.ofNat 64 (s.cluster cl).step
  | .hq q reg => (s.hq q).readReg reg
  | .item stack table id half => (s.item stack table id).word (s.itemStatus stack table id) half
  | .ckptctl => BitVec.ofNat 64 (b2n s.dev.ckptEn + s.dev.ckptUs * 2 + s.dev.ckptNum.toNat * 2 ^ 32)
  | .ckptlog => BitVec.ofNat 64 (s.dev.ckptOff * 64 + s.dev.ckptLen * 2 ^ 28)
  | .snap k => BitVec.ofNat 64 (b2n (s.stk k).snapDone * 2)
  | .portstat p =>
    let t := s.dev.ports.get p Port.reset
    BitVec.ofNat 64 (t.st.toNat + t.peer.toNat * 2 ^ 16 + t.retry.toNat * 2 ^ 32)

/-- What reading a register changes: a read of SNAP lets the next snapshot trigger through (R405). -/
def State.mmioTouch (s : State) (r : MmioReg) : State :=
  match r with
  | .snap k => s.modStk k (fun t => { t with snap := false })
  | _ => s

/-- A whole register written at management level. -/
def State.mmioSet (s : State) (r : MmioReg) (v : Word) : WRes :=
  match r with
  | .csr h n => s.csrWrite h 2 n v
  | .slotctl core k => .ok (if wbit v 2 then s.restart ⟨.thread, core, k⟩ else s)
  | .clkstep cl => .ok (s.clkstepSet cl v)
  | .hq q reg => .ok (s.hqSet q reg v)
  | .item _ _ _ _ => .ok s
  | .ckptctl => .ok (s.ckptctlSet v)
  | .ckptlog => .ok (s.ckptlogSet v)
  | .snap k => .ok (s.snapSet k v)
  | .portstat _ => .ok s

/-- A read of n bytes in a register (log 14): the bytes of its value at the address. -/
def State.mmioLoad (s : State) (pa n : Nat) : Word :=
  match mmioReg pa with
  | none => 0
  | some r => BitVec.ofNat 64 (bits (s.mmioValue r).toNat (8 * (pa % 8)) (8 * n))

/-- A write of n bytes in a register (log 14): the other bytes are written with the values that they read as. -/
def State.mmioStore (s : State) (pa n : Nat) (v : Word) : WRes :=
  match mmioReg pa with
  | none => .ok s
  | some r => s.mmioSet r (if n = 8 then v else setBits (s.mmioValue r) (8 * (pa % 8)) (8 * n) v.toNat)

end Sys2Proof.Machine
end

