-- ==== Sys2Proof/Machine/LoadStore.lean ====
section
/-! DEFINITION. Sys2Proof/Machine/LoadStore.lean: scalar loads and stores (R268 to R271), pool locks (R94 to R98), atomic memory
operations (R96, R272) and fences (R139, R140, R273, R274). -/

namespace Sys2Proof.Machine

/-! ### Loads in flight and the store buffer (R135) -/

/-- The byte that the youngest of some store-buffer entries holds for an address. -/
def sbByte (es : List SbEnt) (pa : Nat) : Option Byte :=
  es.foldl (fun r e =>
    e.parts.foldl (fun r p =>
      if p.1 ≤ pa ∧ pa < p.1 + p.2.1 then some (BitVec.ofNat 8 (bits p.2.2.toNat (8 * (pa - p.1)) 8)) else r) r) none

/-- The bytes of a part as a store buffer forwards them (R135): all of them, none of them, or only some. -/
inductive Forward where
  | all (bs : List Byte)
  | none
  | part
  deriving DecidableEq, Repr

/-- What the buffer of a hart forwards to a load of n bytes, of the stores before it. -/
def forward (es : List SbEnt) (pa n : Nat) : Forward :=
  let bs := (List.range n).map (fun k => sbByte es (pa + k))
  if bs.all (·.isSome) then .all (bs.map (·.getD 0)) else if bs.all (·.isNone) then .none else .part

/-- What the buffer of a hart forwards to a load of some parts, which it judges as one (R135). -/
def forwardAll (es : List SbEnt) (parts : List (Nat × Nat)) : Forward :=
  let fs := parts.map (fun p => forward es p.1 p.2)
  if fs.all (fun f => match f with | .all _ => true | _ => false) then .all []
  else if fs.all (· == .none) then .none else .part

/-- The bytes of some parts as the buffer of a hart forwards them, by address. -/
def sbCells (es : List SbEnt) (parts : List (Nat × Nat)) : List Host.Cell :=
  parts.flatMap (fun p => (List.range p.2).filterMap (fun k => (sbByte es (p.1 + k)).map (fun b => (p.1 + k, b))))

/-- A load issued: an entry in flight, whose value is bound at once where the store buffer forwards it; one that the store buffer does not
forward asks the banks of its homes for each line (R50, R84, R135, R268). -/
def State.startLoad (s : State) (id : HartId) (dst : LoadDst) (parts : List (Nat × Nat)) (long acq : Bool) : State :=
  let h := s.hart id
  let own := forwardAll h.busy.sb parts
  let home := match own with | .none => parts | _ => []
  let asks := (linesOf home).filter (fun l => decide (region (l * 64) = 0))
  let pool := (linesOf home).filter (fun l => decide (region (l * 64) = 1))
  let e : LoadEnt := { num := h.busy.loadNext, dst := dst, parts := parts, asks := asks, pool := pool.length, got := match own with | .all _ => sbCells h.busy.sb parts | _ => [],
                       acq := acq, asid := h.asid }
  let s := s.modHart id (fun h => h.modBusy (fun b => { b with loads := b.loads ++ [e], loadNext := b.loadNext + 1 }))
  let s := pool.foldl (fun s l => s.modCluster (paCluster (l * 64)) (fun c =>
    { c with pq := c.pq ++ [⟨portOf id long, bits (l * 64) 6 5, l, id, e.num⟩] })) s
  if asks.isEmpty then s else s.askAll (.load id e.num) home

/-- A store entered into the buffer of a hart (R135), behind what a FENCE.REL orders before it (R140). One to host memory stands in the
same order as the others (R148) (DESIGN CHOICE, unsafe; log 105). -/
def State.startStore (s : State) (id : HartId) (parts : List (Nat × Nat × Word)) (rel : Bool)
    (unlock : Option (Nat × Nat × Nat)) (rep : Option (BitVec 256)) (long : Bool) : State :=
  s.modHart id (fun h => h.modBusy (fun b =>
    { b with
      sb := b.sb ++ [{ num := b.sbNext, parts := parts, afterLoads := b.loadNext,
                       afterMsg := if rel then some s.dev.nextMsg else none, afterIds := b.relIds, port := portOf id long,
                       unlock := unlock, rep := rep, asid := h.asid }]
      sbNext := b.sbNext + 1 }))

/-- The trap of a read that meets a word no code corrects: 0x0B in a vault, with UNCORR logged (R81), elsewhere 0x1A with a
machine check to management (R83, R391); its unit has consumed such data (R404). -/
def trapUncorr (w : Nat) (va : Word) (s : State) : State :=
  let s := s.rollHart s.cur
  if region (8 * w) = 0 then trapVal 0x0B va (s.logUncorr w)
  else (trapVal 0x1A va s).machineCheck s.myCore va

/-- The first uncorrectable word that parts read from their homes meet. -/
def State.badParts (s : State) (es : List SbEnt) (parts : List (Nat × Nat)) : Option Nat :=
  match forwardAll es parts with
  | .all _ => none
  | _ => parts.findSome? (fun p => s.badWord p.1 p.2)

/-- A load or store reaches no register at its address of the MMIO window (R14; log 15). -/
def mmioHole (pa : Nat) : Bool := decide (region pa = 4) && (mmioReg pa).isNone

/-- Whether a command is an RCALL with acquire ordering and a reply (R136, R280). -/
def Cmd.acquires (c : Cmd) : Bool :=
  match c.ins with
  | .rcall _ _ _ _ _ _ rr ord => rr == 1 && ord.getLsbD 0
  | _ => false

/-- Whether a hart waits at its next access for the reply of an acquire message; for an RCALL from its issue on (R136, R280) (DEDUCED,
unsafe; log 115); one that holds a pool lock waits as any other (R97) (DEDUCED, unsafe; log 125). -/
def Hart.acqWait (h : Hart) : Bool :=
  !h.busy.acq.isEmpty || h.busy.queues.any (fun (q : Nat × List Cmd) => q.2.any Cmd.acquires) || h.busy.flights.any (fun f => f.remote && f.cmd.acquires)

/-- A load of 2^w bytes into an x register (R271). One whose bytes the store buffer holds in part waits at its issue until those
stores are visible (R135) (DEDUCED, safe; log 109). -/
def loadX (ik : Code) (hd : Head) (d a : Reg) (srcs : List RegRef) (w : BitVec 2) (sgn acq : Bool) (ea : State → Word) (s : State) :
    State :=
  issue ik hd 0 true (.x a :: srcs) [.x d] (fun s =>
    if s.me.acqWait then stall s
    else withAccess (.load (widthOf w) true) (widthOf w) (ea s) (fun x s =>
      if mmioHole x.pa then trapVal 0x05 (ea s) s
      else match s.badParts s.me.busy.sb [(x.pa, widthOf w)] with
        | some b => trapUncorr b (ea s) s
        | none =>
          if forwardAll s.me.busy.sb [(x.pa, widthOf w)] = .part then stall s
          else finish ik hd (s.startLoad s.cur (.x d sgn) [(x.pa, widthOf w)] false acq)) s) s

/-- A store of 2^w bytes of an x register (R271). -/
def storeX (ik : Code) (hd : Head) (d a : Reg) (srcs : List RegRef) (w : BitVec 2) (rel : Bool) (ea : State → Word) (s : State) :
    State :=
  issue ik hd 0 true (.x d :: .x a :: srcs) [] (fun s =>
    if s.me.acqWait then stall s
    else withAccess .store (widthOf w) (ea s) (fun x s =>
      if mmioHole x.pa then trapVal 0x05 (ea s) s
      else finish ik hd (s.startStore s.cur [(x.pa, widthOf w, s.rx d)] rel none x.ent.rep false)) s) s

/-- LD (R270, R271). -/
def execLd (hd : Head) (d a : Reg) (w : BitVec 2) (u : BitVec 1) (i : BitVec 7) (s : State) : Host.Outcome State Fault Refusal :=
  .next (loadX (codeOf (.ld hd d a w u i)) hd d a [] w (u == 0) false (fun s => s.eaM a i w) s)

/-- LD with ord = 01 (R141): loads are performed in program order, each before the stores and sends that follow it; an AMO on host memory
that follows waits for this one. -/
def execLdAcq (hd : Head) (d a : Reg) (w : BitVec 2) (u : BitVec 1) (i : BitVec 7) (s : State) : Host.Outcome State Fault Refusal :=
  .next (loadX (codeOf (.ldAcq hd d a w u i)) hd d a [] w (u == 0) true (fun s => s.eaM a i w) s)

/-- ST (R270, R271). -/
def execSt (hd : Head) (d a : Reg) (w : BitVec 2) (i : BitVec 7) (s : State) : Host.Outcome State Fault Refusal :=
  .next (storeX (codeOf (.st hd d a w i)) hd d a [] w false (fun s => s.eaM a i w) s)

/-- ST with ord = 01 (R141). -/
def execStRel (hd : Head) (d a : Reg) (w : BitVec 2) (i : BitVec 7) (s : State) : Host.Outcome State Fault Refusal :=
  .next (storeX (codeOf (.stRel hd d a w i)) hd d a [] w true (fun s => s.eaM a i w) s)

/-- LDX (R270), plain or acquire. -/
def execLdx (hd : Head) (d a b : Reg) (w : BitVec 2) (u q : BitVec 1) (s : State) : Host.Outcome State Fault Refusal :=
  .next (loadX (codeOf (.ldx hd d a b w u q)) hd d a [.x b] w (u == 0) (q == 1) (fun s => s.eaX a b w) s)

/-- STX (R270), plain or release. -/
def execStx (hd : Head) (d a b : Reg) (w : BitVec 2) (r : BitVec 1) (s : State) : Host.Outcome State Fault Refusal :=
  .next (storeX (codeOf (.stx hd d a b w r)) hd d a [.x b] w (r == 1) (fun s => s.eaX a b w) s)

/-! ### Pool locks (R94 to R98) -/

/-- The lock that guards a pool address: cluster, bank and index (R94). -/
def lockOf (pa : Nat) : Nat × Nat × Nat := (paCluster pa, bits pa 6 5, bits pa 10 4 ^^^ bits pa 6 4)

/-- PLOCKSTAT while a hart holds a lock, or none (R98). -/
def plockHeld (c : Word) (k : Option (Nat × Nat × Nat)) : Word :=
  match k with
  | some k => setBits (setBits (setBits c 16 1 1) 17 5 k.2.1) 22 4 k.2.2
  | none => setBits c 16 1 0

/-- A lock bit set for a hart by its bank (R95). -/
def State.grantLock (s : State) (id : HartId) (k : Nat × Nat × Nat) : State :=
  s.modLock k (fun _ => ⟨some id, portOf id false⟩)

/-- LAST of PLOCKSTAT (R98). -/
def Hart.setLast (h : Hart) (n : Nat) : Hart := h.modCsr (fun c => { c with plockstat := setBits c.plockstat 0 16 (min n 65535) })

/-- One retry counted in TOTAL (R98). -/
def Hart.addRetry (h : Hart) : Hart :=
  h.modCsr (fun c => { c with plockstat := setBits c.plockstat 32 32 (wbits c.plockstat 32 32 + 1) })

/-- The issuing hart waits for a lock, its first attempt having failed; one that waits already goes on waiting (R95). -/
def waitLock (hd : Head) (k : Nat × Nat × Nat) (s : State) : State :=
  if (s.me.lockTries k).isSome then s
  else (stallAt hd (.lock k.1 k.2.1 k.2.2 1 (s.clk + Config.lockRetry)) false s).modMe Hart.addRetry

/-- Whether the store buffer of a hart holds a store to a pool. -/
def Hart.poolStores (h : Hart) : Bool := h.busy.sb.any (fun e => e.parts.any (fun p => decide (region p.1 = 1)))

/-- A value read of a width into an x register. -/
def loaded (v n : Nat) (sgn : Bool) : Word :=
  let x : Word := BitVec.ofNat 64 (v % 2 ^ (8 * n))
  if sgn && decide (n < 8) && x.getLsbD (8 * n - 1) then BitVec.ofNat 64 (v % 2 ^ (8 * n) + (2 ^ 64 - 2 ^ (8 * n))) else x

/-- What the lock of a pool access allows the issuing hart: nothing yet; the access under the hold it has; or the access with the
lock taken, at once or by its bank's grant (R95, R96). A hart that waits is granted the lock by its bank alone. -/
inductive LockTurn where
  | other
  | wait
  | held
  | taken (fresh : Bool)
  deriving DecidableEq, Repr

/-- The turn of the issuing hart at a lock. -/
def State.lockTurn (s : State) (k : Nat × Nat × Nat) : LockTurn :=
  match s.me.lock with
  | some h => if h = k then .held else .other
  | none =>
    if s.me.wait = some (.locked k.1 k.2.1 k.2.2) then .taken false
    else if (s.me.lockTries k).isSome || (s.plock k).holder.isSome then .wait
    else .taken true

/-- A pool access under its lock: the word is checked before the lock is taken, and the bank grants the access at its turn (R83,
R84, R95, R390). -/
def lockedAccess (hd : Head) (n : Nat) (ea : Word) (pa : Nat) (go : LockTurn → State → State) (s : State) : State :=
  let k := lockOf pa
  match s.lockTurn k with
  | .other => trapVal 0x07 ea s
  | .wait => waitLock hd k s
  | t =>
    match s.badWord pa n with
    | some b => trapUncorr b ea s
    | none =>
      match s.poolTurns (portOf s.cur false) [pa / 64] with
      | none => stall s
      | some u => go t u

/-- LDL once its checks have passed (R95). -/
def ldlGo (ik : Code) (hd : Head) (d : Reg) (w : BitVec 2) (sgn : Bool) (ea : Word) (x : Xlat) (s : State) : State :=
  let k := lockOf x.pa
  lockedAccess hd (widthOf w) ea x.pa (fun t s =>
    let s := match t with
      | .taken fresh => (s.grantLock s.cur k).modMe (fun h =>
          let h := if fresh then h.setLast 0 else h
          { h with lock := some k, csr := { h.csr with plockstat := plockHeld h.csr.plockstat (some k) } })
      | _ => s
    writeRd ik hd d (loaded (s.readNum x.pa (widthOf w)) (widthOf w) sgn) s) s

/-- LDL (R95): it waits for the hart's earlier pool stores and, in program order, its earlier loads. -/
def execLdl (hd : Head) (d a : Reg) (w : BitVec 2) (u : BitVec 1) (i : BitVec 7) (s : State) : Host.Outcome State Fault Refusal :=
  .next (issue (codeOf (.ldl hd d a w u i)) hd 0 true [.x a] [.x d] (fun s =>
    if s.me.acqWait || s.me.poolStores || !s.me.busy.loads.isEmpty then stall s
    else withAccess .ldl (widthOf w) (s.eaM a i w) (ldlGo (codeOf (.ldl hd d a w u i)) hd d w (u == 0) (s.eaM a i w)) s) s)

/-- STU once its checks have passed (R95): the lock is no longer held at issue and is cleared when the bank accepts the store. -/
def stuGo (ik : Code) (hd : Head) (d : Reg) (w : BitVec 2) (ea : Word) (x : Xlat) (s : State) : State :=
  if s.me.lock = some (lockOf x.pa) then
    let s := s.startStore s.cur [(x.pa, widthOf w, s.rx d)] false (some (lockOf x.pa)) none false
    finish ik hd (s.modMe (fun h => { h with lock := none, csr := { h.csr with plockstat := plockHeld h.csr.plockstat none } }))
  else trapVal 0x07 ea s

/-- STU (R95). -/
def execStu (hd : Head) (d a : Reg) (w : BitVec 2) (i : BitVec 7) (s : State) : Host.Outcome State Fault Refusal :=
  .next (issue (codeOf (.stu hd d a w i)) hd 0 true [.x d, .x a] [] (fun s =>
    if s.me.acqWait then stall s
    else withAccess .stu (widthOf w) (s.eaM a i w) (stuGo (codeOf (.stu hd d a w i)) hd d w (s.eaM a i w)) s) s)

/-! ### Atomic memory operations (R272) -/

/-- The new value of an AMO on n-byte values, none when nothing is written: operations 0 to 9 are ADD, AND, OR, XOR, MIN, MAX,
MINU, MAXU, SWAP and CAS. -/
def amoNew (op n old b exp : Nat) : Option Nat :=
  let m := 2 ^ (8 * n)
  let sgn (v : Nat) : Int := if v < m / 2 then v else (v : Int) - m
  let o := old % m
  let v := b % m
  match op with
  | 0 => some ((o + v) % m)
  | 1 => some (o &&& v)
  | 2 => some (o ||| v)
  | 3 => some (o ^^^ v)
  | 4 => some (if sgn v < sgn o then v else o)
  | 5 => some (if sgn o < sgn v then v else o)
  | 6 => some (min o v)
  | 7 => some (max o v)
  | 8 => some v
  | _ => if o = exp % m then some v else none

/-- The read and write of an AMO at its home: the old value and the state, none when the home cannot take the write. -/
def State.amoAt (s : State) (port pa op n b exp : Nat) (who : Writer) : Option (Nat × State) :=
  let old := s.readNum pa n
  match amoNew op n old b exp with
  | none => some (old, s)
  | some v => (s.acceptBytes port pa (bytesOf n v) who).map (fun t => (old, t))

/-- VLAST after a vault read (R67, R68). -/
def vlastAfter (c : Word) (st waited : Nat) (hit : Bool) : Word :=
  let c := setBits (setBits (setBits c 0 2 st) 2 1 (b2n hit)) 4 16 (min waited 65535)
  if st = 1 then setBits c 32 32 (wbits c 32 32 + 1) else c

/-- VLAST of a hart updated. -/
def State.noteVlast (s : State) (id : HartId) (st waited : Nat) (hit : Bool) : State :=
  s.modHart id (fun h => h.modCsr (fun c => { c with vlast := vlastAfter c.vlast st waited hit }))

/-- The issuing hart as a writer. -/
def State.meWriter (s : State) : Writer := ⟨s.cur, s.me.asid, false⟩

/-- An AMO on the own vault (R272): its read waits in the bank's queue and for a held line, then it reads and writes as one event,
and its status goes to VLAST (R67). -/
def amoVault (ik : Code) (hd : Head) (d : Reg) (op n : Nat) (b exp : Word) (ea : Word) (pa : Nat) (s : State) : State :=
  let core := paCore pa
  let me : Reader := .instr s.cur
  match s.badWord pa n with
  | some w => trapUncorr w ea s
  | none =>
    let s := s.askAll me [(pa, n)]
    if s.heldAt pa n || !s.readReady me [(pa, n)] then stall s
    else
      let r := s.reading core me
      match (s.dropReads core me).amoAt (portOf s.cur false) pa op n b.toNat exp.toNat s.meWriter with
      | none => stall s
      | some (old, t) => writeRd ik hd d (loaded old n true) (t.noteVlast t.cur r.vst r.waited r.hit)

/-- An AMO on the own pool (R96): under the lock of its address, which it leaves as it was; its read and write are one access of
its bank. -/
def amoPool (ik : Code) (hd : Head) (d : Reg) (op n : Nat) (b exp : Word) (ea : Word) (pa : Nat) (s : State) : State :=
  let k := lockOf pa
  lockedAccess hd n ea pa (fun t s =>
    let s := match t with
      | .taken true => s.modMe (fun h => h.setLast 0)
      | _ => s
    let old := s.readNum pa n
    let u := match amoNew op n old b.toNat exp.toNat with
      | some v => s.writeMem pa (bytesOf n v)
      | none => s
    writeRd ik hd d (loaded old n true) (match t with | .taken _ => (u.grantLock u.cur k).dropLock u.cur k | _ => u)) s

/-- Whether an AMO of some operation may go to the host as an AtomicOp (R18). -/
def amoHost (op : Nat) : Bool := op == 0 || op == 8 || op == 9

/-- Whether accesses that a FENCE.REL orders before the hart's later ones are still to be performed: loads, stores, messages (R140). -/
def Hart.relOut (h : Hart) : Bool :=
  h.busy.loads.any (fun l => h.busy.relLoads.contains l.num) || h.busy.sb.any (fun e => h.busy.relSb.contains e.num) ||
  h.busy.posted.any (fun p => h.busy.relIds.contains p.id)

/-- Whether the accesses that come before an AMO are still to be performed: for a device location every earlier ordinary access
(R135); for the host what a release waits for, and every LD.ACQ (R141); for each what a FENCE.REL orders before it (R140). -/
def Hart.amoOut (h : Hart) (host rel : Bool) : Bool :=
  h.relOut || h.busy.loads.any (·.acq) || ((!host || rel) && (!h.busy.sb.isEmpty || !h.busy.loads.isEmpty)) ||
  (rel && h.busy.posted.any (fun p => p.epoch == h.epoch))

/-- AMO (R272): an AtomicOp to the host is relaxed unless it says otherwise (R141). -/
def amo (ik : Code) (hd : Head) (op : Nat) (d a b : Reg) (w : BitVec 1) (o : BitVec 2) (s : State) : State :=
  let n := widthAmo w
  issue ik hd 0 true (if op = 9 then [.x d, .x a, .x b] else [.x a, .x b]) [.x d] (fun s =>
    if s.me.acqWait then stall s
    else withAccess (.amo (amoHost op)) n (s.rx a) (fun x s =>
      if s.me.amoOut (decide (8 ≤ region x.pa)) (o.getLsbD 1) then stall s
      else if region x.pa = 0 then amoVault ik hd d op n (s.rx b) (s.rx d) (s.rx a) x.pa s
      else if region x.pa = 1 then amoPool ik hd d op n (s.rx b) (s.rx d) (s.rx a) x.pa s
      else if !Config.hostAtomics then trapVal 0x0D (s.rx a) s
      else match s.amoAt 0 x.pa op n (s.rx b).toNat (s.rx d).toNat s.meWriter with
        | none => stall s
        | some (old, t) => writeRd ik hd d (loaded old n true) t) s) s

/-- AMOADD (R272). -/
def execAmoadd (hd : Head) (d a b : Reg) (w : BitVec 1) (o : BitVec 2) (s : State) : Host.Outcome State Fault Refusal :=
  .next (amo (codeOf (.amoadd hd d a b w o)) hd 0 d a b w o s)

/-- AMOAND (R272). -/
def execAmoand (hd : Head) (d a b : Reg) (w : BitVec 1) (o : BitVec 2) (s : State) : Host.Outcome State Fault Refusal :=
  .next (amo (codeOf (.amoand hd d a b w o)) hd 1 d a b w o s)

/-- AMOOR (R272). -/
def execAmoor (hd : Head) (d a b : Reg) (w : BitVec 1) (o : BitVec 2) (s : State) : Host.Outcome State Fault Refusal :=
  .next (amo (codeOf (.amoor hd d a b w o)) hd 2 d a b w o s)

/-- AMOXOR (R272). -/
def execAmoxor (hd : Head) (d a b : Reg) (w : BitVec 1) (o : BitVec 2) (s : State) : Host.Outcome State Fault Refusal :=
  .next (amo (codeOf (.amoxor hd d a b w o)) hd 3 d a b w o s)

/-- AMOMIN (R272). -/
def execAmomin (hd : Head) (d a b : Reg) (w : BitVec 1) (o : BitVec 2) (s : State) : Host.Outcome State Fault Refusal :=
  .next (amo (codeOf (.amomin hd d a b w o)) hd 4 d a b w o s)

/-- AMOMAX (R272). -/
def execAmomax (hd : Head) (d a b : Reg) (w : BitVec 1) (o : BitVec 2) (s : State) : Host.Outcome State Fault Refusal :=
  .next (amo (codeOf (.amomax hd d a b w o)) hd 5 d a b w o s)

/-- AMOMINU (R272). -/
def execAmominu (hd : Head) (d a b : Reg) (w : BitVec 1) (o : BitVec 2) (s : State) : Host.Outcome State Fault Refusal :=
  .next (amo (codeOf (.amominu hd d a b w o)) hd 6 d a b w o s)

/-- AMOMAXU (R272). -/
def execAmomaxu (hd : Head) (d a b : Reg) (w : BitVec 1) (o : BitVec 2) (s : State) : Host.Outcome State Fault Refusal :=
  .next (amo (codeOf (.amomaxu hd d a b w o)) hd 7 d a b w o s)

/-- AMOSWAP (R272). -/
def execAmoswap (hd : Head) (d a b : Reg) (w : BitVec 1) (o : BitVec 2) (s : State) : Host.Outcome State Fault Refusal :=
  .next (amo (codeOf (.amoswap hd d a b w o)) hd 8 d a b w o s)

/-- AMOCAS (R272): rd holds the expected value. -/
def execAmocas (hd : Head) (d a b : Reg) (w : BitVec 1) (o : BitVec 2) (s : State) : Host.Outcome State Fault Refusal :=
  .next (amo (codeOf (.amocas hd d a b w o)) hd 9 d a b w o s)

/-! ### Fences (R139, R140) -/

/-- Whether a message to a core of a device is in a scope of a hart (R139); for a management core the issuing core stands for
its stack. -/
def State.inScope (s : State) (id : HartId) (scope core : Nat) (dev : BitVec 16) : Bool :=
  if scope = 0 then false
  else if scope = 5 then true
  else s.ownDev dev &&
    (if scope = 4 then true
     else if scope = 3 ∨ id.kind = .mgmt then stackOf core == stackOf id.home
     else if scope = 2 then clusterOf core == clusterOf id.home
     else core == id.home)

/-- The lowest-numbered register whose fill is pending in a scope (R138). -/
def State.fillIn (s : State) (id : HartId) (scope : Nat) : Option Reg :=
  let rs := ((s.hart id).busy.fills.filter (fun f => s.inScope id scope f.core f.dev)).map (·.reg)
  (List.range 32).findSome? (fun n => if rs.any (fun r => r.toNat == n) then some (BitVec.ofNat 5 n) else none)

/-- Whether an access to some addresses is in a scope: one to device locations in every scope, one to the host in system scope
alone (R139). -/
def accessIn (scope : Nat) (pas : List Nat) : Bool := scope == 5 || pas.any (fun pa => decide (region pa < 8))

/-- Whether a message of a hart counts against its fence of a scope (R139, R140). -/
def State.sentIn (s : State) (id : HartId) (scope : Nat) (p : Sent) : Bool :=
  p.epoch == (s.hart id).epoch && s.inScope id scope p.core p.dev

/-- Whether every earlier access of a hart in a scope is performed (R140); reads says whether only reads count (DEDUCED, safe; log 29). -/
def State.performed (s : State) (id : HartId) (scope : Nat) (reads : Bool) : Bool :=
  let b := (s.hart id).busy
  b.loads.all (fun l => !accessIn scope (l.parts.map (·.1))) &&
  (reads || b.sb.all (fun e => !accessIn scope (e.parts.map (·.1)))) &&
  b.posted.all (fun p => !s.sentIn id scope p || (reads && !p.read))

/-- Whether the stores that FENCE.V of a hart covers are committed (R80): its own, those by messages where their target is in scope;
for a management core every line of the vaults in scope. -/
def State.committed (s : State) (id : HartId) (scope : Nat) : Bool :=
  s.vaults.all (fun e => e.2.wbuf.all (fun l =>
    if id.kind = .mgmt then !s.inScope id (max scope 1) e.1 0xFFFF
    else l.by_.all (fun w => w.1 != id || (w.2 && !s.inScope id scope e.1 0xFFFF))))

/-- What FENCE.REL of a scope leaves to order before later stores, AMOs and sends: the loads, stores and messages in scope that are not
yet performed, and those that an earlier one has left; later loads may pass (R140). -/
def State.relFence (s : State) (scope : Nat) : State :=
  s.modMe (fun h => h.modBusy (fun b =>
    { b with
      relLoads := (b.loads.filter (fun l => b.relLoads.contains l.num || accessIn scope (l.parts.map (·.1)))).map (·.num)
      relSb := (b.sb.filter (fun e => b.relSb.contains e.num || accessIn scope (e.parts.map (·.1)))).map (·.num)
      relIds := (b.posted.filter (fun p => b.relIds.contains p.id || s.sentIn s.cur scope p)).map (·.id) }))

/-- A fence: kind 0 FENCE, 1 ACQ, 2 REL, 3 V (R140). A wait for a pending fill is cause 0x08 in a handler context and under a
pool lock (R274, R97); FENCE.REL waits for nothing. -/
def fence (ik : Code) (hd : Head) (kind : Nat) (c : BitVec 3) (s : State) : State :=
  issue ik hd 0 true [] [] (fun s =>
    let sc := c.toNat
    if kind = 2 then finish ik hd (s.relFence sc)
    else match s.fillIn s.cur sc, s.cur.isCtx || s.me.lock.isSome with
      | some r, true => trapVal 0x08 (r.setWidth 64) s
      | f, _ => if f.isNone && s.performed s.cur sc (kind == 1) && (kind != 3 || s.committed s.cur sc) then finish ik hd s else stall s) s

/-- FENCE (R140). -/
def execFence (hd : Head) (c : BitVec 3) (s : State) : Host.Outcome State Fault Refusal :=
  .next (fence (codeOf (.fence hd c)) hd 0 c s)

/-- FENCE.ACQ (R140). -/
def execFenceAcq (hd : Head) (c : BitVec 3) (s : State) : Host.Outcome State Fault Refusal :=
  .next (fence (codeOf (.fenceAcq hd c)) hd 1 c s)

/-- FENCE.REL (R140). -/
def execFenceRel (hd : Head) (c : BitVec 3) (s : State) : Host.Outcome State Fault Refusal :=
  .next (fence (codeOf (.fenceRel hd c)) hd 2 c s)

/-- FENCE.V (R80, R140). -/
def execFenceV (hd : Head) (c : BitVec 3) (s : State) : Host.Outcome State Fault Refusal :=
  .next (fence (codeOf (.fenceV hd c)) hd 3 c s)

end Sys2Proof.Machine
end

