-- ==== Sys2Proof/Machine/Access.lean ====
section
/-! DEFINITION. Sys2Proof/Machine/Access.lean: blocks of memory that an instruction reads by ordinary loads as part of its own effect
(launch records, copy templates, handler descriptors, parameter blocks), and the answers that reach a thread or its saved
context (R104, R117). -/

namespace Sys2Proof.Machine

/-- Whether a slot or context stands for the hart that sent something: it runs, and its epoch is still the same (R104); a slot
whose unit has been saved does not. -/
def Hart.live (h : Hart) (epoch : BitVec 8) : Bool := h.st != .idle && h.st != .saved && h.epoch == epoch

/-- A hart changed by an answer addressed to it: a slot, a context, or a thread that pre-emption has saved; an answer to another epoch
changes nothing (R104, R117). -/
def State.modOwner (s : State) (id : HartId) (epoch : BitVec 8) (f : Hart → Hart) : State :=
  let h := s.hart id
  if id.kind = .mgmt ∨ h.live epoch = true ∨ (id.kept = true ∧ h.st = .saved ∧ h.epoch = epoch) then s.modHart id f else s

/-- A register filled by its producer (R183): the pending mark goes with the fill. A register that is no longer PENDING is
left as it is. -/
def Hart.fill (h : Hart) (r : Reg) (v : Word) : Hart :=
  if h.stx r = .pending then
    (h.wx r v).modBusy (fun b => { b with fills := b.fills.filter (fun f => f.reg != r) })
  else h

/-- The reader that an asker is to the banks of its vault. -/
def Asker.reader (w : Asker) : Reader :=
  match w.cmd with
  | none => .instr w.hart
  | some n => .cmd w.hart n

/-- What reading bytes at an address changes: a register of the MMIO window may act on its read (R405). -/
def State.touchPart (s : State) (p : Nat × Nat) : State :=
  match (if region p.1 = 4 then mmioReg p.1 else none) with
  | some r => s.mmioTouch r
  | none => s

/-- Bytes at their home: of a register of the MMIO window, or of memory. -/
def State.homeBytes (s : State) (p : Nat × Nat) : List Byte :=
  if region p.1 = 4 then bytesOf p.2 (s.mmioLoad p.1 p.2).toNat
  else s.readBytes p.1 p.2

/-- Bytes at their home as a reader takes them, those that it has read ahead among them (R134). -/
def State.homeBytesAs (s : State) (who : Reader) (p : Nat × Nat) : List Byte :=
  if region p.1 = 4 then s.homeBytes p else s.readAs who p.1 p.2

/-- Whether a store buffer forwards a word whole (R135). -/
def forwards (sb : List SbEnt) (pa : Nat) : Bool :=
  match forward sb pa 8 with
  | .all _ => true
  | _ => false

/-- The words of a block read from the vault of a hart note their status in VLAST one after another (R67). -/
def State.noteWords (s : State) (id : HartId) (who : Reader) (ps : List Nat) : State :=
  ps.foldl (fun s pa =>
    let r := readingOf ((s.vault (paCore pa)).served.filter (fun g => g.who == who && g.line == paOff pa / 64))
    s.noteVlast id r.vst r.waited r.hit) s

/-- n aligned 8-byte words of a block, each as an ordinary load of a hart returns it (R17 to R19, R67, R133, R135): the first that
fails decides; held where one waits for a walk, a store, a line, its bank or its turn at a pool bank. -/
def State.blockRead (s : State) (who : Asker) (note : Bool) (va : Word) (n : Nat) : State × Except FetchStop (List Byte) :=
  let vas := (List.range n).map (fun k => va + BitVec.ofNat 64 (8 * k))
  let (s, r) := s.accessAll who (.load 8 false) 8 vas
  let sb := (s.hart who.hart).busy.sb
  if r.walk then (s, .error .held)
  else match r.faults with
  | f :: _ => (s, .error (.fault f.1 f.2))
  | [] =>
    let ps := vas.zip (r.xs.map (·.pa))
    let home := ps.filter (fun p => !forwards sb p.2)
    let vault := (home.map (·.2)).filter (fun pa => decide (region pa = 0))
    match ps.find? (fun p => mmioHole p.2) with
    | some p => (s, .error (.fault 0x05 p.1))
    | none =>
      match home.findSome? (fun p => (s.badWord p.2 8).map (fun w => (w, p.1))) with
      | some (w, a) => (s, .error (.uncorr w a))
      | none =>
        if home.any (fun p => forward sb p.2 8 == .part) then (s, .error .held)
        else
          let parts := vault.map (fun pa => (pa, 8))
          let s := s.askAll who.reader parts
          if !s.readReady who.reader parts || vault.any (fun pa => s.heldAt pa 8) then (s, .error .held)
          else match s.poolTurns (portOf who.hart false) (((home.filter (fun p => !s.hasEarly who.reader p.2)).map (·.2 / 64)).eraseDups) with
          | none => (s, .error .held)
          | some t =>
            let b := ps.flatMap (fun p => if forwards sb p.2 then (match forward sb p.2 8 with | .all bs => bs | _ => []) else t.homeBytesAs who.reader (p.2, 8))
            let t := home.foldl (fun t p => t.touchPart (p.2, 8)) t
            let t := if note then t.noteWords who.hart who.reader vault else t
            (t.dropReads who.home who.reader, .ok b)

/-- Why a read of a block stops the issuing instruction: a held line makes it wait (R152), the rest are precise traps. -/
def stopBlock (e : FetchStop) (s : State) : State :=
  match e with
  | .held => stall s
  | .fault c va => trapVal c va s
  | .uncorr w va => trapUncorr w va s

/-- An instruction that reads a block by ordinary loads after its earlier loads. -/
def withBlock (va : Word) (align words : Nat) (k : List Byte → State → State) (s : State) : State :=
  if va.toNat % align ≠ 0 then trapVal 0x04 va s
  else if s.me.acqWait || !s.me.busy.loads.isEmpty then stall s
  else
    match s.blockRead (.instr s.cur) true va words with
    | (s1, .error e) => stopBlock e s1
    | (s1, .ok b) => k b s1

/-- A little-endian field of a block: bytes [lo, lo + n). -/
def field (b : List Byte) (lo n : Nat) : Nat := ofBytes ((b.drop lo).take n)

/-- A little-endian field of a block read as a signed number. -/
def sfield (b : List Byte) (lo n : Nat) : Int :=
  let v := field b lo n
  if v < 2 ^ (8 * n - 1) then v else (v : Int) - 2 ^ (8 * n)

end Sys2Proof.Machine
end

