-- ==== Sys2Proof/Machine/Engine.lean ====
section
/-! DEFINITION. Sys2Proof/Machine/Engine.lean: tokens (R185), engine queues (R440), what the recorder appends to a tape (R352 to R362),
and how every engine command issues (R142, R224). -/

namespace Sys2Proof.Machine

/-! ### Tokens -/

/-- A token of a hart. -/
def Hart.tok (h : Hart) (k : BitVec 3) : Token := h.busy.tokens.get k Token.zero

/-- A token of a hart changed. -/
def Hart.modTok (h : Hart) (k : BitVec 3) (f : Token → Token) : Hart :=
  h.modBusy (fun b => { b with tokens := b.tokens.set k (f (b.tokens.get k Token.zero)) })

/-- The tokens that a mask names (R186, R224). -/
def tokensOf (m : BitVec 8) : List (BitVec 3) :=
  ([0, 1, 2, 3, 4, 5, 6, 7] : List (BitVec 3)).filter (fun k => m.getLsbD k.toNat)

/-- The record of a fault in the layout of TKFAULT, MORE left out (R392). -/
def faultRecord (k : BitVec 3) (cause : BitVec 8) (status : BitVec 4) (value : BitVec 48) : Word :=
  value ++ (0 : BitVec 1) ++ k ++ status ++ cause

/-- The record of a token with its MORE flag, as WAITTK and TKFLT give it (R392). -/
def Token.word (t : Token) : Word := setBits t.record 15 1 (b2n t.more)

/-- A command's signal reaches its token (R185). -/
def Token.signal (t : Token) (rec : Option Word) : Token :=
  match rec with
  | none => { t with count := t.count - 1 }
  | some r => if t.fault then { t with count := t.count - 1, more := true } else ⟨t.count - 1, true, t.more, r⟩

/-- A fault observed by a command of a given number under a mask and not yet discharged for it (R187). -/
def HartBusy.observed (b : HartBusy) (seq : Nat) (m : BitVec 8) : Bool :=
  b.faults.any (fun f => decide (f.seq < seq) && m.getLsbD f.tok.toNat &&
    (match f.discharged with | .none => true | .some d => decide (seq < d)))

/-- The seven queues of R440 in its order. -/
def queueCount : Nat := 7

/-- An engine queue of a hart. -/
def Hart.queue (h : Hart) (q : Nat) : List Cmd := h.busy.queues.get q []

/-- Every engine command of a hart that has not signalled, the plays its sequencer has taken or is to take among them. -/
def HartBusy.commands (b : HartBusy) : List Cmd := (List.range queueCount).flatMap (fun q => b.queues.get q []) ++ b.flights.map (·.cmd)

/-- The engine queue of a command (R440). -/
def engineQueue (i : Instr) : Option Nat :=
  match i with
  | .tld .. | .tldP .. | .wload .. => some 0
  | .mma .. | .aswap .. | .aclr .. | .ard .. | .ast .. | .tst .. => some 1
  | .copy .. | .copyMc .. => some 2
  | .rcall .. | .mbxAddEngine .. => some 3
  | .vpipe .. | .selq .. => some 4
  | .actEngine .. | .preEngine .. => some 5
  | .tapePlay .. | .tapeSave .. | .tapeLoad .. => some 6
  | _ => none

/-- A matrix command (R328). -/
def isMatrix (i : Instr) : Bool :=
  match i with
  | .tld .. | .tldP .. | .wload .. | .mma .. | .aswap .. | .aclr .. | .ard .. | .ast .. | .tst .. => true
  | _ => false

/-! ### The matrix slot of a hart -/

/-- A lease slot of a cluster. -/
def Cluster.slot (c : Cluster) (n : Nat) : LeaseSlot := c.slots.get n LeaseSlot.reset

/-- The state with one lease slot changed. -/
def State.modSlot (s : State) (cl n : Nat) (f : LeaseSlot → LeaseSlot) : State :=
  s.modCluster cl (fun c => { c with slots := c.slots.set n (f (c.slot n)) })

/-- The weight formats of a slot as a command issues (R362). -/
def LeaseSlot.track (l : LeaseSlot) (i : Instr) : LeaseSlot :=
  match i with
  | .tld _ _ _ _ dst fmt _ _ _ => if dst = 2 then { l with trkWsh := fmt } else l
  | .wload _ _ _ _ _ _ _ fmt _ _ => { l with trkWsh := fmt }
  | .mma _ _ _ _ _ _ _ _ lt _ _ _ => if lt = 1 then { l with trkWlat := l.trkWsh } else l
  | _ => l

/-- The weight format that an MMA multiplies by, as tracked at issue (R362, R371). -/
def LeaseSlot.mmaFmt (l : LeaseSlot) (lt : BitVec 1) : BitVec 4 := if lt = 1 then l.trkWsh else l.trkWlat

/-! ### Tapes (R352 to R359) -/

/-- CRC-16 of R359: polynomial 0x1021, from 0xFFFF, each byte with its most significant bit first. -/
def crc16Step (crc : Nat) (n : Nat) : Nat :=
  match n with
  | 0 => crc
  | k + 1 => crc16Step (if crc / 2 ^ 15 % 2 = 1 then Nat.xor (crc * 2 % 2 ^ 16) 0x1021 else crc * 2 % 2 ^ 16) k

/-- The CRC-16 of some bytes. -/
def crc16 (bs : List Byte) : Nat := bs.foldl (fun c b => crc16Step (Nat.xor c (b.toNat * 256)) 8) 0xFFFF

/-- Bytes of a slot of the tape buffer. -/
def tapeSlot : Nat := 32

/-- Slots of a tape buffer. -/
def tapeSlots : Nat := 1024

/-- The tape IDs of a core (R353). -/
def Core.tape (c : Core) (id : Nat) : TapeEnt := c.tapes.get id ⟨.empty, 0, 0⟩

/-- One record (R357): word, control word, operands in their recorded form with the slots that patch them, the weight format
of an MMA. -/
structure TapeRec where
  word : BitVec 32
  ctl : BitVec 32
  opa : Word
  opb : Word
  pa : Option Nat
  pb : Option Nat
  wfmt : Option (BitVec 4)
  deriving DecidableEq, Repr

/-- Bytes 24 to 27 of a record. -/
def TapeRec.flags (r : TapeRec) : Nat :=
  (match r.pa with | some n => 1 + n * 2 | none => 0) + (match r.pb with | some n => 32 + n * 64 | none => 0) +
  (match r.wfmt with | some f => f.toNat * 2 ^ 10 + 2 ^ 14 | none => 0)

/-- The bytes of a record with its index and CRC (R357, R359). -/
def TapeRec.bytes (r : TapeRec) (seq : Nat) : List Byte :=
  let b := bytesOf 4 r.word.toNat ++ bytesOf 4 r.ctl.toNat ++ bytesOf 8 r.opa.toNat ++ bytesOf 8 r.opb.toNat ++
    bytesOf 4 r.flags ++ bytesOf 2 seq
  b ++ bytesOf 2 (crc16 b)

/-- BASE of a patch window (R354). -/
def HartCsrs.patchBase (c : HartCsrs) (n : Nat) : Nat := wbits (c.pbase.get n 0) 0 48

/-- LEN of a patch window in units of 4,096 bytes (R354). -/
def HartCsrs.patchLen (c : HartCsrs) (n : Nat) : Nat := wbits (c.plen.get n 0) 0 16

/-- The lowest-numbered window in which a value falls (R355). -/
def HartCsrs.window (c : HartCsrs) (v : Word) : Option Nat :=
  (List.range 16).find? (fun n => decide (c.patchBase n ≤ v.toNat) && decide (v.toNat < c.patchBase n + c.patchLen n * 4096))

/-- A value as the recorder writes it: an address that falls in a window becomes its offset (R361). -/
def HartCsrs.patchForm (c : HartCsrs) (v : Word) (addr : Bool) : Word × Option Nat :=
  if addr then
    match c.window v with
    | some n => (v - BitVec.ofNat 64 (c.patchBase n), some n)
    | none => (v, none)
  else (v, none)

/-- What a window must cover for an operand recorded through it (R361). -/
def Recording.cover (r : Recording) (v : Word) (p : Option Nat) : Recording :=
  match p with
  | none => r
  | some n => { r with pmask := r.pmask ||| BitVec.ofNat 16 (2 ^ n), exts := r.exts.set n (Nat.max (r.exts.get n 0) (v.toNat / 4096 + 1)) }

/-- The values that a record of a command holds, with whether each is an address (R358, R361): operand A, operand B, and the
pairs of its extension records. -/
def Cmd.operands (c : Cmd) : (Word × Bool) × (Word × Bool) × List ((Word × Bool) × (Word × Bool)) :=
  match c.ins with
  | .tld .. | .tst .. => ((c.va, true), (0, false), [])
  | .tldP .. => ((c.va, true), (c.vb, true), [((c.vd, false), (0, false))])
  | .wload _ _ _ _ _ _ src _ _ _ => if src = 0 then ((c.va, true), (0, false), []) else ((c.vd, false), (c.vb, true), [])
  | .mma _ _ _ _ _ asrc _ _ _ _ _ _ => ((c.vd, false), (c.vb, asrc == 2), [])
  | .ast .. => ((c.vd, false), (c.vb, true), [])
  | .vpipe .. | .selq .. => ((c.va, true), (c.vb, false), [])
  | .copy .. => ((c.va, true), (c.vb, true), [])
  | .copyMc .. => ((c.va, true), (c.vb, true), [((c.vd, false), (0, false))])
  | .rcall .. =>
    let w (n : Nat) : Word × Bool := (c.args.getD n 0, true)
    ((c.va, false), (0, false), [(w 0, w 1), (w 2, w 3), (w 4, w 5), (w 6, w 7)])
  | .actEngine .. | .preEngine .. => ((c.va, true), (0, false), [])
  | .mbxAddEngine .. => ((c.va, true), (c.vb, false), [])
  | _ => ((0, false), (0, false), [])

/-- Whether a thread records, and what it records into. -/
def Hart.recording (h : Hart) : Option Recording :=
  match h.busy.recording with
  | some r => if r.abandoned then none else some r
  | none => none

/-- A recorder's slot base as a physical address. -/
def Recording.slotPa (r : Recording) (n : Nat) : Nat := tapePa r.core ((r.base + 2 + n) * tapeSlot)

/-- Some records appended as one group; a group that the reservation cannot hold marks the tape FULL (R360). -/
def State.appendGroup (s : State) (rs : List TapeRec) : State :=
  match s.me.recording with
  | none => s
  | some r =>
    if s.me.inTrap || r.full then s
    else if r.max < r.n + rs.length then s.modMe (fun h => h.modBusy (fun b => { b with recording := some { r with full := true } }))
    else
      let s := rs.zipIdx.foldl (fun s p => s.writeMem (r.slotPa (r.n + p.2)) (p.1.bytes (r.n + p.2))) s
      let r := rs.foldl (fun r p => (r.cover p.opa p.pa).cover p.opb p.pb) r
      s.modMe (fun h => h.modBusy (fun b => { b with recording := some { r with n := r.n + rs.length } }))

/-- The records of a command that issues (R358, R361, R362). -/
def State.groupOf (s : State) (c : Cmd) (word ctl : BitVec 32) : List TapeRec :=
  let cs := s.me.csr
  let (a, b, ex) := c.operands
  let rec1 (word ctl : BitVec 32) (a b : Word × Bool) (wf : Option (BitVec 4)) : TapeRec :=
    let fa := cs.patchForm a.1 a.2
    let fb := cs.patchForm b.1 b.2
    ⟨word, ctl, fa.1, fb.1, fa.2, fb.2, wf⟩
  let wf := match c.ins, c.slot with
    | .mma _ _ _ _ _ _ _ _ lt _ _ _, some n => some (((s.cluster (clusterOf s.myCore)).slot n).mmaFmt lt)
    | _, _ => none
  rec1 word ctl a b wf :: ex.map (fun e => rec1 0 0 e.1 e.2 none)

/-- What a recording notes of the weight formats as a command issues (R362) (DEDUCED, unsafe; log 49). -/
def Recording.noteFmt (r : Recording) (i : Instr) (l : LeaseSlot) : Recording :=
  match i with
  | .tld _ _ _ _ dst _ _ _ _ => if dst = 2 then { r with wshSet := true } else r
  | .wload .. => { r with wshSet := true }
  | .mma _ _ _ _ _ _ _ _ lt _ _ _ =>
    let set := if lt = 1 then r.wshSet else r.wlatSet
    let r := if set || r.wneed then r else { r with wneed := true, wsrc := lt == 1, wfmt0 := l.mmaFmt lt }
    if lt = 1 then { r with wlatSet := true } else r
  | _ => r

/-- The recorder and the format tracking at the issue of a command by the instruction path (R360, R362). -/
def State.recordCmd (s : State) (c : Cmd) (word ctl : BitVec 32) : State :=
  let cl := clusterOf s.myCore
  let quiet := s.me.inTrap && s.me.recording.isSome
  let s1 := s.appendGroup (s.groupOf c word ctl)
  if quiet then s1
  else
    match c.slot with
    | none => s1
    | some n =>
      let l := (s.cluster cl).slot n
      (s1.modMe (fun h => h.modBusy (fun b => { b with recording := b.recording.map (fun r => if r.abandoned then r else r.noteFmt c.ins l) }))).modSlot
        cl n (fun l => l.track c.ins)

/-! ### Issue -/

/-- A command of the issuing hart with the accesses before its kick (R142). -/
def State.newCmd (s : State) (i : Instr) (tk : BitVec 3) (wait : BitVec 8) (vd va vb : Word) : Cmd :=
  let b := s.me.busy
  { seq := b.nextSeq, ins := i, tk := tk, wait := wait, vd := vd, va := va, vb := vb, args := [], wdata := [],
    kickLoads := b.loadNext, kickSb := b.sbNext, kickMsg := s.dev.nextMsg,
    slot := if isMatrix i then s.me.lease else none, tape := false, asid := s.me.asid, home := s.myCore }

/-- Whether a hart may enter a command into a queue: its token below 255 and its queue below 32 (R185, R440). A context holds
no tokens (R291). -/
def State.hasRoom (s : State) (id : HartId) (q : Nat) (tk : BitVec 3) : Bool :=
  (id.isCtx || decide (((s.hart id).tok tk).count < 255)) && decide (((s.hart id).queue q).length < 32)

/-- A command entered into its engine queue and counted on its token. -/
def State.enqueue (s : State) (id : HartId) (q : Nat) (c : Cmd) : State :=
  s.modHart id (fun h =>
    let h := if id.isCtx then h else h.modTok c.tk (fun t => { t with count := t.count + 1 })
    h.modBusy (fun b => { b with queues := b.queues.set q (b.queues.get q [] ++ [c]), nextSeq := b.nextSeq + 1 }))

/-- A command issued by the instruction path: it waits for its token and its queue, is recorded, and the thread goes on
(R185, R360, R440). -/
def enterCmd (ik : Code) (hd : Head) (q : Nat) (c : Cmd) (ctl : BitVec 32) (post : State → State) (s : State) : State :=
  if s.hasRoom s.cur q c.tk then
    finish ik hd (post ((s.recordCmd c (ik.w &&& ~~~0xC) ctl).enqueue s.cur q c))
  else stallAt hd .stall true s

/-- Whether a recording thread refuses an instruction (R360). -/
def State.tapeBar (s : State) (refused : Bool) : Option (BitVec 8) :=
  if refused && s.me.recording.isSome then some 0x13 else none

/-- The values of the registers that an instruction's fields name, as the command takes them. -/
def engineCmd (ik : Code) (hd : Head) (q : Nat) (i : Instr) (tk : BitVec 3) (wait : BitVec 8) (legal : Bool)
    (own : Option (BitVec 8)) (d a b : Reg) (s : State) : State :=
  issueOwn ik hd 0 legal own [.x a, .x b, .x d] []
    (fun s => enterCmd ik hd q (s.newCmd i tk wait (s.rx d) (s.rx a) (s.rx b)) ik.c id s) s

/-- The checks of a matrix command before its operands: the lease (R328), then the recorder (R360). -/
def State.matrixOwn (s : State) (refused : Bool) : Option (BitVec 8) :=
  if s.me.lease.isNone then some 0x0F else s.tapeBar refused

/-- The control value of an engine form (R275): TK, WAIT, and whether its reserved bits are zero. -/
def controlOk (v : Word) : Bool := wbits v 11 53 == 0

end Sys2Proof.Machine
end

