-- ==== Sys2Proof/Machine/Token.lean ====
section
/-! DEFINITION. Sys2Proof/Machine/Token.lean: full bits and tokens as instructions see them (R183 to R187, R287, R288). -/

namespace Sys2Proof.Machine

/-- A register of the file that the rs2 field of SETE and ISFULL selects (R287). -/
def fileReg (f : BitVec 1) (r : Reg) : RegRef := if f = 0 then .x r else .v r

/-- A vector register number of the core's mode (R173). -/
def State.vregOk (s : State) (r : Reg) : Bool := !s.long || decide (r.toNat < 8)

/-- Whether a selected register may be named: in long mode only w0 to w7 (R173). -/
def State.fileOk (s : State) (f : BitVec 1) (r : Reg) : Bool := f == 0 || s.vregOk r

/-- A register marked VOID (R183). -/
def State.setVoid (s : State) (r : RegRef) : State :=
  match r with
  | .x r => s.modMe (fun h => h.markX r .void)
  | .v r =>
    if s.long then s.modCore s.myCore (fun c => { c with wSt := c.wSt.set r .void })
    else s.modMe (fun h => { h with vSt := h.vSt.set r .void })

/-- State of a register as ISFULL gives it (R287). -/
def RegSt.code (t : RegSt) : Word :=
  match t with
  | .full => 1
  | .pending => 0
  | .void => 2

/-- SETE (R287): a PENDING register is waited for, then the register is VOID. -/
def execSete (hd : Head) (d : Reg) (f : BitVec 1) (s : State) : Host.Outcome State Fault Refusal :=
  let ik := codeOf (.sete hd d f)
  .next (issue ik hd 0 (s.noCtx && s.fileOk f d) [] [fileReg f d] (fun s => finish ik hd (s.setVoid (fileReg f d))) s)

/-- ISFULL (R287): the tested register is not read and never waited for. -/
def execIsfull (hd : Head) (d a : Reg) (f : BitVec 1) (s : State) : Host.Outcome State Fault Refusal :=
  let ik := codeOf (.isfull hd d a f)
  .next (issue ik hd 0 (s.fileOk f a) [] [.x d] (fun s => writeRd ik hd d (s.regSt (fileReg f a)).code s) s)

/-- TKQ (R287): COUNT, FAULT and MORE of a token, sampled once. -/
def execTkq (hd : Head) (d : Reg) (k : BitVec 3) (s : State) : Host.Outcome State Fault Refusal :=
  let ik := codeOf (.tkq hd d k)
  .next (issue ik hd 0 s.noCtx [] [.x d] (fun s =>
    let t := s.me.tok k
    writeRd ik hd d (BitVec.ofNat 64 (t.count + b2n t.fault * 256 + b2n t.more * 512)) s) s)

/-- TKFLT (R287): the first-fault record of a token, or 0. -/
def execTkflt (hd : Head) (d : Reg) (k : BitVec 3) (s : State) : Host.Outcome State Fault Refusal :=
  let ik := codeOf (.tkflt hd d k)
  .next (issue ik hd 0 s.noCtx [] [.x d] (fun s =>
    let t := s.me.tok k
    writeRd ik hd d (if t.fault then t.word else 0) s) s)

/-- The word of a WAITTK with a mask, S and E zero, as a barrier record carries it (R358, R360). -/
def barrierWord (m : BitVec 8) : BitVec 32 := (codeOf (.waittk Head.plain m)).w

/-- The faults of a token discharged by a WAITTK (R187). -/
def HartBusy.discharge (b : HartBusy) (k : BitVec 3) : HartBusy :=
  { b with faults := b.faults.map (fun f => if f.tok = k ∧ f.discharged.isNone then { f with discharged := some b.nextSeq } else f) }

/-- WAITTK raises the fault of a token (R186): TKFAULT, the flags cleared, cause 0x09 with the faulted tokens of the mask in
TVAL (R391). -/
def raiseToken (m : BitVec 8) (k : BitVec 3) (s : State) : State :=
  let bad := (tokensOf m).filter (fun k => (s.me.tok k).fault)
  let tval : Nat := bad.foldl (fun n k => n + 2 ^ k.toNat) 0
  trapVal 0x09 (BitVec.ofNat 64 tval) (s.modMe (fun h =>
    ((h.modCsr (fun c => { c with tkfault := (h.tok k).word })).modBusy (fun b => b.discharge k)).modTok k
      (fun t => { t with fault := false, more := false })))

/-- WAITTK (R186, R288): it waits for every token of its mask, is recorded as a barrier (R360), then raises the fault of the
lowest-numbered faulted token (DEDUCED, unsafe; log 80). -/
def waitTokens (ik : Code) (hd : Head) (m : BitVec 8) (s : State) : State :=
  issueOwn ik hd 0 s.noCtx (if m = 0 then none else s.lockBar) [] [] (fun s =>
    if (tokensOf m).any (fun k => decide ((s.me.tok k).count ≠ 0)) then stallAt hd .stall true s
    else
      let s := s.appendGroup [⟨barrierWord m, 0, 0, 0, none, none, none⟩]
      match (tokensOf m).find? (fun k => (s.me.tok k).fault) with
      | some k => raiseToken m k s
      | none => finish ik hd s) s

/-- WAITTK (R186). -/
def execWaittk (hd : Head) (m : BitVec 8) (s : State) : Host.Outcome State Fault Refusal :=
  .next (waitTokens (codeOf (.waittk hd m)) hd m s)

end Sys2Proof.Machine
end

