-- ==== Sys2Proof/Machine/Unit.lean ====
section
/-! DEFINITION. Sys2Proof/Machine/Unit.lean: instructions that end, stop, pause or trap the issuing hart, and the vector mode
(R170, R174, R252 to R255). -/

namespace Sys2Proof.Machine

/-- Whether a thread's tokens are all at 0 and its store buffer is empty, replicated commits complete (R170). -/
def Hart.drained (h : Hart) : Bool :=
  ([0, 1, 2, 3, 4, 5, 6, 7] : List (BitVec 3)).all (fun k => (h.tok k).count == 0) && h.busy.sb.isEmpty && h.busy.commit.isNone

/-- The value that HRET and EXIT of a context send: x8, read only where a reply is wanted (R282). -/
def State.retSrcs (s : State) : List RegRef :=
  match s.me.ctx.arrival with
  | some m => if m.rr then [.x 8] else []
  | none => []

/-- HRET, and EXIT in a context (R103, R255, R282). -/
def ctxReturn (ik : Code) (hd : Head) (s : State) : State :=
  issue ik hd 0 s.cur.isCtx s.retSrcs [] (fun s => s.endCtx s.cur (.reply (s.rx 8))) s

/-- EXIT (R170, R255): a thread waits for its tokens and its store buffer, and UNIT_END completes the unit; a context ends as
by HRET. -/
def exitUnit (ik : Code) (hd : Head) (s : State) : State :=
  if s.cur.isCtx then ctxReturn ik hd s
  else issue ik hd 0 true [] [] (fun s => s.modMe (fun h => { h with wait := some .exit, safe := none })) s

/-- EXIT. -/
def execExit (hd : Head) (s : State) : Host.Outcome State Fault Refusal := .next (exitUnit (codeOf (.exit hd)) hd s)

/-- HALT (R255): it waits as EXIT does; then the slot is halted with its PC at the successor. -/
def execHalt (hd : Head) (s : State) : Host.Outcome State Fault Refusal :=
  let ik := codeOf (.halt hd)
  .next (issueOwn ik hd 1 s.noCtx s.lockBar [] [] (fun s =>
    if s.me.drained then (finish ik hd s).modMe (fun h => { h with st := .halted })
    else stallAt hd .halt false s) s)

/-- YIELD (R255): no state changes but the order in which the slots of the core have issued, which the turn itself notes (R172). -/
def execYield (hd : Head) (s : State) : Host.Outcome State Fault Refusal :=
  let ik := codeOf (.yield hd)
  .next (issue ik hd 0 s.noCtx [] [] (finish ik hd) s)

/-- Main-clock cycles that some cycles of a cluster's clock take at its step (R4, R413). -/
def State.clusterClk (s : State) (core n : Nat) : Nat :=
  let k := (s.cluster (clusterOf core)).step
  (n * 16 + k - 1) / k

/-- PAUSE (R255): not ready for min(a, 65,535) clk of the cluster's clock from issue; a safe point stands at the PAUSE until
then. -/
def execPause (hd : Head) (a : Reg) (s : State) : Host.Outcome State Fault Refusal :=
  let ik := codeOf (.pause hd a)
  .next (issue ik hd 0 true [.x a] [] (fun s =>
    let n := min (s.rx a).toNat 65535
    if s.me.pauseTo ≠ 0 ∨ n = 0 then finish ik hd (s.modMe (fun h => { h with pauseTo := 0 }))
    else stallAt hd .stall true (s.modMe (fun h => { h with pauseTo := s.clk + s.clusterClk s.myCore n }))) s)

/-- TRAP (R253): cause 0x1C with the register's value, TEPC at the successor. -/
def execTrap (hd : Head) (a : Reg) (s : State) : Host.Outcome State Fault Refusal :=
  let ik := codeOf (.trap hd a)
  .next (issue ik hd 0 true [.x a] [] (fun s => takeTrap 0x1C 0 (s.rx a) (s.succ ik) s) s)

/-- BRK (R253): cause 0x1B with its own address. -/
def execBrk (hd : Head) (s : State) : Host.Outcome State Fault Refusal :=
  let ik := codeOf (.brk hd)
  .next (issue ik hd 0 true [] [] (fun s => trapVal 0x1B s.me.pc s) s)

/-- ERET (R254). -/
def execEret (hd : Head) (s : State) : Host.Outcome State Fault Refusal :=
  let ik := codeOf (.eret hd)
  .next (issue ik hd 1 s.noCtx [] [] (fun s => returnTrap hd ik s) s)

/-- Whether every vector instruction of every thread of a core has completed (R174): none waits for its data. -/
def State.vecDone (s : State) (core : Nat) : Bool :=
  (threadsOf core).all (fun h => (s.hart h).wait != some .lvu &&
    (s.hart h).busy.loads.all (fun l => match l.dst with | .x _ _ => true | _ => false))

/-- VMODE.L (R174): long mode, w0 to w7 zero and full (DEDUCED, unsafe; log 91). -/
def execVmodeL (hd : Head) (s : State) : Host.Outcome State Fault Refusal :=
  let ik := codeOf (.vmodeL hd)
  .next (issue ik hd 0 s.noCtx [] [] (fun s =>
    if s.vecDone s.myCore then finish ik hd (s.modCore s.myCore (fun c => { c with long := true, w := [], wSt := [] }))
    else stall s) s)

/-- VMODE.S (R174): short mode, w0 to w7 kept; in short mode it has no effect. -/
def execVmodeS (hd : Head) (s : State) : Host.Outcome State Fault Refusal :=
  let ik := codeOf (.vmodeS hd)
  .next (issue ik hd 0 s.noCtx [] [] (fun s =>
    if !s.long then finish ik hd s
    else if s.vecDone s.myCore then finish ik hd (s.modCore s.myCore (fun c => { c with long := false, reserved := false }))
    else stall s) s)

end Sys2Proof.Machine
end

