-- ==== Sys2Proof/Machine/Rpc.lean ====
section
/-! DEFINITION. Sys2Proof/Machine/Rpc.lean: remote accesses, travellers, the endings of a handler context and the handler table as
instructions act on them (R113, R114, R120, R121, R278, R279, R281 to R283). -/

namespace Sys2Proof.Machine

/-- ORD has its acquire half (R136). -/
def ordAcq (o : BitVec 2) : Bool := o.getLsbD 0

/-- ORD has its release half (R136). -/
def ordRel (o : BitVec 2) : Bool := o.getLsbD 1

/-- A message sent by the issuing hart that has a reply: with the acquire half the hart's next access waits for it (R136). -/
def State.sendAsk (s : State) (m : Msg) (acq : Bool) : State :=
  let s1 := s.send m true
  if acq then s1.modMe (fun h => h.modBusy (fun b => { b with acq := b.acq ++ [m.id] })) else s1

/-- A remote access: its checks (R279), then its message. A physical address of a vault names no device (R13), so its target is the own
device (R130) (DESIGN CHOICE, unsafe; log 104). -/
def remote (ik : Code) (hd : Head) (srcs dsts : List RegRef) (r w : Bool) (a : Reg) (n : Nat)
    (go : Msg → State → State) (kind : MsgKind) (o : BitVec 2) (s : State) : State :=
  issue ik hd 0 true srcs dsts (fun s =>
    if s.me.acqWait then stall s
    else withAccess (.remote r w) n (s.rx a) (fun x s =>
      let m := s.newMsg s.cur kind s.dev.devnum (paCore x.pa)
      finish ik hd (go { m with addr := BitVec.ofNat 64 x.pa, size := n, ord := o, rel := ordRel o } s)) s) s

/-- RLOAD (R278, R279). -/
def execRload (hd : Head) (d a : Reg) (w o : BitVec 2) (s : State) : Host.Outcome State Fault Refusal :=
  .next (remote (codeOf (.rload hd d a w o)) hd [.x a] [.x d] true false a (widthOf w)
    (fun m s => (s.sendAsk { m with rr := true, rreg := d } (ordAcq o)).pend d m.core m.dev) .rload o s)

/-- RSTORE (R278, R279): posted; the acquire half of its ORD is ignored (R136). -/
def execRstore (hd : Head) (d a : Reg) (w o : BitVec 2) (s : State) : Host.Outcome State Fault Refusal :=
  .next (remote (codeOf (.rstore hd d a w o)) hd [.x d, .x a] [] false true a (widthOf w)
    (fun m s => s.send { m with data := BitVec.ofNat 64 (bits (s.rx d).toNat 0 (8 * widthOf w)) } true) .rstore o s)

/-- RAMO (R278, R279): operation numbers as for AMO; CAS compares with rd and writes x(rd + 1). -/
def ramo (ik : Code) (hd : Head) (op : Nat) (d a : Reg) (w o : BitVec 2) (s : State) : State :=
  remote ik hd (if op = 9 then [.x d, .x a, .x (d + 1)] else [.x d, .x a]) [.x d] true true a (widthOf w)
    (fun m s =>
      let m := { m with op := op, data := if op = 9 then s.rx (d + 1) else s.rx d, cmp := if op = 9 then s.rx d else 0,
                        rr := true, rreg := d }
      (s.sendAsk m (ordAcq o)).pend d m.core m.dev) .ramo o s

/-- RAMOADD (R278). -/
def execRamoadd (hd : Head) (d a : Reg) (w o : BitVec 2) (s : State) : Host.Outcome State Fault Refusal :=
  .next (ramo (codeOf (.ramoadd hd d a w o)) hd 0 d a w o s)

/-- RAMOAND (R278). -/
def execRamoand (hd : Head) (d a : Reg) (w o : BitVec 2) (s : State) : Host.Outcome State Fault Refusal :=
  .next (ramo (codeOf (.ramoand hd d a w o)) hd 1 d a w o s)

/-- RAMOOR (R278). -/
def execRamoor (hd : Head) (d a : Reg) (w o : BitVec 2) (s : State) : Host.Outcome State Fault Refusal :=
  .next (ramo (codeOf (.ramoor hd d a w o)) hd 2 d a w o s)

/-- RAMOXOR (R278). -/
def execRamoxor (hd : Head) (d a : Reg) (w o : BitVec 2) (s : State) : Host.Outcome State Fault Refusal :=
  .next (ramo (codeOf (.ramoxor hd d a w o)) hd 3 d a w o s)

/-- RAMOMIN (R278). -/
def execRamomin (hd : Head) (d a : Reg) (w o : BitVec 2) (s : State) : Host.Outcome State Fault Refusal :=
  .next (ramo (codeOf (.ramomin hd d a w o)) hd 4 d a w o s)

/-- RAMOMAX (R278). -/
def execRamomax (hd : Head) (d a : Reg) (w o : BitVec 2) (s : State) : Host.Outcome State Fault Refusal :=
  .next (ramo (codeOf (.ramomax hd d a w o)) hd 5 d a w o s)

/-- RAMOMINU (R278). -/
def execRamominu (hd : Head) (d a : Reg) (w o : BitVec 2) (s : State) : Host.Outcome State Fault Refusal :=
  .next (ramo (codeOf (.ramominu hd d a w o)) hd 6 d a w o s)

/-- RAMOMAXU (R278). -/
def execRamomaxu (hd : Head) (d a : Reg) (w o : BitVec 2) (s : State) : Host.Outcome State Fault Refusal :=
  .next (ramo (codeOf (.ramomaxu hd d a w o)) hd 7 d a w o s)

/-- RAMOSWAP (R278). -/
def execRamoswap (hd : Head) (d a : Reg) (w o : BitVec 2) (s : State) : Host.Outcome State Fault Refusal :=
  .next (ramo (codeOf (.ramoswap hd d a w o)) hd 8 d a w o s)

/-- RAMOCAS (R278, R279). -/
def execRamocas (hd : Head) (d a : Reg) (w o : BitVec 2) (s : State) : Host.Outcome State Fault Refusal :=
  .next (ramo (codeOf (.ramocas hd d a w o)) hd 9 d a w o s)

/-! ### Core IDs and travellers -/

/-- Device and core of a device-qualified core ID; none when its reserved bits are not zero (R10). -/
def coreId (v : Word) : Option (BitVec 16 × Nat) :=
  if wbits v 11 5 ≠ 0 ∨ wbits v 32 32 ≠ 0 then none else some (v.extractLsb' 16 16, wbits v 0 11)

/-- Whether the issuing device itself refuses a core of its own: the core is retired (R16, R130) (DEDUCED, unsafe; log 26). -/
def State.retiredHere (s : State) (dev : BitVec 16) (core : Nat) : Bool := s.ownDev dev && (s.core core).retired

/-- The device-qualified ID of a core of this device (R10). -/
def State.ownId (s : State) (core : Nat) : Word := s.dev.devnum.setWidth 64 <<< 16 ||| BitVec.ofNat 64 core

/-- x8 to x15 of a hart (R102, R108). -/
def Hart.args (h : Hart) : List Word := ([8, 9, 10, 11, 12, 13, 14, 15] : List Reg).map h.rx

/-- x8 to x15 as sources. -/
def argRefs : List RegRef := ([8, 9, 10, 11, 12, 13, 14, 15] : List Reg).map RegRef.x

/-- A traveller context (R120). -/
def Hart.isTraveller (h : Hart) : Bool := h.ctx.traveller

/-- MIGRATE of a thread (R121, R281): it waits for a place among the core's travellers, then sends TRAVEL (DEDUCED, unsafe; log 77). -/
def migrateThread (ik : Code) (hd : Head) (d a b : Reg) (s : State) : State :=
  match coreId (s.rx a) with
  | none => trapInstr 0x02 ik s
  | some (dev, core) =>
    if wbits (s.rx b) 6 58 ≠ 0 ∨ s.retiredHere dev core then trapInstr 0x02 ik s
    else
      let c := s.core s.myCore
      if c.travMax ≤ c.inflight ∨ s.me.acqWait then stall s
      else
        let m := s.newMsg s.cur .travel dev core
        let m := { m with hidx := wbits (s.rx b) 0 6, rr := d != 0, rreg := d, args := s.me.args,
                          addr := s.ownId s.myCore, ord := 2, rel := true }
        finish ik hd (((s.send m true).modCore s.myCore (fun c => { c with inflight := c.inflight + 1 })).pend d core dev)

/-- MIGRATE of a traveller context (R120, R281): the next hop keeps the origin's fields; the context ends,
and the hop goes out once the context's own accesses are performed (R137) (DEDUCED, unsafe; log 31). SEQ of a hop of a peer's traveller, which
the peer counts, is a free value (log 6). -/
def migrateHop (ik : Code) (a b : Reg) (s : State) : State :=
  match coreId (s.rx a), s.me.ctx.arrival with
  | some (dev, core), some o =>
    if wbits (s.rx b) 6 58 ≠ 0 ∨ s.retiredHere dev core then trapInstr 0x02 ik s
    else
      let m := s.newMsg s.cur .travel dev core
      let (n, s) := s.free
      s.endCtx s.cur (.hop
        { m with hidx := wbits (s.rx b) 0 6, src := o.src, srcDev := o.srcDev, rr := o.rr, rreg := o.rreg, epoch := o.epoch,
                 args := s.me.args, addr := s.ownId s.myCore, hops := min (o.hops + 1) 255, ord := 2, rel := false, afterLoads := 0,
                 afterSb := 0, relSb := [], relIds := [], org := o.org, sentBy := o.sentBy,
                 seq := (Config.freeWord n).setWidth 32 })
  | _, _ => trapInstr 0x02 ik s

/-- MIGRATE (R281): in a traveller context rd must be x0; in any other context it is illegal. -/
def execMigrate (hd : Head) (d a b : Reg) (s : State) : Host.Outcome State Fault Refusal :=
  let ik := codeOf (.migrate hd d a b)
  .next (issueOwn ik hd 0 (s.noCtx || s.me.isTraveller) (if s.cur.isCtx && d != 0 then some 0x02 else none)
    (.x a :: .x b :: argRefs) [.x d]
    (fun s => if s.cur.isCtx then migrateHop ik a b s else migrateThread ik hd d a b s) s)

/-- REPLY (R282). -/
def execReply (hd : Head) (a : Reg) (s : State) : Host.Outcome State Fault Refusal :=
  let ik := codeOf (.reply hd a)
  .next (issue ik hd 0 s.cur.isCtx [.x a] [] (fun s => s.endCtx s.cur (.reply (s.rx a))) s)

/-- HRET (R282). -/
def execHret (hd : Head) (s : State) : Host.Outcome State Fault Refusal :=
  .next (ctxReturn (codeOf (.hret hd)) hd s)

/-! ### The handler table (R113, R283) -/

/-- A handler-table entry of a core. -/
def Core.entry (c : Core) (n : Nat) : HEntry := c.ht.get n HEntry.empty

/-- A core with one handler-table entry changed. -/
def Core.modEntry (c : Core) (n : Nat) (f : HEntry → HEntry) : Core := { c with ht := c.ht.set n (f (c.entry n)) }

/-- An entry goes BUSY for a writing hart (R113). -/
def enterBusy (n : Nat) (new : Option (Word × Word × Bool × Bool)) (s : State) : State :=
  stallAt Head.plain (.entry n) false
    (s.modCore s.myCore (fun c => c.modEntry n (fun e => { e with st := .busy, next := some (s.cur, new) })))

/-- What HSET and HCLR share (R113, R283): the index and its privilege, HTBASE, and a busy entry waited for. The write
completes at HANDLER_ENTRY_WRITTEN. -/
def entryWrite (ik : Code) (hd : Head) (a : Reg) (act : Nat → State → State) (s : State) : State :=
  match s.me.wait with
  | some (.entry _) => s
  | some (.entryDone _) => finish ik hd s
  | _ =>
    let i := s.rx a
    if wbits i 6 58 ≠ 0 then trapInstr 0x02 ik s
    else if i.toNat < 16 ∧ s.me.priv < 2 then trapInstr 0x03 ik s
    else if (s.core s.myCore).htbase = 0 then trapVal 0x05 0 s
    else if ((s.core s.myCore).entry i.toNat).st = .busy then stall s
    else act i.toNat s

/-- The descriptor of HSET (R283): the PTROOT, the PC, PRIV and ANYAS, or none when a check fails. -/
def hsetFields (b : List Byte) (priv : Nat) : Option (Word × Word × Bool × Bool) :=
  let root : Word := BitVec.ofNat 64 (field b 0 8)
  let w : Word := BitVec.ofNat 64 (field b 8 8)
  if !wbit root 0 || wbit w 0 || wbits w 48 2 != 0 || (wbit w 50 && decide (priv < 1)) || wbits w 52 12 != 0 then none
  else some (root, setBits w 48 16 0, wbit w 50, wbit w 51)

/-- HSET (R113, R283). -/
def execHset (hd : Head) (a b : Reg) (s : State) : Host.Outcome State Fault Refusal :=
  let ik := codeOf (.hset hd a b)
  .next (issue ik hd 1 true [.x a, .x b] [] (fun s =>
    entryWrite ik hd a (fun n s =>
      withBlock (s.rx b) 16 2 (fun blk s =>
        match hsetFields blk s.me.priv with
        | none => trapInstr 0x02 ik s
        | some e => enterBusy n (some e) s) s) s) s)

/-- HCLR (R113, R283). -/
def execHclr (hd : Head) (a : Reg) (s : State) : Host.Outcome State Fault Refusal :=
  let ik := codeOf (.hclr hd a)
  .next (issue ik hd 1 true [.x a] [] (fun s => entryWrite ik hd a (fun n s => enterBusy n none s) s) s)

end Sys2Proof.Machine
end

