-- ==== Sys2Proof/Machine/VaultOps.lean ====
section
/-! DEFINITION. Sys2Proof/Machine/VaultOps.lean: ACT, PRE, PREA, VSTAT and VEVT (R50, R74, R78, R275 to R277), and the requests that ACT
and PRE put into the queues of a vault's banks. -/

namespace Sys2Proof.Machine

/-- ACT or PRE entered into the queue of a bank (R50, R51). -/
def State.askBank (s : State) (core b : Nat) (k : VReqKind) (row line : Nat) : State :=
  s.enter core b ⟨k, row, line, 0, 1, s.clk, 0, 0, 0, false, false⟩

/-- ACT or PRE of an address of a vault enters its bank's queue (R50). -/
def State.askRow (s : State) (act : Bool) (pa : Nat) : State :=
  s.askBank (paCore pa) (bankOf (paOff pa)) (if act then .act else .pre) (rowOf (paOff pa)) (paOff pa / 64)

/-- The direct form of ACT and PRE (R275, R276): faults are precise, and nothing is waited for. -/
def vaultDirect (ik : Code) (hd : Head) (act : Bool) (a : Reg) (s : State) : State :=
  issue ik hd 0 true [.x a] [] (fun s =>
    withAccess .vault 1 (s.rx a) (fun x s => finish ik hd (s.askRow act x.pa)) s) s

/-- An engine form (R275): rd names the register that holds the control value, whose reserved bits are checked precisely. -/
def engineForm (ik : Code) (hd : Head) (q : Nat) (i : Instr) (c a b : Reg) (name : State → Option Word) (s : State) : State :=
  issue ik hd 0 s.noCtx [.x c, .x a, .x b] [] (fun s =>
    let v := s.rx c
    if !controlOk v then trapInstr 0x02 ik s
    else match name s with
      | some n => trapVal 0x05 n s
      | none =>
        let cmd := s.newCmd i (v.extractLsb' 0 3) (v.extractLsb' 3 8) v (s.rx a) (s.rx b)
        enterCmd ik hd q cmd (v.setWidth 32) id s) s

/-- ACT, direct form (R276). -/
def execAct (hd : Head) (a : Reg) (s : State) : Host.Outcome State Fault Refusal :=
  .next (vaultDirect (codeOf (.act hd a)) hd true a s)

/-- PRE, direct form (R276). -/
def execPre (hd : Head) (a : Reg) (s : State) : Host.Outcome State Fault Refusal :=
  .next (vaultDirect (codeOf (.pre hd a)) hd false a s)

/-- ACT, engine form (R275, R276). -/
def execActEngine (hd : Head) (c a : Reg) (s : State) : Host.Outcome State Fault Refusal :=
  .next (engineForm (codeOf (.actEngine hd c a)) hd 5 (.actEngine hd c a) c a 0 (fun _ => none) s)

/-- PRE, engine form (R275, R276). -/
def execPreEngine (hd : Head) (c a : Reg) (s : State) : Host.Outcome State Fault Refusal :=
  .next (engineForm (codeOf (.preEngine hd c a)) hd 5 (.preEngine hd c a) c a 0 (fun _ => none) s)

/-- PREA (R50, R276): PRE on every bank of the own vault. -/
def execPrea (hd : Head) (s : State) : Host.Outcome State Fault Refusal :=
  let ik := codeOf (.prea hd)
  .next (issue ik hd 0 true [] [] (fun s =>
    finish ik hd ((List.range 32).foldl (fun s b => s.askBank s.myCore b .pre 0 0) s)) s)

/-- The bank status word (R78). -/
def State.bankStatus (s : State) (core b : Nat) : Word :=
  let bk := s.bank core b
  let (row, sp, isOpen) := match bk.live s.clk with | some r => (r.row, r.spare, true) | none => (0, false, false)
  BitVec.ofNat 64
    (row + b2n isOpen * 2 ^ 12 + b2n sp * 2 ^ 13 + b2n bk.refresh.isSome * 2 ^ 14 + b2n bk.hold.isSome * 2 ^ 15 +
     b2n bk.repair.isSome * 2 ^ 16 + bk.map.length * 2 ^ 17 + s.band core (b / 4) * 2 ^ 24 + bk.refPtr * 2 ^ 32)

/-- VSTAT (R277). -/
def execVstat (hd : Head) (d a : Reg) (s : State) : Host.Outcome State Fault Refusal :=
  let ik := codeOf (.vstat hd d a)
  .next (issue ik hd 0 true [.x a] [.x d] (fun s =>
    if wbits (s.rx a) 5 59 ≠ 0 then trapInstr 0x02 ik s
    else writeRd ik hd d (s.bankStatus s.myCore (s.rx a).toNat) s) s)

/-- The oldest record of a vault's log taken out, or TYPE 0 (R74, R277). -/
def State.takeLog (s : State) (core : Nat) : BitVec 128 × State :=
  match (s.vault core).log with
  | [] => (0, s)
  | r :: t => (r, s.modVault core (fun v => { v with log := t }))

/-- VEVT (R277). -/
def execVevt (hd : Head) (d : Reg) (s : State) : Host.Outcome State Fault Refusal :=
  let ik := codeOf (.vevt hd d)
  .next (issue ik hd 0 true [] [.x d, .x (d + 1)] (fun s =>
    let (r, t) := s.takeLog s.myCore
    finish ik hd ((t.wx d (r.extractLsb' 0 64)).wx (d + 1) (r.extractLsb' 64 64))) s)

end Sys2Proof.Machine
end

