-- ==== Sys2Proof/Machine/Mbx.lean ====
section
/-! DEFINITION. Sys2Proof/Machine/Mbx.lean: mailbox counters, watches and the MBX instructions (R122 to R124, R129, R284 to R286). -/

namespace Sys2Proof.Machine

/-- A counter by its physical address: device, core and index (R13, R284). -/
structure CounterName where
  dev : BitVec 16
  core : Nat
  idx : Nat
  deriving DecidableEq, Repr

/-- The counter that a value names; none when the name is malformed (R16, R284). -/
def State.counterName (s : State) (v : Word) : Option CounterName :=
  if region v.toNat ≠ 2 ∨ s.malformed v.toNat then none
  else some ⟨v.extractLsb' 28 16, wbits v 8 11, wbits v 2 6⟩

/-- Whether a name is of a counter of a given core of this device. -/
def State.ownCounter (s : State) (n : CounterName) (core : Nat) : Bool := s.ownDev n.dev && n.core == core

/-- done(c, t) (R123). -/
def mbxDone (c t : BitVec 32) : Bool := !(c - t).msb

/-- A counter of a core (R122). -/
def Core.counter (c : Core) (k : Nat) : BitVec 32 := c.mbx.get k 0

/-! ### Watches -/

/-- The answer of a satisfied remote watch (R123). -/
def Watch.answer (w : Watch) (core : Nat) (dev : BitVec 16) (v : BitVec 32) : Reply :=
  { kind := .fill, msg := w.msg, mkind := .mbxwatch, dst := w.src, epoch := w.epoch, reg := w.reg, value := v.setWidth 64,
    cause := 0, status := 0, core := core, dev := dev, vst := none, waited := 0, hit := false, cmd := none, trav := none, parts := 0, word := none, ok := true,
    org := w.org }

/-- The counter that a wait names. -/
def MbxWait.counter (w : MbxWait) : CounterName := ⟨w.name.extractLsb' 28 16, wbits w.name 8 11, wbits w.name 2 6⟩

/-- A wait of a hart taken off its list as it ends: a PENDING register gets a value; an instruction that waits will find the outcome
(R286). -/
def Hart.mbxEnds (h : Hart) (w : MbxWait) (v : Word) (cause status : BitVec 8) : Hart :=
  let h := h.modBusy (fun b => { b with mbx := b.mbx.filter (fun x => x != w) })
  match w.reg with
  | some r => h.fill r v
  | none => h.modBusy (fun b => { b with mbxEnd := some (cause, status) })

/-- A wait of a hart ends satisfied (R286). -/
def Hart.mbxSatisfied (h : Hart) (w : MbxWait) (v : Word) : Hart := h.mbxEnds w v 0 0

/-- The wait that a slot's own watch holds: the others of its own counters stand behind it (R123). -/
def Hart.ownWatch (h : Hart) : Option MbxWait := h.busy.mbx.find? (·.own)

/-- The own waits of a thread ended one after another, as far as the counters satisfy them (R123). -/
def Hart.ownWaits (val : MbxWait → BitVec 32) (h : Hart) (n : Nat) : Hart :=
  match n with
  | 0 => h
  | k + 1 =>
    match h.ownWatch with
    | none => h
    | some w => if mbxDone (val w) w.target then (h.mbxSatisfied w ((val w).setWidth 64)).ownWaits val k else h

/-- The slot's own watch of a hart evaluated. -/
def State.evalOwn (s : State) (h : Hart) : Hart :=
  h.ownWaits (fun w => (s.core w.counter.core).counter w.counter.idx) h.busy.mbx.length

/-- Every watch on a counter evaluated after a change (R123): the satisfied ones answer and go. -/
def State.evalWatches (s : State) (core idx : Nat) : State :=
  let v := (s.core core).counter idx
  let sat (w : Watch) : Bool := w.counter == idx && mbxDone v w.target
  let done := (s.core core).watches.filter sat
  let s := s.modCore core (fun c => { c with watches := c.watches.filter (fun w => !sat w) })
  let s := done.foldl (fun s w => s.reply (w.answer core s.dev.devnum v)) s
  let here (h : Hart) : Bool := match h.ownWatch with | some w => w.counter.core == core && w.counter.idx == idx | none => false
  { s with harts := s.harts.map (fun (e : HartId × Hart) => (e.1, if here e.2 then s.evalOwn e.2 else e.2)) }

/-- The acceptance notices of a posted message: its own, or one for each buffer-free notice that it combines (R129, R140). -/
def State.acceptNotices (s : State) (m : Msg) : State := s.replyAll m (m.answer .accept)

/-- A counter written, and its watches evaluated (R122, R123). -/
def State.counterSet (s : State) (core idx : Nat) (v : BitVec 32) : State :=
  (s.modCore core (fun c => { c with mbx := c.mbx.set idx v })).evalWatches core idx

/-! ### The instructions -/

/-- A name checked precisely: cause 0x05 with the name in TVAL (R284, R391). -/
def withCounter (v : Word) (k : CounterName → State → State) (s : State) : State :=
  match s.counterName v with
  | none => trapVal 0x05 v s
  | some n => k n s

/-- MBXADD to a counter (R122), always a release (R147); a buffer-free notice stands at its first router, that of its own cluster
(R129). Its record's WIDTH is that of a doubleword, where an engine's and the host's is that of a word (DESIGN CHOICE, unsafe; log 126). -/
def State.addMsg (s : State) (n : CounterName) (name : Word) (inc : Nat) (bfree : Bool) : Msg :=
  let m := s.newMsg s.cur .mbxadd n.dev n.core
  { m with addr := name, data := BitVec.ofNat 64 inc, ord := 2, rel := true
           router := if bfree then some (clusterOf s.myCore, s.myCore) else none
           acks := if bfree then [⟨s.cur, s.me.epoch, m.id⟩] else [] }

/-- MBX.ADD, direct form (R285). -/
def execMbxAdd (hd : Head) (a b : Reg) (s : State) : Host.Outcome State Fault Refusal :=
  let ik := codeOf (.mbxAdd hd a b)
  .next (issue ik hd 0 true [.x a, .x b] [] (fun s =>
    if s.me.acqWait then stall s
    else withCounter (s.rx a) (fun n s => finish ik hd (s.send (s.addMsg n (s.rx a) (wbits (s.rx b) 0 32) false) true)) s) s)

/-- MBX.ADD, engine form (R275, R285). -/
def execMbxAddEngine (hd : Head) (c a b : Reg) (s : State) : Host.Outcome State Fault Refusal :=
  .next (engineForm (codeOf (.mbxAddEngine hd c a b)) hd 3 (.mbxAddEngine hd c a b) c a b
    (fun s => if (s.counterName (s.rx a)).isNone then some (s.rx a) else none) s)

/-- BFREE (R129, R285): a counter of the issuing stack only. -/
def execBfree (hd : Head) (a : Reg) (s : State) : Host.Outcome State Fault Refusal :=
  let ik := codeOf (.bfree hd a)
  .next (issue ik hd 0 true [.x a] [] (fun s =>
    if s.me.acqWait then stall s
    else withCounter (s.rx a) (fun n s =>
      if !s.ownDev n.dev || stackOf n.core != stackOf s.myCore then trapVal 0x05 (s.rx a) s
      else finish ik hd (s.send (s.addMsg n (s.rx a) 1 true) true)) s) s)

/-- MBX.SET (R285): one plain write of an own counter. -/
def execMbxSet (hd : Head) (a b : Reg) (s : State) : Host.Outcome State Fault Refusal :=
  let ik := codeOf (.mbxSet hd a b)
  .next (issue ik hd 0 true [.x a, .x b] [] (fun s =>
    if s.me.acqWait then stall s
    else withCounter (s.rx a) (fun n s =>
      if !s.ownCounter n s.myCore then trapVal 0x05 (s.rx a) s
      else finish ik hd (s.startStore s.cur [(s.counterPa (s.rx a).toNat, 4, s.rx b)] false none none false)) s) s)

/-- TIME at a clk (R265). -/
def State.timeAt (s : State) (clk : Nat) : Word := s.time - BitVec.ofNat 64 (s.clk * 2 / 21) + BitVec.ofNat 64 (clk * 2 / 21)

/-- An MBXWATCH of a hart (R108, R123, R124): sub is 0 for a read, 1 for a watch, 2 for a withdrawal. Its DATA holds the target in [31:0]
and the counter's index in [37:32]; a read is told from a withdrawal by RR (DESIGN CHOICE, unsafe; log 103). -/
def State.counterMsg (s : State) (id : HartId) (n : CounterName) (sub : Nat) (target : BitVec 32) (reg : Option Reg) (issued : Nat) : Msg :=
  let m := s.newMsg id .mbxwatch n.dev n.core
  { m with sub := sub, data := BitVec.ofNat 64 (target.toNat + n.idx * 2 ^ 32), rr := sub != 2, rreg := reg.getD 0,
           cmp := if sub = 1 then s.timeAt issued + BitVec.ofNat 64 Config.watchTicks else 0 }

/-- The withdrawal of the remote watch of a wait (R124). -/
def State.withdrawal (s : State) (id : HartId) (w : MbxWait) : Msg :=
  { s.counterMsg id w.counter 2 w.target none 0 with afterLoads := 0, afterSb := 0 }

/-- MBX.READ (R285): a plain load of an own counter, an unconditional watch of another. -/
def execMbxRead (hd : Head) (d a : Reg) (s : State) : Host.Outcome State Fault Refusal :=
  let ik := codeOf (.mbxRead hd d a)
  .next (issue ik hd 0 true [.x a] [.x d] (fun s =>
    if s.me.acqWait then stall s
    else withCounter (s.rx a) (fun n s =>
      if s.ownCounter n s.myCore then
        finish ik hd (s.startLoad s.cur (.x d false) [(s.counterPa (s.rx a).toNat, 4)] false false)
      else
        finish ik hd ((s.send (s.counterMsg s.cur n 0 0 (some d) 0) true).pend d n.core n.dev)) s) s)

/-- The wait of an MBX.WAIT entered (R286): an own counter in the slot's own watch, behind one that it holds, and evaluated at once; another
by MBXWATCH (DEDUCED, unsafe; log 78). -/
def State.startWait (s : State) (n : CounterName) (name : Word) (target : BitVec 32) (reg : Option Reg) : State :=
  if s.ownCounter n s.myCore then
    let w : MbxWait := ⟨name, target, reg, s.clk, true, 0, none⟩
    let s := s.modMe (fun h => h.modBusy (fun b => { b with mbx := b.mbx ++ [w] }))
    s.modMe s.evalOwn
  else
    let m := s.counterMsg s.cur n 1 target reg s.clk
    let w : MbxWait := ⟨name, target, reg, s.clk, false, m.id, none⟩
    (s.modMe (fun h => h.modBusy (fun b => { b with mbx := b.mbx ++ [w] }))).send m false

/-- Whether an own-counter MBX.WAIT must wait for accesses before it: loads (R135, R141) and stores of the hart to the counter. -/
def State.ownWaitHeld (s : State) (name : Word) : Bool :=
  !s.me.busy.loads.isEmpty || s.me.busy.sb.any (fun e => e.parts.any (fun p => p.1 == s.counterPa name.toNat))

/-- How an MBX.WAIT with rd = x0 has ended is told to the instruction, once. -/
def Hart.endWait (h : Hart) : Hart := h.modBusy (fun b => { b with mbxEnd := none })

/-- MBX.WAIT (R286): with rd the register is PENDING and the thread goes on; with x0 the thread waits at the instruction. A thread that
resumes at such a wait goes on with the watch that it has (R295). -/
def execMbxWait (hd : Head) (d a b : Reg) (s : State) : Host.Outcome State Fault Refusal :=
  let ik := codeOf (.mbxWait hd d a b)
  .next (issueOwn ik hd 0 s.noCtx (if d = 0 then s.lockBar else none) [.x a, .x b] [.x d] (fun s =>
    match s.me.busy.mbxEnd with
    | some (c, t) => if c = 0 then finish ik hd (s.modMe Hart.endWait) else takeTrap c t (s.rx a) s.me.pc (s.modMe Hart.endWait)
    | none =>
      if s.me.busy.mbx.any (fun w => w.reg.isNone) then stallAt hd .mbx true s
      else if s.me.acqWait then stall s
      else withCounter (s.rx a) (fun n s =>
        if s.ownCounter n s.myCore && s.ownWaitHeld (s.rx a) then stallAt hd .stall true s
        else if d = 0 then (stallAt hd .mbx true s).startWait n (s.rx a) ((s.rx b).setWidth 32) none
        else
          let s := (s.modMe (fun h => h.markX d .pending))
          finish ik hd ((s.modMe (fun h => h.modBusy (fun b => { b with fills := b.fills ++ [⟨d, n.core, n.dev⟩] }))).startWait n (s.rx a)
            ((s.rx b).setWidth 32) (some d))) s) s)

end Sys2Proof.Machine
end

