-- ==== Sys2Proof/Machine/Float.lean ====
section
/-! DEFINITION. Sys2Proof/Machine/Float.lean: exact arithmetic on the float formats of R190 to R192: unpacking, one rounding for all of
them (R206 to R208), the operations of R301 to R305, conversions (R208 to R210), and the approximations of R211 to R213.
A finite value is (−1)^neg × m × 2^e with m a natural number. -/

namespace Sys2Proof.Machine

/-! ### Formats -/

/-- A float format: exponent bits, fraction bits, zero bits below the fraction; whether it is an 8-bit format (no
signalling NaN, never flushed); whether it has no infinity (R190 to R192). -/
structure Fmt where
  eb : Nat
  fb : Nat
  pad : Nat
  eight : Bool
  noInf : Bool
  deriving DecidableEq, Repr

/-- FP32 (R191). -/
def Fmt.f32 : Fmt := ⟨8, 23, 0, false, false⟩
/-- BF16 (R191). -/
def Fmt.bf16 : Fmt := ⟨8, 7, 0, false, false⟩
/-- FP16 (R191). -/
def Fmt.f16 : Fmt := ⟨5, 10, 0, false, false⟩
/-- F19 in its 32-bit container (R192). -/
def Fmt.f19 : Fmt := ⟨8, 10, 13, false, false⟩
/-- E4M3 (R190). -/
def Fmt.e4m3 : Fmt := ⟨4, 3, 0, true, true⟩
/-- E5M2 (R190). -/
def Fmt.e5m2 : Fmt := ⟨5, 2, 0, true, false⟩
/-- The FP32 values whose fraction bits [7:0] are zero (R212). -/
def Fmt.approx : Fmt := ⟨8, 15, 8, false, false⟩

/-- Exponent bias (R190, R191). -/
def Fmt.bias (f : Fmt) : Nat := 2 ^ (f.eb - 1) - 1
/-- Bits of a value. -/
def Fmt.width (f : Fmt) : Nat := 1 + f.eb + f.fb + f.pad
/-- The sign bit set when neg. -/
def Fmt.sign (f : Fmt) (neg : Bool) : Nat := if neg then 2 ^ (f.width - 1) else 0
/-- Exponent of the least normal value. -/
def Fmt.emin (f : Fmt) : Int := 1 - (f.bias : Int)
/-- The largest finite magnitude, without its padding (R190, R191). -/
def Fmt.top (f : Fmt) : Nat := (2 ^ f.eb - 1) * 2 ^ f.fb + (if f.noInf then 2 ^ f.fb - 2 else 0) - (if f.noInf then 0 else 1)
/-- The canonical NaN (R190, R191). -/
def Fmt.nan (f : Fmt) : Nat :=
  ((2 ^ f.eb - 1) * 2 ^ f.fb + (if f.noInf then 2 ^ f.fb - 1 else 2 ^ (f.fb - 1))) * 2 ^ f.pad
/-- The largest finite value of a sign. -/
def Fmt.maxOf (f : Fmt) (neg : Bool) : Nat := f.sign neg + f.top * 2 ^ f.pad
/-- An infinity; the NaN in a format that has none (R208). -/
def Fmt.inf (f : Fmt) (neg : Bool) : Nat :=
  if f.noInf then f.nan else f.sign neg + (2 ^ f.eb - 1) * 2 ^ f.fb * 2 ^ f.pad

/-- A value: NaN (signalling or quiet), infinity, or a finite value. -/
inductive FVal where
  | nan (signalling : Bool)
  | inf (neg : Bool)
  | fin (neg : Bool) (m : Nat) (e : Int)
  deriving DecidableEq, Repr

/-- Sign of a value; a NaN has none here. -/
def FVal.neg (v : FVal) : Bool :=
  match v with
  | .nan _ => false
  | .inf n => n
  | .fin n _ _ => n

/-- Whether a value is a NaN. -/
def FVal.isNan (v : FVal) : Bool := match v with | .nan _ => true | _ => false
/-- Whether a value is a signalling NaN. -/
def FVal.isSnan (v : FVal) : Bool := match v with | .nan s => s | _ => false
/-- Whether a value is an infinity. -/
def FVal.isInf (v : FVal) : Bool := match v with | .inf _ => true | _ => false
/-- Whether a value is a zero. -/
def FVal.isZero (v : FVal) : Bool := match v with | .fin _ m _ => m == 0 | _ => false

/-- The value with its sign changed by an exclusive or. -/
def FVal.flip (v : FVal) (b : Bool) : FVal :=
  match v with
  | .nan s => .nan s
  | .inf n => .inf (n != b)
  | .fin n m e => .fin (n != b) m e

/-- The value of an encoding; with ftz a subnormal of a wide format reads as a zero (R190 to R192, R207). -/
def Fmt.unpack (f : Fmt) (ftz : Bool) (v : Nat) : FVal :=
  let x := v / 2 ^ f.pad % 2 ^ (1 + f.eb + f.fb)
  let neg := x.testBit (f.eb + f.fb)
  let e := x / 2 ^ f.fb % 2 ^ f.eb
  let m := x % 2 ^ f.fb
  if e = 2 ^ f.eb - 1 ∧ (f.noInf = false ∨ m = 2 ^ f.fb - 1) then
    if f.noInf then .nan false
    else if m = 0 then .inf neg
    else .nan (!f.eight && decide (m < 2 ^ (f.fb - 1)))
  else if e = 0 then .fin neg (if ftz && !f.eight then 0 else m) (f.emin - f.fb)
  else .fin neg (2 ^ f.fb + m) (e - (f.bias : Int) - f.fb)

/-! ### Rounding (R206 to R208) -/

/-- m ÷ 2^sh rounded to an integer by a mode of R206. -/
def roundInt (rm : Nat) (neg : Bool) (m sh : Nat) : Nat :=
  let q := m / 2 ^ sh
  let r := m % 2 ^ sh
  let up :=
    if r = 0 then false
    else match rm with
      | 1 => false
      | 2 => !neg
      | 3 => neg
      | 4 => decide (2 ^ sh ≤ 2 * r)
      | _ => decide (2 ^ sh < 2 * r) || (decide (2 ^ sh = 2 * r) && decide (q % 2 = 1))
  if up then q + 1 else q

/-- m × 2^e in units of 2^q, rounded; and whether it was inexact. -/
def roundAt (rm : Nat) (neg : Bool) (m : Nat) (e q : Int) : Nat × Bool :=
  if q ≤ e then (m * 2 ^ (e - q).toNat, false)
  else (roundInt rm neg m (q - e).toNat, decide (m % 2 ^ (q - e).toNat ≠ 0))

/-- Bits of a positive number. -/
def bitLen (m : Nat) : Nat := if m = 0 then 0 else m.log2 + 1

/-- What overflow gives (R201, R207, R208). -/
def Fmt.overflow (f : Fmt) (v : FEnv) (neg : Bool) : Nat :=
  if v.sat then f.maxOf neg
  else if v.rm = 1 ∨ (v.rm = 2 ∧ neg = true) ∨ (v.rm = 3 ∧ neg = false) then f.maxOf neg
  else f.inf neg

/-- A finite value rounded once to a format, with the flags of R207 and R208: tininess after rounding, overflow as if the
exponent range were unbounded, a subnormal result flushed under FTZ unless the format is an 8-bit one. -/
def Fmt.round (f : Fmt) (v : FEnv) (neg : Bool) (m : Nat) (e : Int) : Nat × Flags :=
  if m = 0 then (f.sign neg, 0)
  else
    let lead : Int := e + (bitLen m : Int) - 1
    let q := max (lead - f.fb) (f.emin - f.fb)
    let r := roundAt v.rm neg m e q
    let mag := (q - (f.emin - f.fb)).toNat * 2 ^ f.fb + r.1
    if f.top < mag then (f.overflow v neg, flagOF ||| flagNX)
    else
      let u := roundAt v.rm neg m e (lead - f.fb)
      let tiny := decide (lead < f.emin) && !(decide (lead = f.emin - 1) && decide (u.1 = 2 ^ (f.fb + 1)))
      if v.ftz && !f.eight && decide (0 < mag) && decide (mag < 2 ^ f.fb) then (f.sign neg, flagUF ||| flagNX)
      else (f.sign neg + mag * 2 ^ f.pad, Flags.when flagNX r.2 ||| Flags.when flagUF (tiny && r.2))

/-- Any exact value written in a format (R207, R209). -/
def Fmt.put (f : Fmt) (v : FEnv) (x : FVal) : Nat × Flags :=
  match x with
  | .nan _ => (f.nan, 0)
  | .inf n => (f.inf n, 0)
  | .fin n m e => f.round v n m e

/-! ### Exact operations -/

/-- The signed integer m × 2^(e − b) of a finite value in units of 2^b, for b at most e. -/
def signedAt (neg : Bool) (m : Nat) (e b : Int) : Int :=
  let k : Int := m * 2 ^ (e - b).toNat
  if neg then -k else k

/-- Exact sum of two finite values. An exact zero takes the sign both addends share, and otherwise the sign given. -/
def addFin (z : Bool) (n1 : Bool) (m1 : Nat) (e1 : Int) (n2 : Bool) (m2 : Nat) (e2 : Int) : FVal :=
  if m1 = 0 ∧ m2 = 0 then .fin (if n1 = n2 then n1 else z) 0 0
  else
    let b := min e1 e2
    let t := signedAt n1 m1 e1 b + signedAt n2 m2 e2 b
    if t = 0 then .fin z 0 0 else .fin (decide (t < 0)) t.natAbs b

/-- Exact sum of two values with the flags of IEEE 754: Inf − Inf is invalid, a signalling NaN raises NV (R207, R301). -/
def addVal (z : Bool) (a b : FVal) : FVal × Flags :=
  match a, b with
  | .nan _, _ => (.nan false, Flags.when flagNV (a.isSnan || b.isSnan))
  | _, .nan _ => (.nan false, Flags.when flagNV b.isSnan)
  | .inf x, .inf y => if x = y then (.inf x, 0) else (.nan false, flagNV)
  | .inf x, .fin _ _ _ => (.inf x, 0)
  | .fin _ _ _, .inf y => (.inf y, 0)
  | .fin n1 m1 e1, .fin n2 m2 e2 => (addFin z n1 m1 e1 n2 m2 e2, 0)

/-- Exact product of two values (R301). -/
def mulVal (a b : FVal) : FVal × Flags :=
  match a, b with
  | .nan _, _ => (.nan false, Flags.when flagNV (a.isSnan || b.isSnan))
  | _, .nan _ => (.nan false, Flags.when flagNV b.isSnan)
  | .inf x, .inf y => (.inf (x != y), 0)
  | .inf x, .fin y m _ => if m = 0 then (.nan false, flagNV) else (.inf (x != y), 0)
  | .fin x m _, .inf y => if m = 0 then (.nan false, flagNV) else (.inf (x != y), 0)
  | .fin n1 m1 e1, .fin n2 m2 e2 => (.fin (n1 != n2) (m1 * m2) (e1 + e2), 0)

/-- a × b + c, exact (R303): 0 × Inf is invalid whatever c is. -/
def fmaVal (z : Bool) (a b c : FVal) : FVal × Flags :=
  if a.isNan || b.isNan then (.nan false, Flags.when flagNV (a.isSnan || b.isSnan || c.isSnan))
  else
    let p := mulVal a b
    if p.1.isNan then (.nan false, flagNV) else addVal z p.1 c

/-- Bits kept of a quotient or a root beyond the operands' own, with a last bit that says whether any follow. -/
def guardBits : Nat := 80

/-- A number with one more bit, set when something was cut off. -/
def sticky (q : Nat) (inexact : Bool) : Nat := 2 * q + b2n inexact

/-- a ÷ b (R301). -/
def divVal32 (a b : FVal) : FVal × Flags :=
  match a, b with
  | .nan _, _ => (.nan false, Flags.when flagNV (a.isSnan || b.isSnan))
  | _, .nan _ => (.nan false, Flags.when flagNV b.isSnan)
  | .inf _, .inf _ => (.nan false, flagNV)
  | .inf x, .fin y _ _ => (.inf (x != y), 0)
  | .fin x _ _, .inf y => (.fin (x != y) 0 0, 0)
  | .fin x m e, .fin y m' e' =>
    if m' = 0 then (if m = 0 then (.nan false, flagNV) else (.inf (x != y), flagDZ))
    else
      let n := m * 2 ^ guardBits
      (.fin (x != y) (sticky (n / m') (decide (n % m' ≠ 0))) (e - e' - guardBits - 1), 0)

/-- √a (R301). -/
def sqrtVal (a : FVal) : FVal × Flags :=
  match a with
  | .nan s => (.nan false, Flags.when flagNV s)
  | .inf n => if n then (.nan false, flagNV) else (.inf false, 0)
  | .fin n m e =>
    if m = 0 then (.fin n 0 0, 0)
    else if n then (.nan false, flagNV)
    else
      let odd := decide (e % 2 ≠ 0)
      let m2 := (if odd then 2 * m else m) * 2 ^ (2 * guardBits)
      let e2 : Int := (if odd then e - 1 else e) - 2 * guardBits
      let r := Nat.sqrt m2
      (.fin false (sticky r (decide (r * r ≠ m2))) (e2 / 2 - 1), 0)

/-- The result of an exact operation rounded to a format, its flags added. -/
def Fmt.finish (f : Fmt) (v : FEnv) (x : FVal × Flags) : Nat × Flags :=
  let r := f.put v x.1
  (r.1, r.2 ||| x.2)

/-- Whether an exact zero sum of addends of unlike sign is negative: only when rounding down (R207) (DEDUCED, unsafe; log 75). -/
def FEnv.zeroNeg (v : FEnv) : Bool := v.rm == 3

/-- rnd(a + b) (R301, R304). -/
def Fmt.add (f : Fmt) (v : FEnv) (a b : Nat) : Nat × Flags :=
  f.finish v (addVal v.zeroNeg (f.unpack v.ftz a) (f.unpack v.ftz b))
/-- rnd(a − b). -/
def Fmt.sub (f : Fmt) (v : FEnv) (a b : Nat) : Nat × Flags :=
  f.finish v (addVal v.zeroNeg (f.unpack v.ftz a) ((f.unpack v.ftz b).flip true))
/-- rnd(a × b). -/
def Fmt.mul (f : Fmt) (v : FEnv) (a b : Nat) : Nat × Flags := f.finish v (mulVal (f.unpack v.ftz a) (f.unpack v.ftz b))
/-- rnd(a ÷ b). -/
def Fmt.div (f : Fmt) (v : FEnv) (a b : Nat) : Nat × Flags := f.finish v (divVal32 (f.unpack v.ftz a) (f.unpack v.ftz b))
/-- rnd(√a). -/
def Fmt.sqrt (f : Fmt) (v : FEnv) (a : Nat) : Nat × Flags := f.finish v (sqrtVal (f.unpack v.ftz a))
/-- rnd(±(a × b) ± c); z is the sign of an exact zero sum of addends of unlike sign. -/
def Fmt.fma (f : Fmt) (v : FEnv) (z np nc : Bool) (a b c : Nat) : Nat × Flags :=
  f.finish v (fmaVal z ((f.unpack v.ftz a).flip np) (f.unpack v.ftz b) ((f.unpack v.ftz c).flip nc))
/-- A value halved exactly. -/
def FVal.half (a : FVal) : FVal := match a with | .fin n m e => .fin n m (e - 1) | x => x
/-- rnd((a + b) ÷ 2) of the exact value (R304). -/
def Fmt.avg (f : Fmt) (v : FEnv) (a b : Nat) : Nat × Flags :=
  let x := addVal v.zeroNeg (f.unpack v.ftz a) (f.unpack v.ftz b)
  f.finish v (x.1.half, x.2)
/-- |rnd(a − b)| (R304): the sign bit of the rounded difference cleared. -/
def Fmt.absd (f : Fmt) (v : FEnv) (a b : Nat) : Nat × Flags :=
  let x := f.sub v a b
  (x.1 % 2 ^ (f.width - 1), x.2)

/-! ### Order -/

/-- a < b for values that are not NaNs; −0 equals +0. -/
def ltVal (a b : FVal) : Bool :=
  match a, b with
  | .inf x, .inf y => x && !y
  | .inf x, .fin _ _ _ => x
  | .fin _ _ _, .inf y => !y
  | .fin n1 m1 e1, .fin n2 m2 e2 => let c := min e1 e2; decide (signedAt n1 m1 e1 c < signedAt n2 m2 e2 c)
  | _, _ => false

/-- a = b for values that are not NaNs. -/
def eqVal (a b : FVal) : Bool := !a.isNan && !b.isNan && !ltVal a b && !ltVal b a

/-- FEQ (R301): NV only for a signalling NaN. -/
def Fmt.eq (f : Fmt) (v : FEnv) (a b : Nat) : Bool × Flags :=
  let x := f.unpack v.ftz a
  let y := f.unpack v.ftz b
  (eqVal x y, Flags.when flagNV (x.isSnan || y.isSnan))
/-- FLT (R301): NV for any NaN. -/
def Fmt.lt (f : Fmt) (v : FEnv) (a b : Nat) : Bool × Flags :=
  let x := f.unpack v.ftz a
  let y := f.unpack v.ftz b
  (!x.isNan && !y.isNan && ltVal x y, Flags.when flagNV (x.isNan || y.isNan))
/-- FLE (R301): NV for any NaN. -/
def Fmt.le (f : Fmt) (v : FEnv) (a b : Nat) : Bool × Flags :=
  let x := f.unpack v.ftz a
  let y := f.unpack v.ftz b
  (!x.isNan && !y.isNan && !ltVal y x, Flags.when flagNV (x.isNan || y.isNan))

/-- An operand's encoding after flushing (R302). -/
def Fmt.flushed (f : Fmt) (v : FEnv) (a : Nat) : Nat :=
  match f.unpack v.ftz a with
  | .fin n m _ => if m = 0 then f.sign n else a % 2 ^ f.width
  | _ => a % 2 ^ f.width

/-- Minimum or maximum (R302): −0 below +0, a single NaN gives the other operand, two give the canonical NaN. -/
def Fmt.minmax (f : Fmt) (v : FEnv) (big : Bool) (a b : Nat) : Nat × Flags :=
  let x := f.unpack v.ftz a
  let y := f.unpack v.ftz b
  let fl := Flags.when flagNV (x.isSnan || y.isSnan)
  if x.isNan && y.isNan then (f.nan, fl)
  else if x.isNan then (f.flushed v b, fl)
  else if y.isNan then (f.flushed v a, fl)
  else
    let less := ltVal x y || (eqVal x y && x.neg && !y.neg)
    (f.flushed v (if less != big then a else b), fl)

/-- The class word (R302), which ignores FTZ. -/
def fclassWord (a : Nat) : Nat :=
  let neg := bits a 31 1 * 8
  match Fmt.f32.unpack false a with
  | .nan sg => 4 + neg + b2n sg * 16
  | .inf _ => 3 + neg
  | .fin _ m _ => (if m = 0 then 0 else if bits a 23 8 = 0 then 1 else 2) + neg

/-! ### Conversions (R208 to R210) -/

/-- Float to float; to an 8-bit format by R208, which rounds to nearest even. -/
def convFloat (src dst : Fmt) (v : FEnv) (a : Nat) : Nat × Flags :=
  let w := if dst.eight then v.rne else { v with sat := false }
  match src.unpack v.ftz a with
  | .nan sg => (dst.nan, Flags.when flagNV sg)
  | .inf n =>
    if dst.noInf then (if w.sat then (dst.maxOf n, 0) else (dst.nan, flagNV)) else (dst.inf n, 0)
  | .fin n m e => dst.round w n m e

/-- Float to an integer in the range lo to hi (R210). -/
def convToInt (src : Fmt) (v : FEnv) (lo hi : Int) (a : Nat) : Int × Flags :=
  match src.unpack v.ftz a with
  | .nan _ => (hi, flagNV)
  | .inf n => (if n then lo else hi, flagNV)
  | .fin n m e =>
    let r := roundAt v.rm n m e 0
    let k : Int := if n then -(r.1 : Int) else r.1
    if k < lo then (lo, flagNV) else if hi < k then (hi, flagNV) else (k, Flags.when flagNX r.2)

/-- An integer to float (R210). -/
def convFromInt (dst : Fmt) (v : FEnv) (k : Int) : Nat × Flags :=
  dst.round { v with sat := false } (decide (k < 0)) k.natAbs 0

/-! ### Approximations (R211 to R213) -/

/-- VRCP (R212). -/
def vrcp32 (v : FEnv) (a : Nat) : Nat × Flags :=
  let f := Fmt.approx
  let w : FEnv := ⟨0, v.ftz, false⟩
  match Fmt.f32.unpack v.ftz a with
  | .nan sg => (f.nan, Flags.when flagNV sg)
  | .inf n => (f.sign n, 0)
  | .fin n m e =>
    if m = 0 then (f.inf n, flagDZ)
    else
      let x := (divVal32 (.fin n 1 0) (.fin n m e)).1
      -- 1/|a| above the largest value of the set, 0xFFFF × 2^112
      if e + 112 < 0 ∧ m * 0xFFFF < 2 ^ (-(e + 112)).toNat then (f.inf n, flagOF ||| flagNX)
      else
        match x with
        | .fin _ m' e' => f.round w n m' e'
        | _ => (f.nan, 0)

/-- VRSQ (R212). -/
def vrsq32 (v : FEnv) (a : Nat) : Nat × Flags :=
  let f := Fmt.approx
  let w : FEnv := ⟨0, v.ftz, false⟩
  match Fmt.f32.unpack v.ftz a with
  | .nan sg => (f.nan, Flags.when flagNV sg)
  | .inf n => if n then (f.nan, flagNV) else (0, 0)
  | .fin n m e =>
    if m = 0 then (f.inf n, flagDZ)
    else if n then (f.nan, flagNV)
    else
      let odd := decide (e % 2 ≠ 0)
      let m2 := if odd then 2 * m else m
      let e2 : Int := if odd then e - 1 else e
      let num := 2 ^ (2 * guardBits)
      let q := num / m2
      let r := Nat.sqrt q
      let exact := decide (num % m2 = 0) && decide (r * r = q)
      f.round w false (sticky r (!exact)) (-(e2 / 2) - guardBits - 1)

/-- Fraction bits of the fixed-point numbers with which exp2 and log2 are computed: far beyond what the nearest FP32 value
of an irrational result needs (log 11). -/
def fixBits : Nat := 240

/-- The sum of z^(2i+1) ÷ (2i+1) from a power on, n terms: the area tangent of z in units of 2^−fixBits. -/
def atanhSum (z2 pow i n : Nat) : Nat :=
  match n with
  | 0 => 0
  | k + 1 => pow / (2 * i + 1) + atanhSum z2 (pow * z2 / 2 ^ fixBits) (i + 1) k

/-- The natural logarithm of p ÷ q for a quotient from 1 to 2, in units of 2^−fixBits. -/
def lnFix (p q : Nat) : Nat :=
  let z := (p - q) * 2 ^ fixBits / (p + q)
  2 * atanhSum (z * z / 2 ^ fixBits) z 0 90

/-- ln 2 in units of 2^−fixBits. -/
def ln2Fix : Nat := lnFix 2 1

/-- The sum of t^i ÷ i! from a term on, n terms. -/
def expSum (t term i n : Nat) : Nat :=
  match n with
  | 0 => 0
  | k + 1 => term + expSum t (term * t / 2 ^ fixBits / (i + 1)) (i + 1) k

/-- 2^(f ÷ 2^k) for a fraction from 0 to 1, in units of 2^−fixBits (DEDUCED, unsafe; log 11). -/
def exp2Fix (f k : Nat) : Nat := expSum (ln2Fix * f / 2 ^ k) (2 ^ fixBits) 0 70

/-- VEXP2 (R211). -/
def vexp2 (v : FEnv) (a : Nat) : Nat × Flags :=
  let f := Fmt.f32
  let w : FEnv := ⟨0, v.ftz, false⟩
  match f.unpack v.ftz a with
  | .nan sg => (f.nan, Flags.when flagNV sg)
  | .inf n => (if n then 0 else f.inf false, 0)
  | .fin n m e =>
    if m = 0 then (0x3F800000, 0)
    else
      let k := if 0 ≤ e then 0 else (-e).toNat
      let x : Int := signedAt n m e (-(k : Int))
      let i := x / 2 ^ k
      let fr := (x % 2 ^ k).toNat
      if 128 ≤ i then (f.inf false, flagOF ||| flagNX)
      else if i < -200 then f.round w false 1 (-400)
      else if fr = 0 then f.round w false 1 i
      else f.round w false (sticky (exp2Fix fr k) true) (i - fixBits - 1)

/-- VLOG2 (R211). -/
def vlog2 (v : FEnv) (a : Nat) : Nat × Flags :=
  let f := Fmt.f32
  let w : FEnv := ⟨0, v.ftz, false⟩
  match f.unpack v.ftz a with
  | .nan sg => (f.nan, Flags.when flagNV sg)
  | .inf n => if n then (f.nan, flagNV) else (f.inf false, 0)
  | .fin n m e =>
    if m = 0 then (f.inf true, flagDZ)
    else if n then (f.nan, flagNV)
    else
      let l := bitLen m - 1
      let i : Int := e + l
      if m = 2 ^ l then convFromInt f w i
      else
        let fr := lnFix m (2 ^ l) * 2 ^ fixBits / ln2Fix
        let t : Int := i * 2 ^ fixBits + fr
        f.round w (decide (t < 0)) (sticky t.natAbs true) (-(fixBits : Int) - 1)

/-- The operands for which the Newton factor is 1.0 (R213). -/
def newtonSpecial (x y : FVal) : Bool := x.isZero || x.isInf || y.isZero || y.isInf

/-- VRCPS (R213): 2 − a × b. -/
def vrcps32 (v : FEnv) (a b : Nat) : Nat × Flags :=
  let f := Fmt.f32
  let x := f.unpack v.ftz a
  let y := f.unpack v.ftz b
  if x.isNan || y.isNan then (f.nan, Flags.when flagNV (x.isSnan || y.isSnan))
  else if newtonSpecial x y then (0x3F800000, 0)
  else f.finish v (fmaVal v.zeroNeg (x.flip true) y (.fin false 2 0))

/-- VRSQS (R213): (3 − a × b) ÷ 2, the half exact or rounded when subnormal. -/
def vrsqs32 (v : FEnv) (a b : Nat) : Nat × Flags :=
  let f := Fmt.f32
  let x := f.unpack v.ftz a
  let y := f.unpack v.ftz b
  if x.isNan || y.isNan then (f.nan, Flags.when flagNV (x.isSnan || y.isSnan))
  else if newtonSpecial x y then (0x3F800000, 0)
  else
    let r := f.finish v (fmaVal v.zeroNeg (x.flip true) y (.fin false 3 0))
    let h := f.put v (f.unpack false r.1).half
    (h.1, h.2 ||| r.2)

end Sys2Proof.Machine
end

