-- ==== Sys2Proof/Machine/Block.lean ====
section
/-! DEFINITION. Sys2Proof/Machine/Block.lean: the operand formats of R189 to R193, block sums (R194, R197 to R199) and promotion into an
accumulator word (R200 to R203), which the matrix array, VDOT and the vault pipeline share (R215). -/

namespace Sys2Proof.Machine

/-- Bits of an element of a format code (R189). -/
def elemBits (c : Nat) : Nat :=
  match c with
  | 4 | 5 | 14 => 16
  | 6 | 7 => 32
  | 11 | 12 | 13 => 4
  | 15 => 1
  | _ => 8

/-- Bytes of a row of 128 elements (R189). -/
def rowBytes (c : Nat) : Nat := elemBits c * 16

/-- Whether a format carries block scales (R189). -/
def fmtScaled (c : Nat) : Bool := c == 2 || c == 3 || c == 10 || c == 13

/-- The float format of a code from 0 to 7 (R189 to R192). -/
def floatFmt (c : Nat) : Fmt :=
  match c with
  | 0 | 2 => Fmt.e4m3
  | 1 | 3 => Fmt.e5m2
  | 4 => Fmt.bf16
  | 5 => Fmt.f16
  | 6 => Fmt.f19
  | _ => Fmt.f32

/-- A two's complement number of w bits. -/
def signedOf (w v : Nat) : Int := if v % 2 ^ w < 2 ^ (w - 1) then (v % 2 ^ w : Nat) else (v % 2 ^ w : Nat) - (2 : Int) ^ w

/-- The integer that an element of an integer or binary format holds (R193). -/
def intElem (c v : Nat) : Int :=
  match c with
  | 9 | 12 => v
  | 15 => if v = 0 then -1 else 1
  | _ => signedOf (elemBits c) v

/-- n numbers of w bits each, from the lowest on. -/
def lanesOf (w n v : Nat) : List Nat := (List.range n).map (fun k => bits v (k * w) w)

/-- Numbers of w bits put side by side, the first lowest. -/
def packLanes (w : Nat) (ls : List Nat) : Nat := ls.foldr (fun x t => x % 2 ^ w + t * 2 ^ w) 0

/-- The four rules of R194. -/
inductive PairRule where
  | fixed
  | sequential
  | intFloat
  | int32
  deriving DecidableEq, Repr

/-- The rule of a pair of formats; none for a pair that R194 does not list. -/
def pairRule (a w : Nat) : Option PairRule :=
  if a < 4 ∧ w < 4 then some .fixed
  else if a < 8 ∧ w < 8 then some .sequential
  else if 8 ≤ a ∧ a < 15 ∧ 8 ≤ w ∧ w < 15 then (if fmtScaled a || fmtScaled w then some .intFloat else some .int32)
  else if a = 15 ∧ w = 15 then some .int32
  else none

/-- A block sum: an exact or rounded value with the flags it raised, or an exact integer (R197 to R199). -/
inductive BlockSum where
  | val (x : FVal) (f : Flags)
  | int (k : Int)
  deriving DecidableEq, Repr

/-- The special values of a block sum in the order of R201. -/
def blockSpecial (as ws ps : List FVal) : Option (FVal × Flags) :=
  if (as ++ ws).any (·.isNan) then some (.nan false, Flags.when flagNV ((as ++ ws).any (·.isSnan)))
  else if ps.any (·.isNan) then some (.nan false, flagNV)
  else
    let infs := ps.filter (·.isInf)
    if infs.any (·.neg) && infs.any (fun p => !p.neg) then some (.nan false, flagNV)
    else match infs with
      | [] => none
      | p :: _ => some (p, 0)

/-- The exact sum of some products, minus zero exactly when every one is (R197, R202). -/
def exactSum (ps : List FVal) : FVal :=
  let add (t : Int × Int) (p : FVal) : Int × Int :=
    match p with
    | .fin n m e =>
      let b := min t.2 e
      (t.1 * (2 : Int) ^ (t.2 - b).toNat + signedAt n m e b, b)
    | _ => t
  let r := ps.foldl add (0, 0)
  if r.1 = 0 then .fin (!ps.isEmpty && ps.all (fun p => p.isZero && p.neg)) 0 0 else .fin (decide (r.1 < 0)) r.1.natAbs r.2

/-- One rnd step of R198 and R200. -/
def rndStep (v : FEnv) (x : FVal × Flags) : FVal × Flags :=
  let r := Fmt.f32.finish v x
  (Fmt.f32.unpack false r.1, r.2)

/-- The sequential block sum (R198). -/
def seqSum (v : FEnv) (ps : List FVal) : FVal × Flags :=
  match ps with
  | [] => (.fin false 0 0, 0)
  | p :: r =>
    r.foldl (fun (t : FVal × Flags) q =>
      let u := rndStep v (addVal false t.1 q)
      (u.1, t.2 ||| u.2)) (rndStep v (p, 0))

/-- The block sum of two lists of raw elements of two formats under a rule (R197 to R199, R201). -/
def blockSum (v : FEnv) (rule : PairRule) (fa fw : Nat) (as ws : List Nat) : BlockSum :=
  match rule with
  | .intFloat | .int32 => .int ((as.zip ws).foldl (fun t p => t + intElem fa p.1 * intElem fw p.2) 0)
  | _ =>
    let xs := as.map ((floatFmt fa).unpack v.ftz)
    let ys := ws.map ((floatFmt fw).unpack v.ftz)
    let ps := (xs.zip ys).map (fun p => (mulVal p.1 p.2).1)
    match blockSpecial xs ys ps with
    | some r => .val r.1 r.2
    | none =>
      if rule = .fixed then .val (exactSum ps) 0
      else
        let r := seqSum v ps
        .val r.1 r.2

/-- The product of finite or infinite factors that share no zero and infinity, exact. -/
def prodVal (xs : List FVal) : FVal := xs.foldl (fun t x => (mulVal t x).1) (.fin false 1 0)

/-- Factors multiplied exactly and rounded once by rne32, under the triple rows of R201. -/
def tripleRound (v : FEnv) (xs : List FVal) : FVal × Flags :=
  if xs.any (·.isNan) then (.nan false, Flags.when flagNV (xs.any (·.isSnan)))
  else if xs.any (·.isZero) && xs.any (·.isInf) then (.nan false, flagNV)
  else if xs.any (·.isInf) then (prodVal xs, 0)
  else rndStep v (prodVal xs, 0)

/-- The accumulate rows of R201. -/
def accumulate (v : FEnv) (a p : FVal) : FVal × Flags :=
  if a.isNan || p.isNan then (.nan false, 0)
  else if a.isInf || p.isInf then addVal false a p
  else rndStep v (addVal false a p)

/-- An FP32 word of a value that already is one. -/
def wordOf (x : FVal) : Nat := (Fmt.f32.put ⟨0, false, false⟩ x).1

/-- Promotion of a block sum into an accumulator word of 32 raw bits (R200 to R203). -/
def promote (v : FEnv) (rule : PairRule) (acc : Nat) (b : BlockSum) (sa sw : Nat) : Nat × Flags :=
  match rule, b with
  | .int32, .int k =>
    let t := signedOf 32 acc + k
    let c : Int := if v.sat then max (-(2 : Int) ^ 31) (min t ((2 : Int) ^ 31 - 1)) else t
    ((c % (2 : Int) ^ 32).toNat, Flags.when flagOF (c != t))
  | _, _ =>
    let x := match b with | .val x f => (x, f) | .int k => (.fin (decide (k < 0)) k.natAbs 0, 0)
    let p := tripleRound v [x.1, Fmt.f32.unpack v.ftz sa, Fmt.f32.unpack v.ftz sw]
    let r := accumulate v (Fmt.f32.unpack v.ftz acc) p.1
    (wordOf r.1, x.2 ||| p.2 ||| r.2)

end Sys2Proof.Machine
end

