-- ==== Sys2Proof/Machine/Scalar.lean ====
section
/-! DEFINITION. Sys2Proof/Machine/Scalar.lean: register and immediate arithmetic, multiplication and division, and bit
manipulation (R241 to R248). -/

namespace Sys2Proof.Machine

/-! ### Values -/

/-- A signed value clamped to 64 bits (R241). -/
def clamp64 (v : Int) : Word :=
  if v < -(2 ^ 63) then 0x8000000000000000 else if 2 ^ 63 - 1 < v then 0x7FFFFFFFFFFFFFFF else BitVec.ofInt 64 v

/-- Shift amount: bits [5:0] (R241). -/
def amount (b : Word) : Nat := wbits b 0 6

/-- The high 64 bits of an exact product (R245). -/
def high64 (p : Int) : Word := BitVec.ofInt 64 (p / 2 ^ 64)

/-- DIV (R245). -/
def divVal (a b : Word) : Word :=
  if b = 0 then allOnes
  else if a = 0x8000000000000000 ∧ b = allOnes then a
  else BitVec.ofInt 64 (a.toInt.tdiv b.toInt)

/-- DIVU (R245). -/
def divuVal (a b : Word) : Word := if b = 0 then allOnes else BitVec.ofNat 64 (a.toNat / b.toNat)

/-- REM (R245). -/
def remVal (a b : Word) : Word :=
  if b = 0 then a
  else if a = 0x8000000000000000 ∧ b = allOnes then 0
  else BitVec.ofInt 64 (a.toInt - b.toInt * a.toInt.tdiv b.toInt)

/-- REMU (R245). -/
def remuVal (a b : Word) : Word := if b = 0 then a else BitVec.ofNat 64 (a.toNat % b.toNat)

/-- Leading zero bits of the low n bits. -/
def clzBits (v : Nat) (n : Nat) : Nat :=
  match n with
  | 0 => 0
  | k + 1 => if v.testBit k then 0 else 1 + clzBits v k

/-- Trailing zero bits among the next n bits from bit k on. -/
def ctzFrom (v k n : Nat) : Nat :=
  match n with
  | 0 => 0
  | m + 1 => if v.testBit k then 0 else 1 + ctzFrom v (k + 1) m

/-- One bits among the low n bits. -/
def popBits (v : Nat) (n : Nat) : Nat :=
  match n with
  | 0 => 0
  | k + 1 => (if v.testBit k then 1 else 0) + popBits v k

/-- Bit n moved to bit top − n. -/
def brevBits (v top : Nat) (n : Nat) : Nat :=
  match n with
  | 0 => 0
  | k + 1 => (if v.testBit k then 2 ^ (top - k) else 0) + brevBits v top k

/-- The carry-less product over the low n bits of b (R247). -/
def clmulBits (a b : Nat) (n : Nat) : Nat :=
  match n with
  | 0 => 0
  | k + 1 => if b.testBit k then (a * 2 ^ k) ^^^ clmulBits a b k else clmulBits a b k

/-- clmul128 (R247). -/
def clmul128 (a b : Word) : Nat := clmulBits a.toNat b.toNat 64

/-- Length of the field that b describes (R248). -/
def bfLen (b : Word) : Nat := min (wbits b 6 6 + 1) (64 - wbits b 0 6)

/-- BFX (R248). -/
def bfxVal (a b : Word) : Word :=
  let n := bfLen b
  let v := wbits a (wbits b 0 6) n
  if wbit b 12 ∧ v.testBit (n - 1) then BitVec.ofNat 64 (v + (2 ^ 64 - 2 ^ n)) else BitVec.ofNat 64 v

/-- BFI (R248). -/
def bfiVal (a b old : Word) : Word := setBits old (wbits b 0 6) (bfLen b) (wbits a 0 (bfLen b))

/-- BSWAP (R246). -/
def bswapVal (a : Word) : Word := BitVec.ofNat 64 (ofBytes (bytesOf 8 a.toNat).reverse)

/-! ### ALU (R241) -/

/-- ADD (R241). -/
def execAdd (hd : Head) (d a b : Reg) (s : State) : Host.Outcome State Fault Refusal :=
  .next (regReg (codeOf (.add hd d a b)) hd d a b (fun a b => a + b) s)

/-- SUB (R241). -/
def execSub (hd : Head) (d a b : Reg) (s : State) : Host.Outcome State Fault Refusal :=
  .next (regReg (codeOf (.sub hd d a b)) hd d a b (fun a b => a - b) s)

/-- AND (R241). -/
def execAnd (hd : Head) (d a b : Reg) (s : State) : Host.Outcome State Fault Refusal :=
  .next (regReg (codeOf (.and hd d a b)) hd d a b (fun a b => a &&& b) s)

/-- OR (R241). -/
def execOr (hd : Head) (d a b : Reg) (s : State) : Host.Outcome State Fault Refusal :=
  .next (regReg (codeOf (.or hd d a b)) hd d a b (fun a b => a ||| b) s)

/-- XOR (R241). -/
def execXor (hd : Head) (d a b : Reg) (s : State) : Host.Outcome State Fault Refusal :=
  .next (regReg (codeOf (.xor hd d a b)) hd d a b (fun a b => a ^^^ b) s)

/-- SLL (R241). -/
def execSll (hd : Head) (d a b : Reg) (s : State) : Host.Outcome State Fault Refusal :=
  .next (regReg (codeOf (.sll hd d a b)) hd d a b (fun a b => a <<< amount b) s)

/-- SRL (R241). -/
def execSrl (hd : Head) (d a b : Reg) (s : State) : Host.Outcome State Fault Refusal :=
  .next (regReg (codeOf (.srl hd d a b)) hd d a b (fun a b => a >>> amount b) s)

/-- SRA (R241). -/
def execSra (hd : Head) (d a b : Reg) (s : State) : Host.Outcome State Fault Refusal :=
  .next (regReg (codeOf (.sra hd d a b)) hd d a b (fun a b => a.sshiftRight (amount b)) s)

/-- ROL (R241). -/
def execRol (hd : Head) (d a b : Reg) (s : State) : Host.Outcome State Fault Refusal :=
  .next (regReg (codeOf (.rol hd d a b)) hd d a b (fun a b => a.rotateLeft (amount b)) s)

/-- ROR (R241). -/
def execRor (hd : Head) (d a b : Reg) (s : State) : Host.Outcome State Fault Refusal :=
  .next (regReg (codeOf (.ror hd d a b)) hd d a b (fun a b => a.rotateRight (amount b)) s)

/-- SLT (R241). -/
def execSlt (hd : Head) (d a b : Reg) (s : State) : Host.Outcome State Fault Refusal :=
  .next (regReg (codeOf (.slt hd d a b)) hd d a b (fun a b => bool64 (a.slt b)) s)

/-- SLTU (R241). -/
def execSltu (hd : Head) (d a b : Reg) (s : State) : Host.Outcome State Fault Refusal :=
  .next (regReg (codeOf (.sltu hd d a b)) hd d a b (fun a b => bool64 (a.ult b)) s)

/-- MIN (R241). -/
def execMin (hd : Head) (d a b : Reg) (s : State) : Host.Outcome State Fault Refusal :=
  .next (regReg (codeOf (.min hd d a b)) hd d a b (fun a b => if b.slt a then b else a) s)

/-- MAX (R241). -/
def execMax (hd : Head) (d a b : Reg) (s : State) : Host.Outcome State Fault Refusal :=
  .next (regReg (codeOf (.max hd d a b)) hd d a b (fun a b => if a.slt b then b else a) s)

/-- MINU (R241). -/
def execMinu (hd : Head) (d a b : Reg) (s : State) : Host.Outcome State Fault Refusal :=
  .next (regReg (codeOf (.minu hd d a b)) hd d a b (fun a b => if b.ult a then b else a) s)

/-- MAXU (R241). -/
def execMaxu (hd : Head) (d a b : Reg) (s : State) : Host.Outcome State Fault Refusal :=
  .next (regReg (codeOf (.maxu hd d a b)) hd d a b (fun a b => if a.ult b then b else a) s)

/-- ADDW (R241). -/
def execAddw (hd : Head) (d a b : Reg) (s : State) : Host.Outcome State Fault Refusal :=
  .next (regReg (codeOf (.addw hd d a b)) hd d a b (fun a b => sext32 (a + b)) s)

/-- SUBW (R241). -/
def execSubw (hd : Head) (d a b : Reg) (s : State) : Host.Outcome State Fault Refusal :=
  .next (regReg (codeOf (.subw hd d a b)) hd d a b (fun a b => sext32 (a - b)) s)

/-- ANDN (R241). -/
def execAndn (hd : Head) (d a b : Reg) (s : State) : Host.Outcome State Fault Refusal :=
  .next (regReg (codeOf (.andn hd d a b)) hd d a b (fun a b => a &&& ~~~b) s)

/-- ORN (R241). -/
def execOrn (hd : Head) (d a b : Reg) (s : State) : Host.Outcome State Fault Refusal :=
  .next (regReg (codeOf (.orn hd d a b)) hd d a b (fun a b => a ||| ~~~b) s)

/-- ADDSAT (R241). -/
def execAddsat (hd : Head) (d a b : Reg) (s : State) : Host.Outcome State Fault Refusal :=
  .next (regReg (codeOf (.addsat hd d a b)) hd d a b (fun a b => clamp64 (a.toInt + b.toInt)) s)

/-- SUBSAT (R241). -/
def execSubsat (hd : Head) (d a b : Reg) (s : State) : Host.Outcome State Fault Refusal :=
  .next (regReg (codeOf (.subsat hd d a b)) hd d a b (fun a b => clamp64 (a.toInt - b.toInt)) s)

/-! ### Immediates (R242, R243) -/

/-- ADDI (R242). -/
def execAddi (hd : Head) (d a : Reg) (i : BitVec 12) (s : State) : Host.Outcome State Fault Refusal :=
  .next (regOne (codeOf (.addi hd d a i)) hd d a (fun a => a + sx i) s)

/-- ANDI (R242). -/
def execAndi (hd : Head) (d a : Reg) (i : BitVec 12) (s : State) : Host.Outcome State Fault Refusal :=
  .next (regOne (codeOf (.andi hd d a i)) hd d a (fun a => a &&& sx i) s)

/-- ORI (R242). -/
def execOri (hd : Head) (d a : Reg) (i : BitVec 12) (s : State) : Host.Outcome State Fault Refusal :=
  .next (regOne (codeOf (.ori hd d a i)) hd d a (fun a => a ||| sx i) s)

/-- XORI (R242). -/
def execXori (hd : Head) (d a : Reg) (i : BitVec 12) (s : State) : Host.Outcome State Fault Refusal :=
  .next (regOne (codeOf (.xori hd d a i)) hd d a (fun a => a ^^^ sx i) s)

/-- SLTI (R242). -/
def execSlti (hd : Head) (d a : Reg) (i : BitVec 12) (s : State) : Host.Outcome State Fault Refusal :=
  .next (regOne (codeOf (.slti hd d a i)) hd d a (fun a => bool64 (a.slt (sx i))) s)

/-- SLTIU (R242). -/
def execSltiu (hd : Head) (d a : Reg) (i : BitVec 12) (s : State) : Host.Outcome State Fault Refusal :=
  .next (regOne (codeOf (.sltiu hd d a i)) hd d a (fun a => bool64 (a.ult (sx i))) s)

/-- SLLI (R242). -/
def execSlli (hd : Head) (d a : Reg) (n : BitVec 6) (s : State) : Host.Outcome State Fault Refusal :=
  .next (regOne (codeOf (.slli hd d a n)) hd d a (fun a => a <<< n.toNat) s)

/-- SRLI (R242). -/
def execSrli (hd : Head) (d a : Reg) (n : BitVec 6) (s : State) : Host.Outcome State Fault Refusal :=
  .next (regOne (codeOf (.srli hd d a n)) hd d a (fun a => a >>> n.toNat) s)

/-- SRAI (R242). -/
def execSrai (hd : Head) (d a : Reg) (n : BitVec 6) (s : State) : Host.Outcome State Fault Refusal :=
  .next (regOne (codeOf (.srai hd d a n)) hd d a (fun a => a.sshiftRight n.toNat) s)

/-- RORI (R242). -/
def execRori (hd : Head) (d a : Reg) (n : BitVec 6) (s : State) : Host.Outcome State Fault Refusal :=
  .next (regOne (codeOf (.rori hd d a n)) hd d a (fun a => a.rotateRight n.toNat) s)

/-- LHI (R243). -/
def execLhi (hd : Head) (d : Reg) (i : BitVec 17) (s : State) : Host.Outcome State Fault Refusal :=
  .next (regNone (codeOf (.lhi hd d i)) hd d (fun _ => sx i <<< 12) s)

/-- ADDPC (R243). -/
def execAddpc (hd : Head) (d : Reg) (i : BitVec 17) (s : State) : Host.Outcome State Fault Refusal :=
  .next (regNone (codeOf (.addpc hd d i)) hd d (fun pc => pc + (sx i <<< 12)) s)

/-! ### Multiplication and division (R245) -/

/-- MUL (R245). -/
def execMul (hd : Head) (d a b : Reg) (s : State) : Host.Outcome State Fault Refusal :=
  .next (regReg (codeOf (.mul hd d a b)) hd d a b (fun a b => a * b) s)

/-- MULH (R245). -/
def execMulh (hd : Head) (d a b : Reg) (s : State) : Host.Outcome State Fault Refusal :=
  .next (regReg (codeOf (.mulh hd d a b)) hd d a b (fun a b => high64 (a.toInt * b.toInt)) s)

/-- MULHU (R245). -/
def execMulhu (hd : Head) (d a b : Reg) (s : State) : Host.Outcome State Fault Refusal :=
  .next (regReg (codeOf (.mulhu hd d a b)) hd d a b (fun a b => high64 (a.toNat * b.toNat : Nat)) s)

/-- MULHSU (R245). -/
def execMulhsu (hd : Head) (d a b : Reg) (s : State) : Host.Outcome State Fault Refusal :=
  .next (regReg (codeOf (.mulhsu hd d a b)) hd d a b (fun a b => high64 (a.toInt * (b.toNat : Int))) s)

/-- DIV (R245). -/
def execDiv (hd : Head) (d a b : Reg) (s : State) : Host.Outcome State Fault Refusal :=
  .next (regReg (codeOf (.div hd d a b)) hd d a b (fun a b => divVal a b) s)

/-- DIVU (R245). -/
def execDivu (hd : Head) (d a b : Reg) (s : State) : Host.Outcome State Fault Refusal :=
  .next (regReg (codeOf (.divu hd d a b)) hd d a b (fun a b => divuVal a b) s)

/-- REM (R245). -/
def execRem (hd : Head) (d a b : Reg) (s : State) : Host.Outcome State Fault Refusal :=
  .next (regReg (codeOf (.rem hd d a b)) hd d a b (fun a b => remVal a b) s)

/-- REMU (R245). -/
def execRemu (hd : Head) (d a b : Reg) (s : State) : Host.Outcome State Fault Refusal :=
  .next (regReg (codeOf (.remu hd d a b)) hd d a b (fun a b => remuVal a b) s)

/-- MULW (R245). -/
def execMulw (hd : Head) (d a b : Reg) (s : State) : Host.Outcome State Fault Refusal :=
  .next (regReg (codeOf (.mulw hd d a b)) hd d a b (fun a b => sext32 (a * b)) s)

/-! ### Bit manipulation (R246 to R248) -/

/-- CLZ (R246). -/
def execClz (hd : Head) (d a : Reg) (s : State) : Host.Outcome State Fault Refusal :=
  .next (regOne (codeOf (.clz hd d a)) hd d a (fun a => BitVec.ofNat 64 (clzBits a.toNat 64)) s)

/-- CTZ (R246). -/
def execCtz (hd : Head) (d a : Reg) (s : State) : Host.Outcome State Fault Refusal :=
  .next (regOne (codeOf (.ctz hd d a)) hd d a (fun a => BitVec.ofNat 64 (ctzFrom a.toNat 0 64)) s)

/-- POPC (R246). -/
def execPopc (hd : Head) (d a : Reg) (s : State) : Host.Outcome State Fault Refusal :=
  .next (regOne (codeOf (.popc hd d a)) hd d a (fun a => BitVec.ofNat 64 (popBits a.toNat 64)) s)

/-- BREV (R246). -/
def execBrev (hd : Head) (d a : Reg) (s : State) : Host.Outcome State Fault Refusal :=
  .next (regOne (codeOf (.brev hd d a)) hd d a (fun a => BitVec.ofNat 64 (brevBits a.toNat 63 64)) s)

/-- BSWAP (R246). -/
def execBswap (hd : Head) (d a : Reg) (s : State) : Host.Outcome State Fault Refusal :=
  .next (regOne (codeOf (.bswap hd d a)) hd d a (fun a => bswapVal a) s)

/-- SEXTB (R246). -/
def execSextb (hd : Head) (d a : Reg) (s : State) : Host.Outcome State Fault Refusal :=
  .next (regOne (codeOf (.sextb hd d a)) hd d a (fun a => (a.setWidth 8).signExtend 64) s)

/-- SEXTH (R246). -/
def execSexth (hd : Head) (d a : Reg) (s : State) : Host.Outcome State Fault Refusal :=
  .next (regOne (codeOf (.sexth hd d a)) hd d a (fun a => (a.setWidth 16).signExtend 64) s)

/-- SEXTW (R246). -/
def execSextw (hd : Head) (d a : Reg) (s : State) : Host.Outcome State Fault Refusal :=
  .next (regOne (codeOf (.sextw hd d a)) hd d a (fun a => sext32 a) s)

/-- ZEXTW (R246). -/
def execZextw (hd : Head) (d a : Reg) (s : State) : Host.Outcome State Fault Refusal :=
  .next (regOne (codeOf (.zextw hd d a)) hd d a (fun a => zx (a.setWidth 32)) s)

/-- CLMUL (R246, R247). -/
def execClmul (hd : Head) (d a b : Reg) (s : State) : Host.Outcome State Fault Refusal :=
  .next (regReg (codeOf (.clmul hd d a b)) hd d a b (fun a b => BitVec.ofNat 64 (clmul128 a b)) s)

/-- CLMULH (R246, R247). -/
def execClmulh (hd : Head) (d a b : Reg) (s : State) : Host.Outcome State Fault Refusal :=
  .next (regReg (codeOf (.clmulh hd d a b)) hd d a b (fun a b => BitVec.ofNat 64 (clmul128 a b / 2 ^ 64)) s)

/-- CLMULR (R246, R247). -/
def execClmulr (hd : Head) (d a b : Reg) (s : State) : Host.Outcome State Fault Refusal :=
  .next (regReg (codeOf (.clmulr hd d a b)) hd d a b (fun a b => BitVec.ofNat 64 (clmul128 a b / 2 ^ 63)) s)

/-- BFX (R248). -/
def execBfx (hd : Head) (d a b : Reg) (s : State) : Host.Outcome State Fault Refusal :=
  .next (regReg (codeOf (.bfx hd d a b)) hd d a b bfxVal s)

/-- BFI (R248): rd is a source too. -/
def execBfi (hd : Head) (d a b : Reg) (s : State) : Host.Outcome State Fault Refusal :=
  .next (regRegRd (codeOf (.bfi hd d a b)) hd d a b bfiVal s)

/-- LI32 (R224, R244): with rs1 = x0 the sign-extended immediate, otherwise a shifted left by 32 with the immediate below. -/
def execLi32 (hd : Head) (d a : Reg) (imm : BitVec 32) (s : State) : Host.Outcome State Fault Refusal :=
  .next (regOne (codeLi32 hd d a imm) hd d a (fun v => if a = 0 then sx imm else (v <<< 32) ||| zx imm) s)

end Sys2Proof.Machine
end

