-- ==== Sys2Proof/Machine/Vector.lean ====
section
/-! DEFINITION. Sys2Proof/Machine/Vector.lean: the vector instructions (R297 to R320): lanes, the issue of a vector instruction in the
private unit or the long vector unit (R175), lane arithmetic, VDOT, conversions, reductions, memory accesses, permutations,
sorting and merging. A vector register's value is a natural number whose bits are the register's. -/

namespace Sys2Proof.Machine

/-! ### Types and registers -/

/-- Lane width of a vector type code (R223). -/
def laneW (t : BitVec 3) : Nat :=
  match t.toNat with
  | 0 | 5 => 32
  | 1 | 2 | 4 => 16
  | 3 => 8
  | _ => 64

/-- A float type: .f32, .bf16, .f16 (R304). -/
def isF (t : BitVec 3) : Bool := decide (t.toNat < 3)

/-- An integer type (R304). -/
def isI (t : BitVec 3) : Bool := !isF t

/-- The float format of a float type (R223). -/
def vfmt (t : BitVec 3) : Fmt := if t = 0 then Fmt.f32 else if t = 1 then Fmt.bf16 else Fmt.f16

/-- A lane of an integer type as the number it stands for: .n64 is unsigned (R304). -/
def vint (t : BitVec 3) (x : Nat) : Int := if t = 7 then (x : Int) else signedOf (laneW t) x

/-- The range of an integer type. -/
def vrange (t : BitVec 3) : Int × Int :=
  if t = 7 then (0, (2 : Int) ^ 64 - 1) else (-(2 : Int) ^ (laneW t - 1), (2 : Int) ^ (laneW t - 1) - 1)

/-- A number written modulo 2^W into a lane. -/
def wrapLane (w : Nat) (k : Int) : Nat := (k % (2 : Int) ^ w).toNat

/-- A number clamped to a type's range and written into a lane. -/
def clampLane (t : BitVec 3) (k : Int) : Nat := wrapLane (laneW t) (max (vrange t).1 (min k (vrange t).2))

/-- Bits of a vector register of the core's mode (R173). -/
def State.vbits (s : State) : Nat := if s.long then 16384 else 256

/-- The value of a vector register of the core's mode (R220). -/
def State.vval (s : State) (r : Reg) : Nat := if s.long then ((s.core s.myCore).rw r).toNat else (s.me.rv r).toNat

/-- A vector register of the core's mode written, and full. -/
def State.wvec (s : State) (r : Reg) (v : Nat) : State :=
  if s.long then s.modCore s.myCore (fun c => c.ww r (BitVec.ofNat 16384 v)) else s.modMe (fun h => h.wv r (BitVec.ofNat 256 v))

/-- The lanes of a vector register. -/
def State.lanes (s : State) (w : Nat) (r : Reg) : List Nat := lanesOf w (s.vbits / w) (s.vval r)

/-- The environment of ordinary vector arithmetic: VCSR.RM and VCSR.FTZ (R205, R300). -/
def State.vEnv (s : State) : FEnv := { csrEnv s.me.csr.vcsr with sat := false }

/-! ### Issue -/

/-- A vector instruction (R175, R184, R298, R319): a thread issues it, on registers that the core's mode has; in long mode the
unit of the cluster takes it before it runs. own is the check that its class makes before its registers. -/
def vecIssueOwn (ik : Code) (hd : Head) (legal : Bool) (own : Option (BitVec 8)) (mem : Bool) (xs vs dsts : List RegRef)
    (named : List Reg) (body : State → State) (s : State) : State :=
  let cl := clusterOf s.myCore
  let mine := (s.cluster cl).lvuNow == some s.cur
  let s := if mine then s.modCluster cl (fun c => { c with lvuNow := none }) else s
  issueOwn ik hd 0 (s.noCtx && legal && named.all s.vregOk) own (xs ++ vs) dsts (fun s =>
    if mem && s.me.acqWait then stall s
    else if !s.long || mine then body s
    else stallAt hd .lvu false (s.modCluster cl (fun c => { c with lvuQ := if c.lvuQ.contains s.cur then c.lvuQ else c.lvuQ ++ [s.cur] }))) s

/-- A vector instruction whose class makes no check of its own. -/
def vecIssue (ik : Code) (hd : Head) (legal mem : Bool) (xs vs dsts : List RegRef) (named : List Reg) (body : State → State)
    (s : State) : State := vecIssueOwn ik hd legal none mem xs vs dsts named body s

/-- vd and the flags of VCSR written, and the instruction completed. -/
def writeV (ik : Code) (hd : Head) (d : Reg) (v : Nat) (f : Flags) (s : State) : State := finish ik hd (addVcsr f (s.wvec d v))

/-- Lanes with the flags that each raised, put together. -/
def gather (w : Nat) (rs : List (Nat × Flags)) : Nat × Flags := (packLanes w (rs.map (·.1)), rs.foldl (fun f r => f ||| r.2) 0)

/-- vd := f applied lane by lane to vs1 and vs2. -/
def vec2 (ik : Code) (hd : Head) (d a b : Reg) (t : BitVec 3) (legal : Bool) (f : FEnv → Nat → Nat → Nat × Flags) (s : State) :
    State :=
  vecIssue ik hd legal false [] [.v a, .v b] [.v d] [d, a, b] (fun s =>
    let r := gather (laneW t) (List.zipWith (f s.vEnv) (s.lanes (laneW t) a) (s.lanes (laneW t) b))
    writeV ik hd d r.1 r.2 s) s

/-- vd := f applied lane by lane to vs1, vs2 and vd on entry. -/
def vec3 (ik : Code) (hd : Head) (d a b : Reg) (t : BitVec 3) (legal : Bool) (f : FEnv → Nat → Nat → Nat → Nat × Flags)
    (s : State) : State :=
  vecIssue ik hd legal false [] [.v a, .v b, .v d] [.v d] [d, a, b] (fun s =>
    let w := laneW t
    let r := gather w (List.zipWith (fun (p : Nat × Nat) z => f s.vEnv p.1 p.2 z) ((s.lanes w a).zip (s.lanes w b)) (s.lanes w d))
    writeV ik hd d r.1 r.2 s) s

/-- vd := f applied lane by lane to vs1. -/
def vec1 (ik : Code) (hd : Head) (d a : Reg) (t : BitVec 3) (legal : Bool) (f : FEnv → Nat → Nat × Flags) (s : State) : State :=
  vecIssue ik hd legal false [] [.v a] [.v d] [d, a] (fun s =>
    let r := gather (laneW t) ((s.lanes (laneW t) a).map (f s.vEnv))
    writeV ik hd d r.1 r.2 s) s

/-- vd := f of all lanes of vs1. -/
def vecAll1 (ik : Code) (hd : Head) (d a : Reg) (w : Nat) (legal : Bool) (f : FEnv → List Nat → List Nat × Flags) (s : State) :
    State :=
  vecIssue ik hd legal false [] [.v a] [.v d] [d, a] (fun s =>
    let r := f s.vEnv (s.lanes w a)
    writeV ik hd d (packLanes w r.1) r.2 s) s

/-- vd := f of all lanes of vs1 and vs2, with no flag. -/
def vecAll2 (ik : Code) (hd : Head) (d a b : Reg) (w : Nat) (legal : Bool) (f : List Nat → List Nat → List Nat) (s : State) :
    State :=
  vecIssue ik hd legal false [] [.v a, .v b] [.v d] [d, a, b] (fun s =>
    writeV ik hd d (packLanes w (f (s.lanes w a) (s.lanes w b))) 0 s) s

/-! ### Lane functions -/

/-- A lane function of F and I types: a float operation of the type's format, or an exact integer result modulo 2^W. -/
def laneFI (t : BitVec 3) (ff : Fmt → FEnv → Nat → Nat → Nat × Flags) (fi : Int → Int → Int) (v : FEnv) (x y : Nat) : Nat × Flags :=
  if isF t then ff (vfmt t) v x y else (wrapLane (laneW t) (fi (vint t x) (vint t y)), 0)

/-- A lane function of raw bits. -/
def laneBits (f : Nat → Nat → Nat) (_ : FEnv) (x y : Nat) : Nat × Flags := (f x y, 0)

/-- All ones or all zeros. -/
def laneMask (t : BitVec 3) (b : Bool) : Nat := if b then 2 ^ laneW t - 1 else 0

/-- A comparison of F and I types (R305). -/
def laneCmp (t : BitVec 3) (ff : Fmt → FEnv → Nat → Nat → Bool × Flags) (fi : Int → Int → Bool) (v : FEnv) (x y : Nat) : Nat × Flags :=
  if isF t then (laneMask t (ff (vfmt t) v x y).1, (ff (vfmt t) v x y).2) else (laneMask t (fi (vint t x) (vint t y)), 0)

/-! ### VA (R304) -/

/-- VADD (R304). -/
def execVadd (hd : Head) (d a b : Reg) (t : BitVec 3) (s : State) : Host.Outcome State Fault Refusal :=
  .next (vec2 (codeOf (.vadd hd d a b t)) hd d a b t true (laneFI t Fmt.add (· + ·)) s)

/-- VSUB (R304). -/
def execVsub (hd : Head) (d a b : Reg) (t : BitVec 3) (s : State) : Host.Outcome State Fault Refusal :=
  .next (vec2 (codeOf (.vsub hd d a b t)) hd d a b t true (laneFI t Fmt.sub (· - ·)) s)

/-- VMUL (R304). -/
def execVmul (hd : Head) (d a b : Reg) (t : BitVec 3) (s : State) : Host.Outcome State Fault Refusal :=
  .next (vec2 (codeOf (.vmul hd d a b t)) hd d a b t true (laneFI t Fmt.mul (· * ·)) s)

/-- VMIN (R302, R304). -/
def execVmin (hd : Head) (d a b : Reg) (t : BitVec 3) (s : State) : Host.Outcome State Fault Refusal :=
  .next (vec2 (codeOf (.vmin hd d a b t)) hd d a b t true (laneFI t (fun f v => f.minmax v false) (fun x y => min x y)) s)

/-- VMAX (R302, R304). -/
def execVmax (hd : Head) (d a b : Reg) (t : BitVec 3) (s : State) : Host.Outcome State Fault Refusal :=
  .next (vec2 (codeOf (.vmax hd d a b t)) hd d a b t true (laneFI t (fun f v => f.minmax v true) (fun x y => max x y)) s)

/-- VABSD (R304). -/
def execVabsd (hd : Head) (d a b : Reg) (t : BitVec 3) (s : State) : Host.Outcome State Fault Refusal :=
  .next (vec2 (codeOf (.vabsd hd d a b t)) hd d a b t true (laneFI t Fmt.absd (fun x y => ((x - y).natAbs : Int))) s)

/-- VAND (R304). -/
def execVand (hd : Head) (d a b : Reg) (t : BitVec 3) (s : State) : Host.Outcome State Fault Refusal :=
  .next (vec2 (codeOf (.vand hd d a b t)) hd d a b t true (laneBits (· &&& ·)) s)

/-- VOR (R304). -/
def execVor (hd : Head) (d a b : Reg) (t : BitVec 3) (s : State) : Host.Outcome State Fault Refusal :=
  .next (vec2 (codeOf (.vor hd d a b t)) hd d a b t true (laneBits (· ||| ·)) s)

/-- VXOR (R304). -/
def execVxor (hd : Head) (d a b : Reg) (t : BitVec 3) (s : State) : Host.Outcome State Fault Refusal :=
  .next (vec2 (codeOf (.vxor hd d a b t)) hd d a b t true (laneBits (· ^^^ ·)) s)

/-- VSHL (R304). -/
def execVshl (hd : Head) (d a b : Reg) (t : BitVec 3) (s : State) : Host.Outcome State Fault Refusal :=
  .next (vec2 (codeOf (.vshl hd d a b t)) hd d a b t (isI t) (laneBits (fun x y => x * 2 ^ (y % laneW t) % 2 ^ laneW t)) s)

/-- VSHR (R304). -/
def execVshr (hd : Head) (d a b : Reg) (t : BitVec 3) (s : State) : Host.Outcome State Fault Refusal :=
  .next (vec2 (codeOf (.vshr hd d a b t)) hd d a b t (isI t) (laneBits (fun x y => x / 2 ^ (y % laneW t))) s)

/-- VSRA (R304): sign fill, .n64 included. -/
def execVsra (hd : Head) (d a b : Reg) (t : BitVec 3) (s : State) : Host.Outcome State Fault Refusal :=
  .next (vec2 (codeOf (.vsra hd d a b t)) hd d a b t (isI t)
    (laneBits (fun x y => wrapLane (laneW t) (signedOf (laneW t) x / (2 : Int) ^ (y % laneW t)))) s)

/-- VADDS (R304). -/
def execVadds (hd : Head) (d a b : Reg) (t : BitVec 3) (s : State) : Host.Outcome State Fault Refusal :=
  .next (vec2 (codeOf (.vadds hd d a b t)) hd d a b t (isI t) (laneBits (fun x y => clampLane t (vint t x + vint t y))) s)

/-- VSUBS (R304). -/
def execVsubs (hd : Head) (d a b : Reg) (t : BitVec 3) (s : State) : Host.Outcome State Fault Refusal :=
  .next (vec2 (codeOf (.vsubs hd d a b t)) hd d a b t (isI t) (laneBits (fun x y => clampLane t (vint t x - vint t y))) s)

/-- VMULH (R304). -/
def execVmulh (hd : Head) (d a b : Reg) (t : BitVec 3) (s : State) : Host.Outcome State Fault Refusal :=
  .next (vec2 (codeOf (.vmulh hd d a b t)) hd d a b t (isI t)
    (laneBits (fun x y => wrapLane (laneW t) (vint t x * vint t y / (2 : Int) ^ laneW t))) s)

/-- VAVG (R304). -/
def execVavg (hd : Head) (d a b : Reg) (t : BitVec 3) (s : State) : Host.Outcome State Fault Refusal :=
  .next (vec2 (codeOf (.vavg hd d a b t)) hd d a b t true (laneFI t Fmt.avg (fun x y => (x + y + 1) / 2)) s)

/-! ### VC (R305) -/

/-- VCEQ (R305). -/
def execVceq (hd : Head) (d a b : Reg) (t : BitVec 3) (s : State) : Host.Outcome State Fault Refusal :=
  .next (vec2 (codeOf (.vceq hd d a b t)) hd d a b t true (laneCmp t Fmt.eq (fun x y => x == y)) s)

/-- VCLT (R305). -/
def execVclt (hd : Head) (d a b : Reg) (t : BitVec 3) (s : State) : Host.Outcome State Fault Refusal :=
  .next (vec2 (codeOf (.vclt hd d a b t)) hd d a b t true (laneCmp t Fmt.lt (fun x y => decide (x < y))) s)

/-- VCLE (R305). -/
def execVcle (hd : Head) (d a b : Reg) (t : BitVec 3) (s : State) : Host.Outcome State Fault Refusal :=
  .next (vec2 (codeOf (.vcle hd d a b t)) hd d a b t true (laneCmp t Fmt.le (fun x y => decide (x ≤ y))) s)

/-- VCLTU (R305). -/
def execVcltu (hd : Head) (d a b : Reg) (t : BitVec 3) (s : State) : Host.Outcome State Fault Refusal :=
  .next (vec2 (codeOf (.vcltu hd d a b t)) hd d a b t (isI t) (laneBits (fun x y => laneMask t (decide (x < y)))) s)

/-- VSEL (R305). -/
def execVsel (hd : Head) (d a b : Reg) (t : BitVec 3) (s : State) : Host.Outcome State Fault Refusal :=
  .next (vec3 (codeOf (.vsel hd d a b t)) hd d a b t true
    (fun _ x y z => ((z &&& x) ||| ((2 ^ laneW t - 1 - z) &&& y), 0)) s)

/-- VFMA (R305). -/
def execVfma (hd : Head) (d a b : Reg) (t : BitVec 3) (s : State) : Host.Outcome State Fault Refusal :=
  .next (vec3 (codeOf (.vfma hd d a b t)) hd d a b t true (fun v x y z =>
    if isF t then (vfmt t).fma v v.zeroNeg false false x y z else (wrapLane (laneW t) ((z + x * y : Nat) : Int), 0)) s)

/-- VFMS (R305). -/
def execVfms (hd : Head) (d a b : Reg) (t : BitVec 3) (s : State) : Host.Outcome State Fault Refusal :=
  .next (vec3 (codeOf (.vfms hd d a b t)) hd d a b t true (fun v x y z =>
    if isF t then (vfmt t).fma v v.zeroNeg true false x y z else (wrapLane (laneW t) ((z : Int) - (x * y : Nat)), 0)) s)

/-- VCLMUL (R305). -/
def execVclmul (hd : Head) (d a b : Reg) (t : BitVec 3) (s : State) : Host.Outcome State Fault Refusal :=
  .next (vec2 (codeOf (.vclmul hd d a b t)) hd d a b t (decide (6 ≤ t.toNat)) (laneBits (fun x y => clmulBits x y 64 % 2 ^ 64)) s)

/-- VCLMULH (R305). -/
def execVclmulh (hd : Head) (d a b : Reg) (t : BitVec 3) (s : State) : Host.Outcome State Fault Refusal :=
  .next (vec2 (codeOf (.vclmulh hd d a b t)) hd d a b t (decide (6 ≤ t.toNat)) (laneBits (fun x y => clmulBits x y 64 / 2 ^ 64)) s)

/-- VRCPS (R213). -/
def execVrcps (hd : Head) (d a b : Reg) (s : State) : Host.Outcome State Fault Refusal :=
  .next (vec2 (codeOf (.vrcps hd d a b)) hd d a b 0 true vrcps32 s)

/-- VRSQS (R213). -/
def execVrsqs (hd : Head) (d a b : Reg) (s : State) : Host.Outcome State Fault Refusal :=
  .next (vec2 (codeOf (.vrsqs hd d a b)) hd d a b 0 true vrsqs32 s)

/-! ### VDOT (R306, R307) -/

/-- Operand format of a pair code (R306). -/
def dotFmt (p : BitVec 3) : Nat :=
  match p.toNat with
  | 0 => 7
  | 1 => 4
  | 2 => 5
  | 3 => 8
  | 4 => 2
  | 5 => 3
  | 6 => 10
  | _ => 13

/-- Whether a pair code is scaled (R307). -/
def dotScaled (p : BitVec 3) : Bool := decide (4 ≤ p.toNat)

/-- The registers of an operand group (R307). -/
def dotGroup (long : Bool) (r : Reg) : List Reg := if long then [r] else [r, r + 1, r + 2, r + 3]

/-- A breach of the register rules of R307 (DEDUCED, unsafe; log 74). -/
def dotBad (long : Bool) (d a b : Reg) (p : BitVec 3) : Bool :=
  (!long && (decide (a.toNat % 4 ≠ 0) || decide (b.toNat % 4 ≠ 0))) || (dotScaled p && decide (d.toNat % 2 ≠ 0))

/-- VDOT's accumulators, block by block (R307). -/
def dotLanes (v : FEnv) (f : Nat) (rule : PairRule) (half : Nat) (scaled : Bool) (g : Nat) (x y : Nat) (acc scales : List Nat) :
    List (Nat × Flags) :=
  let n := elemBits f * 128
  acc.zipIdx.map (fun (z, j) =>
    if j < g then
      let bs := blockSum v rule f f (lanesOf (elemBits f) 128 (bits x (j * n) n)) (lanesOf (elemBits f) 128 (bits y (j * n) n))
      let sc (k : Nat) : Nat := if scaled then scales.getD k 0 else 0x3F800000
      promote v rule z bs (sc j) (sc (half + j))
    else (z, 0))

/-- VDOT (R306, R307). -/
def execVdot (hd : Head) (d a b : Reg) (p : BitVec 3) (s : State) : Host.Outcome State Fault Refusal :=
  let ik := codeOf (.vdot hd d a b p)
  let named := dotGroup s.long a ++ dotGroup s.long b ++ (if dotScaled p then [d, d + 1] else [d])
  .next (
    if dotBad s.long d a b p then trapInstr 0x02 ik s
    else vecIssue ik hd (s.long || decide (3 ≤ p.toNat)) false [] (named.map RegRef.v) [.v d] named (fun s =>
      let f := dotFmt p
      let v : FEnv := ⟨0, wbit s.me.csr.vcsr 8, wbit s.me.csr.vcsr 11⟩
      let grp (r : Reg) : Nat := packLanes s.vbits ((dotGroup s.long r).map s.vval)
      let size := (dotGroup s.long a).length * s.vbits
      let rule := if p = 3 then PairRule.int32 else if p = 6 ∨ p = 7 then .intFloat else if p = 4 ∨ p = 5 then .fixed else .sequential
      let r := gather 32 (dotLanes v f rule (s.vbits / 64) (dotScaled p) (size / (elemBits f * 128)) (grp a) (grp b)
        (s.lanes 32 d) (if dotScaled p then s.lanes 32 (d + 1) else []))
      writeV ik hd d r.1 r.2 s) s)

/-! ### VU (R308 to R311) -/

/-- VRCP (R212). -/
def execVrcp (hd : Head) (d a : Reg) (s : State) : Host.Outcome State Fault Refusal :=
  .next (vec1 (codeOf (.vrcp hd d a)) hd d a 0 true vrcp32 s)

/-- VRSQ (R212). -/
def execVrsq (hd : Head) (d a : Reg) (s : State) : Host.Outcome State Fault Refusal :=
  .next (vec1 (codeOf (.vrsq hd d a)) hd d a 0 true vrsq32 s)

/-- VEXP2 (R211). -/
def execVexp2 (hd : Head) (d a : Reg) (s : State) : Host.Outcome State Fault Refusal :=
  .next (vec1 (codeOf (.vexp2 hd d a)) hd d a 0 true vexp2 s)

/-- VLOG2 (R211). -/
def execVlog2 (hd : Head) (d a : Reg) (s : State) : Host.Outcome State Fault Refusal :=
  .next (vec1 (codeOf (.vlog2 hd d a)) hd d a 0 true vlog2 s)

/-- VSQRT (R308). -/
def execVsqrt (hd : Head) (d a : Reg) (t : BitVec 3) (s : State) : Host.Outcome State Fault Refusal :=
  .next (vec1 (codeOf (.vsqrt hd d a t)) hd d a t (isF t) (fun v x => (vfmt t).sqrt v x) s)

/-- VABS (R308): the sign bit cleared, or the absolute value modulo 2^W. -/
def execVabs (hd : Head) (d a : Reg) (t : BitVec 3) (s : State) : Host.Outcome State Fault Refusal :=
  .next (vec1 (codeOf (.vabs hd d a t)) hd d a t true (fun _ x =>
    (if isF t then x % 2 ^ (laneW t - 1) else wrapLane (laneW t) (vint t x).natAbs, 0)) s)

/-- VNEG (R308): the sign bit inverted, or the negative modulo 2^W. -/
def execVneg (hd : Head) (d a : Reg) (t : BitVec 3) (s : State) : Host.Outcome State Fault Refusal :=
  .next (vec1 (codeOf (.vneg hd d a t)) hd d a t true (fun _ x =>
    (if isF t then x ^^^ 2 ^ (laneW t - 1) else wrapLane (laneW t) (-(x : Int)), 0)) s)

/-- VPOPC (R308). -/
def execVpopc (hd : Head) (d a : Reg) (t : BitVec 3) (s : State) : Host.Outcome State Fault Refusal :=
  .next (vec1 (codeOf (.vpopc hd d a t)) hd d a t (isI t) (fun _ x => ((lanesOf 1 (laneW t) x).foldl (· + ·) 0, 0)) s)

/-- VCLZ (R308). -/
def execVclz (hd : Head) (d a : Reg) (t : BitVec 3) (s : State) : Host.Outcome State Fault Refusal :=
  .next (vec1 (codeOf (.vclz hd d a t)) hd d a t (isI t) (fun _ x => (laneW t - bitLen x, 0)) s)

/-- One conversion of R310 between unlike types. -/
def convLane (g t : BitVec 3) (v : FEnv) (x : Nat) : Nat × Flags :=
  if isF g then
    if isF t then convFloat (vfmt g) (vfmt t) v x
    else
      let r := convToInt (vfmt g) v (vrange t).1 (vrange t).2 x
      (wrapLane (laneW t) r.1, r.2)
  else if isF t then convFromInt (vfmt t) v (vint g x)
  else if laneW g ≤ laneW t then (wrapLane (laneW t) (vint g x), 0)
  else (clampLane t (vint g x), 0)

/-- The conversion that a pair of type codes names: source and destination lane widths and the function (R310, R311). -/
def convOf (g t : BitVec 3) : Nat × Nat × (FEnv → Nat → Nat × Flags) :=
  if g = t then
    match g.toNat with
    | 0 => (32, 8, convFloat Fmt.f32 Fmt.e4m3)
    | 1 => (32, 8, convFloat Fmt.f32 Fmt.e5m2)
    | 2 => (8, 32, convFloat Fmt.e4m3 Fmt.f32)
    | _ => (8, 32, convFloat Fmt.e5m2 Fmt.f32)
  else (laneW g, laneW t, convLane g t)

/-- VCVT (R310, R311): the type field t holds the source type, the subop the destination type g. Converted lanes fill the low
lanes of vd, the rest is zero; a widening converts as many as vd holds. -/
def execVcvt (hd : Head) (d a : Reg) (g t : BitVec 3) (s : State) : Host.Outcome State Fault Refusal :=
  let ik := codeOf (.vcvt hd d a g t)
  .next (vecIssue ik hd (g != t || decide (g.toNat < 4)) false [] [.v a] [.v d] [d, a] (fun s =>
    let (ws, wt, f) := convOf t g
    let r := gather wt (((s.lanes ws a).take (s.vbits / wt)).map (f (csrEnv s.me.csr.vcsr)))
    writeV ik hd d r.1 r.2 s) s)

/-- Neighbours combined in pairs. -/
def pairUp (f : Nat → Nat → Nat × Flags) (l : List Nat) : List (Nat × Flags) :=
  match l with
  | x :: y :: r => f x y :: pairUp f r
  | [x] => [(x, 0)]
  | [] => []

/-- The fixed tree of R309, n levels deep. -/
def treeSum (f : Nat → Nat → Nat × Flags) (l : List Nat) (n : Nat) : Nat × Flags :=
  match n with
  | 0 => (l.headD 0, 0)
  | k + 1 =>
    let r := pairUp f l
    let u := treeSum f (r.map (·.1)) k
    (u.1, r.foldl (fun g p => g ||| p.2) u.2)

/-- A reduction's result: lane 0, zero in the others (R309). -/
def reduced (n : Nat) (r : Nat × Flags) : List Nat × Flags := (r.1 :: List.replicate (n - 1) 0, r.2)

/-- All lanes taken one after another. -/
def foldLanes (f : Nat → Nat → Nat × Flags) (l : List Nat) : Nat × Flags :=
  match l with
  | [] => (0, 0)
  | x :: r => r.foldl (fun (t : Nat × Flags) y => ((f t.1 y).1, t.2 ||| (f t.1 y).2)) (x, 0)

/-- VREDADD (R309). -/
def execVredadd (hd : Head) (d a : Reg) (t : BitVec 3) (s : State) : Host.Outcome State Fault Refusal :=
  .next (vecAll1 (codeOf (.vredadd hd d a t)) hd d a (laneW t) true (fun v l =>
    reduced l.length (treeSum (laneFI t Fmt.add (· + ·) v) l (Nat.log2 l.length))) s)

/-- VREDMAX (R302, R309). -/
def execVredmax (hd : Head) (d a : Reg) (t : BitVec 3) (s : State) : Host.Outcome State Fault Refusal :=
  .next (vecAll1 (codeOf (.vredmax hd d a t)) hd d a (laneW t) true (fun v l =>
    reduced l.length (foldLanes (laneFI t (fun f v => f.minmax v true) (fun x y => max x y) v) l)) s)

/-- VREDMIN (R302, R309). -/
def execVredmin (hd : Head) (d a : Reg) (t : BitVec 3) (s : State) : Host.Outcome State Fault Refusal :=
  .next (vecAll1 (codeOf (.vredmin hd d a t)) hd d a (laneW t) true (fun v l =>
    reduced l.length (foldLanes (laneFI t (fun f v => f.minmax v false) (fun x y => min x y) v) l)) s)

/-! ### VM (R312 to R314) -/

/-- A part of the MMIO window by its 8-byte registers, any other part whole. -/
def splitMmio (pa n : Nat) : List (Nat × Nat) :=
  if region pa = 4 ∧ 8 < n then (List.range (n / 8)).map (fun k => (pa + 8 * k, 8)) else [(pa, n)]

/-- A vector load of parts of n bytes at some addresses (R298, R312, R313): every part is checked before any is read
(DEDUCED, unsafe; log 73). One whose bytes the store buffer holds in part waits at its issue (R135) (DEDUCED, safe; log 109). -/
def vecLoad (ik : Code) (hd : Head) (dst : LoadDst) (acc : Acc) (align n : Nat) (vas : List Word) (s : State) : State :=
  match s.accessAll (.instr s.cur) acc align vas with
  | (s, r) =>
    if r.walk then stall s
    else match worstFault r.faults with
    | some (c, va) => trapVal c va s
    | none =>
      let ps := vas.zip (r.xs.map (·.pa))
      let parts := ps.flatMap (fun p => splitMmio p.2 n)
      match ps.find? (fun p => (splitMmio p.2 n).any (fun q => mmioHole q.1)) with
      | some (va, _) => trapVal 0x05 va s
      | none =>
        match forwardAll s.me.busy.sb parts with
        | .part => stall s
        | .all _ => finish ik hd (s.startLoad s.cur dst parts s.long false)
        | .none =>
          match ps.findSome? (fun p => (s.badWord p.2 n).map (fun w => (w, p.1))) with
          | some (w, va) => trapUncorr w va s
          | none => finish ik hd (s.startLoad s.cur dst parts s.long false)

/-- The destination of a vector load in the core's mode. -/
def State.loadDst (s : State) (d : Reg) : LoadDst := if s.long then .w d else .v d

/-- The addresses of the pieces of a whole register: 32 bytes, or 2,048 in lines of 64 (R312). -/
def State.pieces (s : State) (va : Word) : Nat × List Word :=
  if s.long then (64, (List.range 32).map (fun k => va + BitVec.ofNat 64 (64 * k))) else (32, [va])

/-- VLD (R312). -/
def execVld (hd : Head) (d a : Reg) (s : State) : Host.Outcome State Fault Refusal :=
  let ik := codeOf (.vld hd d a)
  .next (vecIssue ik hd true true [.x a] [] [.v d] [d] (fun s =>
    let p := s.pieces (s.rx a)
    if (s.rx a).toNat % p.1 ≠ 0 then trapVal 0x04 (s.rx a) s
    else vecLoad ik hd (s.loadDst d) (.load p.1 false) 1 p.1 p.2 s) s)

/-- A vector store (R312, R313): every part is checked first; the parts are one entry of the store buffer, one store also where its pages are
replicated in one set (R31, R134); where only some are, or in other sets, each part is an entry of its own (DEDUCED, unsafe; log 73). -/
def vecStore (ik : Code) (hd : Head) (align : Nat) (ps : List (Word × List (Nat × Nat × Word))) (s : State) : State :=
  match s.accessAll (.instr s.cur) .store align (ps.map (·.1)) with
  | (s, r) =>
    if r.walk then stall s
    else match worstFault r.faults with
    | some (c, va) => trapVal c va s
    | none =>
      let qs : List (Word × Option (BitVec 256) × List (Nat × Nat × Word)) :=
        (ps.zip r.xs).map (fun (p, x) => (p.1, x.ent.rep, p.2.map (fun r => (x.pa + r.1, r.2.1, r.2.2))))
      match qs.find? (fun q => q.2.2.any (fun r => mmioHole r.1)) with
      | some q => trapVal 0x05 q.1 s
      | none =>
        if qs.all (fun q => q.2.1 == (qs.head?).bind (·.2.1)) then
          finish ik hd (s.startStore s.cur (qs.flatMap (fun q => q.2.2)) false none ((qs.head?).bind (·.2.1)) s.long)
        else finish ik hd (qs.foldl (fun s q => s.startStore s.cur q.2.2 false none q.2.1 s.long) s)

/-- VST (R299, R312). -/
def execVst (hd : Head) (d a : Reg) (s : State) : Host.Outcome State Fault Refusal :=
  let ik := codeOf (.vst hd d a)
  .next (vecIssue ik hd true true [.x a] [.v d] [] [d] (fun s =>
    let p := s.pieces (s.rx a)
    let words := s.lanes 64 d
    let k := p.1 / 8
    if (s.rx a).toNat % p.1 ≠ 0 then trapVal 0x04 (s.rx a) s
    else vecStore ik hd 1 (p.2.zipIdx.map (fun (va, i) =>
      (va, (List.range k).map (fun j => (8 * j, 8, BitVec.ofNat 64 (words.getD (i * k + j) 0)))))) s) s)

/-- The lane addresses of VLDS and VSTS (R312). -/
def State.strided (s : State) (w : Nat) (a b : Reg) : List Word :=
  (List.range (s.vbits / w)).map (fun i => s.rx a + BitVec.ofNat 64 i * s.rx b)

/-- VLDS (R312, R313). -/
def execVlds (hd : Head) (d a b : Reg) (t : BitVec 3) (s : State) : Host.Outcome State Fault Refusal :=
  let ik := codeOf (.vlds hd d a b t)
  .next (vecIssue ik hd true true [.x a, .x b] [] [.v d] [d] (fun s =>
    vecLoad ik hd (s.loadDst d) (.load (laneW t / 8) false) (laneW t / 8) (laneW t / 8) (s.strided (laneW t) a b) s) s)

/-- VSTS (R312, R313): a later lane replaces an earlier one where they overlap. -/
def execVsts (hd : Head) (d a b : Reg) (t : BitVec 3) (s : State) : Host.Outcome State Fault Refusal :=
  let ik := codeOf (.vsts hd d a b t)
  .next (vecIssue ik hd true true [.x a, .x b] [.v d] [] [d] (fun s =>
    vecStore ik hd (laneW t / 8) (((s.strided (laneW t) a b).zip (s.lanes (laneW t) d)).map (fun (va, x) =>
      (va, [(0, laneW t / 8, BitVec.ofNat 64 x)]))) s) s)

/-- VBCAST (R312). -/
def execVbcast (hd : Head) (d a : Reg) (t : BitVec 3) (s : State) : Host.Outcome State Fault Refusal :=
  let ik := codeOf (.vbcast hd d a t)
  .next (vecIssue ik hd true false [.x a] [] [.v d] [d] (fun s =>
    writeV ik hd d (packLanes (laneW t) (List.replicate (s.vbits / laneW t) (s.rx a).toNat)) 0 s) s)

/-- VINS (R312). -/
def execVins (hd : Head) (d a b : Reg) (t : BitVec 3) (s : State) : Host.Outcome State Fault Refusal :=
  let ik := codeOf (.vins hd d a b t)
  .next (vecIssue ik hd true false [.x a, .x b] [.v d] [.v d] [d] (fun s =>
    let l := s.lanes (laneW t) d
    writeV ik hd d (packLanes (laneW t) (l.set ((s.rx b).toNat % l.length) (s.rx a).toNat)) 0 s) s)

/-- VEXT (R312). -/
def execVext (hd : Head) (d a b : Reg) (t : BitVec 3) (s : State) : Host.Outcome State Fault Refusal :=
  let ik := codeOf (.vext hd d a b t)
  .next (vecIssue ik hd true false [.x b] [.v a] [.x d] [a] (fun s =>
    let l := s.lanes (laneW t) a
    let x := l.getD ((s.rx b).toNat % l.length) 0
    writeRd ik hd d (if isI t then BitVec.ofInt 64 (vint t x) else BitVec.ofNat 64 x) s) s)

/-- VLDROW (R314): the whole row of the own vault that the address selects. -/
def execVldrow (hd : Head) (d a : Reg) (s : State) : Host.Outcome State Fault Refusal :=
  let ik := codeOf (.vldrow hd d a)
  .next (vecIssue ik hd s.long true [.x a] [] [.v d] [d] (fun s =>
    let va := s.rx a
    withAccess .row 1 va (fun x s =>
      let parts := (List.range 32).map (fun k => (x.pa / 2048 * 2048 + 64 * k, 64))
      match s.badParts s.me.busy.sb parts with
      | some w => trapUncorr w va s
      | none =>
        if forwardAll s.me.busy.sb parts = .part then stall s
        else finish ik hd (s.startLoad s.cur (.w d) parts true false)) s) s)

/-! ### VP (R315 to R318) -/

/-- VPERM (R315). -/
def execVperm (hd : Head) (d a b : Reg) (t : BitVec 3) (s : State) : Host.Outcome State Fault Refusal :=
  .next (vecAll2 (codeOf (.vperm hd d a b t)) hd d a b (laneW t) true (fun x y => y.map (fun i => x.getD (i % x.length) 0)) s)

/-- VZIP (R315). -/
def execVzip (hd : Head) (d a b : Reg) (t : BitVec 3) (s : State) : Host.Outcome State Fault Refusal :=
  .next (vecAll2 (codeOf (.vzip hd d a b t)) hd d a b (laneW t) true
    (fun x y => ((x.zip y).take (x.length / 2)).flatMap (fun p => [p.1, p.2])) s)

/-- The even lanes. -/
def evens (l : List Nat) : List Nat :=
  match l with
  | x :: _ :: r => x :: evens r
  | [x] => [x]
  | [] => []

/-- VUNZIP (R315). -/
def execVunzip (hd : Head) (d a b : Reg) (t : BitVec 3) (s : State) : Host.Outcome State Fault Refusal :=
  .next (vecAll2 (codeOf (.vunzip hd d a b t)) hd d a b (laneW t) true (fun x y => evens x ++ evens y) s)

/-- Key types of pairs (R316). -/
def pairType (t : BitVec 3) : Bool := t == 0 || decide (5 ≤ t.toNat)

/-- Width of a pair's key (R316). -/
def keyW (t : BitVec 3) : Nat := laneW t

/-- Whether the key of a pair ranks above another's (R316). -/
def keyAbove (t : BitVec 3) (p q : Nat) : Bool :=
  let x := p % 2 ^ keyW t
  let y := q % 2 ^ keyW t
  if t = 0 then
    let a := Fmt.f32.unpack false x
    let b := Fmt.f32.unpack false y
    !a.isNan && (b.isNan || ltVal b a)
  else decide (vint t y < vint t x)

/-- Pair p precedes pair q (R316). -/
def pairPrecedes (t : BitVec 3) (p q : Nat) : Bool :=
  keyAbove t p q || (!keyAbove t q p && decide (p / 2 ^ keyW t < q / 2 ^ keyW t))

/-- A pair put before the first pair that does not precede it. -/
def insertPair (t : BitVec 3) (p : Nat) (l : List Nat) : List Nat :=
  match l with
  | [] => [p]
  | q :: r => if pairPrecedes t q p then q :: insertPair t p r else p :: q :: r

/-- The pairs in VSORT order, equals as they stood (R317). -/
def sortPairs (t : BitVec 3) (l : List Nat) : List Nat := l.foldr (insertPair t) []

/-- VSORT (R317). -/
def execVsort (hd : Head) (d a : Reg) (t : BitVec 3) (s : State) : Host.Outcome State Fault Refusal :=
  .next (vecAll1 (codeOf (.vsort hd d a t)) hd d a (2 * keyW t) (pairType t) (fun _ l => (sortPairs t l, 0)) s)

/-- The merge of R318, n steps. -/
def mergePairs (t : BitVec 3) (n : Nat) (a b : List Nat) : List Nat :=
  match n with
  | 0 => []
  | k + 1 =>
    match a, b with
    | [], [] => []
    | x :: r, [] => x :: mergePairs t k r []
    | [], y :: r => y :: mergePairs t k [] r
    | x :: r, y :: u => if pairPrecedes t y x then y :: mergePairs t k (x :: r) u else x :: mergePairs t k r (y :: u)

/-- VMERGE.LO (R318). -/
def execVmergeLo (hd : Head) (d a b : Reg) (t : BitVec 3) (s : State) : Host.Outcome State Fault Refusal :=
  .next (vecAll2 (codeOf (.vmergeLo hd d a b t)) hd d a b (2 * keyW t) (pairType t)
    (fun x y => (mergePairs t (2 * x.length) x y).drop x.length) s)

/-- VMERGE.HI (R318). -/
def execVmergeHi (hd : Head) (d a b : Reg) (t : BitVec 3) (s : State) : Host.Outcome State Fault Refusal :=
  .next (vecAll2 (codeOf (.vmergeHi hd d a b t)) hd d a b (2 * keyW t) (pairType t)
    (fun x y => (mergePairs t (2 * x.length) x y).take x.length) s)

/-- Lanes moved by a signed amount, zero where none comes (R315). -/
def slide (l : List Nat) (k : Int) : List Nat :=
  (List.range l.length).map (fun (i : Nat) => if 0 ≤ (i : Int) + k then l.getD ((i : Int) + k).toNat 0 else 0)

/-- VSLIDE (R315). -/
def execVslide (hd : Head) (d a b : Reg) (t : BitVec 3) (s : State) : Host.Outcome State Fault Refusal :=
  .next (vecAll2 (codeOf (.vslide hd d a b t)) hd d a b (laneW t) true (fun x y => slide x (signedOf (laneW t) (y.headD 0))) s)

end Sys2Proof.Machine
end

