-- ==== Sys2Proof/Machine/Matrix.lean ====
section
/-! DEFINITION. Sys2Proof/Machine/Matrix.lean: LEASE and RELEASE (R322, R323) and the issue of the matrix commands (R328, R329); what a
command does once it has left its queue is in MatrixRun. -/

namespace Sys2Proof.Machine

/-! ### Lease slots -/

/-- A free lease slot of a cluster; of two the lowest-numbered (DESIGN CHOICE, unsafe; log 133). -/
def Cluster.freeSlot (c : Cluster) : Option Nat := if c.engRetired then none else [0, 1].find? (fun n => (c.slot n).st == .free)

/-- A slot handed to a thread, everything in it reset (R321, R323). -/
def State.grantSlot (s : State) (cl n : Nat) (id : HartId) : State :=
  (s.modSlot cl n (fun _ => { LeaseSlot.reset with st := .held, holder := some id })).modHart id (fun h => { h with lease := some n })

/-- A slot leaves HELD: it drains, and a turn that it holds is spent (R323, R324). -/
def State.drainSlot (s : State) (cl n : Nat) : State :=
  (s.modSlot cl n (fun l => { l with st := .draining })).modCluster cl (fun c =>
    { c with turnSpent := c.turnSpent || c.turn == some n })

/-- The lease of a hart ended (R322, R323). -/
def State.dropLease (s : State) (id : HartId) : State :=
  match (s.hart id).lease with
  | none => s
  | some n => (s.drainSlot (clusterOf id.home) n).modHart id (fun h => { h with lease := none })

/-- LEASE (R322). -/
def execLease (hd : Head) (d : Reg) (try1 : BitVec 1) (s : State) : Host.Outcome State Fault Refusal :=
  let ik := codeOf (.lease hd d try1)
  .next (issueOwn ik hd 0 s.noCtx (if try1 = 0 then s.lockBar else none) [] [.x d] (fun s =>
    let cl := clusterOf s.myCore
    match s.me.lease with
    | some n => writeRd ik hd d (BitVec.ofNat 64 n) s
    | none =>
      let c := s.cluster cl
      match (if c.leaseQ.any (fun h => (s.hart h).wait == some .lease) then none else c.freeSlot) with
      | some n => writeRd ik hd d (BitVec.ofNat 64 n) (s.grantSlot cl n s.cur)
      | none =>
        if try1 = 1 then writeRd ik hd d allOnes s
        else if s.me.wait = some .lease then s
        else stallAt hd .lease true (s.modCluster cl (fun c => { c with leaseQ := c.leaseQ.filter (· != s.cur) ++ [s.cur] }))) s)

/-- RELEASE (R322). -/
def execRelease (hd : Head) (s : State) : Host.Outcome State Fault Refusal :=
  let ik := codeOf (.release hd)
  .next (issue ik hd 0 s.noCtx [] [] (fun s => finish ik hd (s.dropLease s.cur)) s)

/-! ### Issue (R328, R329) -/

/-- TLD (R333). -/
def execTld (hd : Head) (a : Reg) (tk : BitVec 3) (wait : BitVec 8) (dst : BitVec 2) (fmt : BitVec 4) (rows : BitVec 7)
    (sc : BitVec 1) (frow : BitVec 7) (s : State) : Host.Outcome State Fault Refusal :=
  let i : Instr := .tld hd a tk wait dst fmt rows sc frow
  .next (engineCmd (codeOf i) hd 0 i tk wait s.noCtx (s.matrixOwn false) 0 a 0 s)

/-- TLD.P (R333). -/
def execTldP (hd : Head) (d a b : Reg) (tk : BitVec 3) (wait : BitVec 8) (fmt : BitVec 4) (rows : BitVec 7) (sc : BitVec 1)
    (frow : BitVec 7) (s : State) : Host.Outcome State Fault Refusal :=
  let i : Instr := .tldP hd d a b tk wait fmt rows sc frow
  .next (engineCmd (codeOf i) hd 0 i tk wait s.noCtx (s.matrixOwn false) d a b s)

/-- TST (R339). -/
def execTst (hd : Head) (a : Reg) (tk : BitVec 3) (wait : BitVec 8) (row0 rows : BitVec 7) (ofmt : BitVec 2) (satf : BitVec 1)
    (s : State) : Host.Outcome State Fault Refusal :=
  let i : Instr := .tst hd a tk wait row0 rows ofmt satf
  .next (engineCmd (codeOf i) hd 1 i tk wait s.noCtx (s.matrixOwn false) 0 a 0 s)

/-- WLOAD (R334). -/
def execWload (hd : Head) (d a b : Reg) (tk : BitVec 3) (wait : BitVec 8) (src : BitVec 1) (fmt : BitVec 4) (sc : BitVec 1)
    (frow : BitVec 7) (s : State) : Host.Outcome State Fault Refusal :=
  let i : Instr := .wload hd d a b tk wait src fmt sc frow
  .next (engineCmd (codeOf i) hd 0 i tk wait s.noCtx (s.matrixOwn false) d a b s)

/-- ASWAP (R338). -/
def execAswap (hd : Head) (tk : BitVec 3) (wait : BitVec 8) (s : State) : Host.Outcome State Fault Refusal :=
  let i : Instr := .aswap hd tk wait
  .next (engineCmd (codeOf i) hd 1 i tk wait s.noCtx (s.matrixOwn false) 0 0 0 s)

/-- ACLR (R338). -/
def execAclr (hd : Head) (tk : BitVec 3) (wait : BitVec 8) (cf : BitVec 1) (s : State) : Host.Outcome State Fault Refusal :=
  let i : Instr := .aclr hd tk wait cf
  .next (engineCmd (codeOf i) hd 1 i tk wait s.noCtx (s.matrixOwn false) 0 0 0 s)

/-- ARD (R339): long mode only, and refused while recording (R360). -/
def execArd (hd : Head) (tk : BitVec 3) (wait : BitVec 8) (row0 rows : BitVec 7) (wreg : BitVec 3) (s : State) :
    Host.Outcome State Fault Refusal :=
  let i : Instr := .ard hd tk wait row0 rows wreg
  .next (engineCmd (codeOf i) hd 1 i tk wait (s.noCtx && s.long) (s.matrixOwn true) 0 0 0 s)

/-- AST (R339). -/
def execAst (hd : Head) (d b : Reg) (tk : BitVec 3) (wait : BitVec 8) (row0 rows : BitVec 7) (ofmt : BitVec 2) (satf : BitVec 1)
    (s : State) : Host.Outcome State Fault Refusal :=
  let i : Instr := .ast hd d b tk wait row0 rows ofmt satf
  .next (engineCmd (codeOf i) hd 1 i tk wait s.noCtx (s.matrixOwn false) d 0 b s)

/-- Bytes of an activation tile in its buffer: rows, then the padded scale area of a scaled format (R195, R331). -/
def tileBytes (fmt rows : Nat) : Nat := rows * rowBytes fmt + (if fmtScaled fmt then (4 * rows + 63) / 64 * 64 else 0)

/-- Bytes of a number, as a canonical list from address 0 on. -/
def bytesMem (n v : Nat) : Memory := Memory.cells 0 (bytesOf n v)

/-- The w registers that hold the rows of an MMA with ASRC = 3 (R331). -/
def mmaRegs (wreg : BitVec 3) (n : Nat) : List Reg :=
  (List.range ((n + 2047) / 2048)).map (fun k => BitVec.ofNat 5 (wreg.toNat + k))

/-- The bytes of some w registers, one after another (R331, R336). -/
def State.wBytes (s : State) (rs : List Reg) (n : Nat) : Memory :=
  bytesMem n (packLanes 16384 (rs.map (fun r => ((s.core s.myCore).rw r).toNat)))

/-- MMA (R336): with ASRC = 3 its rows are read at issue, as one long-mode instruction, and the recorder refuses it (R360). -/
def execMma (hd : Head) (d b : Reg) (tk : BitVec 3) (wait : BitVec 8) (asrc : BitVec 2) (fmt : BitVec 4) (rows : BitVec 7)
    (lt sat ftz : BitVec 1) (wreg : BitVec 3) (s : State) : Host.Outcome State Fault Refusal :=
  let i : Instr := .mma hd d b tk wait asrc fmt rows lt sat ftz wreg
  let ik := codeOf i
  .next (
    if asrc = 3 then
      let n := tileBytes fmt.toNat (rows.toNat + 1)
      let rs := mmaRegs wreg n
      vecIssueOwn ik hd s.long (s.matrixOwn true) false [] (rs.map RegRef.v) [] rs (fun s =>
        enterCmd ik hd 1 { s.newCmd i tk wait 0 0 0 with wdata := s.wBytes rs n } ik.c id s) s
    else engineCmd ik hd 1 i tk wait s.noCtx (s.matrixOwn false) d 0 b s)

end Sys2Proof.Machine
end

