-- ==== Sys2Proof/Machine/System.lean ====
section
/-! DEFINITION. Sys2Proof/Machine/System.lean: invalidation of translations (R40, R41, R296), FENCE.I (R260) and the transaction
instructions (R154, R155, R292 to R294). -/

namespace Sys2Proof.Machine

/-- ALLVA, ALLAS, BUMP, ASID and SCOPE of a TLBINV (R40). -/
structure InvCtl where
  asid : BitVec 12
  allVa : Bool
  allAs : Bool
  bump : Bool
  scope : Nat
  va : Nat
  deriving DecidableEq, Repr

/-- The control value of a TLBINV with its address. -/
def invCtl (va ctl : Word) : InvCtl :=
  ⟨ctl.extractLsb' 0 12, wbit ctl 12, wbit ctl 13, wbit ctl 14, wbits ctl 15 2, wbits va 0 48⟩

/-- as_match of R40 on an address space, for something marked global or not. -/
def InvCtl.asMatch (c : InvCtl) (g : Bool) (asid : BitVec 12) : Bool := c.allAs || (!g && asid == c.asid)

/-- as_match and va_match of R40 on a cached leaf. -/
def InvCtl.drops (c : InvCtl) (e : TlbEnt) : Bool :=
  c.asMatch e.g e.asid && (c.allVa || (decide (e.va ≤ c.va) && decide (c.va < e.va + e.size)))

/-- as_match and va_match of R40 on a pointer of the walk cache. -/
def InvCtl.dropsPtr (c : InvCtl) (p : WalkPtr) : Bool :=
  c.asMatch false p.asid && (c.allVa || c.va / 2 ^ (12 + 9 * p.level) == p.path)

/-- as_match and va_match of R40 on a walk in flight. The page that it will find is not known yet: every walk in the same GB, the
largest page, counts (DEDUCED, safe; log 113). -/
def InvCtl.dropsWalk (c : InvCtl) (w : Walk) : Bool :=
  c.asMatch false w.asid && (c.allVa || c.va / 2 ^ 30 == w.va / 2 ^ 30)

/-- Whether a core is in the scope of a TLBINV of a hart; the scopes are the fence scopes 1 to 4 (R40, R139). -/
def State.invScope (s : State) (id : HartId) (c : InvCtl) (core : Nat) : Bool := s.inScope id (c.scope + 1) core 0xFFFF

/-- Cached translations in scope dropped: first-level TLBs of the cores, second-level TLBs of their clusters, walk caches of
their stacks; matching walks in flight are marked stale (R40). -/
def State.dropEntries (s : State) (id : HartId) (c : InvCtl) : State :=
  let core (n : Nat) : Bool := s.invScope id c n
  let cluster (k : Nat) : Bool := (List.range 8).any (fun n => core (k * 8 + n))
  let stack (k : Nat) : Bool := stackOf id.home == k || (List.range 512).any (fun n => core (k * 512 + n))
  { s with
    cores := s.cores.map (fun e => (e.1,
      if core e.1 then { e.2 with tlb := e.2.tlb.filter (fun t => !c.drops t), agentTlb := e.2.agentTlb.filter (fun t => !c.drops t) }
      else e.2))
    clusters := s.clusters.map (fun e => (e.1,
      if cluster e.1 then { e.2 with tlb := e.2.tlb.filter (fun t => !c.drops t) } else e.2))
    stks := s.stks.map (fun e => (e.1,
      if stack e.1 then { e.2 with wcache := e.2.wcache.filter (fun p => !c.dropsPtr p),
                                   walks := e.2.walks.map (fun w => if c.dropsWalk w then { w with stale := true } else w) }
      else e.2)) }

/-- An open transaction that used a dropped translation is discarded, unless it is committing (R296). -/
def Xact.invalidate (x : Xact) (c : InvCtl) : Xact :=
  if !x.committing && x.ents.any (fun e => c.drops e.leaf) then { x with ents := [], interrupted := true } else x

/-- Whether a commit under way has its outcome: every vault has answered, and where all granted every one has
acknowledged its data (R155). -/
def Xact.settled (x : Xact) : Bool :=
  decide (x.granted.length + x.refused.length = x.asked.length) && (!x.refused.isEmpty || decide (x.acked.length = x.asked.length))

/-- Generations bumped (R40, R42). -/
def State.bumpGen (s : State) (c : InvCtl) : State :=
  if !c.bump then s
  else
    let ids := if c.allAs then List.range 4096 else [c.asid.toNat]
    s.modDev (fun d => { d with asgen := ids.foldl (fun t a => t.set a (t.get a 0 + 1)) d.asgen })

/-- Answers of walks in scope that no asker has used yet, dropped: each asks again (R40). -/
def State.dropAnswers (s : State) (id : HartId) (c : InvCtl) : State :=
  { s with harts := s.harts.map (fun e => (e.1,
      if s.invScope id c e.1.home && c.asMatch false e.2.asid then e.2.modBusy (fun b => { b with walked := b.walked.filter (·.stale) }) else e.2)) }

/-- Whether the instruction at which a hart stands waits for a walk that a TLBINV has overtaken. -/
def State.onStale (s : State) (id : HartId) : Bool :=
  (s.stk (stackOf id.home)).walks.any (fun w => w.stale && w.waiters.any (fun m => m.who == .instr id)) ||
  (s.hart id).busy.walked.any (fun w => w.stale && w.cmd.isNone)

/-- Accesses that one instruction issues, at most: the lanes of a vector store (R312). -/
def perInstr : Nat := 2048

/-- The holders of R41 at the start of a TLBINV: what each hart in scope has issued so far, with the accesses of an instruction that
waits for a walk which the TLBINV overtakes (DEDUCED, unsafe; log 79). -/
def State.holders (s : State) (id : HartId) (c : InvCtl) : List (HartId × Nat × Nat × Nat) :=
  (s.harts.filter (fun e => s.invScope id c e.1.home)).map (fun e =>
    let more := if s.onStale e.1 then perInstr else 0
    (e.1, e.2.busy.loadNext + more, e.2.busy.sbNext + more, e.2.busy.nextSeq))

/-- Whether a hart has finished what it had issued under an address space that a TLBINV names (R41, R296). -/
def Hart.finished (h : Hart) (c : InvCtl) (loads stores cmds : Nat) : Bool :=
  h.busy.loads.all (fun l => decide (loads ≤ l.num) || !c.asMatch false l.asid) &&
  h.busy.sb.all (fun e => decide (stores ≤ e.num) || !c.asMatch false e.asid) &&
  h.busy.commands.all (fun x => decide (cmds ≤ x.seq) || !c.asMatch false x.asid) &&
  (match h.busy.xact with | some x => !x.committing || x.settled || !x.ents.any (fun e => c.asMatch false e.leaf.asid) | none => true)

/-- Messages that have not been executed: on the way, queued at an agent, being served, waiting for a line, or run by a context
(R41). -/
def State.messages (s : State) : List Msg :=
  s.dev.net ++ s.cores.flatMap (fun e => e.2.ondie ++ e.2.ring ++ e.2.serving) ++ s.vaults.flatMap (fun e => e.2.locks.flatMap (·.queue)) ++
  s.harts.filterMap (fun e => e.2.ctx.arrival)

/-- Whether every holder has finished, and no access waits for a walk that a TLBINV has overtaken (R40, R41). -/
def State.holdersDone (s : State) (id : HartId) (c : InvCtl) (hs : List (HartId × Nat × Nat × Nat)) (msgs : Nat) : Bool :=
  hs.all (fun p => (s.hart p.1).finished c p.2.1 p.2.2.1 p.2.2.2 && !((s.hart p.1).st == .running && s.onStale p.1)) &&
  s.messages.all (fun m => !(decide (m.id < msgs) && s.invScope id c m.src.home && c.asMatch false m.asid))

/-- A FENCE of a scope as part of another instruction: it goes on once the hart's accesses are performed (R138, R140). -/
def fenced (scope : Nat) (k : State → State) (s : State) : State :=
  match s.fillIn s.cur scope with
  | some r => if s.cur.isCtx || s.me.lock.isSome then trapVal 0x08 (r.setWidth 64) s else stall s
  | none => if s.performed s.cur scope false then k s else stall s

/-- TLBINV (R40): a fence, the entries dropped with the transactions translated through them (R296), the generations bumped, and a wait for
the holders. An rd other than x0 gives 0x02 before every check of R40's own, as any field of the encoding does (DEDUCED, unsafe; log 127). -/
def execTlbinv (hd : Head) (a b : Reg) (s : State) : Host.Outcome State Fault Refusal :=
  let ik := codeOf (.tlbinv hd a b)
  .next (issue ik hd 1 s.noCtx [.x a, .x b] [] (fun s =>
    let c := invCtl (s.rx a) (s.rx b)
    match s.me.wait with
    | some (.inv hs n) => if s.holdersDone s.cur c hs n then fenced (c.scope + 1) (finish ik hd) s else s
    | _ =>
      if wbits (s.rx b) 17 47 ≠ 0 then trapInstr 0x02 ik s
      else fenced (c.scope + 1) (fun s =>
        let s1 := ((s.dropEntries s.cur c).dropAnswers s.cur c).bumpGen c
        let s2 := { s1 with harts := s1.harts.map (fun e => (e.1,
          if s1.invScope s.cur c e.1.home then
            e.2.modBusy (fun b => { b with xact := b.xact.map (fun x => x.invalidate c) }) else e.2)) }
        stallAt hd (.inv (s2.holders s.cur c) s2.dev.nextMsg) false s2) s) s)

/-- FENCE.I (R260): it waits for the thread's stores, then what was fetched ahead is discarded. -/
def execFenceI (hd : Head) (s : State) : Host.Outcome State Fault Refusal :=
  let ik := codeOf (.fenceI hd)
  .next (issue ik hd 0 true [] [] (fun s =>
    if s.me.busy.sb.isEmpty then finish ik hd (s.modMe (fun h => { h with fetched := [] })) else stall s) s)

/-! ### Transactions -/

/-- An empty open transaction (R154). -/
def Xact.empty : Xact :=
  { ents := [], overflow := false, interrupted := false, asked := [], granted := [], refused := [], acked := [], committing := false }

/-- XBEGIN (R292). -/
def execXbegin (hd : Head) (s : State) : Host.Outcome State Fault Refusal :=
  let ik := codeOf (.xbegin hd)
  .next (issue ik hd 0 s.noCtx [] [] (fun s =>
    finish ik hd (s.modMe (fun h => h.modBusy (fun b => { b with xact := some Xact.empty })))) s)

/-- XABORT (R292). -/
def execXabort (hd : Head) (s : State) : Host.Outcome State Fault Refusal :=
  let ik := codeOf (.xabort hd)
  .next (issue ik hd 0 s.noCtx [] [] (fun s =>
    finish ik hd (s.modMe (fun h => h.modBusy (fun b => { b with xact := none })))) s)

/-- The vaults that some entries name. -/
def vaultsOf (es : List XEnt) : List Nat := (es.map (fun e => paCore e.pa)).eraseDups

/-- An entry added (R293): one too many, or a ninth vault, marks the transaction OVERFLOW. -/
def Xact.add (x : Xact) (e : XEnt) : Xact :=
  if x.interrupted then x
  else if 16 ≤ x.ents.length ∨ 8 < (vaultsOf (x.ents ++ [e])).length then { x with overflow := true }
  else { x with ents := x.ents ++ [e] }

/-- XSTORE (R292, R293). -/
def execXstore (hd : Head) (a b : Reg) (w : BitVec 2) (s : State) : Host.Outcome State Fault Refusal :=
  let ik := codeXstore hd a b w
  .next (issueOwn ik hd 0 s.noCtx (if s.me.busy.xact.isNone then some 0x01 else none) [.x a, .x b] [] (fun s =>
    withAccess (.remote false true) (widthOf w) (s.rx a) (fun x s =>
      finish ik hd (s.modMe (fun h => h.modBusy (fun bz =>
        { bz with xact := bz.xact.map (fun t => t.add ⟨x.pa, widthOf w, s.rx b, x.ent⟩) })))) s) s)

/-- The bytes of a transaction in one vault, each with the value of its latest entry (R293). -/
def Xact.cells (x : Xact) (core : Nat) : List Host.Cell :=
  (x.ents.filter (fun e => paCore e.pa == core)).foldl (fun t e =>
    (List.range e.size).foldl (fun t k => Table.set t (e.pa + k) (BitVec.ofNat 8 (bits e.data.toNat (8 * k) 8))) t) []

/-- One XACT arrival of a thread to a vault: 0 lock, 1 data, 2 unlock (R155). -/
def State.xactMsg (s : State) (id : HartId) (x : Xact) (core step : Nat) : State :=
  let m := s.newMsg id .xact s.dev.devnum core
  s.send { m with sub := step, bytes := x.cells core } false

/-- The result of a commit (R294): CORE is the lowest vault that refused or failed (DEDUCED, unsafe; log 76). -/
def Xact.result (x : Xact) : Word :=
  match x.refused with
  | [] => 0
  | r :: t =>
    let low := t.foldl (fun m p => min m p.1) r.1
    BitVec.ofNat 64 ((if x.refused.any (·.2) then 5 else 1) + low * 256)

/-- XCOMMIT closes the transaction with a result (R294). -/
def xcommitEnd (ik : Code) (hd : Head) (d : Reg) (v : Word) (s : State) : State :=
  writeRd ik hd d v (s.modMe (fun h => h.modBusy (fun b => { b with xact := none })))

/-- XCOMMIT (R155, R294): the reasons that send nothing, then the release, the locks, and a wait for the outcome. -/
def execXcommit (hd : Head) (d : Reg) (s : State) : Host.Outcome State Fault Refusal :=
  let ik := codeOf (.xcommit hd d)
  .next (issue ik hd 0 s.noCtx [] [.x d] (fun s =>
    match s.me.busy.xact with
    | none => xcommitEnd ik hd d 4 s
    | some x =>
      if x.committing then (if x.settled then xcommitEnd ik hd d x.result s else s)
      else if x.interrupted then xcommitEnd ik hd d 3 s
      else if x.overflow then xcommitEnd ik hd d 2 s
      else if s.me.acqWait || !s.performed s.cur 5 false then stall s
      else
        let vs := vaultsOf x.ents
        if vs.isEmpty then xcommitEnd ik hd d 0 s
        else
          let s := (stallAt hd .commit false s).modMe (fun h => h.modBusy (fun b =>
            { b with xact := some { x with committing := true, asked := vs } }))
          vs.foldl (fun s c => s.xactMsg s.cur x c 0) s) s)

end Sys2Proof.Machine
end

