-- ==== Sys2Proof/Machine/Tape.lean ====
section
/-! DEFINITION. Sys2Proof/Machine/Tape.lean: the tape buffer (R352, R353, R356) and the tape instructions (R363 to R368); replay is in
Replay. -/

namespace Sys2Proof.Machine

/-! ### The buffer -/

/-- Whether a run of slots is free in the tape buffer of a core. -/
def Core.runFree (c : Core) (base len : Nat) : Bool :=
  decide (base + len ≤ tapeSlots) &&
  c.tapes.all (fun e => e.2.st == .empty || decide (base + len ≤ e.2.base) || decide (e.2.base + e.2.len ≤ base))

/-- The lowest-numbered free run of some slots (R352). -/
def Core.findRun (c : Core) (len : Nat) : Option Nat :=
  let cands := (0 :: c.tapes.map (fun e => e.2.base + e.2.len)).filter (fun b => c.runFree b len)
  cands.foldl (fun r b => match r with | none => some b | some m => some (min m b)) none

/-- A core with one tape replaced. -/
def Core.setTape (c : Core) (id : Nat) (t : TapeEnt) : Core := { c with tapes := c.tapes.set id t }

/-- A tape discarded and its slots freed (R353). -/
def State.clearTape (s : State) (core id : Nat) : State := s.modCore core (fun c => c.setTape id ⟨.empty, 0, 0⟩)

/-- A TAPE.SAVE that reads a tape. -/
def savesTape (id : Nat) (f : Flight) : Bool :=
  match f.cmd.ins with
  | .tapeSave _ _ _ _ i => i.toNat == id && f.fault.isNone
  | _ => false

/-- Whether a tape plays or saves (R353). -/
def State.tapeBusy (s : State) (core id : Nat) : Bool :=
  (s.threadsAt core).any (fun h =>
    (match (s.hart h).busy.play with | some p => p.id == id | none => false) || (s.hart h).busy.flights.any (savesTape id))

/-- ASGEN of an address space (R42). -/
def State.asgenOf (s : State) (asid : BitVec 12) : Word := s.dev.asgen.get asid.toNat 0

/-- The header of a tape without its CRC (R356). -/
def headerBytes (r : Recording) (n : Nat) (crc : Nat) : List Byte :=
  bytesOf 4 0x9A3C51E7 ++ bytesOf 1 1 ++ bytesOf 1 (b2n r.long + b2n r.wneed * 2 + b2n (r.wneed && r.wsrc) * 4) ++
  bytesOf 2 n ++ bytesOf 8 r.asgen.toNat ++ bytesOf 4 r.vaultgen.toNat ++ bytesOf 2 r.pmask.toNat ++ bytesOf 2 r.core ++
  bytesOf 2 r.asid.toNat ++ bytesOf 1 (if r.wneed then r.wfmt0.toNat else 0) ++ bytesOf 3 0 ++ bytesOf 2 crc ++
  (List.range 16).flatMap (fun k => bytesOf 2 (if r.pmask.getLsbD k then r.exts.get k 0 else 0))

/-- CRC-16 of the bytes of a header that it covers (R356). -/
def headerCrc (b : List Byte) : Nat := crc16 (b.take 30 ++ b.drop 32)

/-- The header of a tape (R356). -/
def Recording.header (r : Recording) : List Byte := headerBytes r r.n (headerCrc (headerBytes r r.n 0))

/-! ### TAPE.REC, TAPE.END, TAPE.PATCH, TAPE.INV -/

/-- The first of two checks that fails. -/
def orElse (a b : Option (BitVec 8)) : Option (BitVec 8) := match a with | some c => some c | none => b

/-- The recording that TAPE.REC starts (R364). -/
def State.newRecording (s : State) (id base max : Nat) : Recording :=
  { id := id, base := base, max := max, n := 0, full := false, abandoned := false, asid := s.me.asid,
    asgen := s.asgenOf s.me.asid, vaultgen := (s.vault s.myCore).gen, long := s.long, core := s.myCore, pmask := 0, exts := [],
    wneed := false, wsrc := false, wfmt0 := 0, wshSet := false, wlatSet := false }

/-- TAPE.REC (R364). -/
def execTapeRec (hd : Head) (d : Reg) (id : BitVec 3) (lim : BitVec 10) (s : State) : Host.Outcome State Fault Refusal :=
  let ik := codeOf (.tapeRec hd d id lim)
  .next (issueOwn ik hd 0 s.noCtx (orElse s.lockBar (if s.me.busy.recording.isSome then some 0x13 else none)) [] [.x d] (fun s =>
    let core := s.myCore
    let t := (s.core core).tape id.toNat
    if t.st = .recording ∨ t.st = .loading then writeRd ik hd d 2 s
    else if t.st = .valid ∧ s.tapeBusy core id.toNat = true then stallAt hd .stall true s
    else
      let s := s.clearTape core id.toNat
      match (s.core core).findRun (2 + lim.toNat) with
      | none => writeRd ik hd d 1 s
      | some b =>
        let s := s.modCore core (fun c => c.setTape id.toNat ⟨.recording, b, 2 + lim.toNat⟩)
        writeRd ik hd d 0 (s.modMe (fun h => h.modBusy (fun x => { x with recording := some (s.newRecording id.toNat b lim.toNat) })))) s)

/-- The status with which TAPE.END closes a recording (R365). -/
def State.endStatus (s : State) (r : Recording) : Nat :=
  if r.full then 1
  else if r.asgen ≠ s.asgenOf r.asid ∨ r.vaultgen ≠ (s.vault r.core).gen ∨ r.long ≠ (s.core r.core).long then 2
  else if r.n = 0 then 3
  else if r.abandoned then 4
  else 0

/-- A recording closed with a status (R353, R365). -/
def State.closeTape (s : State) (r : Recording) (st : Nat) : State :=
  if st = 0 then
    (s.writeMem (tapePa r.core (r.base * tapeSlot)) r.header).modCore r.core (fun c => c.setTape r.id ⟨.valid, r.base, 2 + r.n⟩)
  else if r.abandoned then s
  else s.clearTape r.core r.id

/-- TAPE.END (R365). -/
def execTapeEnd (hd : Head) (d : Reg) (s : State) : Host.Outcome State Fault Refusal :=
  let ik := codeOf (.tapeEnd hd d)
  .next (issueOwn ik hd 0 s.noCtx (if s.me.busy.recording.isNone then some 0x13 else none) [] [.x d] (fun s =>
    match s.me.busy.recording with
    | none => s
    | some r =>
      let st := s.endStatus r
      writeRd ik hd d (BitVec.ofNat 64 st)
        ((s.closeTape r st).modMe (fun h => h.modBusy (fun x => { x with recording := none })))) s)

/-- TAPE.PATCH (R366). -/
def execTapePatch (hd : Head) (a b : Reg) (slot : BitVec 4) (s : State) : Host.Outcome State Fault Refusal :=
  let ik := codeOf (.tapePatch hd a b slot)
  .next (issue ik hd 0 s.noCtx [.x a, .x b] [] (fun s =>
    if wbits (s.rx a) 48 16 ≠ 0 ∨ 65535 * 4096 < (s.rx b).toNat then trapInstr 0x02 ik s
    else finish ik hd (s.modMe (fun h => h.modCsr (fun c =>
      { c with pbase := c.pbase.set slot.toNat (s.rx a), plen := c.plen.set slot.toNat (BitVec.ofNat 64 (((s.rx b).toNat + 4095) / 4096)) })))) s)

/-- The recording of a hart abandoned when it is of a tape of a core (R367, R375). -/
def Hart.abandon (h : Hart) (core id : Nat) : Hart :=
  h.modBusy (fun b => { b with recording := b.recording.map (fun r => if r.core = core ∧ r.id = id then { r with abandoned := true } else r) })

/-- TAPE.INV (R367). -/
def execTapeInv (hd : Head) (id : BitVec 3) (s : State) : Host.Outcome State Fault Refusal :=
  let ik := codeTapeInv hd id
  .next (issueOwn ik hd 0 s.noCtx s.lockBar [] [] (fun s =>
    let core := s.myCore
    match ((s.core core).tape id.toNat).st with
    | .empty => finish ik hd s
    | .loading => stallAt hd .stall true s
    | .recording => finish ik hd ((threadsOf core).foldl (fun s h => s.modHart h (fun x => x.abandon core id.toNat)) (s.clearTape core id.toNat))
    | .valid => if s.tapeBusy core id.toNat then stallAt hd .stall true s else finish ik hd (s.clearTape core id.toNat)) s)

/-! ### TAPE.PLAY, TAPE.SAVE, TAPE.LOAD: engine commands -/

/-- TAPE.PLAY (R363, R369). -/
def execTapePlay (hd : Head) (a : Reg) (tk : BitVec 3) (wait : BitVec 8) (id : BitVec 3) (s : State) :
    Host.Outcome State Fault Refusal :=
  let i : Instr := .tapePlay hd a tk wait id
  .next (engineCmd (codeOf i) hd 6 i tk wait s.noCtx (s.tapeBar true) 0 a 0 s)

/-- TAPE.SAVE (R368). -/
def execTapeSave (hd : Head) (a : Reg) (tk : BitVec 3) (wait : BitVec 8) (id : BitVec 3) (s : State) :
    Host.Outcome State Fault Refusal :=
  let i : Instr := .tapeSave hd a tk wait id
  .next (engineCmd (codeOf i) hd 6 i tk wait s.noCtx (s.tapeBar true) 0 a 0 s)

/-- TAPE.LOAD (R368). -/
def execTapeLoad (hd : Head) (a : Reg) (tk : BitVec 3) (wait : BitVec 8) (id : BitVec 3) (s : State) :
    Host.Outcome State Fault Refusal :=
  let i : Instr := .tapeLoad hd a tk wait id
  .next (engineCmd (codeOf i) hd 6 i tk wait s.noCtx (s.tapeBar true) 0 a 0 s)

end Sys2Proof.Machine
end

