-- ==== Sys2Proof/Machine/Sched.lean ====
section
/-! DEFINITION. Sys2Proof/Machine/Sched.lean: work items and their completion (R160 to R165), item handles (R256), launch records and
their checks (R382 to R385), the end and the killing of units (R163, R170), and LAUNCH, CANCEL and WAITCTR (R257 to R259). -/

namespace Sys2Proof.Machine

/-! ### Items -/

/-- The state with one item of a table changed (0 launch, 1 graph, 2 phase, 3 job). -/
def State.modItem (s : State) (k table id : Nat) (f : Item → Item) : State :=
  s.modStk k (fun t =>
    match table with
    | 0 => { t with launches := t.launches.set id { (t.launches.get id Launch.unused) with item := f (t.launches.get id Launch.unused).item } }
    | 1 => { t with graphs := t.graphs.set id (f (t.graphs.get id Item.unused)) }
    | 2 => { t with phases := t.phases.set id (f (t.phases.get id Item.unused)) }
    | _ => { t with jobs := t.jobs.set id (f (t.jobs.get id Item.unused)) })

/-- A launch of a stack. -/
def State.launchOf (s : State) (k l : Nat) : Launch := (s.stk k).launches.get l Launch.unused

/-- The state with one launch changed. -/
def State.modLaunch (s : State) (k l : Nat) (f : Launch → Launch) : State :=
  s.modStk k (fun t => { t with launches := t.launches.set l (f (t.launches.get l Launch.unused)) })

/-- An item that exists and is not DONE. -/
def Item.open_ (i : Item) : Bool := i.used && i.st != .done

/-- Whether an item completes: LIVE 0 while SEALED or CANCELLING (R161). -/
def Item.completes (i : Item) : Bool := i.used && i.live == 0 && (i.st == .sealed || i.st == .cancelling)

/-- A child completes: LIVE counts down and the status is merged; the first child that makes the item ERROR is recorded, which none
does under an item that is cancelled, itself or by one above it (R161, R162, R388). -/
def Item.merge (i : Item) (gone : Bool) (status : Nat) (cause : BitVec 8) (unit : BitVec 32) : Item :=
  let i := { i with live := i.live - 1 }
  if !gone ∧ (status = 1 ∨ status = 2) ∧ i.status ≠ 2 then { i with status := 2, errcause := cause, errunit := unit } else i

/-- A child of an item of table 3 − n completes. -/
def State.childDone (s : State) (k n id status : Nat) (cause : BitVec 8) (unit : BitVec 32) : State :=
  s.modItem k (3 - n) id (fun i => i.merge (s.cancelledUp k n id) status cause unit)

/-- An item of table 3 − n whose LIVE may have reached 0: where it completes, DONE with CANCELLED once it or one above it was
cancelled, otherwise as its children made it, its parent's child completes, and so on up (R161, R162). -/
def State.settleItem (s : State) (k n id : Nat) : State :=
  let i := s.item k (3 - n) id
  if !i.completes then s
  else
    let status := if s.cancelledUp k n id then 1 else i.status
    let s := s.modItem k (3 - n) id (fun i => { i with status := status, st := .done })
    match n with
    | 0 => s
    | m + 1 => (s.childDone k m i.parent status i.errcause i.errunit).settleItem k m i.parent

/-- A unit of a launch completes with a status and the cause recorded for it (R161, R388). -/
def State.unitDone (s : State) (k l u status : Nat) (cause : BitVec 8) : State :=
  (s.childDone k 3 l status cause (BitVec.ofNat 32 u)).settleItem k 3 l

/-- A seal: the SEALED flag is set in any state, and an OPEN item becomes SEALED (R161). -/
def Item.seal (i : Item) : Item := { i with isSealed := true, st := if i.st = .opened then .sealed else i.st }

/-- The item of a table above a launch: its graph, phase or job. -/
def State.above (s : State) (k l table : Nat) : Nat :=
  let g := (s.launchOf k l).item.parent
  let p := (s.item k 1 g).parent
  match table with
  | 0 => l
  | 1 => g
  | 2 => p
  | _ => (s.item k 2 p).parent

/-- Whether an item of a table lies at or beneath another. -/
def State.beneath (s : State) (k table id top topId : Nat) : Bool :=
  let up (t i : Nat) : Nat := (s.item k t i).parent
  match table with
  | 0 => s.above k id top == topId
  | 1 => if top = 1 then id == topId else if top = 2 then up 1 id == topId else if top = 3 then up 2 (up 1 id) == topId else false
  | 2 => if top = 2 then id == topId else if top = 3 then up 2 id == topId else false
  | _ => top == 3 && id == topId

/-! ### The end of a unit -/

/-- The slot of a unit that has ended: idle, its lease, lock and recording ended, what it still awaited abandoned (R97, R170,
R178, R323, R375). -/
def State.freeSlot (s : State) (id : HartId) : State :=
  let s := match (s.hart id).busy.recording with
    | some r => if r.abandoned then s else s.clearTape r.core r.id
    | none => s
  let s := (s.clearLock id).dropLease id
  let s := if id.kept then s else s.modCore id.core (fun c => { c with reserved := false })
  s.modHart id (fun h =>
    { h with st := .idle, wait := none, safe := none, loops := [], unit := none, fetched := [], pauseTo := 0, late := false
             csr := { h.csr with preempt := 0 }
             busy := { HartBusy.none with nextSeq := h.busy.nextSeq, sbNext := h.busy.sbNext, loadNext := h.busy.loadNext, sent := h.busy.sent } })

/-- The withdrawals that the issuing core sends for the watches of a slot whose epoch changes (R124). -/
def State.withdraw (s : State) (id : HartId) : State :=
  ((s.hart id).busy.mbx.filter (fun w => !w.own)).foldl (fun s w => s.send (s.withdrawal id w) false) s

/-- A unit ends with a status and a cause; its slot is free and the slot's epoch changes (R124, R170). -/
def State.endUnit (s : State) (id : HartId) (status : Nat) (cause : BitVec 8) : State :=
  let u := (s.hart id).unit
  let s := (s.withdraw id).freeSlot id
  let s := s.modCore id.core (fun c => { c with watches := c.watches.filter (fun w => w.src != id) })
  match u with
  | some (k, l, n) => s.unitDone k l n status cause
  | none => s

/-- What a hart has asked of the banks of its vault for its instruction and for the commands that stand in its queues, given up. -/
def State.dropAsked (s : State) (id : HartId) : State :=
  ((s.hart id).busy.queues.flatMap (fun (q : Nat × List Cmd) => q.2)).foldl (fun s c => s.dropReads c.home (.cmd id c.seq))
    (s.dropReads id.home (.instr id))

/-- A unit is killed (R163): what stands in its engine queues is discarded, its epoch changes, and it completes once the
commands that have left their queues have signalled. One that is saved does not resume; of one that is taken nothing is saved. -/
def State.killUnit (s : State) (id : HartId) (cause : BitVec 8) : State :=
  let s := (((s.withdraw id).clearLock id).dropLease id).dropAsked id
  let s := s.modCore id.core (fun c => { c with watches := c.watches.filter (fun w => w.src != id) })
  let s := s.modCluster (clusterOf id.home) (fun c =>
    { c with saves := c.saves.filter (fun v => v.who != id), saving := c.saving.filter (· != id) })
  s.modHart id (fun h =>
    { h with wait := some (.killed cause), safe := none, epoch := h.epoch + 1, loops := [], st := if id.kept then .saved else .running
             csr := { h.csr with preempt := setBits h.csr.preempt 0 4 0 }
             busy := { h.busy with queues := [], fills := [], acq := [], mbx := [], mbxEnd := none, walked := []
                                   xact := h.busy.xact.bind (fun x => if x.committing then some x else none)
                                   play := h.busy.play.map (·.stop 0), plays := h.busy.plays.map (·.stop 0) } })

/-- Whether the messages to this device that write are performed: the completion of a unit is a release of device scope (R147, R161); a
register that awaits its fill is abandoned (R170). -/
def State.released (s : State) (id : HartId) : Bool := (s.hart id).busy.posted.all (fun p => !p.writes || !s.ownDev p.dev)

/-- Whether a killed unit has nothing under way, a commit that had sent its locks among it (R296). -/
def Hart.killDone (h : Hart) : Bool :=
  h.busy.flights.isEmpty && h.busy.plays.isEmpty && h.busy.play.isNone && h.busy.sb.isEmpty && h.busy.commit.isNone && h.busy.loads.isEmpty &&
  (match h.busy.xact with | some x => x.settled | none => true)

/-! ### Launch records (R382) -/

/-- Word 0 of a launch record: PLACE, GANG, the seals, DEPANY, LABEL, STKLOG, STRIDE. -/
def recFlag (r : List Byte) (n : Nat) : Bool := bits (field r 0 8) n 1 == 1
/-- PLACE. -/
def recPlace (r : List Byte) : Nat := bits (field r 0 8) 0 2
/-- LABEL. -/
def recLabel (r : List Byte) : Nat := bits (field r 0 8) 8 16
/-- STKLOG. -/
def recStklog (r : List Byte) : Nat := bits (field r 0 8) 24 5
/-- STRIDE, unsigned. -/
def recStride (r : List Byte) : Nat := field r 4 4
/-- ENTRY. -/
def recEntry (r : List Byte) : Nat := field r 8 6
/-- LRTAB. -/
def recLrtab (r : List Byte) : Nat := field r 14 6
/-- STKBASE. -/
def recStkbase (r : List Byte) : Nat := field r 20 6
/-- PLACEARG. -/
def recArg (r : List Byte) : Nat := field r 26 6
/-- Units of the grid: X × Y × Z. -/
def recUnits (r : List Byte) : Nat := field r 32 4 * field r 36 4 * field r 40 4
/-- JOB, PHASE and GRAPH by table. -/
def recId (r : List Byte) (table : Nat) : Nat := field r (50 - 2 * table) 2
/-- The dependence words: LEVEL and ID. -/
def recDeps (r : List Byte) : List (Nat × Nat) :=
  ([0, 1, 2].map (fun k => (field r (52 + 4 * k) 4 % 4, field r (54 + 4 * k) 2))).filter (fun d => d.1 != 0)

/-- The checks of a record that name no item (R383) (DEDUCED, unsafe; log 61). -/
def recBad (r : List Byte) : Bool :=
  recFlag r 7 || decide (bits (field r 0 8) 29 3 ≠ 0) || decide (field r 50 2 ≠ 0) ||
  [0, 1, 2].any (fun k => decide (bits (field r (52 + 4 * k) 4) 2 14 ≠ 0)) || recPlace r == 3 ||
  (decide (1 ≤ recStklog r) && decide (recStklog r ≤ 9)) || decide (21 ≤ recStklog r) ||
  decide (recEntry r % 2 ≠ 0) || decide (recLrtab r % 64 ≠ 0) ||
  (decide (recStklog r ≠ 0) && decide (recStkbase r % 2 ^ recStklog r ≠ 0)) ||
  (recPlace r == 0 && (decide (recStride r < 1) || decide (2048 < recStride r) || decide (recArg r % 2 ≠ 0))) ||
  (recPlace r == 2 && decide (recStride r ≠ 0)) || decide (2 ^ 32 - 1 < recUnits r)

/-- The items that a record names: its graph, phase and job. -/
def State.recItem (s : State) (k : Nat) (r : List Byte) (table : Nat) : Item := s.item k table (recId r table)

/-- The checks of a record against the items it names (R383): their context, DONE items, parents, sealed items. -/
def State.recRefused (s : State) (k ccb : Nat) (r : List Byte) : Bool :=
  let g := s.recItem k r 1
  let p := s.recItem k r 2
  let j := s.recItem k r 3
  [g, p, j].any (fun i => i.used && (i.ccb != ccb || i.st == .done)) ||
  (p.used && (p.parent != recId r 3 || !j.used)) || (g.used && (g.parent != recId r 2 || !p.used)) ||
  (g.used && g.isSealed) || (!g.used && p.used && p.isSealed) || (!p.used && j.used && j.isSealed)

/-- The item that a dependence word names when the record is accepted (R384). -/
def State.depOf (s : State) (k : Nat) (r : List Byte) (d : Nat × Nat) : Option (Nat × Nat) :=
  match d.1 with
  | 1 =>
    if !(s.recItem k r 1).used then none
    else
      let c := (s.stk k).launches.filter (fun e => e.2.item.used && e.2.item.parent == recId r 1 && recLabel e.2.record == d.2)
      (c.foldl (fun b e => match b with | none => some e | some x => if x.2.num < e.2.num then some e else some x) none).map (fun e => (0, e.1))
  | 2 => if (s.item k 1 d.2).used && (s.recItem k r 2).used && (s.item k 1 d.2).parent == recId r 2 then some (1, d.2) else none
  | _ => if (s.item k 2 d.2).used && (s.recItem k r 3).used && (s.item k 2 d.2).parent == recId r 3 then some (2, d.2) else none

/-- An item created, OPEN, whose parent's LIVE counts it (R161, R383). -/
def State.addItem (s : State) (k table id parent ccb : Nat) : State :=
  let s := s.modItem k table id (fun i =>
    { i with used := true, st := .opened, isSealed := false, status := 0, live := 0, errcause := 0, errunit := 0, parent := parent, ccb := ccb })
  if table < 3 then s.modItem k (table + 1) parent (fun i => { i with live := i.live + 1 }) else s

/-- The items of a record that do not exist yet, created (R383). -/
def State.addItems (s : State) (k ccb : Nat) (r : List Byte) : State :=
  let add (s : State) (table parent : Nat) : State :=
    if (s.recItem k r table).used then s else s.addItem k table (recId r table) parent ccb
  add (add (add s 3 0) 2 (recId r 3)) 1 (recId r 2)

/-- The seals of a record applied, and what they complete (R160, R161). -/
def State.applySeals (s : State) (k : Nat) (r : List Byte) : State :=
  let one (s : State) (flag table : Nat) : State := if recFlag r flag then s.modItem k table (recId r table) Item.seal else s
  let s := one (one (one s 3 1) 4 2) 5 3
  ((s.settleItem k 2 (recId r 1)).settleItem k 1 (recId r 2)).settleItem k 0 (recId r 3)

/-- The lowest free entry of a launch table (R385). -/
def State.freeLaunch (s : State) (k : Nat) : Option Nat :=
  (List.range 4096).find? (fun l => !(s.launchOf k l).item.used)

/-- No unit of a launch is dispatched any more: those that have not been no longer count (R163). -/
def State.stopLaunch (s : State) (k l : Nat) : State :=
  s.modLaunch k l (fun x =>
    let left := recUnits x.record - x.next - x.sent.length
    { x with next := recUnits x.record, sent := [], item := { x.item with live := x.item.live - left } })

/-- A launch that a record creates: LSLOT, and the state with the items, the launch, its dependences and the seals (R160, R161,
R382 to R384). A missing dependence ends it with ERROR, a cancelled item above it with CANCELLED (DEDUCED, unsafe; log 60). -/
def State.createLaunch (s : State) (k l ccb hq prio : Nat) (ptroot : Word) (r : List Byte) : State :=
  let deps := (recDeps r).map (s.depOf k r)
  let missing := deps.any (·.isNone)
  let s := s.addItems k ccb r
  let gone := s.cancelledUp k 2 (recId r 1)
  let s := s.modLaunch k l (fun x =>
    { x with item := { x.item with used := true, st := .sealed, isSealed := true, status := if missing then 2 else 0, live := recUnits r,
                                   errcause := 0, errunit := 0, parent := recId r 1, ccb := ccb }
             record := r, hq := hq, prio := prio, ptroot := ptroot, num := (s.stk k).launchNum, deps := deps.filterMap id
             ready := none, since := 0, boost := 0, next := 0, sent := [] })
  let s := s.modStk k (fun t => { t with launchNum := t.launchNum + 1 })
  let s := s.modItem k 1 (recId r 1) (fun i => { i with live := i.live + 1 })
  let s := if missing || gone then (s.stopLaunch k l).settleItem k 3 l else s
  s.applySeals k r

/-- What a flushed record does to the items it names: those of the context that exist and are not DONE (R381). -/
def State.flushRecord (s : State) (k ccb : Nat) (r : List Byte) : State :=
  let own (t : Nat) : Bool := (s.recItem k r t).open_ && (s.recItem k r t).ccb == ccb
  let s := if own 1 && !(s.recItem k r 1).isSealed then
      (s.modItem k 1 (recId r 1) (fun i => { i with live := i.live + 1 })).childDone k 2 (recId r 1) 2 0 0
    else s
  let one (s : State) (flag table : Nat) : State :=
    if own table && recFlag r flag then s.modItem k table (recId r table) Item.seal else s
  let s := one (one (one s 3 1) 4 2) 5 3
  let up (s : State) (n table : Nat) : State := if own table then s.settleItem k n (recId r table) else s
  up (up (up s 2 1) 1 2) 0 3

/-! ### Handles (R256) -/

/-- An item as a handle names it: stack, table and ID, or the status of a handle that names none: 0xFE stale, 0xFF invalid. -/
def State.handle (s : State) (v : Word) : Except Word (Nat × Nat × Nat) :=
  let level := wbits v 0 3
  let k := wbits v 8 2
  let id := wbits v 16 16
  if level = 0 ∨ 4 < level ∨ wbits v 3 5 ≠ 0 ∨ wbits v 10 6 ≠ 0 ∨ wbits v 48 16 ≠ 0 ∨ (level = 1 ∧ 4096 ≤ id) then .error 0xFF
  else
    let i := s.item k (level - 1) id
    if i.gen.toNat ≠ wbits v 32 16 then .error 0xFE
    else if !i.used then .error 0xFF
    else .ok (k, level - 1, id)

/-- Whether a hart may act on an item (R256): a unit on those of its own job, a handler context and a management core by
privilege. -/
def State.mayAct (s : State) (id : HartId) (e : Nat × Nat × Nat) : Bool :=
  if id.kind = .thread then
    match (s.hart id).unit with
    | none => false
    | some (k, l, _) => k == e.1 && s.beneath k e.2.1 e.2.2 3 (s.above k l 3)
  else decide (1 ≤ (s.hart id).priv)

/-- The item that a handle names for the issuing hart, or the status that it gives. -/
def State.ownItem (s : State) (v : Word) : Except Word (Nat × Nat × Nat) :=
  match s.handle v with
  | .error e => .error e
  | .ok e => if s.mayAct s.cur e then .ok e else .error 0xFF

/-- The handle of an item (R256). -/
def State.handleOf (s : State) (k table id : Nat) : Word :=
  BitVec.ofNat 64 (table + 1 + k * 256 + id * 2 ^ 16 + (s.item k table id).gen.toNat * 2 ^ 32)

/-! ### LAUNCH, CANCEL, WAITCTR -/

/-- LAUNCH creates a launch from a record that has been read (R257, R383). -/
def launchRecord (ik : Code) (hd : Head) (d : Reg) (r : List Byte) (s : State) : State :=
  match s.me.unit with
  | none => writeRd ik hd d allOnes s
  | some (k, l, _) =>
    match s.freeLaunch k with
    | none => stall s
    | some n =>
      let own := s.launchOf k l
      let g := s.recItem k r 1
      if recBad r || s.recRefused k own.item.ccb r || !g.used || g.st != .opened || recId r 3 != s.above k l 3 then
        writeRd ik hd d allOnes s
      else
        let t := s.createLaunch k n own.item.ccb own.hq (wbits s.me.csr.launchid 22 2) s.me.csr.ptroot r
        writeRd ik hd d (t.handleOf k 0 n) t

/-- LAUNCH (R257): the record is read by ordinary loads; the launch is created once every earlier access in the device is
performed. -/
def execLaunch (hd : Head) (d a : Reg) (s : State) : Host.Outcome State Fault Refusal :=
  let ik := codeOf (.launch hd d a)
  .next (issueOwn ik hd 0 s.noCtx s.lockBar [.x a] [.x d] (fun s =>
    withBlock (s.rx a) 128 16 (fun r s => if s.performed s.cur 4 false then launchRecord ik hd d r s else stall s) s) s)

/-- A launch beneath a cancelled item: nothing more is dispatched, running units are to be killed, and so are taken ones; saved
units are killed where they are kept (R163, R398). -/
def State.cancelLaunch (s : State) (k l : Nat) : State :=
  let mine (u : Option (Nat × Nat × Nat)) : Bool := match u with | some (k', l', _) => k' == k && l' == l | none => false
  let s := s.stopLaunch k l
  let units := s.harts.filter (fun (e : HartId × Hart) => mine e.2.unit)
  let run := (units.filter (fun e => e.2.occupied)).map (·.1)
  let kept := (units.filter (fun e => e.1.kept && e.2.st == .saved && e.2.wait.isNone)).map (·.1)
  let s := run.foldl (fun s h => s.preemptSet1 h (wbit (s.hart h).csr.preempt 0) true) s
  (kept.foldl (fun s h => s.killUnit h 0) s).settleItem k 3 l

/-- CANCEL of an item (R161, R163): it and everything beneath it become CANCELLING, and what has nothing live completes. -/
def State.cancelItem (s : State) (k table id : Nat) : State :=
  let t := s.stk k
  let pick (tb : Nat) (ids : List Nat) : List Nat := ids.filter (fun i => (s.item k tb i).open_ && s.beneath k tb i table id)
  let ls := pick 0 (t.launches.map (·.1))
  let gs := pick 1 (t.graphs.map (·.1))
  let ps := pick 2 (t.phases.map (·.1))
  let js := pick 3 (t.jobs.map (·.1))
  let mark (tb : Nat) (ids : List Nat) (s : State) : State :=
    ids.foldl (fun s i => s.modItem k tb i (fun x => { x with st := .cancelling })) s
  let s := mark 3 js (mark 2 ps (mark 1 gs (mark 0 ls s)))
  let s := ls.foldl (fun s l => s.cancelLaunch k l) s
  let s := gs.foldl (fun s i => s.settleItem k 2 i) s
  let s := ps.foldl (fun s i => s.settleItem k 1 i) s
  js.foldl (fun s i => s.settleItem k 0 i) s

/-- CANCEL (R258): a status for the handle; an item that is DONE stays as it is (R164). -/
def execCancel (hd : Head) (d a : Reg) (s : State) : Host.Outcome State Fault Refusal :=
  let ik := codeOf (.cancel hd d a)
  .next (issue ik hd 0 true [.x a] [.x d] (fun s =>
    match s.ownItem (s.rx a) with
    | .error v => writeRd ik hd d v s
    | .ok (k, t, i) =>
      if (s.item k t i).st = .done then writeRd ik hd d 1 s
      else writeRd ik hd d 0 (s.cancelItem k t i)) s)

/-- WAITCTR (R259): it waits until the item is DONE and gives its status. -/
def execWaitctr (hd : Head) (d a : Reg) (s : State) : Host.Outcome State Fault Refusal :=
  let ik := codeOf (.waitctr hd d a)
  .next (issueOwn ik hd 0 s.noCtx s.lockBar [.x a] [.x d] (fun s =>
    match s.ownItem (s.rx a) with
    | .error v => writeRd ik hd d v s
    | .ok (k, t, i) =>
      if (s.item k t i).st = .done then writeRd ik hd d (BitVec.ofNat 64 (s.item k t i).status) s
      else stallAt hd .stall true s) s)

end Sys2Proof.Machine
end

