-- ==== Sys2Proof/Machine/SchedEvents.lean ====
section
/-! DEFINITION. Sys2Proof/Machine/SchedEvents.lean: the events of the launch scheduler: the hardware queues and their rings (R377 to
R381), ready launches, placement and dispatch (R165 to R169, R384 to R387), the end of units (R170) and the release of jobs (R256). -/

namespace Sys2Proof.Machine

/-- A step taken where it can happen; where it cannot, its turn passes (DEDUCED, safe; log 12). -/
def when (ready : Bool) (f : State → State) (s : State) : Host.Outcome State Fault Refusal := .next (if ready then f s else s)

/-! ### Rings -/

/-- Address of the record at HQHEAD (R378). -/
def Hq.ringPa (q : Hq) : Nat := q.base.toNat + q.head.toNat % q.size * 128

/-- Whether the record at HQHEAD of a queue waits for a held line (R152). -/
def State.ringHeld (s : State) (q : Nat) : Bool := s.heldAt (s.hq q).ringPa 128

/-- The record at HQHEAD, or the cause with which its read fails (R377, R380). -/
def State.ringRead (s : State) (q : Nat) : Except Nat (List Byte) :=
  let pa := (s.hq q).ringPa
  if s.malformed pa || !(region pa == 0 || (decide (8 ≤ region pa) && decide (region pa ≤ 0xB))) then .error 0x05
  else if (s.badWord pa 128).isSome then .error 0x0B
  else .ok (s.readBytes pa 128)

/-- Whether a record stands at HQHEAD of a queue in some state. -/
def State.recordAt (s : State) (q st : Nat) : Bool := (s.hq q).st == st && (s.hq q).head != (s.hq q).tail

/-- FLUSHED counted up, saturating (R379), and HQHEAD advanced. -/
def State.flushOne (s : State) (q : Nat) : State :=
  s.modHq q (fun h => { h with head := h.head + 1, flushed := if h.flushed = 0xFFFFFF then h.flushed else h.flushed + 1 })

/-- The context of a queue (R395). -/
def Hq.context (q : Hq) : Nat := q.ccb.toNat

/-- LAUNCH_RECORD_ACCEPT can happen: the queue is ACTIVE, a record is present, no line of it is held, and the launch table has room (R152,
R380, R385). -/
def launchRecordAcceptReady (q : Nat) (s : State) : Bool := s.recordAt q 1 && !s.ringHeld q && (s.freeLaunch (q / 16)).isSome

/-- LAUNCH_RECORD_ACCEPT (R380, R383). -/
def launchRecordAcceptEffect (q : Nat) (s : State) : State :=
  let h := s.hq q
  let k := q / 16
  match s.ringRead q with
  | .error c => s.queueError q c
  | .ok r =>
    if recBad r || s.recRefused k h.context r then ((s.queueError q 0x02).flushRecord k h.context r).flushOne q
    else
      match s.freeLaunch k with
      | none => s
      | some l => (s.createLaunch k l h.context q (wbits h.ctl 1 2) h.root r).modHq q (fun h => { h with head := h.head + 1 })

/-- LAUNCH_RECORD_ACCEPT. -/
def execLaunchRecordAccept (q : Nat) (s : State) : Host.Outcome State Fault Refusal :=
  when (launchRecordAcceptReady q s) (launchRecordAcceptEffect q) s

/-- RECORD_FLUSH can happen (R152, R380). -/
def recordFlushReady (q : Nat) (s : State) : Bool := s.recordAt q 2 && !s.ringHeld q

/-- RECORD_FLUSH (R381): a record that cannot be read names no item. -/
def recordFlushEffect (q : Nat) (s : State) : State :=
  let s1 := match s.ringRead q with
    | .error _ => s
    | .ok r => s.flushRecord (q / 16) (s.hq q).context r
  s1.flushOne q

/-- RECORD_FLUSH. -/
def execRecordFlush (q : Nat) (s : State) : Host.Outcome State Fault Refusal := when (recordFlushReady q s) (recordFlushEffect q) s

/-! ### Ready launches (R165, R384, R386) -/

/-- A launch that is ready and has units to dispatch. -/
def Launch.waiting (x : Launch) : Bool :=
  x.item.used && x.item.st == .sealed && x.ready.isSome && decide (x.next + x.sent.length < recUnits x.record)

/-- A launch that is ready and has not dispatched a unit that it has to, or has none (R165, R386). -/
def Launch.queued (x : Launch) : Bool :=
  x.item.used && x.item.st == .sealed && x.ready.isSome && (x.waiting || recUnits x.record == 0)

/-- A ganged launch (R167). -/
def Launch.gang (x : Launch) : Bool := recFlag x.record 2

/-- Effective priority (R386). -/
def Launch.effective (x : Launch) : Nat := min 3 (x.prio + x.boost)

/-- Every launch of every stack, with its stack and entry. -/
def State.launches (s : State) : List (Nat × Nat × Launch) :=
  (s.stks.map (fun (e : Nat × Stack) => e.2.launches.map (fun (l : Nat × Launch) => (e.1, l.1, l.2)))).flatten

/-- Whether one launch ranks before another: effective priority, then the time it became ready, then LSLOT (R386). -/
def before (a b : Nat × Nat × Launch) : Bool :=
  let ra := a.2.2.ready.getD 0
  let rb := b.2.2.ready.getD 0
  decide (b.2.2.effective < a.2.2.effective) ||
  (a.2.2.effective == b.2.2.effective && (decide (ra < rb) || (ra == rb && (decide (a.2.1 < b.2.1) || (a.2.1 == b.2.1 && decide (a.1 < b.1))))))

/-- Whether a launch stands at the head of the order of its stack's scheduler (R165). -/
def State.atHead (s : State) (k l : Nat) : Bool :=
  let x := s.launchOf k l
  s.launches.all (fun y => y.1 != k || y.2.1 == l || !y.2.2.queued || !before y (k, l, x))

/-- LAUNCH_READY can happen: every named item is DONE; of a launch of no unit that is ready, when it has come to the head (R165). -/
def launchReadyReady (k l : Nat) (s : State) : Bool :=
  let x := s.launchOf k l
  x.item.used && x.item.st == .sealed &&
  (if x.ready.isNone then x.deps.all (fun d => (s.item k d.1 d.2).st == .done) else recUnits x.record == 0 && s.atHead k l)

/-- A launch ends with a status and dispatches nothing more. -/
def State.endLaunch (s : State) (k l : Nat) (f : Item → Item) : State :=
  ((s.stopLaunch k l).modItem k 0 l f).settleItem k 3 l

/-- LAUNCH_READY (R384): a dependence that ended CANCELLED or ERROR cancels the launch unless DEPANY. A launch of no unit is ready as
any other, and completes when it would have dispatched its first unit (R165) (DEDUCED, unsafe; log 62). -/
def launchReadyEffect (k l : Nat) (s : State) : State :=
  let x := s.launchOf k l
  if x.ready.isSome then s.endLaunch k l id
  else if !recFlag x.record 6 && x.deps.any (fun d => (s.item k d.1 d.2).status != 0) then
    s.endLaunch k l (fun i => { i with st := .cancelling })
  else s.modLaunch k l (fun x => { x with ready := some s.clk, since := s.clk, boost := 0 })

/-- LAUNCH_READY. -/
def execLaunchReady (stack lslot : Nat) (s : State) : Host.Outcome State Fault Refusal :=
  when (launchReadyReady stack lslot s) (launchReadyEffect stack lslot) s

/-- PRIORITY_AGING can happen: another full 52,500 clk ready without dispatching. -/
def priorityAgingReady (k l : Nat) (s : State) : Bool :=
  let x := s.launchOf k l
  x.queued && decide (x.effective < 3) && decide (x.since + (x.boost + 1) * Config.ageStep ≤ s.clk)

/-- PRIORITY_AGING (R386). -/
def priorityAgingEffect (k l : Nat) (s : State) : State := s.modLaunch k l (fun x => { x with boost := x.boost + 1 })

/-- PRIORITY_AGING. -/
def execPriorityAging (stack lslot : Nat) (s : State) : Host.Outcome State Fault Refusal :=
  when (priorityAgingReady stack lslot s) (priorityAgingEffect stack lslot) s

/-! ### Placement (R166) -/

/-- The context control block of a launch, by byte offset (R395). -/
def State.ccb (s : State) (x : Launch) (off n : Nat) : Nat := s.readNum (x.item.ccb + off) n

/-- REPSET of a context as a slot stores it (R29, R395). -/
def State.ccbRepset (s : State) (x : Launch) : Word := BitVec.ofNat 64 (bits (s.ccb x 56 8) 11 37 * 2048)

/-- Whether a line of the context control block of a launch is held: what reads it waits (R152). -/
def State.ccbHeld (s : State) (x : Launch) : Bool := s.heldAt x.item.ccb 64

/-- What the scheduler finds, or why not: the cause with which its read fails, or none while it waits for a held line (R152). -/
abbrev Found (α : Type) := Except (Option (BitVec 8)) α

/-- The leaf of an address under the PTROOT of a launch, or the cause with which its translation fails. -/
def State.schedLeaf (s : State) (x : Launch) (va : Word) : Found (TlbEnt × Nat) :=
  if s.ccbHeld x then .error none
  else if wbits va 48 16 ≠ 0 ∨ wbit x.ptroot 0 = false then .error (some 0x06)
  else
    match s.walk s.readNow x.ptroot (s.ccbRepset x) va.toNat with
    | .fault c => .error (some c)
    | .leaf e =>
      let pa := homePa (e.pa + (va.toNat - e.va))
      if e.grouped && s.malformed pa then .error (some 0x06) else .ok (e, pa)
    | _ => .error none

/-- A kernel-level ordinary load of placement data, or the cause of the check of R19 that it fails. -/
def State.schedLoad (s : State) (x : Launch) (va n : Nat) : Found Nat :=
  if va % n ≠ 0 then .error (some 0x04)
  else
    match s.schedLeaf x (BitVec.ofNat 64 va) with
    | .error c => .error c
    | .ok (e, pa) =>
      if !e.r || !e.u then .error (some 0x07)
      else if region pa = 3 ∨ region pa = 4 then .error (some 0x03)
      else if e.rep.isSome || s.malformed pa || region pa == 2 then .error (some 0x05)
      else if s.heldAt pa n then .error none
      else if (s.badWord pa n).isSome then .error (some 0x0B)
      else .ok (s.readNum pa n)

/-- Where a unit is placed: a core, or a cluster. -/
inductive Target where
  | core (c : Nat)
  | cluster (c : Nat)
  deriving DecidableEq, Repr

/-- A cluster mask, read as four 8-byte loads of which the first that fails decides (R166) (DESIGN CHOICE, unsafe; log 106). -/
def State.clusterMask (s : State) (x : Launch) : Found Nat :=
  let a := recArg x.record
  match s.schedLoad x a 8, s.schedLoad x (a + 8) 8, s.schedLoad x (a + 16) 8, s.schedLoad x (a + 24) 8 with
  | .error c, _, _, _ => .error c
  | _, .error c, _, _ => .error c
  | _, _, .error c, _ => .error c
  | _, _, _, .error c => .error c
  | .ok p, .ok q, .ok r, .ok t => .ok (p + q * 2 ^ 64 + r * 2 ^ 128 + t * 2 ^ 192)

/-- The clusters of a mask in ascending order. -/
def clustersOf (m : Nat) : List Nat := (List.range 256).filter (fun c => bits m c 1 == 1)

/-- The cores of a cluster. -/
def coresOf (cl : Nat) : List Nat := (List.range 8).map (fun i => 8 * cl + i)

/-- Whether a cluster is one on which a context may place units: in its partition, and under lockstep a leader whose trailer is
in it too, with no lasting fault on a core of the pair (R395, R402, R414). LOCKSTEP counts where the configuration record lets contexts
request it (R411). -/
def State.inPartition (s : State) (x : Launch) (c : Nat) : Bool :=
  let m := s.ccb x 16 32
  bits m c 1 == 1 &&
  (!s.dev.cfg.lockstep || bits (s.ccb x 0 8) 0 1 == 0 ||
    (c % 2 == 0 && bits m (c + 1) 1 == 1 && (coresOf c ++ coresOf (c + 1)).all (fun n => !s.dev.lasting.contains (.core n))))

/-- The placement of a unit, or the cause with which it fails (R166). A home that lies in a replicated page, which R30 resolves for an
issuing core, has cause 0x05 (DESIGN CHOICE, unsafe; log 107). -/
def State.placeOf (s : State) (x : Launch) (u : Nat) : Found Target :=
  let r := x.record
  let onCore (c : Nat) : Found Target :=
    if (s.core c).retired || !s.inPartition x (clusterOf c) then .error (some 0x05) else .ok (.core c)
  if s.ccbHeld x then .error none
  else match recPlace r with
  | 0 =>
    match s.schedLoad x (recArg r + 2 * (u % recStride r)) 2 with
    | .error c => .error c
    | .ok v => if 2048 ≤ v then .error (some 0x02) else onCore v
  | 1 =>
    let va : Word := BitVec.ofNat 64 (recArg r) + BitVec.ofInt 64 ((u : Int) * sfield r 4 4)
    match s.schedLeaf x va with
    | .error c => .error c
    | .ok (e, pa) => if region pa ≠ 0 ∨ e.rep.isSome = true ∨ 2 ^ 39 ≤ pa then .error (some 0x05) else onCore (paCore pa)
  | _ =>
    match s.clusterMask x with
    | .error c => .error c
    | .ok m =>
      match clustersOf m with
      | [] => .error (some 0x02)
      | cs =>
        let c := cs.getD (u % cs.length) 0
        if (coresOf c).all (fun n => (s.core n).retired) || !s.inPartition x c then .error (some 0x05) else .ok (.cluster c)

/-! ### Slots -/

/-- A slot that may be bound to a unit: idle or freed by a save, on a core that is not retired, gated, halted or bound to a
resumed group (R182, R397). -/
def State.slotFree (s : State) (id : HartId) : Bool :=
  let c := s.cluster (clusterOf id.core)
  ((s.hart id).st == .idle || ((s.hart id).st == .saved && !c.saving.contains id)) && !(s.core id.core).retired &&
  !(s.core id.core).reserved && !c.gated && !c.halted

/-- The free slots of a core beside some that are taken. -/
def State.freeOn (s : State) (used : List HartId) (core : Nat) : List HartId :=
  (threadsOf core).filter (fun h => s.slotFree h && !used.contains h)

/-- Whether a placed unit can ever use a core. -/
def Target.covers (t : Target) (core : Nat) : Bool :=
  match t with
  | .core c => c == core
  | .cluster c => c == clusterOf core

/-- The lowest-indexed unit, from u on, that waits and may use a slot of a core. -/
def State.firstFor (s : State) (x : Launch) (core n u : Nat) : Option Nat :=
  match n with
  | 0 => none
  | m + 1 =>
    if !x.sent.contains u && (match s.placeOf x u with | .ok t => t.covers core | .error _ => false) then some u
    else s.firstFor x core m (u + 1)

/-- The unit of a launch that is not ganged to which a free slot of a core goes (R386). -/
def State.claim (s : State) (x : Launch) (core : Nat) : Option Nat :=
  if x.waiting && !x.gang then s.firstFor x core (recUnits x.record - x.next) x.next else none

/-- Whether a ganged launch can use a core: some unit of it is placed there. -/
def State.gangCovers (s : State) (x : Launch) (core n u : Nat) : Bool :=
  match n with
  | 0 => false
  | m + 1 => (match s.placeOf x u with | .ok t => t.covers core | .error _ => false) || s.gangCovers x core m (u + 1)

/-- Whether a ganged launch holds the free slots of a core (R387). -/
def State.holds (s : State) (x : Launch) (core : Nat) : Bool :=
  x.waiting && x.gang && x.effective == 3 && s.gangCovers x core (recUnits x.record) 0

/-- Whether the free slots of a core are held for a gang against a launch: for any gang, or where the launch is a gang itself for one that
ranks before it (R386, R387). -/
def State.heldFor (s : State) (y : Nat × Nat × Launch) (core : Nat) : Bool :=
  s.launches.any (fun z => !(z.1 == y.1 && z.2.1 == y.2.1) && (!y.2.2.gang || before z y) && s.holds z.2.2 core)

/-- The core on which a placed unit of a launch would be bound now: in a cluster the lowest-numbered one with a free slot that is held for
no gang (R166, R387). -/
def State.coreNow (s : State) (y : Nat × Nat × Launch) (used : List HartId) (t : Target) : Option Nat :=
  match t with
  | .core c => if (s.freeOn used c).isEmpty then none else some c
  | .cluster c => (coresOf c).find? (fun n => !(s.freeOn used n).isEmpty && !s.heldFor y n)

/-- The placement of every unit of a gang, or the lowest-indexed unit that cannot be placed with its cause. -/
def State.gangPlaces (s : State) (x : Launch) (n u : Nat) : Except (Nat × Option (BitVec 8)) (List Target) :=
  match n with
  | 0 => .ok []
  | m + 1 =>
    match s.placeOf x u with
    | .error c => .error (u, c)
    | .ok t =>
      match s.gangPlaces x m (u + 1) with
      | .error e => .error e
      | .ok r => .ok (t :: r)

/-- Slots that a target can ever supply. -/
def State.supply (s : State) (t : Target) : Nat :=
  match t with
  | .core _ => 4
  | .cluster c => 4 * ((coresOf c).filter (fun n => !(s.core n).retired)).length

/-- Whether a gang has more units than its placement can ever supply slots for (R167). -/
def State.gangTooBig (s : State) (ts : List Target) : Bool := ts.any (fun t => decide (s.supply t < ts.count t))

/-- Free slots for every unit at the same time, in unit order. -/
def State.gangPlan (s : State) (y : Nat × Nat × Launch) (used : List HartId) (ts : List Target) : Option (List HartId) :=
  match ts with
  | [] => some used.reverse
  | t :: r =>
    match s.coreNow y used t with
    | none => none
    | some c =>
      match s.freeOn used c with
      | [] => none
      | h :: _ => s.gangPlan y (h :: used) r

/-- Whether a slot of a core is one that a gang which can be bound now takes (R386). -/
def State.gangWants (s : State) (y : Nat × Nat × Launch) (core : Nat) : Bool :=
  let x := y.2.2
  x.waiting && x.gang && decide (recUnits x.record ≤ 8192) &&
  (match s.gangPlaces x (recUnits x.record) 0 with
   | .error _ => false
   | .ok ts => !s.gangTooBig ts && (match s.gangPlan y [] ts with | some p => p.any (fun h => h.core == core) | none => false))

/-! ### Dispatch (R169) -/

/-- A unit bound to a slot (R169); SAFEMASK.LAST stays that of the slot's most recent save (R396). -/
def State.bind (s : State) (k l u : Nat) (id : HartId) : State :=
  let x := s.launchOf k l
  let r := x.record
  let g := id.core * 4 + id.idx
  let x2 : Word := if recStklog r = 0 then 0 else BitVec.ofNat 64 (recStkbase r + (g + 1) * 2 ^ recStklog r)
  let args : Table Reg Word := (2, x2) :: (List.range 8).map (fun n => (BitVec.ofNat 5 (8 + n), BitVec.ofNat 64 (field r (64 + 8 * n) 8)))
  let tvec : Word := BitVec.ofNat 64 (bits (s.ccb x 48 8) 1 47 * 2)
  let repset := s.ccbRepset x
  let last := wbits (s.hart id).csr.safemask 32 32
  let s := s.modHart id (fun h =>
    { Hart.reset with
      x := args, pc := BitVec.ofNat 64 (recEntry r), st := .running, epoch := h.epoch + 1, unit := some (k, l, u)
      busy := { HartBusy.none with nextSeq := h.busy.nextSeq, sbNext := h.busy.sbNext, loadNext := h.busy.loadNext, sent := h.busy.sent }
      csr := { HartCsrs.reset with
        unitid := BitVec.ofNat 64 u
        launchid := BitVec.ofNat 64 (l + x.hq * 2 ^ 16 + x.prio * 2 ^ 22 + b2n x.gang * 2 ^ 24)
        ptroot := x.ptroot, tvec := tvec, repset := repset, safemask := setBits 0 32 32 last } })
  s.modLaunch k l (fun x => { x with sent := u :: x.sent, since := s.clk, boost := 0 })

/-- The units below NEXT that are no longer listed: NEXT moves past those that have been dispatched. -/
def Launch.advance (x : Launch) (n : Nat) : Launch :=
  match n with
  | 0 => x
  | m + 1 => if x.sent.contains x.next then ({ x with next := x.next + 1, sent := x.sent.filter (· != x.next) } : Launch).advance m else x

/-- A unit that cannot be placed completes with ERROR and is never dispatched (R166, R388). -/
def State.failUnit (s : State) (k l u : Nat) (c : BitVec 8) : State :=
  (s.modLaunch k l (fun x => ({ x with sent := u :: x.sent } : Launch).advance (x.sent.length + 1))).unitDone k l u 2 c

/-- Whether a free slot of a core is one that a launch may take: no launch that ranks before it has a unit which may use it, or is a
gang that can be bound to it now, and no gang holds it (R386, R387). -/
def State.offered (s : State) (k l core : Nat) : Bool :=
  let x := s.launchOf k l
  s.launches.all (fun y => (y.1 == k && y.2.1 == l) ||
    ((!before y (k, l, x) || ((s.claim y.2.2 core).isNone && !s.gangWants y core)) && !s.holds y.2.2 core))

/-! ### Gangs (R167, R387) -/

/-- Whether the slots of a plan are the gang's by R386 and R387: no launch that ranks before it may use a slot of their cores, and
no gang that ranks before it holds one or can be bound to it now. A gang at priority 3 is offered them before every launch that is not ganged. -/
def State.gangMay (s : State) (k l : Nat) (plan : List HartId) : Bool :=
  let x := s.launchOf k l
  s.launches.all (fun y => (y.1 == k && y.2.1 == l) || !before y (k, l, x) ||
    plan.all (fun h => !s.holds y.2.2 h.core && !s.gangWants y h.core && (x.effective == 3 || (s.claim y.2.2 h.core).isNone)))

/-! ### The end of units and jobs -/

/-- UNIT_END can happen: EXIT has drained (R170), or the commands of a killed unit have signalled (R163); and what comes before the
release that completion is has been performed (R161). -/
def unitEndReady (id : HartId) (s : State) : Bool :=
  let h := s.hart id
  match h.wait with
  | some .exit => h.drained && h.busy.loads.isEmpty && s.released id
  | some (.killed _) => h.killDone && s.released id
  | _ => false

/-- The cause recorded for a unit that ends at EXIT: its trap's inside the handler (R389), or that of the lowest-numbered token
whose fault has not been raised (R170). -/
def Hart.exitFault (h : Hart) : Option (BitVec 8) :=
  if h.inTrap then some (h.csr.tcause.extractLsb' 0 8)
  else (([0, 1, 2, 3, 4, 5, 6, 7] : List (BitVec 3)).find? (fun k => (h.tok k).fault)).map (fun k => (h.tok k).record.extractLsb' 0 8)

/-- UNIT_END (R163, R170). -/
def unitEndEffect (id : HartId) (s : State) : State :=
  let h := s.hart id
  match h.wait with
  | some (.killed c) => s.endUnit id 1 c
  | _ =>
    match h.exitFault with
    | some c => s.endUnit id 2 c
    | none => s.endUnit id 0 0

/-- UNIT_END. -/
def execUnitEnd (h : HartId) (s : State) : Host.Outcome State Fault Refusal := when (unitEndReady h s) (unitEndEffect h) s

/-- JOB_RELEASE can happen: the job has completed (R256, R385). -/
def jobReleaseReady (k j : Nat) (s : State) : Bool := (s.item k 3 j).used && (s.item k 3 j).st == .done

/-- An entry reclaimed: unused, with the next generation (R256). -/
def Item.reclaim (i : Item) : Item := { Item.unused with gen := i.gen + 1 }

/-- JOB_RELEASE (R256): the entries of the job and of everything beneath it are reclaimed. -/
def jobReleaseEffect (k j : Nat) (s : State) : State :=
  let mine (t i : Nat) : Bool := (s.item k t i).used && s.beneath k t i 3 j
  s.modStk k (fun t => { t with
    launches := t.launches.map (fun (e : Nat × Launch) => if mine 0 e.1 then (e.1, { Launch.unused with item := e.2.item.reclaim }) else e)
    graphs := t.graphs.map (fun (e : Nat × Item) => if mine 1 e.1 then (e.1, e.2.reclaim) else e)
    phases := t.phases.map (fun (e : Nat × Item) => if mine 2 e.1 then (e.1, e.2.reclaim) else e)
    jobs := t.jobs.map (fun (e : Nat × Item) => if mine 3 e.1 then (e.1, e.2.reclaim) else e) })

/-- JOB_RELEASE. -/
def execJobRelease (stack job : Nat) (s : State) : Host.Outcome State Fault Refusal :=
  when (jobReleaseReady stack job s) (jobReleaseEffect stack job) s

end Sys2Proof.Machine
end

