-- ==== Sys2Proof/Machine/MemEvents.lean ====
section
/-! DEFINITION. Sys2Proof/Machine/MemEvents.lean: loads that return and stores that become visible (R133 to R137), pool banks and their
locks (R84, R95), and the walker pool (R23, R33, R34). -/

namespace Sys2Proof.Machine

/-! ### LOAD_COMPLETE (R268) -/

/-- The bytes of one part of a load: those bound already, otherwise those at the home (R134, R135). -/
def State.loadPart (s : State) (got : List Host.Cell) (p : Nat × Nat) : List Byte :=
  let bs := if region p.1 = 2 then bytesOf p.2 ((s.core (bits p.1 8 11)).counter (bits p.1 2 6)).toNat else s.homeBytes p
  (bs.zipIdx).map (fun (b, k) => ((got.find? (fun c => c.1 == p.1 + k)).map (·.2)).getD b)

/-- The units of an access to some parts (R134): each aligned 8-byte word that lies wholly within it, and what the parts touch of any
other. -/
def unitsOf (parts : List (Nat × Nat)) : List (Nat × Nat) :=
  let words := (parts.flatMap (fun p => (List.range ((p.1 % 8 + p.2 + 7) / 8)).map (fun k => p.1 / 8 + k))).eraseDups
  words.flatMap (fun w =>
    let here := (parts.filter (fun p => decide (p.1 < 8 * w + 8) && decide (8 * w < p.1 + p.2))).map (fun p =>
      let lo := max p.1 (8 * w)
      (lo, min (p.1 + p.2) (8 * w + 8) - lo))
    if (List.range 8).all (fun k => here.any (fun p => decide (p.1 ≤ 8 * w + k) && decide (8 * w + k < p.1 + p.2))) then [(8 * w, 8)]
    else here.eraseDups)

/-- Whether parts of a load can be bound: the banks of their homes have served its lines, and no line is held (R51, R84, R152). -/
def State.partsReady (s : State) (id : HartId) (l : LoadEnt) (parts : List (Nat × Nat)) : Bool :=
  (parts.all (fun p => region p.1 != 1) || l.pool == 0) && s.readReady (.load id l.num) parts && parts.all (fun p => !s.heldAt p.1 p.2)

/-- A unit of the oldest load of a hart bound ahead of the others (R134); what a bank of a pool serves is bound by that access (R83). -/
def State.loadUnit (s : State) (id : HartId) (num n : Nat) : State :=
  match (s.hart id).busy.loads with
  | [] => s
  | l :: r =>
    match (unitsOf l.parts)[n]? with
    | none => s
    | some u =>
      if l.num ≠ num ∨ region u.1 = 1 ∨ region u.1 = 2 ∨ region u.1 = 4 ∨ bound l.got u = true ∨ s.partsReady id l [u] = false then s
      else
        let cells := (s.readBytes u.1 u.2).zipIdx.map (fun (b, k) => ((u.1 + k, b) : Host.Cell))
        s.modHart id (fun h => h.modBusy (fun b => { b with loads := { l with got := l.got ++ cells } :: r }))

/-- A loaded value written to its destination (R268, R271, R298). -/
def State.writeDst (s : State) (id : HartId) (d : LoadDst) (bs : List Byte) : State :=
  let v := ofBytes bs
  match d with
  | .x r sx => s.modHart id (fun h => h.wx r (loaded v bs.length sx))
  | .v r => s.modHart id (fun h => h.wv r (BitVec.ofNat 256 v))
  | .w r => s.modCore id.home (fun c => c.ww r (BitVec.ofNat 16384 v))

/-- LOAD_COMPLETE can happen: every part of the oldest load of the hart is bound or can be (R135, R152) (DEDUCED, unsafe; log 18). -/
def loadCompleteReady (id : HartId) (s : State) : Bool :=
  match (s.hart id).busy.loads with
  | [] => false
  | l :: _ => s.partsReady id l (l.parts.filter (fun p => !bound l.got p))

/-- LOAD_COMPLETE (R135, R268): the value is bound and written; a read of the own vault is recorded in VLAST (R67). -/
def loadCompleteEffect (id : HartId) (s : State) : State :=
  match (s.hart id).busy.loads with
  | [] => s
  | l :: r =>
    let me : Reader := .load id l.num
    let bs := l.parts.flatMap (s.loadPart l.got)
    let s := l.parts.foldl (fun s p => s.touchPart p) s
    let s := (s.modHart id (fun h => h.modBusy (fun b => { b with loads := r }))).writeDst id l.dst bs
    let s :=
      if l.asks.isEmpty then s
      else
        let v := s.reading id.home me
        (s.noteVlast id v.vst v.waited v.hit).dropReads id.home me
    s.settle id

/-- LOAD_COMPLETE. -/
def execLoadComplete (h : HartId) (s : State) : Host.Outcome State Fault Refusal := when (loadCompleteReady h s) (loadCompleteEffect h) s

/-! ### STORE_VISIBLE (R135) -/

/-- One part of a store accepted at its home (R132); none where the home cannot accept it now. -/
def State.storePart (s : State) (id : HartId) (e : SbEnt) (p : Nat × Nat × Word) : Option State :=
  if region p.1 = 0 ∧ s.heldAt p.1 p.2.1 then none
  else if region p.1 = 2 then some (s.counterSet (bits p.1 8 11) (bits p.1 2 6) (p.2.2.setWidth 32))
  else if region p.1 = 4 then
    match s.mmioStore p.1 p.2.1 p.2.2 with
    | .ok t => some t
    | .trap => some s
    | .wait => none
  else s.storeBytes e.port p.1 (bytesOf p.2.1 p.2.2.toNat) ⟨id, e.asid, false⟩

/-- Parts of a store accepted, in their order. -/
def State.storeParts (s : State) (id : HartId) (e : SbEnt) (ps : List (Nat × Nat × Word)) : Option State :=
  match ps with
  | [] => some s
  | p :: r =>
    match s.storePart id e p with
    | none => none
    | some t => t.storeParts id e r

/-- What comes before a store: the loads before it (R135); for a release, the messages before it (R141); and the messages that a
FENCE.REL orders before it (R140). -/
def Hart.storeDue (h : Hart) (e : SbEnt) : Bool :=
  h.busy.loads.all (fun l => decide (e.afterLoads ≤ l.num)) && h.busy.posted.all (fun p => !e.afterIds.contains p.id) &&
  (match e.afterMsg with
   | none => true
   | some m => h.busy.posted.all (fun p => p.epoch != h.epoch || decide (m ≤ p.id)) && h.busy.acq.all (fun p => decide (m ≤ p)))

/-- The units of a store (R134): its parts by aligned 8-byte word, together where they cover the word or one another, otherwise
each by itself. -/
def storeUnits (ps : List (Nat × Nat × Word)) : List (List (Nat × Nat × Word)) :=
  ((ps.map (fun p => p.1 / 8)).eraseDups).flatMap (fun w =>
    let here := ps.filter (fun p => p.1 / 8 == w)
    let size : Nat := here.foldl (fun n p => n + p.2.1) 0
    let apart := (List.range 8).all (fun k => decide ((here.filter (fun p => decide (p.1 ≤ 8 * w + k) && decide (8 * w + k < p.1 + p.2.1))).length ≤ 1))
    if apart && decide (size < 8) then here.map (fun p => [p]) else [here])

/-- A unit of the store at the head of a buffer made visible ahead of the others (R134); a store of one unit, one to a register and one
to a replicated page are whole. -/
def State.storeUnit (s : State) (id : HartId) (n : Nat) : State :=
  match (s.hart id).busy.sb with
  | [] => s
  | e :: r =>
    match (storeUnits e.parts)[n]? with
    | none => s
    | some u =>
      if e.rep.isSome ∨ (s.hart id).storeDue e = false ∨ u.length = e.parts.length ∨ e.parts.any (fun p => region p.1 == 2 || region p.1 == 4) = true then s
      else
        match s.storeParts id e u with
        | none => s
        | some t => t.modHart id (fun h => h.modBusy (fun b => { b with sb := { e with parts := e.parts.filter (fun p => !u.contains p) } :: r }))

/-- The store at the head of a buffer made visible; none where it cannot be now, or where its line is replicated (R150). -/
def State.storeHead (s : State) (id : HartId) : Option State :=
  match (s.hart id).busy.sb with
  | [] => none
  | e :: _ =>
    if e.rep.isSome || !(s.hart id).storeDue e then none
    else
      (s.storeParts id e e.parts).map (fun s =>
        let s := s.modHart id (fun h => h.modBusy (fun b => { b with sb := b.sb.tail }))
        let s := match e.unlock with | some k => s.dropLock id k | none => s
        s.settle id)

/-- STORE_VISIBLE (R135): an STU clears its lock in the same bank access (R95). -/
def execStoreVisible (h : HartId) (s : State) : Host.Outcome State Fault Refusal := .next ((s.storeHead h).getD s)

/-! ### WRITE_BUFFER_DRAIN (R79) -/

/-- WRITE_BUFFER_DRAIN: an entry that may be drained asks its bank for the row, or is written into it and committed. -/
def execWriteBufferDrain (core n : Nat) (s : State) : Host.Outcome State Fault Refusal := .next ((s.drain core n).getD s)

/-! ### POOL_BANK_ACCESS (R84) -/

/-- One line request of a load served by a bank of a pool: what the load reads of the line is bound in that one access (R83). -/
def State.serveLoad (s : State) (q : PReq) : State :=
  let cells (parts : List (Nat × Nat)) : List Host.Cell :=
    (parts.flatMap (fun p => (List.range p.2).map (fun k => p.1 + k))).filterMap (fun a => if a / 64 = q.line then some (a, s.readByte a) else none)
  s.modHart q.h (fun h => h.modBusy (fun b =>
    { b with loads := b.loads.map (fun l => if l.num = q.num then { l with pool := l.pool - 1, got := l.got ++ cells l.parts } else l) }))

/-- POOL_BANK_ACCESS (R83, R84). -/
def poolBankAccessEffect (cl bank : Nat) (s : State) : State :=
  match s.poolGrant cl bank with
  | none => s
  | some q => (s.modCluster cl (fun c => { c with pq := c.pq.erase q, ports := c.ports.set bank q.port })).serveLoad q

/-- POOL_BANK_ACCESS. -/
def execPoolBankAccess (cluster bank : Nat) (s : State) : Host.Outcome State Fault Refusal :=
  when (s.poolGrant cluster bank).isSome (poolBankAccessEffect cluster bank) s

/-! ### LDL_RETRY (R95) -/

/-- LDL_RETRY can happen: the hart waits for a lock, and 4 clk have passed. -/
def ldlRetryReady (id : HartId) (s : State) : Bool :=
  match (s.hart id).wait with
  | some (.lock _ _ _ _ next) => decide (next ≤ s.clk)
  | _ => false

/-- LDL_RETRY (R95): the hart takes the lock that is clear or was granted to it and LAST records its retries, or one more retry is
counted. -/
def ldlRetryEffect (id : HartId) (s : State) : State :=
  match (s.hart id).wait with
  | some (.lock c b k n next) =>
    if (s.plock (c, b, k)).holder = none ∨ (s.plock (c, b, k)).holder = some id then
      (s.grantLock id (c, b, k)).modHart id (fun h => { h.setLast n with wait := some (.locked c b k) })
    else s.modHart id (fun h => { h.addRetry with wait := some (.lock c b k (n + 1) (next + Config.lockRetry)) })
  | _ => s

/-- LDL_RETRY. -/
def execLdlRetry (h : HartId) (s : State) : Host.Outcome State Fault Refusal := when (ldlRetryReady h s) (ldlRetryEffect h) s

/-! ### The walker pool (R33, R34) -/

/-- The deepest pointer of the walk cache for an address of an address space (R33). -/
def Stack.cached (t : Stack) (asid : BitVec 12) (va : Nat) : Option WalkPtr :=
  [1, 2, 3].findSome? (fun lvl => t.wcache.find? (fun p => p.asid == asid && p.level == lvl && p.path == va / levelBytes lvl))

/-- Whether a walk is one that a miss may join: of its page, and not overtaken by a TLBINV (R34, R40). -/
def Walk.takes (w : Walk) (m : Miss) : Bool := !w.stale && w.asid == m.asid && w.va == m.va

/-- The walk that a miss starts: from the walk cache's pointer or from the level-3 table (R23, R33). The miss that starts it is the first of
its 64 waiters (DESIGN CHOICE, unsafe; log 128). -/
def Stack.newWalk (t : Stack) (m : Miss) : Walk :=
  let (lvl, tbl) := match t.cached m.asid m.va with
    | some p => (p.level - 1, p.table)
    | none => (3, wbits m.ptroot 16 36 * 4096)
  { id := t.walkNum, asid := m.asid, va := m.va, level := lvl, table := tbl, repset := m.repset, got := [], waiters := [m], stale := false }

/-- Whether the walker pool can take a miss: a walk of its page has room for another waiter, or there is none and a walker is free
(R33, R34). -/
def Stack.canTake (t : Stack) (m : Miss) : Bool :=
  match t.walks.find? (·.takes m) with
  | some w => decide (w.waiters.length < 64)
  | none => decide (t.walks.length < 256)

/-- The miss that the walker pool of a stack takes next, with its cluster: the clusters are served round-robin (R33). -/
def State.nextMiss (s : State) (k : Nat) : Option (Nat × Miss) :=
  (List.range 64).findSome? (fun n =>
    let cl := 64 * k + ((s.stk k).missLast + 1 + n) % 64
    ((s.cluster cl).misses.find? (s.stk k).canTake).map (fun m => (cl, m)))

/-- The miss of a hart that the walker pool of some stack takes next, with the stack and the cluster. -/
def State.missOf (s : State) (id : HartId) : Option (Nat × Nat × Miss) :=
  (List.range 4).findSome? (fun k => ((s.nextMiss k).filter (fun m => m.2.who.hart == id)).map (fun m => (k, m)))

/-- TLB_MISS can happen: the walker pool takes a miss of a hart for an address now. -/
def tlbMissReady (id : HartId) (va : Word) (s : State) : Bool :=
  match s.missOf id with
  | some (_, _, m) => m.va == va.toNat / 4096 * 4096
  | none => false

/-- TLB_MISS (R33, R34): a miss leaves the queue of its cluster and joins a walk of its page, or starts one. -/
def tlbMissEffect (id : HartId) (s : State) : State :=
  match s.missOf id with
  | none => s
  | some (k, cl, m) =>
    (s.modCluster cl (fun c => { c with misses := c.misses.erase m })).modStk k (fun t =>
      if t.walks.any (·.takes m) then
        { t with missLast := cl % 64, walks := t.walks.map (fun w => if w.takes m then { w with waiters := w.waiters ++ [m] } else w) }
      else { t with missLast := cl % 64, walks := t.walks ++ [t.newWalk m], walkNum := t.walkNum + 1 })

/-- TLB_MISS. -/
def execTlbMiss (h : HartId) (va : Word) (s : State) : Host.Outcome State Fault Refusal := when (tlbMissReady h va s) (tlbMissEffect h) s

/-- Whether the table of a walk lies where a table may (R16, R23). -/
def State.tableOk (s : State) (w : Walk) : Bool := decide (region w.table = 0) && !s.malformed w.table

/-- What a walk has read for its level. -/
def Walk.reads (w : Walk) : Reads := fun a _ => (w.got.find? (fun e => e.1 == a)).map (·.2)

/-- What a walk does next (R23, R33). -/
def State.walkNext (s : State) (w : Walk) : Walking :=
  if s.tableOk w then s.walkAt w.reads w.asid w.repset w.level w.table w.va else .fault 0x06

/-- PTREAD can take a step: the walk has yet to ask the bank of what it reads next, or has been served and no line of it is held (R118,
R152). -/
def ptreadReady (k n : Nat) (s : State) : Bool :=
  match (s.stk k).walks[n]? with
  | none => false
  | some w =>
    match s.walkNext w with
    | .read pa m => !(s.vault (paCore pa)).reads (.walk k w.id) || (s.readReady (.walk k w.id) [(pa, m)] && !s.heldAt pa m)
    | _ => false

/-- A walk changed. -/
def State.modWalk (s : State) (k n : Nat) (f : Walk → Walk) : State := s.modStk k (fun t => { t with walks := t.walks.modify n f })

/-- PTREAD (R33, R118): the owning agent reads an entry, another member of its contiguity group, or the mask of a replica set (R27, R29),
its read waiting in the bank's queue as any other (R51); one that no code corrects gives no entry, and is logged (R81). -/
def ptreadEffect (k n : Nat) (s : State) : State :=
  match (s.stk k).walks[n]? with
  | none => s
  | some w =>
    match s.walkNext w with
    | .read pa m =>
      let me : Reader := .walk k w.id
      let s := s.askAll me [(pa, m)]
      if !s.readReady me [(pa, m)] || s.heldAt pa m then s
      else
        let s := s.dropReads (paCore pa) me
        match s.badWord pa m with
        | some b => (s.logUncorr b).modWalk k n (fun x => { x with got := x.got ++ [(pa, none)] })
        | none => s.modWalk k n (fun x => { x with got := x.got ++ [(pa, some (s.readNum pa m))] })
    | _ => s

/-- PTREAD. -/
def execPtread (stack n : Nat) (s : State) : Host.Outcome State Fault Refusal := when (ptreadReady stack n s) (ptreadEffect stack n) s

/-- WALK_STEP can happen: what the walk reads for its level has come back, or the table lies where no table may (R23). -/
def walkStepReady (k n : Nat) (s : State) : Bool :=
  match (s.stk k).walks[n]? with
  | none => false
  | some w => match s.walkNext w with | .read _ _ => false | _ => true

/-- Whether an asker still waits for a page: the hart stands at its instruction, or the command is in its queue. -/
def State.awaits (s : State) (who : Asker) : Bool :=
  let h := s.hart who.hart
  match who.cmd with
  | none => h.wait.isSome
  | some n => h.busy.queues.any (fun (q : Nat × List Cmd) => q.2.any (fun c => c.seq == n))

/-- The answer of a walk given to an asker that still waits for it; its leaf goes into the TLBs of the asker's path unless a TLBINV has
overtaken the walk (R32, R34, R40). -/
def State.answerMiss (s : State) (w : Walk) (r : Except (BitVec 8) TlbEnt) (m : Miss) : State :=
  let (leaf, cause) : Option TlbEnt × BitVec 8 := match r with | .ok e => (some e, 0) | .error c => (none, c)
  let s := match leaf with
    | some e => if w.stale then s else (s.l2Put (clusterOf m.who.home) e).l1Put m.who.place e
    | none => s
  if s.awaits m.who then
    s.modHart m.who.hart (fun h => h.modBusy (fun b => { b with walked := b.walked ++ [⟨m.who.cmd, m.va, m.ptroot, m.repset, leaf, cause, w.stale⟩] }))
  else s

/-- A walk ends: every waiter has its answer, and its leaf serves every queued miss of the stack in its page (R34). -/
def State.endWalk (s : State) (k n : Nat) (r : Except (BitVec 8) TlbEnt) : State :=
  match (s.stk k).walks[n]? with
  | none => s
  | some w =>
    let served (m : Miss) : Bool :=
      !w.stale && (match r with | .ok e => e.hit m.asid m.va | .error _ => false)
    let queued := ((List.range 64).map (fun c => (s.cluster (64 * k + c)).misses.filter served)).flatten
    let s := s.modStk k (fun t => { t with walks := t.walks.eraseIdx n })
    let s := queued.foldl (fun s m => s.modCluster (clusterOf m.who.home) (fun c => { c with misses := c.misses.erase m })) s
    (w.waiters ++ queued).foldl (fun s m => s.answerMiss w r m) s

/-- WALK_STEP (R23, R33): a pointer goes into the walk cache and the next level is read; anything else ends the walk. -/
def walkStepEffect (k n : Nat) (s : State) : State :=
  match (s.stk k).walks[n]? with
  | none => s
  | some w =>
    match s.walkNext w with
    | .read _ _ => s
    | .fault c => s.endWalk k n (.error c)
    | .leaf e => { s with freeCtr := s.freeCtr + 1 }.endWalk k n (.ok e)
    | .pointer p =>
      let c : WalkPtr := ⟨w.asid, w.level, w.va / levelBytes w.level, ptePa p⟩
      let s := if w.stale then s else
        { s.modStk k (fun t => { t with wcache := tlbPut 1024 s.freeCtr c (t.wcache.filter (· != c)) }) with freeCtr := s.freeCtr + 1 }
      s.modWalk k n (fun x => { x with level := x.level - 1, table := ptePa p, got := [] })

/-- WALK_STEP. -/
def execWalkStep (stack n : Nat) (s : State) : Host.Outcome State Fault Refusal := when (walkStepReady stack n s) (walkStepEffect stack n) s

end Sys2Proof.Machine
end

