-- ==== Sys2Proof/Machine/BankEvents.lean ====
section
/-! DEFINITION. Sys2Proof/Machine/BankEvents.lean: what a vault's controller does on its own: serving the queues of its banks (R51),
refresh (R55 to R57), row repair (R58 to R62), refresh-management holds (R63 to R66), thermal bands (R69 to R72), and the
reading of its log through MMIO (R74). -/

namespace Sys2Proof.Machine

/-! ### What an event delays (R66, R67) -/

/-- An event on a bank ends: every request of its queue that waited for it counts the time since the event began, the request arrived, or
the event that it waited for before ended, and takes its status (R67, R68). -/
def State.eventEnd (s : State) (core b st start stop : Nat) (waited : VReq → Bool) : State :=
  s.modBank core b (fun bk =>
    { bk with q := bk.q.map (fun q =>
        if waited q then { q with vst := st, lastEv := stop, waited := q.waited + (stop - max (max q.at_ start) q.lastEv) } else q) })

/-- Requests of a bank that an event makes wait now (R66, R77); the drains of the write buffer are no requests of a program. -/
def State.waiters (s : State) (core b : Nat) : Nat :=
  ((s.bank core b).q.filter (fun q => !q.kind.isDrain && ((s.bank core b).waits (s.vault core) q).isSome)).length

/-! ### BANK_REQUEST (R51) -/

/-- BANK_REQUEST: the next request of a bank's queue takes a step. -/
def execBankRequest (core bank : Nat) (s : State) : Host.Outcome State Fault Refusal :=
  when (s.bankReady core bank) (bankRequestEffect core bank) s

/-! ### Refresh (R55 to R57) -/

/-- Whether refresh is doubled: a layer of the stack is in band WARM or above (R55). -/
def State.doubled (s : State) (core : Nat) : Bool := (List.range 8).any (fun l => decide (1 ≤ s.band core l))

/-- The refresh of a bank begins (R56): its open row is copied into the shadow and then closed, tRAS after its activation at the
earliest (R48) (DEDUCED, unsafe; log 112). -/
def State.startRefresh (s : State) (core b t : Nat) : State :=
  s.modBank core b (fun bk =>
    { bk with
      refresh := some (t, bk.opened), refPending := false
      preClk := if bk.opened.isSome then some (max (t + Config.tShadow) (after bk.actClk Config.tRAS)) else bk.preClk })

/-- A bank whose latest activation would come after a clk, as it stands at that clk: that activation has not happened, and what asked for it
has still to open its row (R46, R56). -/
def Bank.before (bk : Bank) (mat t : Nat) : Bank :=
  match bk.opened, bk.prior with
  | some r, some (row, pre, act) =>
    if after bk.actClk 0 ≤ t then bk
    else
      let n := bk.counts.get (r.spare, r.row) 0 - 1
      let hold := bk.holdPend.filter (fun h => h != r || decide (mat ≤ n))
      { bk with
        opened := if t < pre then row else none
        preClk := if row.isSome ∧ pre ≤ t then some pre else bk.preClk
        actClk := act, prior := none, counts := bk.counts.set (r.spare, r.row) n, holdPend := hold
        q := bk.q.map (fun q => { q with opened := q.opened && bk.place q.row != r, ahead := q.ahead && hold.isSome }) }
  | _, _ => bk

/-- An activation of a bank that would come after a clk, undone at a refresh that begins then (R46, R56). -/
def State.undoLate (s : State) (core b t : Nat) : State :=
  let a := after (s.bank core b).actClk 0
  if a ≤ t then s else s.modVault core (fun v => { v.modBank b (·.before v.mat t) with acts := v.acts.erase a })

/-- The refresh that a hold or a copy has delayed begins at its end (R73). -/
def State.pendingRefresh (s : State) (core b t : Nat) : State :=
  if (s.bank core b).refPending then s.startRefresh core b t else s

/-- PATROL_SCRUB (R400): one row of the vault is scrubbed; which one is not stated, so a free value chooses it. An uncorrectable
word in it is logged UNCORR (DESIGN CHOICE, safe; log 22). -/
def State.patrol (s : State) (core : Nat) : State :=
  let n := Config.freeNat s.freeCtr % (32 * 4096)
  let s := { s with freeCtr := s.freeCtr + 1 }
  match least (s.bad.filter (fun w => decide (8 * w / 2048 = vaultPa core (n * 2048) / 2048))) with
  | some w => s.logUncorr w
  | none => s

/-- Whether a refresh with some pointer covers a row (R55). -/
def refreshes (ptr : Nat) (r : RowRef) : Bool :=
  if ptr < 512 then !r.spare && r.row / 8 == ptr else r.spare && r.row / 8 == ptr - 512

/-- REFRESH_SLOT can happen: the slot is due, no bank of the vault is still refreshing, and no segment is being moved from the slot's
bank (R55, R56, R73). -/
def refreshSlotReady (core : Nat) (s : State) : Bool :=
  let v := s.vault core
  decide ((s.stk (stackOf core)).resetClk + v.slotClk ≤ s.clk) && v.banks.all (fun (e : Nat × Bank) => e.2.refresh.isNone) &&
  decide ((s.bank core (v.slotN % 32)).segEnd ≤ s.clk)

/-- REFRESH_SLOT (R55, R73): the refresh of bank n mod 32 begins at the slot, after a segment's transfer in progress, or is left to
the end of a hold or a copy. A slot that is past by the time of a refresh, as the slots of a vault are which nothing had used till then, only
moves the pointer on: its refresh found an idle bank, and is over (DEDUCED, unsafe; log 134). -/
def refreshSlotEffect (core : Nat) (s : State) : State :=
  let v := s.vault core
  let b := v.slotN % 32
  let t := (s.stk (stackOf core)).resetClk + v.slotClk
  let gap := if s.doubled core then Config.tSlotDoubled else Config.tSlot
  let at_ := max t (s.bank core b).segEnd
  let s := s.modVault core (fun v => { v with slotN := v.slotN + 1, slotClk := v.slotClk + gap })
  let s :=
    if at_ + Config.tRFC ≤ s.clk then
      s.modBank core b (fun bk => { bk with refPtr := (bk.refPtr + 1) % 520, counts := bk.counts.filter (fun c => !refreshes bk.refPtr ⟨c.1.2, c.1.1⟩) })
    else
      let s := s.undoLate core b at_
      if (s.bank core b).passedOver then s.modBank core b (fun bk => { bk with refPending := true })
      else s.startRefresh core b at_
  s.patrol core

/-- REFRESH_SLOT. -/
def execRefreshSlot (core : Nat) (s : State) : Host.Outcome State Fault Refusal := when (refreshSlotReady core s) (refreshSlotEffect core) s

/-- End of the refresh in progress on a bank: tRFCpb after its start, or after its row is copied and closed (R46, R56). -/
def Bank.refreshEnd (bk : Bank) : Option Nat :=
  bk.refresh.map (fun r => (if r.2.isSome then max r.1 (bk.preClk.getD 0) else r.1) + Config.tRFC)

/-- REFRESH_END can happen. -/
def refreshEndReady (core b : Nat) (s : State) : Bool :=
  match (s.bank core b).refreshEnd with
  | some t => decide (t ≤ s.clk)
  | none => false

/-- REFRESH_END (R55, R56, R63): the counters of the refreshed rows are zero, the bank is closed, waiters go on. -/
def refreshEndEffect (core b : Nat) (s : State) : State :=
  let bk := s.bank core b
  match bk.refresh, bk.refreshEnd with
  | some (t, _), some e =>
    let s := s.eventEnd core b 2 t e (fun q => bk.waits (s.vault core) q == some 2)
    s.modBank core b (fun bk =>
      { bk with refresh := none, opened := none, refPtr := (bk.refPtr + 1) % 520
                counts := bk.counts.filter (fun c => !refreshes bk.refPtr ⟨c.1.2, c.1.1⟩) })
  | _, _ => s

/-- REFRESH_END. -/
def execRefreshEnd (core bank : Nat) (s : State) : Host.Outcome State Fault Refusal :=
  when (refreshEndReady core bank s) (refreshEndEffect core bank) s

/-! ### Refresh-management holds (R65, R66) -/

/-- The moment at which a pending hold begins: tRAS after the activation and the end of the transfers. -/
def Bank.holdClk (bk : Bank) : Nat := max (after bk.actClk Config.tRAS) bk.xferEnd

/-- HOLD_START can happen: the requests served ahead of the hold are done and its moment has come. -/
def holdStartReady (core b : Nat) (s : State) : Bool :=
  let bk := s.bank core b
  bk.holdPend.isSome && bk.hold.isNone && bk.refresh.isNone && bk.q.all (fun q => !q.ahead) && decide (bk.holdClk ≤ s.clk)

/-- HOLD_START (R65): the aggressor's row is precharged. -/
def holdStartEffect (core b : Nat) (s : State) : State :=
  s.modBank core b (fun bk =>
    match bk.holdPend with
    | none => bk
    | some r => { bk with hold := some (r, bk.holdClk), holdPend := none, opened := none, preClk := some bk.holdClk })

/-- HOLD_START. -/
def execHoldStart (core bank : Nat) (s : State) : Host.Outcome State Fault Refusal :=
  when (holdStartReady core bank s) (holdStartEffect core bank) s

/-- HOLD_END can happen: tRFM has passed. -/
def holdEndReady (core b : Nat) (s : State) : Bool :=
  match (s.bank core b).hold with
  | some (_, t) => decide (t + Config.tRFM ≤ s.clk)
  | none => false

/-- The aggressor and its neighbours (R65). -/
def neighbours (r : RowRef) (c : RowRef) : Bool :=
  r.spare == c.spare && decide (c.row ≤ r.row + 2) && decide (r.row ≤ c.row + 2)

/-- HOLD_END (R65, R66, R77): the counters are zero, ALERT is logged, the requests that waited go on with BACKOFF, and a refresh
that the hold has delayed begins. -/
def holdEndEffect (core b : Nat) (s : State) : State :=
  let bk := s.bank core b
  match bk.hold with
  | none => s
  | some (r, t) =>
    let v := s.vault core
    let e := t + Config.tRFM
    let cnt := s.waiters core b
    let s := s.eventEnd core b 1 (bk.actClk.getD 0) e (fun q => bk.waits v q == some 1)
    let s := s.modBank core b (fun bk => { bk with hold := none, opened := none, counts := bk.counts.filter (fun c => !neighbours r ⟨c.1.2, c.1.1⟩) })
    let s := s.addLog core (logRec 1 b r (min cnt 65535 + v.mat * 2 ^ 16) (s.stamp core t))
    s.pendingRefresh core b e

/-- HOLD_END. -/
def execHoldEnd (core bank : Nat) (s : State) : Host.Outcome State Fault Refusal := when (holdEndReady core bank s) (holdEndEffect core bank) s

/-! ### Row repair (R58 to R62) -/

/-- A repair that finds no free spare row fails and is logged (R62); where the row's fault is a lasting one, the vault is reported
degraded (R401). -/
def State.repairFail (s : State) (core b row : Nat) : State :=
  (s.modVault core (fun v => { v with degraded := v.degraded || s.dev.lasting.contains (.row core b row) })).addLog core (logRec 3 b ((s.bank core b).place row) 0 (s.stackClk core))

/-- ROW_REPAIR_REQUEST can be made: the row is one of the bank's. -/
def rowRepairRequestReady (row : Nat) : Bool := decide (row < 4096)

/-- ROW_REPAIR_REQUEST (R58, R62, R73): a request for a row under repair is ignored, one that finds no spare fails. -/
def rowRepairRequestEffect (core b row : Nat) (s : State) : State :=
  let bk := s.bank core b
  if bk.underRepair row then s
  else if bk.freeSpares.isEmpty then s.repairFail core b row
  else s.modBank core b (fun bk => { bk with repairReq := bk.repairReq ++ [row] })

/-- ROW_REPAIR_REQUEST. -/
def execRowRepairRequest (core bank row : Nat) (s : State) : Host.Outcome State Fault Refusal :=
  when (rowRepairRequestReady row) (rowRepairRequestEffect core bank row) s

/-- REPAIR_START can happen: a repair is requested and the bank is free (R58, R73). -/
def repairStartReady (core b : Nat) (s : State) : Bool :=
  let bk := s.bank core b
  !bk.repairReq.isEmpty && bk.repair.isNone && !bk.passedOver && !bk.refPending

/-- REPAIR_START (R58, step 1): the row is marked; it takes the lowest-numbered free spare, as R429 has it take S0 (DEDUCED, unsafe; log 136). -/
def repairStartEffect (core b : Nat) (s : State) : State :=
  let bk := s.bank core b
  match bk.repairReq with
  | [] => s
  | row :: r =>
    let s := s.modBank core b (fun bk => { bk with repairReq := r })
    match bk.freeSpares.head? with
    | none => s.repairFail core b row
    | some n => s.modBank core b (fun bk => { bk with repair := some ⟨row, n, s.clk, none⟩ })

/-- REPAIR_START. -/
def execRepairStart (core bank : Nat) (s : State) : Host.Outcome State Fault Refusal :=
  when (repairStartReady core bank s) (repairStartEffect core bank) s

/-- REPAIR_COPY can happen: where the row is open, tRAS and its transfers have passed (R58, step 2). -/
def repairCopyReady (core b : Nat) (s : State) : Bool :=
  let bk := s.bank core b
  match bk.repair with
  | none => false
  | some r =>
    r.copy.isNone && !bk.passedOver &&
    (!bk.isOpen r.row || (decide (after bk.actClk Config.tRAS ≤ s.clk) && decide (bk.xferEnd ≤ s.clk)))

/-- REPAIR_COPY (R58, step 3): an open row of the bank is closed; the spare is activated 48 clk after the row and precharged 94
clk after it. The copy's activations keep to the limit of eight in 32 clk and do not count towards it (DESIGN CHOICE, unsafe; log 129). -/
def repairCopyEffect (core b : Nat) (s : State) : State :=
  s.modVault core (fun v =>
    let bk := v.banks.get b Bank.reset
    match bk.repair with
    | none => v
    | some r =>
      let closed := if bk.isOpen r.row then { bk with opened := none, preClk := some s.clk } else bk
      let t := v.actTime closed s.clk
      v.modBank b (fun _ => { closed with opened := none, repair := some { r with copy := some s.clk }, actClk := some (t + 48), preClk := some (t + 94) }))

/-- REPAIR_COPY. -/
def execRepairCopy (core bank : Nat) (s : State) : Host.Outcome State Fault Refusal :=
  when (repairCopyReady core bank s) (repairCopyEffect core bank) s

/-- REPAIR_SWITCH can happen: the copy is verified and the spare precharged. -/
def repairSwitchReady (core b : Nat) (s : State) : Bool :=
  let bk := s.bank core b
  match bk.repair with
  | none => false
  | some r => r.copy.isSome && decide (after bk.preClk Config.tRP ≤ s.clk)

/-- REPAIR_SWITCH (R58, steps 4 and 5, R61, R77): the map selects the spare, the row's counter carries over, VAULTGEN goes up,
REPAIR_DONE is logged, and held requests are released. -/
def repairSwitchEffect (core b : Nat) (s : State) : State :=
  let bk := s.bank core b
  match bk.repair with
  | none => s
  | some r =>
    let v := s.vault core
    let e := after bk.preClk Config.tRP
    let old := bk.place r.row
    let s := s.eventEnd core b 3 r.start e (fun q => bk.waits v q == some 3 && q.row == r.row)
    let s := s.eventEnd core b 3 (r.copy.getD s.clk) e (fun q => bk.waits v q == some 3 && q.row != r.row)
    let s := s.modBank core b (fun bk =>
      { bk with
        map := (r.row, r.spare) :: bk.map, repair := none
        counts := (bk.counts.del (old.spare, old.row)).set (true, r.spare) (bk.counts.get (old.spare, old.row) 0) })
    let s := s.modVault core (fun v => { v with gen := v.gen + 1 })
    let s := s.addLog core (logRec 2 b old (r.spare + (s.vault core).gen.toNat % 2 ^ 16 * 2 ^ 16) (s.stamp core r.start))
    s.pendingRefresh core b e

/-- REPAIR_SWITCH. -/
def execRepairSwitch (core bank : Nat) (s : State) : Host.Outcome State Fault Refusal :=
  when (repairSwitchReady core bank s) (repairSwitchEffect core bank) s

/-! ### Thermal bands (R69) -/

/-- The band of a layer after a sample: one step at most (R69). -/
def bandStep (band temp : Nat) : Nat :=
  match band with
  | 0 => if 85 ≤ temp then 1 else 0
  | 1 => if 95 ≤ temp then 2 else if temp < 83 then 0 else 1
  | 2 => if 105 < temp then 3 else if temp < 93 then 1 else 2
  | _ => if temp < 100 then 2 else 3

/-- A change of band logged in every vault of the stack (R69, R77). -/
def State.logBand (s : State) (k layer band temp : Nat) : State :=
  (List.range 512).foldl (fun s n =>
    s.addLog (512 * k + n) (logRec 4 (4 * layer) ⟨0, false⟩ (band + temp * 2 ^ 8) (s.stackClk (512 * k + n)))) s

/-- THERMAL_SAMPLE of one layer. -/
def State.sampleLayer (s : State) (k layer temp : Nat) : State :=
  let old := (s.stk k).bands.get layer 0
  let new := bandStep old temp
  let s := s.modStk k (fun t => { t with temps := t.temps.set layer temp, bands := t.bands.set layer new })
  if new = old then s else s.logBand k layer new temp

/-- THERMAL_SAMPLE can happen: the period of 10,000 clk is over (R69). -/
def thermalSampleReady (k : Nat) (s : State) : Bool := decide ((s.stk k).resetClk + (s.stk k).sampleClk ≤ s.clk)

/-- THERMAL_SAMPLE (R69, R70): the eight sensors of a stack, one byte each. -/
def thermalSampleEffect (k : Nat) (temps : BitVec 64) (s : State) : State :=
  let s := s.modStk k (fun t => { t with sampleClk := t.sampleClk + Config.samplePeriod })
  (List.range 8).foldl (fun s l => s.sampleLayer k l (bits temps.toNat (8 * l) 8)) s

/-- THERMAL_SAMPLE. -/
def execThermalSample (stack : Nat) (temps : BitVec 64) (s : State) : Host.Outcome State Fault Refusal :=
  when (thermalSampleReady stack s) (thermalSampleEffect stack temps) s

/-- VAULT_LOG_MMIO_READ (R74): reading a record removes it. -/
def execVaultLogMmioRead (core : Nat) (s : State) : Host.Outcome State Fault Refusal := .next (s.takeLog core).2

end Sys2Proof.Machine
end

