-- ==== Sys2Proof/Machine/Rename.lean ====
section
/-! DEFINITION. Sys2Proof/Machine/Rename.lean: a thread under another name. A thread that pre-emption saves leaves its slot, and one that
resumes takes another: what it has under way with other units follows it (R117, R124, R159, R188). -/

namespace Sys2Proof.Machine

/-- A hart under another name and epoch. -/
structure Rename where
  old : HartId
  oldEpoch : BitVec 8
  new : HartId
  newEpoch : BitVec 8
  deriving DecidableEq, Repr

/-- Whether messages of an origin name harts of this device. -/
def Origin.local (o : Origin) : Bool :=
  match o with
  | .own | .protocol => true
  | .peer | .host _ => false

/-- A hart by its name after a renaming. -/
def Rename.id (r : Rename) (h : HartId) : HartId := if h = r.old then r.new else h

/-- Whether a name with an epoch is that of the renamed hart. -/
def Rename.is (r : Rename) (h : HartId) (e : BitVec 8) : Bool := h == r.old && e == r.oldEpoch

/-- An acknowledgement after a renaming. -/
def Rename.ack (r : Rename) (a : Ack) : Ack := if r.is a.dst a.epoch then { a with dst := r.new, epoch := r.newEpoch } else a

/-- A message after a renaming. -/
def Rename.msg (r : Rename) (m : Msg) : Msg :=
  let m := { m with acks := m.acks.map r.ack }
  if m.org.local && r.is m.src m.epoch then { m with src := r.new, epoch := r.newEpoch } else m

/-- An answer after a renaming. -/
def Rename.reply (r : Rename) (a : Reply) : Reply := if r.is a.dst a.epoch then { a with dst := r.new, epoch := r.newEpoch } else a

/-- A watch after a renaming. -/
def Rename.watch (r : Rename) (w : Watch) : Watch :=
  if w.org.local && r.is w.src w.epoch then { w with src := r.new, epoch := r.newEpoch } else w

/-- What asks for a translation after a renaming. -/
def Rename.miss (r : Rename) (m : Miss) : Miss := { m with who := { m.who with hart := r.id m.who.hart } }

/-- A reader after a renaming. -/
def Rename.reader (r : Rename) (w : Reader) : Reader :=
  match w with
  | .load h n => .load (r.id h) n
  | .instr h => .instr (r.id h)
  | .cmd h n => .cmd (r.id h) n
  | .msg n => .msg n
  | .walk k n => .walk k n
  | .host n pa => .host n pa
  | .ahead h => .ahead (r.id h)
  | .drain n => .drain n

/-- A request of a bank after a renaming. -/
def Rename.req (r : Rename) (q : VReq) : VReq :=
  match q.kind with
  | .read w => { q with kind := .read (r.reader w) }
  | _ => q

/-- A wait after a renaming: the holders that a TLBINV waits for, and the next hop of a traveller. -/
def Rename.wait (r : Rename) (w : Wait) : Wait :=
  match w with
  | .inv hs n => .inv (hs.map (fun p => (r.id p.1, p.2))) n
  | .ending (.hop m) => .ending (.hop (r.msg m))
  | w => w

/-- A vault after a renaming. -/
def Rename.vault (r : Rename) (v : Vault) : Vault :=
  { v with
    banks := v.banks.map (fun (e : Nat × Bank) => (e.1, { e.2 with q := e.2.q.map r.req }))
    served := v.served.map (fun g => { g with who := r.reader g.who })
    wbuf := v.wbuf.map (fun l => { l with by_ := l.by_.map (fun w => (r.id w.1, w.2)) })
    locks := v.locks.map (fun l => { l with owner := r.id l.owner, queue := l.queue.map r.msg })
    jobs := v.jobs.map (fun j => { j with msg := r.msg j.msg }) }

/-- A core after a renaming. -/
def Rename.core (r : Rename) (c : Core) : Core :=
  { c with ondie := c.ondie.map r.msg, ring := c.ring.map r.msg, serving := c.serving.map r.msg, watches := c.watches.map r.watch }

/-- A cluster after a renaming. -/
def Rename.cluster (r : Rename) (c : Cluster) : Cluster :=
  { c with
    misses := c.misses.map r.miss
    slots := c.slots.map (fun (e : Nat × LeaseSlot) => (e.1, { e.2 with holder := e.2.holder.map r.id }))
    leaseQ := c.leaseQ.map r.id
    trail := c.trail.map (fun t => { t with hart := r.id t.hart })
    combine := c.combine.map (fun e => { e with queues := e.queues.map (fun (q : Nat × List (List Ack)) => (q.1, q.2.map (fun l => l.map r.ack))) }) }

/-- What other units hold of a hart, under its new name. -/
def State.rename (s : State) (r : Rename) : State :=
  { s with
    dev := { s.dev with net := s.dev.net.map r.msg, replies := s.dev.replies.map r.reply, early := s.dev.early.map (fun e => (r.reader e.1, e.2)) }
    cores := s.cores.map (fun (e : Nat × Core) => (e.1, r.core e.2))
    vaults := s.vaults.map (fun (e : Nat × Vault) => (e.1, r.vault e.2))
    clusters := s.clusters.map (fun (e : Nat × Cluster) => (e.1, r.cluster e.2))
    stks := s.stks.map (fun (e : Nat × Stack) => (e.1, { e.2 with walks := e.2.walks.map (fun w => { w with waiters := w.waiters.map r.miss }) }))
    harts := s.harts.map (fun (e : HartId × Hart) =>
      (e.1, { e.2 with wait := e.2.wait.map r.wait, ctx := { e.2.ctx with arrival := e.2.ctx.arrival.map r.msg } })) }

/-- What a hart has under way, under its new epoch. -/
def Rename.busy (r : Rename) (b : HartBusy) : HartBusy :=
  { b with posted := b.posted.map (fun p => if p.epoch = r.oldEpoch then { p with epoch := r.newEpoch } else p) }

end Sys2Proof.Machine
end

