-- ==== Sys2Proof/Machine/Preempt.lean ====
section
/-! DEFINITION. Sys2Proof/Machine/Preempt.lean: pre-emption and killing at safe points, the saving of a cluster and the resumption of
saved units (R99, R100, R180 to R182, R327, R397), the dispatch of waiting ones (R166 to R169, R386, R387), and the deadline and the
watchdog of a request (R398). -/

namespace Sys2Proof.Machine

/-! ### SAFE_POINT_TAKE (R181, R396) -/

/-- Whether a transaction is past its lock arrivals (R296) (DEDUCED, unsafe; log 58). -/
def HartBusy.committing (b : HartBusy) : Bool := match b.xact with | some x => x.committing | .none => false

/-- Whether a thread stands where it may be taken: at a safe point, or halted (R181, R255). -/
def Hart.atSafePoint (h : Hart) : Bool :=
  (match h.wait with | some w => !w.parked | none => true) && (h.st == .halted || (h.st == .running && h.safe.isSome))

/-- SAFE_POINT_TAKE can happen: REQ or KILL is set and the thread stands at a safe point, holds no pool lock, handles no trap
and commits no transaction (R97, R181, R296, R399) (DEDUCED, unsafe; log 17); or it has been taken and is to be killed (R163). -/
def safePointTakeReady (id : HartId) (s : State) : Bool :=
  let h := s.hart id
  id.kind == .thread &&
  ((h.isTaken && wbit h.csr.preempt 1) ||
   (decide (wbits h.csr.preempt 0 2 ≠ 0) && h.atSafePoint && h.lock.isNone && !h.inTrap && !h.busy.committing))

/-- The mask under which a slot saves: the live mask with FORCE (R396); everything for a thread that is halted at no safe point
(DEDUCED, unsafe; log 63). -/
def Hart.saveMask (h : Hart) : BitVec 32 :=
  h.safe.getD (if h.st = .halted then 0x07FFFFFF else 0) ||| (BitVec.ofNat 32 (wbits h.csr.safemask 0 27))

/-- The units of the gang of a hart that hold a slot (R167). -/
def State.gangOf (s : State) (id : HartId) : List HartId :=
  match (s.hart id).unit with
  | none => []
  | some (k, l, _) =>
    if (s.launchOf k l).gang then
      (s.harts.filter (fun (e : HartId × Hart) => e.1 != id && e.2.st != .idle && e.2.st != .saved &&
        (match e.2.unit with | some (k', l', _) => k' == k && l' == l | none => false))).map (·.1)
    else []

/-- A replay stopped for pre-emption at its next boundary; one that has passed its last record ends without fault (R373, R375). -/
def Play.preempted (p : Play) (records : Nat) : Play := if p.next < records then p.stop 13 else p

/-- A thread taken for pre-emption (R181): REQ is cleared, its transaction, its recording and its replay end (R296, R375), and an
instruction that waited starts again on resumption (DEDUCED, unsafe; log 52). An MBX.WAIT with rd = x0 keeps its watch (R295). -/
def State.takeUnit (s : State) (id : HartId) : State :=
  let h := s.hart id
  let m := h.saveMask
  let records (n : Nat) : Nat := ((s.core id.core).tape n).len - 2
  let s := match h.busy.recording with
    | some r => if r.abandoned then s else (s.clearTape r.core r.id).modHart id (fun h => h.abandon r.core r.id)
    | none => s
  let s := if m.getLsbD 26 then
      (match h.lease with
       | some n => (s.drainSlot (clusterOf id.home) n)
       | none => s)
    else s.dropLease id
  let s := s.dropReads id.home (.instr id)
  let s := s.modHart id (fun h =>
    let h := h.forgetWalks
    { h with
      wait := some (.taken m), pauseTo := 0
      csr := { h.csr with preempt := setBits h.csr.preempt 0 2 0, safemask := setBits h.csr.safemask 32 32 m.toNat }
      busy := { h.busy.trapXact with
        play := h.busy.play.map (fun p => p.preempted (records p.id)) } })
  let s := s.modCluster (clusterOf id.home) (fun c => { c with saving := c.saving ++ [id], leaseQ := c.leaseQ.filter (· != id) })
  (s.gangOf id).foldl (fun s g => s.request g) s

/-- SAFE_POINT_TAKE (R163, R181, R399): KILL acts before REQ. -/
def safePointTakeEffect (id : HartId) (s : State) : State :=
  if wbit (s.hart id).csr.preempt 1 then s.killUnit id 0 else s.takeUnit id

/-- SAFE_POINT_TAKE. -/
def execSafePointTake (h : HartId) (s : State) : Host.Outcome State Fault Refusal :=
  when (safePointTakeReady h s) (safePointTakeEffect h) s

/-! ### CLUSTER_SAVE (R100, R181, R182, R397) -/

/-- Whether the stores, the loads and the commit of a taken thread have drained (R159) and, where its accumulators are to be saved, every
command of its lease slot has signalled (R323). Its other commands go on while it is saved (R188) (DEDUCED, unsafe; log 51). -/
def Hart.quiet (h : Hart) : Bool :=
  h.busy.sb.isEmpty && h.busy.loads.isEmpty && h.busy.commit.isNone &&
  (match h.lease with | some n => h.busy.commands.all (fun c => c.slot != some n) | none => true)

/-- The occupied slots of a cluster. -/
def State.occupiedIn (s : State) (cl : Nat) : List HartId :=
  (((coresOf cl).map threadsOf).flatten).filter (fun h => (s.hart h).occupied)

/-- Whether an x register is saved under a mask: listed in a pair, or PENDING (R180, R181). -/
def keepX (m : BitVec 32) (r : Nat) (st : RegSt) : Bool := m.getLsbD (r / 2) || st == .pending

/-- A register file with what is not saved zero and full (R181). -/
def keepRegs {α : Type} (keep : Nat → RegSt → Bool) (x : Table Reg α) (st : Table Reg RegSt) : Table Reg α × Table Reg RegSt :=
  let k (r : Reg) : Bool := keep r.toNat (st.get r .full)
  (x.filter (fun e => k e.1), st.filter (fun e => k e.1))

/-- The hart as it is saved under a mask and kept until it resumes (R179 to R181) (DEDUCED, unsafe; log 55). -/
def Hart.saved (h : Hart) (m : BitVec 32) (long : Bool) : Hart :=
  let (x, xs) := keepRegs (keepX m) h.x h.xSt
  let (v, vs) := keepRegs (fun r st => (!long && m.getLsbD (16 + r / 4)) || st == .pending) h.v h.vSt
  let c := h.csr
  let c := if m.getLsbD 24 then c else { c with lstart := [], lend := [], lcount := [], ldepth := 0 }
  let c := if m.getLsbD 25 then c else { c with pbase := [], plen := [] }
  { h with x := x, xSt := xs, v := v, vSt := vs, loops := if m.getLsbD 24 then h.loops else [], csr := c, lease := none, fetched := []
           st := .saved, wait := none }

/-- The pool ranges that a live-range entry names, none where the entry is not well formed: a reserved bit set in any of its words, or
a range in use out of bounds (R99). -/
def liveRanges (ws : List Nat) : Option (List (Nat × Nat)) :=
  match ws with
  | [] => none
  | h :: r =>
    let n := h % 8
    let one (w : Nat) : Nat × Nat := (bits w 0 21, bits w 32 22)
    let reserved (w : Nat) : Bool := decide (bits w 21 11 ≠ 0) || decide (bits w 54 10 ≠ 0)
    let bad (w : Nat) : Bool :=
      decide ((one w).1 % 64 ≠ 0) || decide ((one w).2 % 64 ≠ 0) || decide ((one w).2 < 64) || decide (2 ^ 21 < (one w).1 + (one w).2)
    if h / 8 ≠ 0 ∨ r.any reserved = true ∨ (r.take n).any bad = true then none else some ((r.take n).map one)

/-- n loads of 8 bytes of a table of the kernel. -/
def State.schedWords (s : State) (x : Launch) (va n : Nat) : Found (List Nat) :=
  match n with
  | 0 => .ok []
  | m + 1 =>
    match s.schedLoad x va 8 with
    | .error c => .error c
    | .ok w => match s.schedWords x (va + 8) m with
      | .error c => .error c
      | .ok r => .ok (w :: r)

/-- The pool ranges of a unit under a mask, or why not: its pre-emption fails with cause 0x19, whatever its table's read failed with, or
the read waits for a held line (R99, R152) (DEDUCED, unsafe; log 53). -/
def State.rangesOf (s : State) (h : Hart) (m : BitVec 32) : Found (List (Nat × Nat)) :=
  let i := m.toNat / 2 ^ 28
  if i = 0 then .ok []
  else
    match h.unit with
    | none => .error (some 0x19)
    | some (k, l, _) =>
      let x := s.launchOf k l
      if recLrtab x.record = 0 then .error (some 0x19)
      else
        match s.schedWords x (recLrtab x.record + (i - 1) * 64) 8 with
        | .error none => .error none
        | .error (some _) => .error (some 0x19)
        | .ok ws => match liveRanges ws with | some rs => .ok rs | none => .error (some 0x19)

/-- The mask under which a hart has been taken. -/
def Hart.takenMask (h : Hart) : BitVec 32 := match h.wait with | some (.taken m) => m | _ => 0

/-- The ranges of a pool that the shadow port reads or writes, as a line of each bank that they touch (R84, R100). -/
def shadowLines (cl : Nat) (rs : List (Nat × Nat)) : List Nat :=
  (List.range 32).filterMap (fun b => (rs.findSome? (fun r => (List.range (min 32 (r.2 / 64))).find? (fun k => (r.1 / 64 + k) % 32 == b) |>.map (fun k => poolPa cl r.1 / 64 + k))))

/-- The pool ranges that the taken threads of a cluster save. -/
def State.saveRanges (s : State) (cl : Nat) : List (Nat × Nat) :=
  (s.occupiedIn cl).flatMap (fun h => match s.rangesOf (s.hart h) (s.hart h).takenMask with | .ok rs => rs | .error _ => [])

/-- Whether a thread that has been taken can be saved: it has drained, it is not to be killed (R163), and no held line keeps its live-range
entry (R99, R152). -/
def State.savable (s : State) (id : HartId) : Bool :=
  let h := s.hart id
  h.isTaken && h.quiet && !wbit h.csr.preempt 1 && (match s.rangesOf h h.takenMask with | .error none => false | _ => true)

/-- CLUSTER_SAVE can happen: every occupied slot of the cluster has been taken and can be saved, and so has every unit of the
gangs among them (R167, R182, R397); and the banks of the pool let the shadow port in (R84). -/
def clusterSaveReady (cl : Nat) (s : State) : Bool :=
  let hs := s.occupiedIn cl
  !hs.isEmpty && hs.all (fun h => s.savable h && (s.gangOf h).all s.savable) &&
  (s.poolTurns shadowPort (shadowLines cl (s.saveRanges cl))).isSome

/-- The bytes of a pool in some ranges, by plain offset (R100). -/
def State.poolImage (s : State) (cl : Nat) (rs : List (Nat × Nat)) : Memory :=
  (s.mem.filter (fun c => region c.1 == 1 && paCluster c.1 == cl && rs.any (fun r => decide (r.1 ≤ bits c.1 0 21) && decide (bits c.1 0 21 < r.1 + r.2)))).map
    (fun c => (bits c.1 0 21, c.2))

/-- The words of a pool in some ranges that no code corrects, by plain offset ÷ 8 (R83). -/
def State.poolBad (s : State) (cl : Nat) (rs : List (Nat × Nat)) : List Nat :=
  (s.bad.filter (fun w => region (8 * w) == 1 && paCluster (8 * w) == cl &&
    rs.any (fun r => decide (r.1 ≤ bits (8 * w) 0 21) && decide (bits (8 * w) 0 21 < r.1 + r.2)))).map (fun w => bits (8 * w) 0 21 / 8)

/-- The context of a unit. -/
def State.contextOf (s : State) (u : Option (Nat × Nat × Nat)) : Option Nat :=
  match u with
  | some (k, l, _) => some (s.launchOf k l).item.ccb
  | none => none

/-- The queue of a unit enters ERROR with cause 0x19 if it is ACTIVE (R99, R380, R398). -/
def State.unitQueueError (s : State) (u : Option (Nat × Nat × Nat)) : State :=
  match u with
  | some (k, l, _) => let q := (s.launchOf k l).hq; if (s.hq q).st = 1 then s.queueError q 0x19 else s
  | none => s

/-- Where a saved thread is kept: the first place beside its slot's that holds none. The places of a slot are 4 apart, so that its number
and its epochs go on telling its threads apart. -/
def State.keepAt (s : State) (id : HartId) : HartId :=
  let place (j : Nat) : HartId := ⟨.thread, id.core, 4 + 4 * j + id.idx⟩
  place (((List.range (s.harts.length + 1)).find? (fun j => (s.hart (place j)).st == .idle)).getD 0)

/-- One taken thread saved (R181, R327, R397): a unit whose live-range entry fails is killed with cause 0x19 at queue scope (R99). What
the thread has under way follows it to where it is kept. -/
def State.saveUnit (s : State) (cl : Nat) (wKeep : Nat → Bool) (id : HartId) : State :=
  let h := s.hart id
  let m := h.takenMask
  let long := (s.core id.core).long
  match s.rangesOf h m with
  | .error _ => (s.killUnit id 0x19).unitQueueError h.unit
  | .ok rs =>
    let who := s.keepAt id
    let acc := match h.lease with | some n => if m.getLsbD 26 then some ((s.cluster cl).slot n) else none | none => none
    let v : Saved :=
      { who := who, mask := m, long := long
        w := if long then (s.core id.core).w.filter (fun e => wKeep e.1.toNat) else []
        acc := acc, pool := s.poolImage cl rs, ranges := rs, poolBad := s.poolBad cl rs, spilled := false, owner := id, clk := s.clk, st := h.st }
    let s := (s.modCluster cl (fun c => { c with saves := c.saves ++ [v] })).modCore id.core (fun c => { c with reserved := false })
    let s := (s.rename ⟨id, h.epoch, who, h.epoch⟩).setHart who (h.saved m long)
    s.modHart id (fun h =>
      { Hart.reset with
        st := .saved, epoch := h.epoch
        busy := { HartBusy.none with nextSeq := h.busy.nextSeq, sbNext := h.busy.sbNext, loadNext := h.busy.loadNext, sent := h.busy.sent }
        csr := { HartCsrs.reset with preempt := h.csr.preempt, safemask := h.csr.safemask } })

/-! ### The spill area (R395, R397) -/

/-- Bytes of the state that one mask saves of a thread, the w registers left out (R181, R327) (DESIGN CHOICE, unsafe; log 54). -/
def Saved.size (v : Saved) : Nat :=
  let on (lo n each : Nat) : Nat := ((List.range n).filter (fun k => v.mask.getLsbD (lo + k))).length * each
  104 + on 0 16 16 + (if v.long then 0 else on 16 8 128) + on 24 1 96 + on 25 1 256 +
  (if v.acc.isSome then 2 * 65536 + 65600 else 0) + (v.ranges.map (·.2)).foldl (· + ·) 0

/-- Bytes of several saved threads of a cluster, with the w registers of each core among them saved once (R182). -/
def imageSize (vs : List Saved) : Nat :=
  let cores := ((vs.filter (·.long)).map (·.owner.core)).eraseDups
  let w (c : Nat) : Nat := 2048 * (((vs.find? (fun v => v.long && v.owner.core == c)).map (·.w.length)).getD 0)
  (vs.map Saved.size).foldl (· + ·) 0 + (cores.map w).foldl (· + ·) 0

/-- The part of a context's spill area that is a cluster's: 1 MB for each cluster, in the order of the partition mask; none where it does
not lie in the vault region (R395). -/
def State.spillArea (s : State) (ccb cl : Nat) : Option Nat :=
  let base := bits (s.readNum (ccb + 8) 8) 20 28 * 2 ^ 20
  let rank := ((List.range cl).filter (fun c => bits (s.readNum (ccb + 16) 32) c 1 == 1)).length
  let pa := base + rank * 2 ^ 20
  if region pa ≠ 0 ∨ s.malformed pa = true then none else some pa

/-- Bytes of an image written to the spill area of its context. How an image is laid out there is not stated, so the bytes are free
(R397) (DESIGN CHOICE, unsafe; log 54). -/
def State.spillBytes (s : State) (ccb cl n : Nat) : State :=
  match s.spillArea ccb cl with
  | none => s
  | some pa =>
    let n := min n (2 ^ 20)
    let t := s.modVault (paCore pa) (fun v =>
      { v with wbuf := v.wbuf.filter (fun l => !(decide (paOff pa ≤ l.line * 64) && decide (l.line * 64 < paOff pa + n))) })
    { t.writeMem pa ((List.range n).map (fun i => Config.freeByte (s.freeCtr + i))) with freeCtr := s.freeCtr + n }

/-- The images of other contexts in a cluster's shadow storage go to their spill areas, and their slots say so (R397). -/
def State.spillImages (s : State) (cl : Nat) (keep : List (Option Nat)) : State :=
  let ctx (v : Saved) : Option Nat := s.contextOf (s.hart v.who).unit
  let old := (s.cluster cl).saves.filter (fun v => !v.spilled && !keep.contains (ctx v))
  let s := ((old.filterMap ctx).eraseDups).foldl (fun s c => s.spillBytes c cl (imageSize (old.filter (fun v => ctx v == some c)))) s
  let s := s.modCluster cl (fun c => { c with saves := c.saves.map (fun v => if old.contains v then { v with spilled := true } else v) })
  old.foldl (fun s v => s.modHart v.owner (fun h =>
    if h.st = .saved then h.modCsr (fun c => { c with preempt := setBits c.preempt 2 2 3 }) else h)) s

/-- Bytes of an image that shadow storage holds (R397). -/
def shadowImage : Nat := 768 * 1024

/-- What of a cluster's images exceeds its shadow storage goes to the spill area of their context (R397). -/
def State.spillExcess (s : State) (cl : Nat) : State :=
  let vs := (s.cluster cl).saves.filter (fun v => !v.spilled)
  match vs.findSome? (fun v => s.contextOf (s.hart v.who).unit) with
  | none => s
  | some c => if imageSize vs ≤ shadowImage then s else s.spillBytes c cl (imageSize vs - shadowImage)

/-- The images that a cluster saves, written into the 768 KB of its shadow storage that are for them. How they are laid out there is not
stated, so those bytes are free (R13, R397) (DESIGN CHOICE, unsafe; log 54). -/
def State.shadowBytes (s : State) (cl : Nat) : State :=
  { s.writeMem (shadowPa cl 0) ((List.range shadowImage).map (fun i => Config.freeByte (s.freeCtr + i))) with freeCtr := s.freeCtr + shadowImage }

/-- CLUSTER_SAVE (R397): the w registers of a core are saved where any member's mask lists them (R182). -/
def clusterSaveEffect (cl : Nat) (s : State) : State :=
  let hs := s.occupiedIn cl
  let wKeep (core n : Nat) : Bool := hs.any (fun h => h.core == core && (s.hart h).takenMask.getLsbD (16 + n))
  let s := (s.poolTurns shadowPort (shadowLines cl (s.saveRanges cl))).getD s
  let s := s.spillImages cl (hs.map (fun h => s.contextOf (s.hart h).unit))
  ((hs.foldl (fun s h => s.saveUnit cl (wKeep h.core) h) s).shadowBytes cl).spillExcess cl

/-- CLUSTER_SAVE. -/
def execClusterSave (cluster : Nat) (s : State) : Host.Outcome State Fault Refusal :=
  when (clusterSaveReady cluster s) (clusterSaveEffect cluster) s

/-- SAVE_COMPLETE can happen: units of the cluster have been saved and their slots not yet freed. -/
def saveCompleteReady (cl : Nat) (s : State) : Bool :=
  let c := s.cluster cl
  !c.saving.isEmpty && c.saving.all (fun h => (s.hart h).st == .saved)

/-- SAVE_COMPLETE (R397): the slots are free, saved in shadow. -/
def saveCompleteEffect (cl : Nat) (s : State) : State :=
  let c := s.cluster cl
  let s := c.saving.foldl (fun s h => s.modHart h (fun x => x.modCsr (fun r => { r with preempt := setBits r.preempt 2 2 2 }))) s
  s.modCluster cl (fun c => { c with saving := [] })

/-- SAVE_COMPLETE. -/
def execSaveComplete (cluster : Nat) (s : State) : Host.Outcome State Fault Refusal :=
  when (saveCompleteReady cluster s) (saveCompleteEffect cluster) s

/-! ### UNIT_RESUME (R182, R397) -/

/-- The saved threads of every cluster, with the cluster that saved them. -/
def State.allSaves (s : State) : List (Nat × Saved) :=
  (s.clusters.map (fun (e : Nat × Cluster) => e.2.saves.map (fun v => (e.1, v)))).flatten

/-- The unit of a saved thread. -/
def State.savedUnit (s : State) (v : Saved) : Option (Nat × Nat × Nat) := (s.hart v.who).unit

/-- Whether a saved unit may resume on a core: its placed core, or any core of its set, of a cluster on which its context may still place
units (R166, R395, R402, R414). The commands that it has under way go on at the core from which they were issued (R159, R188). -/
def State.mayResume (s : State) (v : Saved) (core : Nat) : Bool :=
  match s.savedUnit v with
  | none => core == v.owner.core
  | some (k, l, _) =>
    let x := s.launchOf k l
    !s.ccbHeld x && s.inPartition x (clusterOf core) &&
    (core == v.owner.core || (recPlace x.record == 2 && (match s.clusterMask x with | .ok m => bits m (clusterOf core) 1 == 1 | .error _ => false)))

/-- A pool image written back to the same offsets of a cluster's pool, a word that no code corrects as such (R83, R100). -/
def State.restorePool (s : State) (cl : Nat) (v : Saved) : State :=
  let t := v.ranges.foldl (fun s r => s.writeMem (poolPa cl r.1) (v.pool.slice r.1 r.2)) s
  { t with bad := v.poolBad.map (fun w => poolPa cl 0 / 8 + w) ++ t.bad }

/-- The accumulator state of a saved slot restored into a granted one; OB0, OB1 and WSH read as zero (R327). -/
def LeaseSlot.restoreAcc (l o : LeaseSlot) : LeaseSlot :=
  { l with working := o.working, visible := o.visible, wlat := o.wlat, wlatFmt := o.wlatFmt, wlatScale := o.wlatScale, flags := o.flags,
           poisonW := o.poisonW, poisonV := o.poisonV, trkWlat := o.trkWlat,
           ecc := o.ecc.filter (fun e => e.1 == 3) }

/-- A saved thread moved into a slot, which it takes under the slot's next epoch (R117, R159, R181) (DESIGN CHOICE, unsafe; log 56). -/
def State.moveIn (s : State) (v : Saved) (id : HartId) : State :=
  let h := s.hart v.who
  let r : Rename := ⟨v.who, h.epoch, id, (s.hart id).epoch + 1⟩
  let own := (s.hart id).busy
  let mask := (s.hart id).csr.safemask
  let s := { s with clusters := s.clusters.map (fun (e : Nat × Cluster) => (e.1, { e.2 with saves := e.2.saves.filter (· != v) })) }
  ((s.restorePool (clusterOf id.core) v).rename r).setHart id
    { h with
      epoch := r.newEpoch, st := v.st, csr := { h.csr with preempt := 0, safemask := mask }
      busy := { r.busy h.busy with nextSeq := max h.busy.nextSeq own.nextSeq, sbNext := max h.busy.sbNext own.sbNext
                                   loadNext := max h.busy.loadNext own.loadNext, sent := own.sent } } |>.setHart v.who Hart.reset

/-- A saved unit restored into a free slot that no gang holds, once a lease slot has been granted where its accumulators were saved and the
banks of the pool let the shadow port in (R84, R181, R327, R387, R397). -/
def State.restoreUnit (s : State) (v : Saved) (id : HartId) : Option State :=
  let cl := clusterOf id.core
  if !s.slotFree id || !s.mayResume v id.core || s.launches.any (fun y => s.holds y.2.2 id.core) then none
  else
    match s.poolTurns shadowPort (shadowLines cl v.ranges), v.acc, (s.cluster cl).freeSlot with
    | none, _, _ => none
    | some t, none, _ => some (t.moveIn v id)
    | some _, some _, none => none
    | some t, some a, some n => some (((t.moveIn v id).grantSlot cl n id).modSlot cl n (fun l => l.restoreAcc a))

/-- A saved unit and, in long mode, every member of its core group restored onto one core (R182): the group onto a core whose
slots are all free, a unit saved in short mode onto a core in short mode or with every slot free. -/
def State.restoreGroup (s : State) (v : Saved) (id : HartId) : Option State :=
  let clear := (s.freeOn [] id.core).length == 4
  if v.long then
    let group := ((s.allSaves).map (·.2)).filter (fun o => o.long && o.owner.core == v.owner.core && o.clk == v.clk)
    if !clear then none
    else
      (group.foldl (fun (r : Option State) o => r.bind (fun s => s.restoreUnit o ⟨.thread, id.core, o.owner.idx⟩)) (some s)).map
        (fun s => s.modCore id.core (fun c => { c with long := true, reserved := true, w := v.w, wSt := [] }))
  else if (s.core id.core).long && !clear then none
  else (s.restoreUnit v id).map (fun s => s.modCore id.core (fun c => { c with long := false }))

/-- Whether a slot of a core is offered to the launch of a saved unit: no launch that ranks before it has a unit that waits for it (R386). -/
def State.offeredTo (s : State) (v : Saved) (core : Nat) : Bool :=
  match s.savedUnit v with
  | none => true
  | some (k, l, _) => s.offered k l core

/-- The first free slot on which a saved unit may resume. -/
def State.resumeSlot (s : State) (v : Saved) : Option HartId :=
  ((List.range Config.cores).filter (fun c => s.mayResume v c && s.offeredTo v c)).findSome? (fun c =>
    (s.freeOn [] c).find? (fun h => (s.restoreGroup v h).isSome))

/-- Whether a thread is of a launch. -/
def Hart.ofLaunch (h : Hart) (k l : Nat) : Bool := match h.unit with | some (k', l', _) => k' == k && l' == l | none => false

/-- The other units of a gang restored, each where it may resume (R167). -/
def State.restoreGang (s : State) (k l n : Nat) : Option State :=
  match (s.allSaves.map (·.2)).find? (fun o => (s.hart o.who).ofLaunch k l) with
  | none => some s
  | some o =>
    match n with
    | 0 => none
    | m + 1 =>
      match s.resumeSlot o with
      | none => none
      | some h =>
        match s.restoreGroup o h with
        | none => none
        | some t => t.restoreGang k l m

/-- Whether no unit of a launch stands in a slot or is still being saved: its gang resumes as a whole (R167). -/
def State.gangSaved (s : State) (k l : Nat) : Bool :=
  s.harts.all (fun (e : HartId × Hart) => !e.2.occupied || !e.2.ofLaunch k l) &&
  s.allSaves.all (fun e => !(s.hart e.2.who).ofLaunch k l || !(s.cluster e.1).saving.contains e.2.owner)

/-- A saved unit resumed in a slot, with its gang (R167, R397); none where it cannot be. -/
def State.resumeAt (s : State) (v : Saved) (id : HartId) : Option State :=
  match s.savedUnit v with
  | none => s.restoreGroup v id
  | some (k, l, _) =>
    if !(s.launchOf k l).gang then s.restoreGroup v id
    else if s.gangSaved k l then (s.restoreGroup v id).bind (fun t => t.restoreGang k l s.allSaves.length)
    else none

/-- The saved units that could resume on a core now. -/
def State.savedFor (s : State) (core : Nat) : List (Nat × Nat × Nat) :=
  s.allSaves.filterMap (fun e =>
    if (s.cluster e.1).saving.contains e.2.owner || !(s.freeOn [] core).any (fun h => (s.resumeAt e.2 h).isSome) then none
    else s.savedUnit e.2)

/-- Whether a free slot of a core goes to a unit, saved or waiting, of a launch: none that ranks before its launch has a unit which may use
it, and within the launch none of a lower index may (R386, R387). -/
def State.unitFirst (s : State) (k l u core : Nat) : Bool :=
  let x := s.launchOf k l
  s.offered k l core && (match s.claim x core with | some w => decide (u ≤ w) | none => true) &&
  (s.savedFor core).all (fun y =>
    if y.1 = k ∧ y.2.1 = l then decide (u ≤ y.2.2) else !before (y.1, y.2.1, s.launchOf y.1 y.2.1) (k, l, x))

/-- A saved unit resumed in a slot that is its by R386; none where it cannot be. -/
def State.resume (s : State) (saved id : HartId) : Option State :=
  match s.allSaves.find? (fun e => e.2.owner == saved && !(s.cluster e.1).saving.contains saved) with
  | none => none
  | some (_, v) =>
    if (match s.savedUnit v with | some (k, l, u) => s.unitFirst k l u id.core | none => true) then s.resumeAt v id else none

/-- UNIT_RESUME (R182, R386, R397). -/
def execUnitResume (saved h : HartId) (s : State) : Host.Outcome State Fault Refusal := .next ((s.resume saved h).getD s)

/-! ### UNIT_DISPATCH and GANG_BIND (R166, R167, R169, R386, R387) -/

/-- UNIT_DISPATCH can happen: the unit waits, and it cannot be placed, or the slot is free on its core and is its by R386 and R387. -/
def unitDispatchReady (k l u slot : Nat) (s : State) : Bool :=
  let x := s.launchOf k l
  x.waiting && !x.gang && decide (x.next ≤ u) && decide (u < recUnits x.record) && !x.sent.contains u &&
  (match s.placeOf x u with
   | .error c => c.isSome
   | .ok t =>
     match s.coreNow (k, l, x) [] t with
     | none => false
     | some c => s.slotFree ⟨.thread, c, slot⟩ && decide (slot < 4) && s.claim x c == some u && s.unitFirst k l u c)

/-- UNIT_DISPATCH (R166, R169). -/
def unitDispatchEffect (k l u slot : Nat) (s : State) : State :=
  let x := s.launchOf k l
  match s.placeOf x u with
  | .error none => s
  | .error (some c) => s.failUnit k l u c
  | .ok t =>
    match s.coreNow (k, l, x) [] t with
    | none => s
    | some c => (s.bind k l u ⟨.thread, c, slot⟩).modLaunch k l (fun x => x.advance x.sent.length)

/-- UNIT_DISPATCH. -/
def execUnitDispatch (stack lslot unit slot : Nat) (s : State) : Host.Outcome State Fault Refusal :=
  when (unitDispatchReady stack lslot unit slot s) (unitDispatchEffect stack lslot unit slot) s

/-- GANG_BIND can happen: a gang that can never be bound ends; otherwise every unit has its slot. -/
def gangBindReady (k l : Nat) (s : State) : Bool :=
  let x := s.launchOf k l
  x.waiting && x.gang &&
  (decide (8192 < recUnits x.record) ||
   match s.gangPlaces x (recUnits x.record) 0 with
   | .error e => e.2.isSome
   | .ok ts =>
     s.gangTooBig ts ||
     (match s.gangPlan (k, l, x) [] ts with
      | some p => s.gangMay k l p && p.all (fun h => (s.savedFor h.core).all (fun y => !before (y.1, y.2.1, s.launchOf y.1 y.2.1) (k, l, x)))
      | none => false))

/-- A gang that ends with ERROR without dispatching a unit (R167). -/
def State.failGang (s : State) (k l u : Nat) (c : BitVec 8) : State :=
  s.endLaunch k l (fun i => { i with status := 2, errcause := c, errunit := BitVec.ofNat 32 u })

/-- GANG_BIND (R167). -/
def gangBindEffect (k l : Nat) (s : State) : State :=
  let x := s.launchOf k l
  if 8192 < recUnits x.record then s.failGang k l 0 0
  else
    match s.gangPlaces x (recUnits x.record) 0 with
    | .error (_, none) => s
    | .error (u, some c) => s.failGang k l u c
    | .ok ts =>
      if s.gangTooBig ts then s.failGang k l 0 0
      else
        match s.gangPlan (k, l, x) [] ts with
        | none => s
        | some p => (p.zipIdx.foldl (fun (s : State) (e : HartId × Nat) => s.bind k l e.2 e.1) s).modLaunch k l (fun x => { x with next := recUnits x.record, sent := [] })

/-- GANG_BIND. -/
def execGangBind (stack lslot : Nat) (s : State) : Host.Outcome State Fault Refusal :=
  when (gangBindReady stack lslot s) (gangBindEffect stack lslot) s

/-! ### The deadline and the watchdog (R398) -/

/-- MIGRATION_DEADLINE can happen: REQ has waited 105,000 clk and the thread has not been taken. -/
def migrationDeadlineReady (id : HartId) (s : State) : Bool :=
  let h := s.hart id
  id.kind == .thread && wbit h.csr.preempt 0 && !h.late && !h.isTaken && decide (h.reqClk + Config.migrateClk ≤ s.clk)

/-- MIGRATION_DEADLINE (R398): the cluster's clock goes down a step, once for the request. -/
def migrationDeadlineEffect (id : HartId) (s : State) : State :=
  let cl := clusterOf id.core
  let k := (s.cluster cl).step
  let s := s.modHart id (fun h => { h with late := true })
  if 8 < k then s.clkstepSet cl (BitVec.ofNat 64 (k - 1)) else s

/-- MIGRATION_DEADLINE. -/
def execMigrationDeadline (h : HartId) (s : State) : Host.Outcome State Fault Refusal :=
  when (migrationDeadlineReady h s) (migrationDeadlineEffect h) s

/-- SAFEPOINT_WATCHDOG can happen: REQ or KILL has waited 2,100,000 clk. -/
def safepointWatchdogReady (id : HartId) (s : State) : Bool :=
  let h := s.hart id
  id.kind == .thread && decide (wbits h.csr.preempt 0 2 ≠ 0) && h.occupied &&
  (match h.wait with | some (.killed _) => false | _ => true) && decide (h.reqClk + Config.watchdog ≤ s.clk)

/-- SAFEPOINT_WATCHDOG (R398): the unit is killed, its queue enters ERROR and the snapshot trigger fires (R405). -/
def safepointWatchdogEffect (id : HartId) (s : State) : State :=
  let u := (s.hart id).unit
  ((s.killUnit id 0x19).unitQueueError u).snapshot (stackOf id.core)

/-- SAFEPOINT_WATCHDOG. -/
def execSafepointWatchdog (h : HartId) (s : State) : Host.Outcome State Fault Refusal :=
  when (safepointWatchdogReady h s) (safepointWatchdogEffect h) s

end Sys2Proof.Machine
end

