-- ==== Sys2Proof/Machine/Arrivals.lean ====
section
/-! DEFINITION. Sys2Proof/Machine/Arrivals.lean: messages that arrive (R105 to R108, R117, R130), the arrival queue and the spill ring, the
dispatch of arrivals (R112), and the service path's remote accesses and mailbox (R114, R122 to R124, R129). -/

namespace Sys2Proof.Machine

/-! ### Arrival -/

/-- Two messages of one source (R105, R117): a hart of this device, a peer device or a host function (R122, R148). -/
def Msg.sameSrc (a b : Msg) : Bool :=
  match a.org, b.org with
  | .own, .own => a.src == b.src
  | .protocol, .protocol => a.src == b.src
  | .peer, .peer => a.srcDev == b.srcDev
  | .host f, .host g => f == g
  | _, _ => false

/-- What comes before the execution of a message of a hart of this device (R136): the loads before it; for a release, the stores and
messages before it; and what a FENCE.REL orders before it (R140). -/
def State.sendDue (s : State) (m : Msg) : Bool :=
  let b := (s.hart m.src).busy
  m.org != .own ||
  (b.loads.all (fun l => decide (m.afterLoads ≤ l.num)) && b.sb.all (fun e => !m.relSb.contains e.num) &&
   b.posted.all (fun p => !m.relIds.contains p.id) &&
   (!m.rel || (b.sb.all (fun e => decide (m.afterSb ≤ e.num)) && b.posted.all (fun p => p.epoch != m.epoch || decide (m.id ≤ p.id)))))

/-- WIDTH of an arrival record (R108). -/
def widthCode (n : Nat) : Nat := if n = 1 then 0 else if n = 2 then 1 else if n = 4 then 2 else 3

/-- Whether a message's record holds its address (R108). -/
def MsgKind.hasAddr (k : MsgKind) : Bool :=
  match k with
  | .rload | .rstore | .ramo | .mbxadd | .chunk | .travel => true
  | _ => false

/-- The bytes of an arrival record (R108): the header entry, then the argument entry or the payload. A context's copy carries no token
(R291); SRCCORE of a management core is the first core of its stack (DEDUCED, unsafe; logs 9 and 130). -/
def Msg.record (m : Msg) : List Byte :=
  let w0 := m.kind.code + (m.entries - 1) * 2 ^ 5 + m.hidx * 2 ^ 8 + b2n m.rr * 2 ^ 14 + b2n m.src.isCtx * 2 ^ 15 + m.src.home * 2 ^ 16 +
    m.src.idx % 4 * 2 ^ 27 + m.rreg.toNat * 2 ^ 29 + m.asid.toNat * 2 ^ 34 + m.ord.toNat * 2 ^ 46 + m.srcDev.toNat * 2 ^ 48
  let w4 := m.seq.toNat + widthCode m.size * 2 ^ 32 + m.op * 2 ^ 34 + m.hops * 2 ^ 38 + m.tk.toNat * 2 ^ 46 + b2n (m.cmd.isSome && !m.src.isCtx) * 2 ^ 49 + m.epoch.toNat * 2 ^ 56
  let body := bytesOf 8 w0 ++ bytesOf 8 (if m.kind.hasAddr then m.addr.toNat else 0) ++ bytesOf 8 m.data.toNat ++ bytesOf 8 m.cmp.toNat ++ bytesOf 8 w4 ++
    List.replicate 24 0 ++ (m.args.map (fun a => bytesOf 8 a.toNat)).flatten ++ m.bytes.map (·.2)
  (body ++ List.replicate (64 * m.entries) 0).take (64 * m.entries)

/-- The entries of an arrival written into the spill ring through the vault's write buffer (R106). -/
def State.ringWrite (s : State) (core idx : Nat) (es : List (List Byte)) : Option State :=
  match es with
  | [] => some s
  | e :: r =>
    let c := s.core core
    match s.storeBytes (agentPort core) (vaultPa core ((c.spillBase + idx % c.spillQuota) * 64)) e (agentWriter core) with
    | none => none
    | some t => t.ringWrite core (idx + 1) r

/-- A record cut into entries of 64 bytes. -/
def entriesOf (b : List Byte) (n : Nat) : List (List Byte) := (List.range n).map (fun k => (b.drop (64 * k)).take 64)

/-- An arrival that needs more ring entries than remain (R106): NACK 0x0E, BREACH, one notice for each episode (DEDUCED, unsafe; log 27). -/
def State.breach (s : State) (core : Nat) (m : Msg) : State :=
  let c := s.core core
  let s := if c.breachEp then s else s.notify (stackOf core) (.queueFault core)
  (s.modCore core (fun c => { c with breach := satAdd c.breach 1 255, breachEp := !c.ring.isEmpty })).nackMsg m 0x0E 0

/-- The notice of an accepted traveller (R140) (DEDUCED, unsafe; log 25). -/
def State.acceptTravel (s : State) (m : Msg) : State := if m.kind = .travel then s.reply (m.answer .accept) else s

/-- An arrival taken into the on-die queue, behind the ring, or refused (R105, R106); none while the ring's write cannot be
accepted. -/
def State.arrive (s : State) (core : Nat) (m : Msg) : Option State :=
  let c := s.core core
  if c.ring.isEmpty && decide (c.onDie + m.entries ≤ 16) then
    some ((s.modCore core (fun c => { c with ondie := c.ondie ++ [m] })).acceptTravel m)
  else if c.spilled + m.entries ≤ c.spillQuota then
    (s.ringWrite core (c.rhead + c.spilled) (entriesOf m.record m.entries)).map (fun s =>
      (s.modCore core (fun c => { c with ring := c.ring ++ [m], hwm := max c.hwm (c.spilled + m.entries) })).acceptTravel m)
  else some (s.breach core m)

/-- A message to another device leaves this one; that device's answer is free: an answer of the kind's own or a NACK (log 16). -/
def State.foreign (s : State) (m : Msg) : State :=
  let n := s.freeCtr
  let s := { s with freeCtr := n + 1 }
  if Config.freeNat n % 2 = 1 then s.nackMsg m (BitVec.ofNat 8 (Config.freeNat n / 2)) (BitVec.ofNat 8 (Config.freeNat n / 512))
  else
    match m.kind with
    | .travel => (s.reply (m.answer .accept)).reply { m.answer .endNotice with value := Config.freeWord n }
    | .mbxadd | .rstore => s.acceptNotices m
    | .mbxwatch =>
      if m.sub = 2 then s
      else if m.sub = 1 ∧ Config.freeNat n / 2 % 2 = 1 then s.reply { m.answer .watchRetry with status := 2, ok := false }
      else s.reply { m.answer .fill with value := BitVec.ofNat 64 (wbits (Config.freeWord n) 0 32) }
    | _ => s.reply { m.answer .fill with value := Config.freeWord n }

/-- No message before a message on its way has the same source and target (R117). -/
def State.inOrder (s : State) (n : Nat) (m : Msg) : Bool :=
  (s.dev.net.take n).all (fun e => !(e.sameSrc m && e.core == m.core && s.devOf e.dev == s.devOf m.dev))

/-- MESSAGE_ARRIVAL can happen: no earlier message of the same source to the same core is on its way (R117), and what comes
before its execution is performed (R136); the port to another device carries messages (R408). A buffer-free notice goes through the
routers first (R129). -/
def messageArrivalReady (n : Nat) (s : State) : Bool :=
  match s.dev.net[n]? with
  | none => false
  | some m =>
    m.router.isNone && s.sendDue m && s.inOrder n m && s.linkOpen m.dev

/-- Whether a message of a source outside the device has to wait for those of it that write and have not been performed, at any core: an
increment and a read do (R148). -/
def State.postedBefore (s : State) (m : Msg) : Bool :=
  (m.kind == .mbxadd || m.kind == .rload) &&
  s.cores.any (fun (e : Nat × Core) => (e.2.ondie ++ e.2.ring ++ e.2.serving).any (fun x => x.sameSrc m && (x.kind == .rstore || x.kind == .mbxadd)))

/-- A message that a link brings in (R11, R130): while this device has no number, a peer's is refused, and one for a retired core; any other
arrives as one of this device does, an increment and a read behind the earlier writes of their source (R148). -/
def State.linkArrives (s : State) (m : Msg) : Option State :=
  if s.dev.devnum = 0xFFFF ∧ m.org = .peer then some (s.nackMsg m 0x0D 0)
  else if (s.core m.core).retired then some (s.nackMsg m 0x05 0)
  else if s.postedBefore m then none
  else s.arrive m.core m

/-- Whether a message may come from outside the device: of a kind that peers send, or an increment of the host, which may name this device
as 0xFFFF (R10), with what it names within the device (R109, R122, R130). -/
def Msg.foreign (m : Msg) (devnum : BitVec 16) : Bool :=
  decide (m.core < 2048) && (m.dev == devnum || devnum == 0xFFFF || (m.org != .peer && m.dev == 0xFFFF)) && m.router.isNone && m.since.isNone &&
  m.bytes.isEmpty && m.elems.isEmpty && m.job.isNone &&
  (match m.org with
   | .peer => (match m.kind with | .rload | .rstore | .ramo | .rcall | .travel | .mbxadd | .mbxwatch => true | _ => false)
   | .host _ => m.kind == .mbxadd
   | _ => false)

/-- A message from outside the device taken off its link; none while it cannot be (R119). -/
def State.fromLink (s : State) (m : Msg) : Option State :=
  if m.foreign s.dev.devnum then ({ s with dev := { s.dev with nextMsg := s.dev.nextMsg + 1 } }).linkArrives { m with id := s.dev.nextMsg, acks := [] }
  else none

/-- MESSAGE_ARRIVAL (R105, R106, R130): a core that is retired answers with a NACK. -/
def State.messageArrives (s : State) (n : Nat) : Option State :=
  match s.dev.net[n]? with
  | none => none
  | some m =>
    if !messageArrivalReady n s then none
    else
      let s := s.modDev (fun d => { d with net := d.net.eraseIdx n })
      if !s.ownDev m.dev then some (s.foreign m)
      else if (s.core m.core).retired then some (s.nackMsg m 0x05 0)
      else s.arrive m.core m

/-- MESSAGE_ARRIVAL. -/
def execMessageArrival (n : Nat) (s : State) : Host.Outcome State Fault Refusal := .next ((s.messageArrives n).getD s)

/-! ### Leaving the queue -/

/-- The ring becomes empty: the episode ends and a changed ring takes effect (R106, R107). -/
def State.ringEmptied (s : State) (core : Nat) : State :=
  let s := s.modCore core (fun c => { c with breachEp := false })
  match (s.core core).spillNext with
  | some (b, q) => s.spillApply core b q
  | none => s

/-- Ring arrivals move into the on-die queue, oldest first, as far as there is room (R106). -/
def State.refill (s : State) (core n : Nat) : State :=
  match n with
  | 0 => s
  | k + 1 =>
    let c := s.core core
    match c.ring with
    | [] => s
    | m :: r =>
      if c.onDie + m.entries ≤ 16 then
        let s := s.modCore core (fun c => { c with ondie := c.ondie ++ [m], ring := r, rhead := (c.rhead + m.entries) % max c.spillQuota 1 })
        if r.isEmpty then s.ringEmptied core else s.refill core k
      else s

/-- An arrival leaves the on-die queue (R105). -/
def State.leave (s : State) (core n : Nat) : State :=
  let s := s.modCore core (fun c => { c with ondie := c.ondie.eraseIdx n })
  s.refill core (s.core core).ring.length

/-! ### Dispatch (R105, R112) -/

/-- Whether an arrival of a kind runs in a handler context (R105, R110). -/
def Msg.needsCtx (m : Msg) : Bool := m.kind == .rcall || m.kind == .travel

/-- The context of a core that takes a call or a traveller: the lowest that is idle (DESIGN CHOICE, unsafe; log 131). -/
def State.idleCtx (s : State) (core : Nat) : Option HartId := (ctxsOf core).find? (fun h => (s.hart h).st == .idle)

/-- Whether an earlier arrival of a source at a core has left the queue and is not complete (R112). -/
def State.sourceBusy (s : State) (core : Nat) (m : Msg) : Bool :=
  (ctxsOf core).any (fun h => match (s.hart h).ctx.arrival with | some a => a.sameSrc m | none => false) ||
  (s.core core).serving.any (fun a => a.sameSrc m)

/-- Whether an arrival of the on-die queue could be dispatched but for the state of its entry (R105). -/
def State.dispatchable (s : State) (core n : Nat) : Bool :=
  let q := (s.core core).ondie
  match q[n]? with
  | none => false
  | some m =>
    (q.take n).all (fun e => !e.sameSrc m) && !s.sourceBusy core m && (!m.needsCtx || (s.idleCtx core).isSome)

/-- Whether an arrival's entry is BUSY, so that it waits (R112, R113). -/
def State.entryBusy (s : State) (core : Nat) (m : Msg) : Bool := m.needsCtx && ((s.core core).entry m.hidx).st == .busy

/-- The arrival that is dispatched next among some: the oldest dispatchable one, past those that wait (R105). -/
def State.pick (s : State) (core : Nat) (k : Msg → Bool) : Option (Nat × Msg) :=
  let q := (s.core core).ondie
  match (List.range q.length).find? (fun n => s.dispatchable core n && (match q[n]? with | some m => !s.entryBusy core m | none => false)) with
  | none => none
  | some n => match q[n]? with | some m => if k m then some (n, m) else none | none => none

/-- What the service path does with an arrival at one event: it completes it, or has issued accesses whose end it waits for. -/
inductive Served where
  | done (s : State)
  | wait (s : State)

/-- The state after a service. -/
def Served.state (r : Served) : State := match r with | .done s => s | .wait s => s

/-- An arrival that the service path holds is complete (R112). -/
def State.unserve (s : State) (core id : Nat) : State :=
  (s.modCore core (fun c => { c with serving := c.serving.filter (fun m => m.id != id) })).dropReads core (.msg id)

/-- An arrival held by the service path from its dispatch on (R105, R110). -/
def State.hold (s : State) (core : Nat) (m : Msg) : State := s.modCore core (fun c => { c with serving := c.serving ++ [m] })

/-- Some arrival of a kind that the service path holds, completed. -/
def State.serveHeld (s : State) (core : Nat) (k : Msg → Bool) (f : Msg → State → Served) : Option State :=
  (s.core core).serving.findSome? (fun m =>
    if k m then (match f m s with | .done t => some (t.unserve core m.id) | .wait _ => none) else none)

/-- The service path goes on with an arrival of a kind that it holds, or takes the next: that leaves the queue, and is complete or held
until its accesses are done (R105, R110). -/
def State.serve (s : State) (core : Nat) (k : Msg → Bool) (f : Msg → State → Served) : Option State :=
  match s.serveHeld core k f with
  | some t => some t
  | none =>
    (s.pick core k).map (fun p =>
      match f p.2 (s.leave core p.1) with
      | .done t => t
      | .wait t => t.hold core p.2)

/-- An operation that its home cannot take now makes its arrival wait. -/
def orWait (s : State) (o : Option State) : Served :=
  match o with
  | some t => .done t
  | none => .wait s

/-! ### Remote accesses (R114) -/

/-- Who a service path writes for. -/
def Msg.writer (m : Msg) (core : Nat) : Writer := if m.org = .own then ⟨m.src, m.asid, true⟩ else { agentWriter core with asid := m.asid }

/-- The checks of a remote access at its target before it is issued (R114, R115): none, or the NACK that answers. -/
def State.remoteBad (s : State) (core : Nat) (m : Msg) : Option State :=
  let pa := m.addr.toNat
  if pa % max m.size 1 ≠ 0 then some (s.nackMsg m 0x04 0)
  else if region pa ≠ 0 ∨ s.malformed pa = true ∨ paCore pa ≠ core then some (s.nackMsg m 0x05 0)
  else none

/-- A remote access that reads the own vault: it is checked, waits in the bank's queue as any other, and for a held line; a word that no
code corrects is refused (R51, R81, R152). -/
def withRemoteRead (core : Nat) (go : Reading → State → Option State) (m : Msg) (s : State) : Served :=
  let pa := m.addr.toNat
  match s.remoteBad core m with
  | some t => .done t
  | none =>
    let s := s.askAll (.msg m.id) [(pa, m.size)]
    if s.heldAt pa m.size || !s.readReady (.msg m.id) [(pa, m.size)] then .wait s
    else
      match s.badWord pa m.size with
      | some w => .done (((s.nackMsg m 0x0B 0).logUncorr w).dropReads core (.msg m.id))
      | none => orWait s (go (s.reading core (.msg m.id)) (s.dropReads core (.msg m.id)))

/-- The answer of a read with the vault status of R67; the agent's own VLAST is that of none of its contexts (R68, R110). -/
def Msg.readAnswer (m : Msg) (v : Word) (r : Reading) : Reply :=
  { m.answer .fill with value := v, vst := some r.vst, waited := r.waited, hit := r.hit }

/-- RLOAD served (R114). -/
def serveRload (core : Nat) (m : Msg) (s : State) : Served :=
  withRemoteRead core (fun r s => some (s.reply (m.readAnswer (BitVec.ofNat 64 (s.readNum m.addr.toNat m.size)) r))) m s

/-- RLOAD_REQUEST: system handler 0. -/
def execRloadRequest (core : Nat) (s : State) : Host.Outcome State Fault Refusal :=
  .next ((s.serve core (fun m => m.kind == .rload) (serveRload core)).getD s)

/-- RSTORE served (R114). -/
def serveRstore (core : Nat) (m : Msg) (s : State) : Served :=
  match s.remoteBad core m with
  | some t => .done t
  | none =>
    orWait s ((s.storeBytes (agentPort core) m.addr.toNat (bytesOf m.size m.data.toNat) (m.writer core)).map (fun s => s.reply (m.answer .accept)))

/-- RSTORE_REQUEST: system handler 1. -/
def execRstoreRequest (core : Nat) (s : State) : Host.Outcome State Fault Refusal :=
  .next ((s.serve core (fun m => m.kind == .rstore) (serveRstore core)).getD s)

/-- RAMO served (R114, R279): the old value, sign-extended for W. -/
def serveRamo (core : Nat) (m : Msg) (s : State) : Served :=
  withRemoteRead core (fun r s =>
    (s.amoAt (agentPort core) m.addr.toNat m.op m.size m.data.toNat m.cmp.toNat (m.writer core)).map (fun p =>
      p.2.reply (m.readAnswer (loaded p.1 m.size true) r))) m s

/-- RAMO_REQUEST: system handler 2. -/
def execRamoRequest (core : Nat) (s : State) : Host.Outcome State Fault Refusal :=
  .next ((s.serve core (fun m => m.kind == .ramo) (serveRamo core)).getD s)

/-! ### Mailbox (R122 to R124, R129) -/

/-- Counter that a mailbox message names: in the address of an increment, in DATA of a watch (log 103). -/
def Msg.counter (m : Msg) : Nat := if m.kind = .mbxwatch then wbits m.data 32 6 else wbits m.addr 2 6

/-- MBXADD served (R122); a posted write of the host gets no answer. -/
def serveMbxadd (core : Nat) (m : Msg) (s : State) : Served :=
  let s := s.counterSet core m.counter ((s.core core).counter m.counter + m.data.setWidth 32)
  .done (match m.org with | .host _ => s | _ => s.acceptNotices m)

/-- MBXADD: system handler 5. -/
def execMbxadd (core : Nat) (s : State) : Host.Outcome State Fault Refusal :=
  .next ((s.serve core (fun m => m.kind == .mbxadd) (serveMbxadd core)).getD s)

/-- Watches that a target agent holds for other cores and devices (R123). -/
def remoteWatches : Nat := 32

/-- A remote watch, an unconditional read or a withdrawal served (R123, R124) (DEDUCED, unsafe; log 28). -/
def serveMbxwatch (core : Nat) (m : Msg) (s : State) : Served :=
  let c := s.core core
  let v := c.counter m.counter
  let fill := s.reply { m.answer .fill with value := v.setWidth 64 }
  .done (
    if m.sub = 0 then fill
    else if m.sub = 1 then
      if mbxDone v (m.data.setWidth 32) then fill
      else if remoteWatches ≤ c.watches.length then s.reply { m.answer .watchRetry with status := 2, ok := false }
      else s.modCore core (fun c =>
        { c with watches := c.watches ++ [⟨m.src, m.epoch, m.counter, m.data.setWidth 32, m.cmp, if m.rreg = 0 then none else some m.rreg, m.id, m.org⟩] })
    else
      match c.watches.findIdx? (fun w => w.src == m.src && w.epoch == m.epoch && w.counter == m.counter && w.org == m.org) with
      | some k => s.modCore core (fun c => { c with watches := c.watches.eraseIdx k })
      | none => s)

/-- MBXWATCH: system handler 5. -/
def execMbxwatch (core : Nat) (s : State) : Host.Outcome State Fault Refusal :=
  .next ((s.serve core (fun m => m.kind == .mbxwatch) (serveMbxwatch core)).getD s)

/-- WATCH_EXPIRY can happen: TIME has reached the expiry of a remote watch (R124). -/
def watchExpiryReady (core n : Nat) (s : State) : Bool :=
  match (s.core core).watches[n]? with
  | some w => decide (w.expiry.toNat ≤ s.time.toNat)
  | none => false

/-- WATCH_EXPIRY (R124): the watch goes without an answer. -/
def execWatchExpiry (core n : Nat) (s : State) : Host.Outcome State Fault Refusal :=
  when (watchExpiryReady core n s) (fun s => s.modCore core (fun c => { c with watches := c.watches.eraseIdx n })) s

/-- BFREE_COMBINE can happen: a buffer-free notice stands at a router (R129), and what comes before it is performed (R147). -/
def bfreeCombineReady (cl n : Nat) (s : State) : Bool :=
  match s.dev.net[n]? with
  | none => false
  | some m => (match m.router with | some (c, _) => c == cl | none => false) && s.sendDue m && s.inOrder n m

/-- A notice of a child noted in a combine entry; where every child has one, one of each goes on together (R129). -/
def Combine.note (e : Combine) (child : Nat) (acks : List Ack) : Combine × Option (List Ack) :=
  let qs := e.queues.set child (e.queues.get child [] ++ [acks])
  if qs.all (fun (q : Nat × List (List Ack)) => !q.2.isEmpty) then
    ({ e with queues := qs.map (fun (q : Nat × List (List Ack)) => (q.1, q.2.drop 1)), tiles := e.tiles - 1 },
     some (qs.flatMap (fun (q : Nat × List (List Ack)) => q.2.headD [])))
  else ({ e with queues := qs }, none)

/-- BFREE_COMBINE (R129): the notice is counted at the router for the child from which it comes; when the least count over the children
rises, one notice goes on, to the next router or, from the sender's own, to the counter, and an entry whose tiles have all been
freed is released. Without an entry the notice goes on as a plain MBXADD. -/
def bfreeCombineEffect (cl n : Nat) (s : State) : State :=
  match s.dev.net[n]? with
  | none => s
  | some m =>
    let on (r : Option (Nat × Nat)) (acks : List Ack) (s : State) : State :=
      s.modDev (fun d => { d with net := d.net.modify n (fun m => { m with router := r, acks := acks }) })
    let child := match m.router with | some (_, k) => k | none => 0
    match (s.cluster cl).combine.find? (fun e => e.core == m.core && e.mbx == m.counter && e.queues.has child) with
    | none => on none m.acks s
    | some e =>
      let f := e.note child m.acks
      let s := s.modCluster cl (fun c =>
        { c with combine := if f.1.tiles = 0 then c.combine.erase e else c.combine.map (fun x => if x = e then f.1 else x) })
      match f.2 with
      | none => s.modDev (fun d => { d with net := d.net.eraseIdx n })
      | some acks => on (e.up.map (fun up => (up, 2048 + cl))) acks s

/-- BFREE_COMBINE. -/
def execBfreeCombine (cluster n : Nat) (s : State) : Host.Outcome State Fault Refusal :=
  when (bfreeCombineReady cluster n s) (bfreeCombineEffect cluster n) s

/-! ### Calls and travellers (R102, R112, R113, R120) -/

/-- A handler context as an arrival starts it (R102): what it holds of its own accesses is numbered on. -/
def Hart.startCtx (h : Hart) (m : Msg) (e : HEntry) (sender : Word) (clk : Nat) : Hart :=
  let x : Table Reg Word :=
    [((3 : Reg), BitVec.ofNat 64 (ofBytes (m.record.take 8))), (4, sender), (5, m.data)] ++
    ([8, 9, 10, 11, 12, 13, 14, 15] : List Reg).zip m.args
  let r := Hart.reset
  { r with
    x := x, pc := e.pc, st := .running, epoch := h.epoch + 1
    csr := { h.csr with fcsr := 0, ptroot := ptrootStore 2 0 e.ptroot, tstatus := tstatusOf (b2n e.priv) 0 false, ldepth := 0 }
    busy := { HartBusy.none with queues := h.busy.queues, flights := h.busy.flights, nextSeq := h.busy.nextSeq, sbNext := h.busy.sbNext,
                                 loadNext := h.busy.loadNext, sent := h.busy.sent, posted := h.busy.posted }
    ctx := { arrival := some m, traveller := m.kind == .travel, start := clk, copies := [], copyFault := none } }

/-- The device-qualified ID of the sender of an arrival; for a traveller that of the previous hop (R102). -/
def Msg.sender (m : Msg) : Word :=
  if m.kind = .travel then m.addr else m.srcDev.setWidth 64 <<< 16 ||| BitVec.ofNat 64 m.src.home

/-- A call or a traveller dispatched (R112): the checks of the entry in their order, then a context starts. -/
def serveCall (core : Nat) (m : Msg) (s : State) : Served :=
  let e := (s.core core).entry m.hidx
  .done (
    if e.st = .empty then s.nackMsg m 0x0C 0
    else if m.hidx < 16 then s.nackMsg m 0x03 0
    else if !e.anyas && m.asid != e.ptroot.extractLsb' 4 12 then s.nackMsg m 0x07 0
    else
      match s.idleCtx core with
      | none => s
      | some h => s.modHart h (fun x => x.startCtx m e m.sender s.clk))

/-- The arrivals of a kind that only the BUSY state of their entries keeps from dispatch begin to wait (R113). -/
def State.noteBusy (s : State) (core : Nat) (k : MsgKind) : State :=
  s.modCore core (fun c =>
    { c with ondie := c.ondie.zipIdx.map (fun (m, n) =>
        if m.kind = k ∧ m.since.isNone = true ∧ s.entryBusy core m = true ∧ s.dispatchable core n = true then { m with since := some s.clk } else m) })

/-- RCALL_REQUEST (R112). -/
def execRcallRequest (core : Nat) (s : State) : Host.Outcome State Fault Refusal :=
  .next (((s.noteBusy core .rcall).serve core (fun m => m.kind == .rcall) (serveCall core)).getD (s.noteBusy core .rcall))

/-- TRAVEL (R120). -/
def execTravel (core : Nat) (s : State) : Host.Outcome State Fault Refusal :=
  .next (((s.noteBusy core .travel).serve core (fun m => m.kind == .travel) (serveCall core)).getD (s.noteBusy core .travel))

/-- BUSY_TIMEOUT can happen: an arrival has waited 10,500 clk on a BUSY entry (R113). -/
def busyTimeoutReady (core n : Nat) (s : State) : Bool :=
  match (s.core core).ondie[n]? with
  | some m => s.entryBusy core m && (match m.since with | some c => decide (c + Config.busyTimeout ≤ s.clk) | none => false)
  | none => false

/-- BUSY_TIMEOUT (R113): NACK 0x0C, STATUS 1. -/
def busyTimeoutEffect (core n : Nat) (s : State) : State :=
  match (s.core core).ondie[n]? with
  | some m => (s.nackMsg m 0x0C 1).leave core n
  | none => s

/-- BUSY_TIMEOUT. -/
def execBusyTimeout (core n : Nat) (s : State) : Host.Outcome State Fault Refusal :=
  when (busyTimeoutReady core n s) (busyTimeoutEffect core n) s

/-- HANDLER_WATCHDOG can happen: a context has run for 2,100,000 clk (R103). -/
def handlerWatchdogReady (id : HartId) (s : State) : Bool :=
  id.isCtx && (s.hart id).st == .running && decide ((s.hart id).ctx.start + Config.watchdog ≤ s.clk)

/-- HANDLER_WATCHDOG (R103, R405): the context ends with NACK 0x19 and the snapshot trigger fires. -/
def handlerWatchdogEffect (id : HartId) (s : State) : State := (s.endCtx id (.nack 0x19 0)).snapshot (stackOf id.core)

/-- HANDLER_WATCHDOG. -/
def execHandlerWatchdog (h : HartId) (s : State) : Host.Outcome State Fault Refusal :=
  when (handlerWatchdogReady h s) (handlerWatchdogEffect h) s

/-- The entry that an HSET or HCLR leaves (R111, R113). -/
def HEntry.written (e : HEntry) : HEntry :=
  match e.next with
  | some (_, some (root, pc, priv, anyas)) => ⟨root, pc, .valid, priv, anyas, none⟩
  | some (_, none) => HEntry.empty
  | none => e

/-- HANDLER_ENTRY_WRITTEN (R110, R113): the image is accepted by the vault, the entry leaves BUSY, HTGEN goes up and the writing
instruction completes; arrivals that waited are dispatched again. -/
def State.entryWritten (s : State) (core n : Nat) : Option State :=
  let e := (s.core core).entry n
  match e.st, e.next with
  | .busy, some (who, _) =>
    (s.storeBytes (agentPort core) ((s.core core).htbase.toNat + 16 * n) e.written.image (agentWriter core)).map (fun s =>
      let s := s.modCore core (fun c =>
        { c.modEntry n HEntry.written with
          htgen := c.htgen + 1
          ondie := c.ondie.map (fun m => if m.needsCtx ∧ m.hidx = n then { m with since := none } else m) })
      s.modHart who (fun h => if h.wait = some (.entry n) then { h with wait := some (.entryDone n) } else h))
  | _, _ => none

/-- HANDLER_ENTRY_WRITTEN. -/
def execHandlerEntryWritten (core entry : Nat) (s : State) : Host.Outcome State Fault Refusal := .next ((s.entryWritten core entry).getD s)

end Sys2Proof.Machine
end

