-- ==== Sys2Proof/Machine/Branch.lean ====
section
/-! DEFINITION. Sys2Proof/Machine/Branch.lean: branches, jumps and hardware loops (R176, R249 to R251). -/

namespace Sys2Proof.Machine

/-- A conditional branch (R249): T is the branch's own address plus a signed offset in halfwords. -/
def branch (ik : Code) (hd : Head) (a b : Reg) (off : Word) (taken : Word → Word → Bool) (s : State) : State :=
  issue ik hd 0 true [.x a, .x b] []
    (fun s => if taken (s.rx a) (s.rx b) then jump hd (s.me.pc + (off <<< 1)) s else finish ik hd s) s

/-- JAL (R250). -/
def jumpLink (ik : Code) (hd : Head) (d : Reg) (off : Word) (s : State) : State :=
  issue ik hd 0 true [] [.x d] (fun s => jump hd (s.me.pc + (off <<< 1)) (s.wx d (s.succ ik))) s

/-- JALR (R250): a target with bit 0 set raises cause 0x04, one with bits above 47 set cause 0x06 (DEDUCED, unsafe; log 87). -/
def jumpReg (ik : Code) (hd : Head) (d a : Reg) (off : Word) (s : State) : State :=
  issue ik hd 0 true [.x a] [.x d]
    (fun s =>
      let t := s.rx a + off
      if wbit t 0 then trapVal 0x04 t s
      else if wbits t 48 16 ≠ 0 then trapVal 0x06 t s
      else jump hd t (s.wx d (s.succ ik))) s

/-- LOOP and LOOPI (R176, R251). -/
def loopPush (ik : Code) (hd : Head) (off : BitVec 12) (count : Word) (s : State) : State :=
  let stop := s.me.pc + (zx off <<< 1)
  if 4 ≤ s.me.loops.length then trapVal 0x14 0 s
  else if count = 0 then finishAt hd stop s
  else finish ik hd (s.modMe (fun h => { h with loops := ⟨s.succ ik, stop, count⟩ :: h.loops }))

/-- BEQ (R249). -/
def execBeq (hd : Head) (a b : Reg) (o : BitVec 12) (s : State) : Host.Outcome State Fault Refusal :=
  .next (branch (codeOf (.beq hd a b o)) hd a b (sx o) (fun a b => a == b) s)

/-- BNE (R249). -/
def execBne (hd : Head) (a b : Reg) (o : BitVec 12) (s : State) : Host.Outcome State Fault Refusal :=
  .next (branch (codeOf (.bne hd a b o)) hd a b (sx o) (fun a b => a != b) s)

/-- BLT (R249). -/
def execBlt (hd : Head) (a b : Reg) (o : BitVec 12) (s : State) : Host.Outcome State Fault Refusal :=
  .next (branch (codeOf (.blt hd a b o)) hd a b (sx o) (fun a b => a.slt b) s)

/-- BGE (R249). -/
def execBge (hd : Head) (a b : Reg) (o : BitVec 12) (s : State) : Host.Outcome State Fault Refusal :=
  .next (branch (codeOf (.bge hd a b o)) hd a b (sx o) (fun a b => !a.slt b) s)

/-- BLTU (R249). -/
def execBltu (hd : Head) (a b : Reg) (o : BitVec 12) (s : State) : Host.Outcome State Fault Refusal :=
  .next (branch (codeOf (.bltu hd a b o)) hd a b (sx o) (fun a b => a.ult b) s)

/-- BGEU (R249). -/
def execBgeu (hd : Head) (a b : Reg) (o : BitVec 12) (s : State) : Host.Outcome State Fault Refusal :=
  .next (branch (codeOf (.bgeu hd a b o)) hd a b (sx o) (fun a b => !a.ult b) s)

/-- JAL (R250). -/
def execJal (hd : Head) (d : Reg) (i : BitVec 17) (s : State) : Host.Outcome State Fault Refusal :=
  .next (jumpLink (codeOf (.jal hd d i)) hd d (sx i) s)

/-- JALR (R250). -/
def execJalr (hd : Head) (d a : Reg) (i : BitVec 12) (s : State) : Host.Outcome State Fault Refusal :=
  .next (jumpReg (codeOf (.jalr hd d a i)) hd d a (sx i) s)

/-- LOOP (R251): the count is an unsigned 64-bit register value. -/
def execLoop (hd : Head) (a : Reg) (i : BitVec 12) (s : State) : Host.Outcome State Fault Refusal :=
  .next (issue (codeOf (.loop hd a i)) hd 0 true [.x a] [] (fun s => loopPush (codeOf (.loop hd a i)) hd i (s.rx a) s) s)

/-- LOOPI (R251): the count is the 10-bit field. -/
def execLoopi (hd : Head) (n : BitVec 10) (i : BitVec 12) (s : State) : Host.Outcome State Fault Refusal :=
  .next (issue (codeOf (.loopi hd n i)) hd 0 true [] [] (loopPush (codeOf (.loopi hd n i)) hd i (zx n)) s)

end Sys2Proof.Machine
end

