-- ==== Sys2Proof/Machine/Compressed.lean ====
section
/-! DEFINITION. Sys2Proof/Machine/Compressed.lean: the compressed forms (R225, R226): each behaves as its expansion with S = 0 and
E = 0, with its own length. -/

namespace Sys2Proof.Machine

/-- C.ADDISP: ADDI rd′, x2, u8 × 8 (R225). -/
def execCAddisp (d : BitVec 3) (u : BitVec 8) (s : State) : Host.Outcome State Fault Refusal :=
  .next (regOne (codeCAddisp d u) Head.plain (prime d) 2 (fun a => a + (zx u <<< 3)) s)

/-- C.LD: LD.D rd′, u5 × 8 (rs1′) (R225). -/
def execCLd (d a : BitVec 3) (u : BitVec 5) (s : State) : Host.Outcome State Fault Refusal :=
  .next (loadX (codeCLd d a u) Head.plain (prime d) (prime a) [] 3 true false (fun s => s.rx (prime a) + (zx u <<< 3)) s)

/-- C.ST: ST.D data′, u5 × 8 (rs1′) (R225). -/
def execCSt (d a : BitVec 3) (u : BitVec 5) (s : State) : Host.Outcome State Fault Refusal :=
  .next (storeX (codeCSt d a u) Head.plain (prime d) (prime a) [] 3 false (fun s => s.rx (prime a) + (zx u <<< 3)) s)

/-- C.WAITTK: WAITTK mask (R225). -/
def execCWaittk (m : BitVec 8) (s : State) : Host.Outcome State Fault Refusal :=
  .next (waitTokens (codeCWaittk m) Head.plain m s)

/-- C.ADDI: ADDI rd, rd, imm6 (R225). -/
def execCAddi (d : Reg) (i : BitVec 6) (s : State) : Host.Outcome State Fault Refusal :=
  .next (regOne (codeCAddi d i) Head.plain d d (fun a => a + sx i) s)

/-- C.LI: ADDI rd, x0, imm6 (R225). -/
def execCLi (d : Reg) (i : BitVec 6) (s : State) : Host.Outcome State Fault Refusal :=
  .next (regOne (codeCLi d i) Head.plain d 0 (fun a => a + sx i) s)

/-- C.SRLI: SRLI rd′, rd′, u6 (R225). -/
def execCSrli (d : BitVec 3) (n : BitVec 6) (s : State) : Host.Outcome State Fault Refusal :=
  .next (regOne (codeCSrli d n) Head.plain (prime d) (prime d) (fun a => a >>> n.toNat) s)

/-- C.SRAI: SRAI rd′, rd′, u6 (R225). -/
def execCSrai (d : BitVec 3) (n : BitVec 6) (s : State) : Host.Outcome State Fault Refusal :=
  .next (regOne (codeCSrai d n) Head.plain (prime d) (prime d) (fun a => a.sshiftRight n.toNat) s)

/-- C.ANDI: ANDI rd′, rd′, imm6 (R225). -/
def execCAndi (d : BitVec 3) (i : BitVec 6) (s : State) : Host.Outcome State Fault Refusal :=
  .next (regOne (codeCAndi d i) Head.plain (prime d) (prime d) (fun a => a &&& sx i) s)

/-- C.SUB: SUB rd′, rd′, rs2′ (R225). -/
def execCSub (d b : BitVec 3) (s : State) : Host.Outcome State Fault Refusal :=
  .next (regReg (codeCSub d b) Head.plain (prime d) (prime d) (prime b) (fun a b => a - b) s)

/-- C.XOR: XOR rd′, rd′, rs2′ (R225). -/
def execCXor (d b : BitVec 3) (s : State) : Host.Outcome State Fault Refusal :=
  .next (regReg (codeCXor d b) Head.plain (prime d) (prime d) (prime b) (fun a b => a ^^^ b) s)

/-- C.OR: OR rd′, rd′, rs2′ (R225). -/
def execCOr (d b : BitVec 3) (s : State) : Host.Outcome State Fault Refusal :=
  .next (regReg (codeCOr d b) Head.plain (prime d) (prime d) (prime b) (fun a b => a ||| b) s)

/-- C.AND: AND rd′, rd′, rs2′ (R225). -/
def execCAnd (d b : BitVec 3) (s : State) : Host.Outcome State Fault Refusal :=
  .next (regReg (codeCAnd d b) Head.plain (prime d) (prime d) (prime b) (fun a b => a &&& b) s)

/-- C.J: JAL x0, off11 (R225). -/
def execCJ (o : BitVec 11) (s : State) : Host.Outcome State Fault Refusal :=
  .next (jumpLink (codeCJ o) Head.plain 0 (sx o) s)

/-- C.BEQZ: BEQ rs1′, x0, off8 (R225). -/
def execCBeqz (a : BitVec 3) (o : BitVec 8) (s : State) : Host.Outcome State Fault Refusal :=
  .next (branch (codeCBeqz a o) Head.plain (prime a) 0 (sx o) (fun a b => a == b) s)

/-- C.BNEZ: BNE rs1′, x0, off8 (R225). -/
def execCBnez (a : BitVec 3) (o : BitVec 8) (s : State) : Host.Outcome State Fault Refusal :=
  .next (branch (codeCBnez a o) Head.plain (prime a) 0 (sx o) (fun a b => a != b) s)

/-- C.SLLI: SLLI rd, rd, u6 (R225). -/
def execCSlli (d : Reg) (n : BitVec 6) (s : State) : Host.Outcome State Fault Refusal :=
  .next (regOne (codeCSlli d n) Head.plain d d (fun a => a <<< n.toNat) s)

/-- C.LDSP: LD.D rd, u6 × 8 (x2) (R225). -/
def execCLdsp (d : Reg) (u : BitVec 6) (s : State) : Host.Outcome State Fault Refusal :=
  .next (loadX (codeCLdsp d u) Head.plain d 2 [] 3 true false (fun s => s.rx 2 + (zx u <<< 3)) s)

/-- C.STSP: ST.D data, u6 × 8 (x2) (R225). -/
def execCStsp (d : Reg) (u : BitVec 6) (s : State) : Host.Outcome State Fault Refusal :=
  .next (storeX (codeCStsp d u) Head.plain d 2 [] 3 false (fun s => s.rx 2 + (zx u <<< 3)) s)

/-- C.JR: JALR x0, rs1, 0 (R225). -/
def execCJr (a : Reg) (s : State) : Host.Outcome State Fault Refusal :=
  .next (jumpReg (codeCJr a) Head.plain 0 a 0 s)

/-- C.MV: ADD rd, x0, rs2 (R225). -/
def execCMv (d b : Reg) (s : State) : Host.Outcome State Fault Refusal :=
  .next (regReg (codeCMv d b) Head.plain d 0 b (fun a b => a + b) s)

/-- C.JALR: JALR x1, rs1, 0 (R225). -/
def execCJalr (a : Reg) (s : State) : Host.Outcome State Fault Refusal :=
  .next (jumpReg (codeCJalr a) Head.plain 1 a 0 s)

/-- C.ADD: ADD rd, rd, rs2 (R225). -/
def execCAdd (d b : Reg) (s : State) : Host.Outcome State Fault Refusal :=
  .next (regReg (codeCAdd d b) Head.plain d d b (fun a b => a + b) s)

/-- C.EXIT: EXIT (R225). -/
def execCExit (s : State) : Host.Outcome State Fault Refusal :=
  .next (exitUnit codeCExit Head.plain s)

end Sys2Proof.Machine
end

