-- ==== Sys2Proof/Machine/Copy.lean ====
section
/-! DEFINITION. Sys2Proof/Machine/Copy.lean: copy templates (R125, R289) and the issue of COPY, COPY.MC, RCALL, VPIPE and SELQ (R280, R290,
R291, R343). -/

namespace Sys2Proof.Machine

/-! ### Templates -/

/-- A copy template of a core; one never loaded is zero and moves nothing (R125). -/
def Core.template (c : Core) (n : Nat) : List Byte := c.tmpl.get n (List.replicate 64 0)

/-- A template with a reserved field set, or the reserved element size (R125). -/
def tmplBad (b : List Byte) : Bool :=
  decide (8 ≤ field b 0 8) || decide (field b 0 8 = 7) || decide (field b 20 4 ≠ 0) || decide (field b 48 16 ≠ 0)

/-- The template slot that a copy command names. -/
def copySlot (i : Instr) : Option Nat :=
  match i with
  | .copy _ _ _ _ _ t => some t.toNat
  | .copyMc _ _ _ _ _ _ t => some t.toNat
  | _ => none

/-- Whether a copy of a core that names a slot stands in an engine queue (R289). -/
def State.copyQueued (s : State) (core n : Nat) : Bool :=
  (s.threadsAt core ++ ctxsOf core).any (fun h => ((s.hart h).queue 2).any (fun c => copySlot c.ins == some n))

/-- TMPL (R289). -/
def execTmpl (hd : Head) (a : Reg) (slot : BitVec 4) (s : State) : Host.Outcome State Fault Refusal :=
  let ik := codeTmpl hd a slot
  .next (issue ik hd 0 s.noCtx [.x a] [] (fun s =>
    if s.copyQueued s.myCore slot.toNat then stall s
    else withBlock (s.rx a) 64 8 (fun b s =>
      if tmplBad b then trapInstr 0x02 ik s
      else finish ik hd (s.modCore s.myCore (fun c => { c with tmpl := c.tmpl.set slot.toNat b }))) s) s)

/-! ### Copies and calls -/

/-- In a handler context some fields must be zero (R291). -/
def State.ctxZero (s : State) (bad : Bool) : Option (BitVec 8) := if s.cur.isCtx && bad then some 0x02 else none

/-- A copy of a context is one that the context's ending waits for (R291). -/
def State.noteCopy (s : State) (seq : Nat) : State :=
  if s.cur.isCtx then s.modMe (fun h => { h with ctx := { h.ctx with copies := h.ctx.copies ++ [seq] } }) else s

/-- COPY (R126, R290, R291). -/
def execCopy (hd : Head) (a b : Reg) (tk : BitVec 3) (wait : BitVec 8) (tmpl : BitVec 4) (s : State) :
    Host.Outcome State Fault Refusal :=
  let i : Instr := .copy hd a b tk wait tmpl
  let ik := codeOf i
  .next (issueOwn ik hd 0 true (s.ctxZero (tk != 0 || wait != 0)) [.x a, .x b] [] (fun s =>
    let c := s.newCmd i tk wait 0 (s.rx a) (s.rx b)
    enterCmd ik hd 2 c ik.c (fun s => s.noteCopy c.seq) s) s)

/-- COPY.MC (R128, R290). -/
def execCopyMc (hd : Head) (d a b : Reg) (tk : BitVec 3) (wait : BitVec 8) (tmpl : BitVec 4) (s : State) :
    Host.Outcome State Fault Refusal :=
  let i : Instr := .copyMc hd d a b tk wait tmpl
  .next (engineCmd (codeOf i) hd 2 i tk wait s.noCtx none d a b s)

/-- Core and device of an ID for the fences of R138, the issuing core where the ID names none. -/
def State.fillAt (s : State) (v : Word) : BitVec 16 × Nat := (coreId v).getD (s.dev.devnum, s.myCore)

/-- An engine command with a register result (R280, R343): the register is PENDING from issue on, and the recorder refuses the
command (R360). -/
def resultCmd (ik : Code) (hd : Head) (q : Nat) (i : Instr) (tk : BitVec 3) (wait : BitVec 8) (legal : Bool)
    (own : Option (BitVec 8)) (rr : Bool) (d : Reg) (target : Reg) (srcs : List RegRef) (cmd : State → Cmd → Cmd) (s : State) : State :=
  issueOwn ik hd 0 legal own srcs (if rr then [.x d] else []) (fun s =>
    let t := s.fillAt (s.rx target)
    enterCmd ik hd q (cmd s (s.newCmd i tk wait 0 0 0)) ik.c (fun s => if rr then s.pend d t.2 t.1 else s) s) s

/-- RCALL (R280, R291): the argument entry is read at issue. -/
def execRcall (hd : Head) (d a : Reg) (tk : BitVec 3) (wait : BitVec 8) (hidx : BitVec 6) (rr : BitVec 1) (ord : BitVec 2)
    (s : State) : Host.Outcome State Fault Refusal :=
  let i : Instr := .rcall hd d a tk wait hidx rr ord
  let own := match s.ctxZero (tk != 0 || wait != 0 || rr != 0) with
    | some c => some c
    | none => s.tapeBar (rr == 1)
  .next (resultCmd (codeOf i) hd 3 i tk wait true own (rr == 1) d a (.x a :: argRefs)
    (fun s c => { c with va := s.rx a, args := s.me.args }) s)

/-- VPIPE (R343). -/
def execVpipe (hd : Head) (d a b : Reg) (tk : BitVec 3) (wait : BitVec 8) (rr flt : BitVec 1) (s : State) :
    Host.Outcome State Fault Refusal :=
  let i : Instr := .vpipe hd d a b tk wait rr flt
  .next (resultCmd (codeOf i) hd 4 i tk wait s.noCtx (s.tapeBar (rr == 1)) (rr == 1) d b [.x a, .x b]
    (fun s c => { c with va := s.rx a, vb := s.rx b }) s)

/-- SELQ (R343). -/
def execSelq (hd : Head) (d a b : Reg) (tk : BitVec 3) (wait : BitVec 8) (rr flt : BitVec 1) (s : State) :
    Host.Outcome State Fault Refusal :=
  let i : Instr := .selq hd d a b tk wait rr flt
  .next (resultCmd (codeOf i) hd 4 i tk wait s.noCtx (s.tapeBar (rr == 1)) (rr == 1) d b [.x a, .x b]
    (fun s c => { c with va := s.rx a, vb := s.rx b }) s)

end Sys2Proof.Machine
end

