-- ==== Sys2Proof/Machine/Copies.lean ====
section
/-! DEFINITION. Sys2Proof/Machine/Copies.lean: the source and the destination side of copies as the service paths carry them out (R126 to
R128, R157). -/

namespace Sys2Proof.Machine

/-- A command of a hart that has left its queue, changed. -/
def State.modFlight (s : State) (id : HartId) (seq : Nat) (f : Flight → Flight) : State :=
  s.modHart id (fun h => h.modBusy (fun b => { b with flights := b.flights.map (fun x => if x.cmd.seq = seq then f x else x) }))

/-- Elements of a copy accounted for: with none left the command may signal (R127). -/
def Flight.accept (f : Flight) (n : Nat) : Flight := { f with parts := f.parts - n, remote := decide (n < f.parts) }

/-- Elements of a command's copy accepted at their destination. -/
def State.copyAccepted (s : State) (id : HartId) (cmd : Option Nat) (n : Nat) : State :=
  match cmd with
  | some q => s.modFlight id q (fun f => f.accept n)
  | none => s

/-- The elements that one event of a copy moves within its stack, from the first of a list on: those of that one's source, and, for
elements of fewer than 8 bytes, the ones next to them that fill the same aligned words (R134, R157). -/
def copyBatch (es : List (Nat × Nat × Nat)) : List (Nat × Nat × Nat) :=
  match es with
  | [] => []
  | f :: _ =>
    let words := (es.takeWhile (fun e => e.1 == f.1)).map (fun e => e.2.1 / 8)
    es.takeWhile (fun e => e.1 == f.1 || (decide (f.2.2 < 8) && words.contains (e.2.1 / 8)))

/-- The elements of one CHUNK: those from the first of a list on whose destinations follow one another, up to 256 bytes (R127). -/
def chunkBatch (es : List (Nat × Nat × Nat)) (next room : Nat) : List (Nat × Nat × Nat) :=
  match es with
  | [] => []
  | e :: r => if e.2.1 = next ∧ e.2.2 ≤ room then e :: chunkBatch r (next + e.2.2) (room - e.2.2) else []

/-- Whether an agent serves a copy's source (R127): its own vault, its own cluster's pool, and for the issuing core its host
memory. -/
def State.copySource (s : State) (core : Nat) (m : Msg) (pa : Nat) : Bool :=
  !s.malformed pa &&
  (if region pa = 0 then paCore pa == core
   else if region pa = 1 then paCluster pa == clusterOf core
   else decide (8 ≤ region pa) && m.src.home == core)

/-- The lowest-numbered core of a cluster that is not retired (R127). -/
def State.poolAgent (s : State) (cl : Nat) : Option Nat := (coresOf cl).find? (fun c => !(s.core c).retired)

/-- The core through which a destination is written, none where every one is retired; host memory needs none. -/
def State.copyTarget (s : State) (pa : Nat) : Option (Option Nat) :=
  if region pa = 0 then (if (s.core (paCore pa)).retired then none else some (some (paCore pa)))
  else if region pa = 1 then (s.poolAgent (paCluster pa)).map some
  else some none

/-- Whether an element's destination lies in another stack than the agent of its source (R127). -/
def State.copyFar (s : State) (core : Nat) (e : Nat × Nat × Nat) : Bool :=
  match s.copyTarget e.2.1 with
  | some (some c) => stackOf c != stackOf core
  | _ => false

/-- The place in a list of elements from which the next event of a copy goes on: the order of the accesses is not stated, so a free
value chooses, except that elements to another stack go in order, that whole words are moved together, and that nothing is written
before an element that comes earlier in the loop and shares its destination or has it as its source (R126, R127, R134, R143)
(DESIGN CHOICE, safe; log 32). -/
def State.copyPick (s : State) (core : Nat) (es : List (Nat × Nat × Nat)) : Nat :=
  let n := Config.freeNat s.freeCtr % max es.length 1
  match es[n]? with
  | none => 0
  | some e =>
    let meets (a : Nat) (x : Nat × Nat × Nat) : Bool := decide (a < x.2.1 + x.2.2) && decide (x.2.1 < a + x.2.2)
    let b := copyBatch (es.drop n)
    if s.copyFar core e then (es.findIdx? (s.copyFar core)).getD 0
    else if e.2.2 < 8 then 0
    else if (es.take n).all (fun x => !s.copyFar core x && b.all (fun y => !meets x.1 y && !meets x.2.1 y)) then n
    else 0

/-- Elements delivered in one CHUNK (R127). -/
def State.sendChunk (s : State) (m : Msg) (es : List (Nat × Nat × Nat)) (pa : Nat) (bs : List Byte) : State :=
  let n := s.newMsg m.src .chunk s.dev.devnum (((s.copyTarget pa).getD none).getD 0)
  s.send { n with addr := BitVec.ofNat 64 pa, data := BitVec.ofNat 64 bs.length, size := 1, cmd := m.cmd, tk := m.tk,
                  epoch := m.epoch, asid := m.asid, afterLoads := 0, afterSb := 0, relSb := [], relIds := [], elems := es,
                  bytes := bs.zipIdx.map (fun b => (pa + b.2, b.1)) } false

/-- One element delivered within the stack or to host memory (R127). None while its home cannot take it. -/
def State.deliver (s : State) (core : Nat) (m : Msg) (pa : Nat) (bs : List Byte) : Option State :=
  let who := ((s.copyTarget pa).getD none).getD core
  (s.storeBytes (agentPort who) pa bs { agentWriter who with asid := m.asid }).map (fun s => s.copyAccepted m.src m.cmd 1)

/-- The elements of a batch delivered with the values read. -/
def State.deliverAll (s : State) (core : Nat) (m : Msg) (es : List (Nat × List Byte)) : Option State :=
  match es with
  | [] => some s
  | e :: r =>
    match s.deliver core m e.1 e.2 with
    | none => none
    | some t => t.deliverAll core m r

/-- The values that the source of an element has held at times before elements of the same copy were written over it (R126). -/
def Msg.versions (m : Msg) (pa n : Nat) : List (List Byte) :=
  let bs := (m.bytes.filter (fun c => decide (pa ≤ c.1) && decide (c.1 < pa + n))).map (·.2)
  (List.range (bs.length / n)).map (fun k => (bs.drop (k * n)).take n)

/-- The values that the elements of a batch take: what the source holds; where elements of the copy before it were written over
its source, a free choice among what the source held before them and after each (R126). `done` is what the batch has so far. -/
def State.copyValues (s : State) (m : Msg) (es : List (Nat × Nat × Nat)) (done : List (Nat × List Byte)) : List (Nat × List Byte) :=
  match es with
  | [] => done
  | e :: r =>
    let vs := s.readBytes e.1 e.2.2 :: (m.versions e.1 e.2.2 ++ (done.filter (fun d => decide (d.1 = e.1))).map (·.2))
    let v := match vs with
      | [v] => v
      | _ => vs.getD (Config.freeNat (s.freeCtr + 1 + done.length) % vs.length) []
    s.copyValues m r (done ++ [(e.2.1, v)])

/-- What the destinations of a batch held before it, for those that the elements left have as sources (R126). -/
def State.copyOld (s : State) (rest : List (Nat × Nat × Nat)) (vals : List (Nat × List Byte)) : List Host.Cell :=
  let prev (i : Nat) (e : Nat × List Byte) : List Byte :=
    match ((vals.take i).reverse.find? (fun d => decide (d.1 = e.1))) with
    | some d => d.2
    | none => s.readBytes e.1 e.2.length
  vals.zipIdx.flatMap (fun e =>
    if rest.any (fun x => decide (x.1 = e.1.1)) then (prev e.2 e.1).zipIdx.map (fun b => (e.1.1 + b.2, b.1)) else [])

/-- What becomes of a COPYREQ at one event: it goes on with the elements left and the values that may still be read for those
written over, has been answered, or waits. -/
inductive CopyStep where
  | moved (s : State) (rest : List (Nat × Nat × Nat)) (old : List Host.Cell)
  | refused (cause : BitVec 8) (word : Option Nat)
  | wait (s : State)

/-- Requests of a reader at a vault for other lines than some are taken back. -/
def State.onlyReads (s : State) (core : Nat) (who : Reader) (lines : List Nat) : State :=
  let other (line : Nat) : Bool := !lines.contains (vaultPa core 0 / 64 + line)
  let v := s.vault core
  if v.served.any (fun g => g.who == who && other g.line) || v.banks.any (fun e => e.2.q.any (fun q => q.kind == .read who && other q.line)) then
    s.dropReads core who
  else s

/-- The next elements of a copy read and delivered (R127): the reads of a vault wait in its banks' queues, those of a pool for the
turn of the agent's port. -/
def State.copyStep (s : State) (core : Nat) (m : Msg) : CopyStep :=
  let n := s.copyPick core m.elems
  let es := m.elems.drop n
  let far := es.take 1 |>.any (s.copyFar core)
  let b := if far then chunkBatch (es.takeWhile (s.copyFar core)) (es.headD (0, 0, 0)).2.1 256 else copyBatch es
  if b.any (fun e => !s.copySource core m e.1 || (s.copyTarget e.2.1).isNone) then .refused 0x05 none
  else
    let srcs := b.map (fun e => (e.1, e.2.2))
    let s := (s.onlyReads core (.msg m.id) (linesOf srcs)).askAll (.msg m.id) srcs
    if srcs.any (fun p => s.heldAt p.1 p.2) || !s.readReady (.msg m.id) srcs then .wait s
    else
      match srcs.findSome? (fun p => s.badWord p.1 p.2) with
      | some w => .refused (if region (8 * w) = 0 then 0x0B else 0x1A) (some w)
      | none =>
        let rest := m.elems.take n ++ es.drop b.length
        let t : State := { s.dropReads core (.msg m.id) with freeCtr := s.freeCtr + b.length + 1 }
        let vals := s.copyValues m b []
        let old := m.bytes ++ s.copyOld rest vals
        match t.poolTurns (agentPort core) (linesOf srcs) with
        | none => .wait s
        | some t =>
          if far then .moved (t.sendChunk m b (b.headD (0, 0, 0)).2.1 (vals.flatMap (·.2))) rest old
          else match t.deliverAll core m vals with
          | none => .wait s
          | some t => .moved t rest old

/-- What an event that could not have its effect leaves: the requests that it has made, or nothing. -/
def State.unlessSame (s t : State) : Option State := if t.dev.asks = s.dev.asks then none else some t

/-- A COPYREQ that the service path holds goes on; none where nothing can happen to it now. -/
def State.copyEvent (s : State) (core : Nat) (m : Msg) : Option State :=
  match s.copyStep core m with
  | .moved t rest old =>
    some (if rest.isEmpty then t.unserve core m.id
          else t.modCore core (fun c => { c with serving := c.serving.map (fun x => if x.id = m.id then { m with elems := rest, bytes := old } else x) }))
  | .refused c w =>
    let s := s.reply { m.answer .nack with value := allOnes, cause := c, word := w, ok := false }
    some ((match w with | some w => s.logUncorr w | none => s).unserve core m.id)
  | .wait t => s.unlessSame t

/-- COPYREQ (R127): the next elements of a copy under way, or the next copy begins; it is complete once its last element has gone
(R112). -/
def State.copyreq (s : State) (core : Nat) : Option State :=
  match ((s.core core).serving.filter (fun m => m.kind == .copyreq)).findSome? (s.copyEvent core) with
  | some t => some t
  | none =>
    (s.pick core (fun m => m.kind == .copyreq)).map (fun p =>
      let t := (s.leave core p.1).hold core p.2
      (t.copyEvent core p.2).getD t)

/-- COPYREQ: system handler 3. -/
def execCopyreq (core : Nat) (s : State) : Host.Outcome State Fault Refusal := .next ((s.copyreq core).getD s)

/-- Cells joined into runs of bytes at addresses that follow one another. -/
def cellRuns (cs : List Host.Cell) : List (Nat × List Byte) :=
  match cs with
  | [] => []
  | c :: r =>
    match cellRuns r with
    | (a, bs) :: t => if a = c.1 + 1 then (c.1, c.2 :: bs) :: t else (c.1, [c.2]) :: (a, bs) :: t
    | [] => [(c.1, [c.2])]

/-- Runs of bytes written one after another; none while a home cannot accept one. -/
def State.storeRuns (s : State) (port : Nat) (who : Writer) (ws : List (Nat × List Byte)) : Option State :=
  match ws with
  | [] => some s
  | w :: r => (s.storeBytes port w.1 w.2 who).bind (fun t => t.storeRuns port who r)

/-- Whether a CHUNK goes where its core writes one: the own vault or the own cluster's pool (R37, R127). -/
def State.chunkOk (s : State) (core : Nat) (m : Msg) : Bool :=
  let pa := m.addr.toNat
  !s.malformed pa && ((region pa == 0 && paCore pa == core) || (region pa == 1 && paCluster pa == clusterOf core))

/-- Who writes what the agent of a core writes for a message's sender. -/
def Msg.agentWriter (m : Msg) (core : Nat) : Writer := { Machine.agentWriter core with asid := m.asid }

/-- CHUNK served (R37, R127): what has not been written of it is written into the own vault or the own cluster's pool. -/
def serveChunk (core : Nat) (m : Msg) (s : State) : Served :=
  if !s.chunkOk core m then .done (s.nackMsg m 0x05 0)
  else orWait s ((s.storeRuns (agentPort core) (m.agentWriter core) (cellRuns m.bytes)).map (fun s => s.reply (m.answer .accept)))

/-- CHUNK: system handler 4. -/
def execChunk (core : Nat) (s : State) : Host.Outcome State Fault Refusal :=
  .next ((s.serve core (fun m => m.kind == .chunk) (serveChunk core)).getD s)

end Sys2Proof.Machine
end

