-- ==== Sys2Proof/Machine/Protocols.lean ====
section
/-! DEFINITION. Sys2Proof/Machine/Protocols.lean: the commit of stores to replicated pages (R149 to R153) and of transactions (R154 to
R156, R294), at the agents and at the committing hart. -/

namespace Sys2Proof.Machine

/-! ### Line locks (R149, R151) -/

/-- Entries of a line-lock table (R149). -/
def lineLocks : Nat := 64

/-- The lock on a line of a vault. -/
def Vault.lockAt (v : Vault) (line : Nat) : Option LineLock := v.locks.find? (fun l => l.line == line)

/-- Lines locked for a hart. -/
def Vault.lockLines (v : Vault) (ls : List Nat) (who : HartId) (xact : Bool) : Vault :=
  { v with locks := v.locks ++ ls.map (fun l => ⟨l, who, xact, [], none, false, false⟩) }

/-- Lines of a vault that some bytes name. -/
def cellLines (bs : List Host.Cell) : List Nat := (bs.map (fun b => paOff b.1 / 64)).eraseDups

/-- A LOCK of a commit at a replica (R150, R151): every line of it is locked and it is granted, it queues behind another commit, or the
table has no room for it. -/
def State.lockRep (s : State) (core : Nat) (m : Msg) : State :=
  let ls := cellLines m.bytes
  let v := s.vault core
  match v.locks.find? (fun l => ls.contains l.line) with
  | some l => s.modVault core (fun v => { v with locks := v.locks.map (fun x => if x = l then { x with queue := x.queue ++ [m] } else x) })
  | none =>
    if lineLocks < v.locks.length + ls.length then s.reply { m.answer .repFull with ok := false }
    else (s.modVault core (fun v => v.lockLines ls m.src false)).reply (m.answer .repGrant)

/-- A line freed: the LOCKs that queue for it go on in their order; an access that waits goes on waiting where the line is locked
again (R150 to R152). -/
def State.freeLine (s : State) (core line : Nat) : State :=
  match (s.vault core).lockAt line with
  | none => s
  | some l =>
    let s := s.modVault core (fun v => { v with locks := v.locks.erase l })
    let s := l.queue.foldl (fun s m => s.lockRep core m) s
    s.modVault core (fun v => { v with locks := v.locks.map (fun x => if x.line = line then { x with since := l.since, outside := l.outside } else x) })

/-- Bytes of a protocol written past the locks of their own lines, which are freed (R149, R151). -/
def State.commitCells (s : State) (core : Nat) (bs : List Host.Cell) (who : Writer) : Option State :=
  let ls := cellLines bs
  let held := (s.vault core).locks.filter (fun l => ls.contains l.line)
  let open_ := s.modVault core (fun v => { v with locks := v.locks.filter (fun l => !ls.contains l.line) })
  (open_.acceptLines core (ls.map (fun l => (l, (bs.filter (fun b => paOff b.1 / 64 == l)).map (fun b => (paOff b.1 % 64, b.2))))) who).map
    (fun s =>
      let s := s.modVault core (fun v => { v with locks := v.locks ++ held })
      ls.foldl (fun s l => s.freeLine core l) s)

/-- REPCOMMIT LOCK served (R150, R151). -/
def serveRepLock (core : Nat) (m : Msg) (s : State) : Served := .done (s.lockRep core m)

/-- REPCOMMIT_LOCK: system handler 6. -/
def execRepcommitLock (core : Nat) (s : State) : Host.Outcome State Fault Refusal :=
  .next ((s.serve core (fun m => m.kind == .repcommit && m.sub == 0) (serveRepLock core)).getD s)

/-- REPCOMMIT DATA served (R151): written into the write buffer, the lines freed, an acknowledgement; without a lock, a machine
check. -/
def serveRepData (core : Nat) (m : Msg) (s : State) : Served :=
  if (cellLines m.bytes).all (fun line => (s.vault core).locks.any (fun l => l.line == line && l.owner == m.src && !l.xact)) then
    orWait s ((s.commitCells core m.bytes ⟨m.src, m.asid, false⟩).map (fun s => s.reply (m.answer .repAck)))
  else .done (s.machineCheck core m.addr)

/-- REPCOMMIT_DATA: system handler 6. -/
def execRepcommitData (core : Nat) (s : State) : Host.Outcome State Fault Refusal :=
  .next ((s.serve core (fun m => m.kind == .repcommit && m.sub == 1) (serveRepData core)).getD s)

/-! ### The committing hart (R150) -/

/-- The cores of a replica set, rising (R30). -/
def replicas (mask : BitVec 256) : List Nat := (List.range Config.cores).filter (fun c => mask.getLsbD (clusterOf c))

/-- Lines that a buffered store touches, up to what a line-lock table holds. -/
def SbEnt.lines (e : SbEnt) : List Nat := ((e.parts.map (fun p => paOff p.1 / 64)).eraseDups).take lineLocks

/-- Whether every part of a buffered store lies in one line. -/
def SbEnt.within (e : SbEnt) (line : Nat) : Bool := e.rep.isSome && e.parts.all (fun p => paOff p.1 / 64 == line)

/-- How many stores at the head of a buffer one commit covers: the head, whole (R134), and, where it lies in one line, those next to it in
the same line (R150) (DEDUCED, unsafe; log 37). -/
def Hart.commitSpan (h : Hart) : Nat :=
  match h.busy.sb with
  | [] => 0
  | e :: r =>
    match e.lines with
    | [l] => 1 + (r.takeWhile (fun x => x.within l && h.storeDue x)).length
    | _ => 1

/-- The bytes that a commit writes into the copy of a core (R150), a later store replacing an earlier one. -/
def Hart.commitCells (h : Hart) (c : Commit) (core : Nat) : List Host.Cell :=
  (h.busy.sb.take c.num).foldl (fun t e =>
    (e.parts.filter (fun p => c.lines.contains (paOff p.1 / 64))).foldl (fun t p =>
      (List.range p.2.1).foldl (fun t k => Table.set t (vaultPa core (paOff p.1 + k)) (BitVec.ofNat 8 (bits p.2.2.toNat (8 * k) 8))) t) t) []

/-- A REPCOMMIT of a hart to a replica, sent by the device on its behalf: 0 LOCK, 1 data (R136, R150). -/
def State.repMsg (s : State) (id : HartId) (c : Commit) (core step : Nat) : State :=
  let m := s.newMsg id .repcommit s.dev.devnum core
  s.send { m with sub := step, addr := BitVec.ofNat 64 (vaultPa core ((c.lines.headD 0) * 64)), size := 64, afterLoads := 0, afterSb := 0,
                  relSb := [], relIds := [], org := .protocol
                  asid := (match (s.hart id).busy.sb with | e :: _ => e.asid | [] => m.asid)
                  bytes := (s.hart id).commitCells c core } false

/-- The commit of a hart changed. -/
def State.setCommit (s : State) (id : HartId) (c : Option Commit) : State := s.modHart id (fun h => h.modBusy (fun b => { b with commit := c }))

/-- REPCOMMIT_START can happen: a store to a replicated page is due at the head of the buffer (R135, R150). -/
def repcommitStartReady (id : HartId) (s : State) : Bool :=
  let h := s.hart id
  h.busy.commit.isNone && (match h.busy.sb with | e :: _ => e.rep.isSome && h.storeDue e | [] => false)

/-- REPCOMMIT_START (R150): LOCK goes to the home replica. -/
def repcommitStartEffect (id : HartId) (s : State) : State :=
  match (s.hart id).busy.sb with
  | [] => s
  | e :: _ =>
    let all := replicas (e.rep.getD 0)
    let c : Commit :=
      { lines := e.lines, home := all.headD id.home, others := all.drop 1, stage := 1, waiting := [all.headD id.home], retry := [],
        num := (s.hart id).commitSpan }
    (s.setCommit id (some c)).repMsg id c c.home 0

/-- REPCOMMIT_START. -/
def execRepcommitStart (h : HartId) (s : State) : Host.Outcome State Fault Refusal :=
  when (repcommitStartReady h s) (repcommitStartEffect h) s

/-- A commit complete: its stores leave the buffer; of a store to more lines than a table holds, the part that is committed (R150). -/
def State.commitDone (s : State) (id : HartId) (c : Commit) : State :=
  let s := s.modHart id (fun h => h.modBusy (fun b =>
    { b with
      commit := none
      sb := ((b.sb.take c.num).map (fun e => { e with parts := e.parts.filter (fun p => !c.lines.contains (paOff p.1 / 64)) })).filter (fun e => !e.parts.isEmpty) ++
        b.sb.drop c.num }))
  s.settle id

/-- A commit whose replicas have all answered goes to its next step (R150). -/
def State.commitNext (s : State) (id : HartId) (c : Commit) : State :=
  let go (stage : Nat) (ks : List Nat) (step : Nat) : State :=
    let c := { c with stage := stage, waiting := ks }
    ks.foldl (fun s k => s.repMsg id c k step) (s.setCommit id (some c))
  if !c.waiting.isEmpty then s.setCommit id (some c)
  else
    match c.stage with
    | 1 => if c.others.isEmpty then go 4 [c.home] 1 else go 2 c.others 0
    | 2 => go 3 c.others 1
    | 3 => go 4 [c.home] 1
    | _ => s.commitDone id c

/-- An answer on the reply channel taken off it. -/
def State.dropReply (s : State) (n : Nat) : State := s.modDev (fun d => { d with replies := d.replies.eraseIdx n })

/-- An answer of some kinds at an index of the reply channel. -/
def State.replyAt (s : State) (n : Nat) (k : Reply → Bool) : Option Reply :=
  match s.dev.replies[n]? with
  | some r => if k r then some r else none
  | none => none

/-- An answer taken and acted on; one that is not there lets the turn pass. -/
def withReply (n : Nat) (k : Reply → Bool) (f : Reply → State → State) (s : State) : Host.Outcome State Fault Refusal :=
  .next (match s.replyAt n k with
    | some r => f r (s.dropReply n)
    | none => s)

/-- A replica has answered the commit of a hart. -/
def commitAnswer (r : Reply) (s : State) : State :=
  match (s.hart r.dst).busy.commit with
  | none => s
  | some c => s.commitNext r.dst { c with waiting := c.waiting.erase r.core }

/-- A grant advances the commit; a full table makes its LOCK go again 64 clk later (R150). -/
def repcommitGrantEffect (r : Reply) (s : State) : State :=
  if r.kind = .repGrant then commitAnswer r s
  else
    match (s.hart r.dst).busy.commit with
    | none => s
    | some c => s.setCommit r.dst (some { c with retry := c.retry.set r.core (s.clk + Config.commitRetry) })

/-- Answers that REPCOMMIT_GRANT takes. -/
def Reply.isGrant (r : Reply) : Bool := r.kind == .repGrant || r.kind == .repFull

/-- REPCOMMIT_GRANT (R150). -/
def execRepcommitGrant (n : Nat) (s : State) : Host.Outcome State Fault Refusal := withReply n Reply.isGrant repcommitGrantEffect s

/-- REPCOMMIT_ACK (R150). -/
def execRepcommitAck (n : Nat) (s : State) : Host.Outcome State Fault Refusal := withReply n (fun r => r.kind == .repAck) commitAnswer s

/-- REPCOMMIT_RETRY can happen: 64 clk have passed since the refusal. -/
def repcommitRetryReady (id : HartId) (core : Nat) (s : State) : Bool :=
  match (s.hart id).busy.commit with
  | none => false
  | some c => c.retry.has core && decide (c.retry.get core 0 ≤ s.clk)

/-- REPCOMMIT_RETRY (R150): the LOCK is sent again. -/
def repcommitRetryEffect (id : HartId) (core : Nat) (s : State) : State :=
  match (s.hart id).busy.commit with
  | none => s
  | some c =>
    let c := { c with retry := c.retry.del core }
    (s.setCommit id (some c)).repMsg id c core 0

/-- REPCOMMIT_RETRY. -/
def execRepcommitRetry (h : HartId) (core : Nat) (s : State) : Host.Outcome State Fault Refusal :=
  when (repcommitRetryReady h core s) (repcommitRetryEffect h core) s

/-- The state with one line lock alone. -/
def State.onlyLock (s : State) (core line : Nat) : State :=
  { s with vaults := s.vaults.map (fun (e : Nat × Vault) => (e.1, { e.2 with locks := e.2.locks.filter (fun l => e.1 == core && l.line == line) })) }

/-- What waits for a held line, whatever it does once it has it. -/
def Found.waits {α : Type} (r : Found α) : Bool := match r with | .error none => true | _ => false

/-- Whether the scheduler waits on a line: for a record of a ring, for the context control block or the placement data of a launch's next
unit, or for the live-range entry of a thread that has been taken (R99, R166, R380, R395). -/
def State.schedWaits (s : State) (core line : Nat) : Bool :=
  let t := s.onlyLock core line
  s.stks.any (fun (e : Nat × Stack) => e.2.hqs.any (fun (q : Nat × Hq) =>
    (s.recordAt (16 * e.1 + q.1) 1 || s.recordAt (16 * e.1 + q.1) 2) && t.ringHeld (16 * e.1 + q.1))) ||
  s.launches.any (fun y => y.2.2.waiting && (t.placeOf y.2.2 y.2.2.next).waits) ||
  s.harts.any (fun (e : HartId × Hart) => e.2.isTaken && (t.rangesOf e.2 e.2.takenMask).waits)

/-- Whether an arrival that would go into a core's spill ring, or an entry of its handler table, waits for its bytes to be written into a
line (R106, R111). -/
def State.agentWaits (s : State) (core line : Nat) : Bool :=
  let c := s.core core
  let inLine (off n : Nat) : Bool := decide (off / 64 ≤ line) && decide (line ≤ (off + n - 1) / 64)
  (List.range s.dev.net.length).any (fun n => messageArrivalReady n s && (match s.dev.net[n]? with
    | some m => m.core == core && s.ownDev m.dev && !(c.ring.isEmpty && decide (c.onDie + m.entries ≤ 16)) && decide (c.spilled + m.entries ≤ c.spillQuota) &&
        (List.range m.entries).any (fun k => inLine ((c.spillBase + (c.rhead + c.spilled + k) % c.spillQuota) * 64) 64)
    | none => false)) ||
  c.ht.any (fun (e : Nat × HEntry) => e.2.st == .busy && e.2.next.isSome && inLine (paOff c.htbase.toNat + 16 * e.1) 16)

/-- Whether a bank has been asked for a line that has not been read, by what is no drain of the write buffer. -/
def State.lineAsked (s : State) (core line : Nat) : Bool :=
  let v := s.vault core
  v.served.any (fun g => g.covers line && (match g.who with | .drain _ => false | _ => true)) ||
  (v.banks.get (bankOf (line * 64)) Bank.reset).q.any (fun q =>
    (match q.kind with | .read _ => !q.kind.isDrain | _ => false) && decide (q.line ≤ line) && decide (line < q.line + q.lines))

/-- Whether some access waits on a line of a vault (R152): a read that its bank has been asked for, the store at the head of a buffer, a
write of an engine command, of a job, of an arrival or of an agent, one from outside the device, a read of the scheduler, or the LOCK of
another commit. -/
def State.lineWaited (s : State) (core line : Nat) : Bool :=
  let inLine (pa n : Nat) : Bool := region pa == 0 && paCore pa == core && decide (paOff pa / 64 ≤ line) && decide (line ≤ (paOff pa + n - 1) / 64)
  s.lineAsked core line ||
  s.harts.any (fun (e : HartId × Hart) =>
    (match e.2.busy.sb with | x :: _ => x.rep.isNone && x.parts.any (fun p => inLine p.1 p.2.1) | [] => false) ||
    e.2.busy.flights.any (fun f => f.src.any (fun p => inLine p.2.1 p.2.2))) ||
  s.vaults.any (fun (e : Nat × Vault) => e.2.jobs.any (fun j => j.writes.any (fun w => inLine w.1 w.2.length))) ||
  (s.core core).serving.any (fun m =>
    (m.kind == .rstore && inLine m.addr.toNat m.size) || (m.kind == .chunk && m.bytes.any (fun b => inLine b.1 1))) ||
  s.cores.any (fun (e : Nat × Core) => e.2.serving.any (fun m => m.elems.any (fun x => inLine x.2.1 x.2.2))) ||
  s.agentWaits core line || s.schedWaits core line ||
  (match (s.vault core).lockAt line with | some l => l.outside || !l.queue.isEmpty | none => false)

/-- The locks of a vault, with the clk since which accesses have waited on their lines (R152) (DEDUCED, unsafe; log 36). -/
def State.noteWaits (s : State) (core : Nat) : State :=
  if (s.vault core).locks.isEmpty then s
  else s.modVault core (fun v => { v with locks := v.locks.map (fun l =>
    if s.lineWaited core l.line then { l with since := some (l.since.getD s.clk) } else { l with since := none }) })

/-- The locks of every vault, with their waits. -/
def State.noteAllWaits (s : State) : State :=
  (s.vaults.filter (fun (e : Nat × Vault) => !e.2.locks.isEmpty)).foldl (fun s (e : Nat × Vault) => s.noteWaits e.1) s

/-- LINE_LOCK_TIMEOUT can happen: an access has waited on the held line for 21,000 clk (R152). -/
def lineLockTimeoutReady (core line : Nat) (s : State) : Bool :=
  match (s.vault core).lockAt line with
  | none => false
  | some l => !l.checked && (match l.since with | some t => decide (t + Config.lineTimeout ≤ s.clk) | none => false) && s.lineWaited core line

/-- LINE_LOCK_TIMEOUT (R152): a machine check to management names the line and its owner; the access goes on waiting. -/
def lineLockTimeoutEffect (core line : Nat) (s : State) : State :=
  match (s.vault core).lockAt line with
  | none => s
  | some l =>
    let s := s.modVault core (fun v => { v with locks := v.locks.map (fun x => if x = l then { x with checked := true } else x) })
    (s.notify (stackOf core) (.lineCheck core line l.owner)).snapshot (stackOf core)

/-- LINE_LOCK_TIMEOUT. -/
def execLineLockTimeout (core line : Nat) (s : State) : Host.Outcome State Fault Refusal :=
  when (lineLockTimeoutReady core line s) (lineLockTimeoutEffect core line) s

/-! ### Transactions (R155) -/

/-- XACT lock served (R155): every line of the transaction in this vault, or none. -/
def serveXactLock (core : Nat) (m : Msg) (s : State) : Served :=
  let ls := cellLines m.bytes
  let v := s.vault core
  if ls.any (fun l => s.lineHeld core l) || decide (lineLocks < v.locks.length + ls.length) then .done (s.reply { m.answer .vote with ok := false })
  else .done ((s.modVault core (fun v => v.lockLines ls m.src true)).reply (m.answer .vote))

/-- XACT_LOCK: system handler 7. -/
def execXactLock (core : Nat) (s : State) : Host.Outcome State Fault Refusal :=
  .next ((s.serve core (fun m => m.kind == .xact && m.sub == 0) (serveXactLock core)).getD s)

/-- XACT data served (R155): written, the lines freed, acknowledged. -/
def serveXactData (core : Nat) (m : Msg) (s : State) : Served :=
  orWait s ((s.commitCells core m.bytes ⟨m.src, m.asid, false⟩).map (fun s => s.reply (m.answer .ack)))

/-- XACT_DATA: system handler 7. -/
def execXactData (core : Nat) (s : State) : Host.Outcome State Fault Refusal :=
  .next ((s.serve core (fun m => m.kind == .xact && m.sub == 1) (serveXactData core)).getD s)

/-- XACT unlock served (R155): the lines that it had granted are freed. -/
def serveXactUnlock (core : Nat) (m : Msg) (s : State) : Served :=
  .done ((cellLines m.bytes).foldl (fun s l =>
    match (s.vault core).lockAt l with
    | some x => if x.xact && x.owner == m.src then s.freeLine core l else s
    | none => s) s)

/-- XACT_UNLOCK: system handler 7. -/
def execXactUnlock (core : Nat) (s : State) : Host.Outcome State Fault Refusal :=
  .next ((s.serve core (fun m => m.kind == .xact && m.sub == 2) (serveXactUnlock core)).getD s)

/-- The first NACK and the count of NACKs in MSGERR (R116) (DEDUCED, unsafe; log 30). -/
def Hart.noteNack (h : Hart) (cause status : BitVec 8) (kind : MsgKind) (core : Nat) (dev : BitVec 16) : Hart :=
  h.modCsr (fun c =>
    let n := wbits c.msgerr 48 16
    let first := setBits (BitVec.ofNat 64 (cause.toNat + status.toNat * 2 ^ 8 + kind.code * 2 ^ 16 + core % 2048 * 2 ^ 21 + dev.toNat * 2 ^ 32)) 48 16 1
    { c with msgerr := if n = 0 then first else setBits c.msgerr 48 16 (satAdd n 1 65535) })

/-- The transaction of a hart changed. -/
def State.setXact (s : State) (id : HartId) (x : Xact) : State := s.modHart id (fun h => h.modBusy (fun b => { b with xact := some x }))

/-- Every vault has answered the locks: data to all where all granted, otherwise unlocks to those that did (R155). -/
def State.xactVoted (s : State) (id : HartId) (x : Xact) : State :=
  let s := s.setXact id x
  if x.granted.length + x.refused.length ≠ x.asked.length then s
  else if x.refused.isEmpty then x.asked.foldl (fun s c => s.xactMsg id x c 1) s
  else x.granted.foldl (fun s c => s.xactMsg id x c 2) s

/-- Answers that XCOMMIT_VOTE takes: a grant, a refusal, a NACK. -/
def Reply.isVote (r : Reply) : Bool := r.kind == .vote || (r.kind == .nack && r.mkind == .xact)

/-- XCOMMIT_VOTE (R155, R294): a NACK of data is a machine check. -/
def xcommitVoteEffect (r : Reply) (s : State) : State :=
  let s := if r.kind = .nack then s.modHart r.dst (fun h => h.noteNack r.cause r.status r.mkind r.core r.dev) else s
  match (s.hart r.dst).busy.xact with
  | none => s
  | some x =>
    if !x.committing then s
    else if x.granted.length = x.asked.length then s.machineCheck r.core (BitVec.ofNat 64 (vaultPa r.core 0))
    else if r.kind = .vote ∧ r.ok then s.xactVoted r.dst { x with granted := x.granted ++ [r.core] }
    else s.xactVoted r.dst { x with refused := x.refused ++ [(r.core, r.kind == .nack)] }

/-- XCOMMIT_VOTE. -/
def execXcommitVote (n : Nat) (s : State) : Host.Outcome State Fault Refusal := withReply n Reply.isVote xcommitVoteEffect s

/-- XCOMMIT_ACK (R155). -/
def xcommitAckEffect (r : Reply) (s : State) : State :=
  match (s.hart r.dst).busy.xact with
  | some x => s.setXact r.dst { x with acked := x.acked ++ [r.core] }
  | none => s

/-- XCOMMIT_ACK. -/
def execXcommitAck (n : Nat) (s : State) : Host.Outcome State Fault Refusal := withReply n (fun r => r.kind == .ack) xcommitAckEffect s

end Sys2Proof.Machine
end

