-- ==== Sys2Proof/Machine/Replies.lean ====
section
/-! DEFINITION. Sys2Proof/Machine/Replies.lean: the answers that reach a requester (R104, R115 to R117, R121, R138, R140) and the resending
and timing out of remote watches (R123, R124, R286). -/

namespace Sys2Proof.Machine

/-- A message is performed (R136, R140). -/
def State.unpost (s : State) (id : HartId) (msg : Nat) : State :=
  s.modHart id (fun h => h.modBusy (fun b =>
    { b with posted := b.posted.filter (fun p => p.id != msg), acq := b.acq.filter (fun n => n != msg) }))

/-- The remote wait of a hart that a message number names. -/
def Hart.waitOf (h : Hart) (msg : Nat) : Option MbxWait := h.busy.mbx.find? (fun w => !w.own && w.msg == msg)

/-- A value reaches a hart (R104, R138): a wait on a counter is satisfied (R286), a register is filled; the answer of a watch
that no wait and no read still awaits is discarded. -/
def Hart.takeFill (h : Hart) (r : Reply) : Hart :=
  let h := match r.vst with | some t => h.modCsr (fun c => { c with vlast := vlastAfter c.vlast t r.waited r.hit }) | none => h
  match h.waitOf r.msg with
  | some w => h.mbxSatisfied w r.value
  | none =>
    if r.mkind = .mbxwatch ∧ h.busy.posted.any (fun p => p.id == r.msg) = false then h
    else match r.reg with | some d => h.fill d r.value | none => h

/-- REPLY_FILL (R138): the fill, and the signal of an engine command that the answer completes. -/
def replyFillEffect (r : Reply) (s : State) : State :=
  let s := s.modOwner r.dst r.epoch (fun h => h.takeFill r)
  let s := s.unpost r.dst r.msg
  let s := match r.cmd with | some q => s.modFlight r.dst q (fun f => { f with remote := false }) | none => s
  s.settle r.dst

/-- REPLY_FILL. -/
def execReplyFill (n : Nat) (s : State) : Host.Outcome State Fault Refusal := withReply n (fun r => r.kind == .fill) replyFillEffect s

/-- The traveller count of an origin's core goes down (R121). -/
def State.travellerEnds (s : State) (r : Reply) : State :=
  match r.trav with
  | some c => s.modCore c (fun c => { c with inflight := c.inflight - 1 })
  | none => s

/-- TRAVELLER_END_NOTICE (R121): the count goes down whatever the slot's state; the register is filled while the epoch
matches. -/
def travellerEndEffect (r : Reply) (s : State) : State :=
  (s.travellerEnds r).modOwner r.dst r.epoch (fun h => match r.reg with | some d => h.fill d r.value | none => h)

/-- TRAVELLER_END_NOTICE. -/
def execTravellerEndNotice (n : Nat) (s : State) : Host.Outcome State Fault Refusal :=
  withReply n (fun r => r.kind == .endNotice) travellerEndEffect s

/-- ACCEPTANCE_NOTICE (R140): the message is performed; a piece of a copy or an increment of an engine command is accounted
for (R127, R285). -/
def acceptanceEffect (r : Reply) (s : State) : State :=
  let s := s.unpost r.dst r.msg
  let s := match r.cmd with
    | some q => if r.mkind = MsgKind.chunk then s.copyAccepted r.dst (some q) r.parts else s.modFlight r.dst q (fun f => { f with remote := false })
    | none => s
  s.settle r.dst

/-- ACCEPTANCE_NOTICE. -/
def execAcceptanceNotice (n : Nat) (s : State) : Host.Outcome State Fault Refusal := withReply n (fun r => r.kind == .accept) acceptanceEffect s

/-- Whether a cause gives a fault record an address (R392). -/
def causeHasVa (c : BitVec 8) : Bool := c == 0x0B || (decide (3 ≤ c.toNat) && decide (c.toNat ≤ 7))

/-- VALUE of the fault that a NACK gives (R392): the lowest address of the footprint in the word that no code corrects; where the
cause has an address and the answer brings none, a free value; otherwise 0. -/
def Flight.nackValue (f : Flight) (r : Reply) (n : Nat) : BitVec 48 :=
  if !causeHasVa r.cause then 0
  else
    match r.word with
    | some w =>
      let vas := (f.src.filter (fun p => decide (p.2.1 < 8 * w + 8) && decide (8 * w < p.2.1 + p.2.2))).map (fun p => p.1 + (8 * w - p.2.1))
      BitVec.ofNat 48 (vas.foldl min (vas.headD 0))
    | none => (Config.freeWord n).setWidth 48

/-- The fault that a NACK gives to an engine command (R115, R392). -/
def Flight.nacked (f : Flight) (r : Reply) (n : Nat) : Flight :=
  let fault := match f.fault with | some x => some x | none => some (r.cause, r.status.setWidth 4, f.nackValue r n)
  if r.mkind = MsgKind.copyreq ∨ r.mkind = MsgKind.chunk then { (f.accept r.parts) with fault := fault } else { f with fault := fault, remote := false }

/-- What a NACK does to the hart that it reaches (R115, R116, R286). -/
def Hart.takeNack (h : Hart) (r : Reply) : Hart :=
  let h := h.noteNack r.cause r.status r.mkind r.core r.dev
  match h.waitOf r.msg with
  | some w => h.mbxEnds w allOnes r.cause r.status
  | none =>
    if r.mkind = .mbxwatch ∧ h.busy.posted.any (fun p => p.id == r.msg) = false then h
    else match r.reg with | some d => h.fill d allOnes | none => h

/-- A watch answered with retry is sent again 1,050 clk later (R123). -/
def Hart.takeRetry (h : Hart) (r : Reply) (clk : Nat) : Hart :=
  h.modBusy (fun b =>
    { b with mbx := b.mbx.map (fun w => if w.own = false ∧ w.msg = r.msg then { w with resend := some (clk + Config.watchRetry) } else w) })

/-- Answers that NACK takes: refusals of everything but transactions, and the retry status of a watch. -/
def Reply.isNack (r : Reply) : Bool := (r.kind == .nack && r.mkind != .xact) || r.kind == .watchRetry

/-- NACK (R115): a replica that refuses a commit is a machine check (R150); one with the cause of data that no code corrects has its unit's
context rolled back (R404). -/
def nackEffect (r : Reply) (s : State) : State :=
  if r.kind = .watchRetry then s.modOwner r.dst r.epoch (fun h => h.takeRetry r s.clk)
  else
    let s := s.modOwner r.dst r.epoch (fun h => h.takeNack r)
    let s := if causeUncorr r.cause && (s.hart r.dst).epoch == r.epoch then s.rollHart r.dst else s
    let s := s.unpost r.dst r.msg
    let s := s.travellerEnds r
    let s := match r.cmd with | some q => (s.free.2).modFlight r.dst q (fun f => f.nacked r s.free.1) | none => s
    let s := if r.mkind = .repcommit then s.machineCheck r.core (BitVec.ofNat 64 (vaultPa r.core 0)) else s
    s.settle r.dst

/-- NACK. -/
def execNack (n : Nat) (s : State) : Host.Outcome State Fault Refusal := withReply n Reply.isNack nackEffect s

/-! ### Remote watches at their issuer (R123, R124, R286) -/

/-- WATCH_RETRY can happen: 1,050 clk have passed since the retry status came. -/
def watchRetryReady (id : HartId) (n : Nat) (s : State) : Bool :=
  match (s.hart id).busy.mbx[n]? with
  | some w => (match w.resend with | some c => decide (c ≤ s.clk) | none => false)
  | none => false

/-- WATCH_RETRY (R123): the watch is sent again, its expiry unchanged. -/
def watchRetryEffect (id : HartId) (n : Nat) (s : State) : State :=
  match (s.hart id).busy.mbx[n]? with
  | none => s
  | some w =>
    let m := { s.counterMsg id w.counter 1 w.target w.reg w.issued with afterLoads := 0, afterSb := 0 }
    (s.modHart id (fun h => h.modBusy (fun b =>
      { b with mbx := b.mbx.map (fun x => if x = w then { w with msg := m.id, resend := none } else x) }))).send m false

/-- WATCH_RETRY. -/
def execWatchRetry (h : HartId) (n : Nat) (s : State) : Host.Outcome State Fault Refusal := when (watchRetryReady h n s) (watchRetryEffect h n) s

/-- MBX_WAIT_TIMEOUT can happen: 1,050,000,000 clk have passed since the MBX.WAIT issued. -/
def mbxWaitTimeoutReady (id : HartId) (n : Nat) (s : State) : Bool :=
  match (s.hart id).busy.mbx[n]? with
  | some w => decide (w.issued + Config.mbxTimeout ≤ s.clk)
  | none => false

/-- MBX_WAIT_TIMEOUT (R124, R286): the register is filled with the error value and MSGERR records cause 0x18, or the waiting
instruction is to raise it; a remote watch is withdrawn. -/
def mbxWaitTimeoutEffect (id : HartId) (n : Nat) (s : State) : State :=
  match (s.hart id).busy.mbx[n]? with
  | none => s
  | some w =>
    let s := s.modHart id (fun h =>
      (if w.reg.isSome then h.noteNack 0x18 0 .mbxwatch w.counter.core w.counter.dev else h).mbxEnds w allOnes 0x18 0)
    if w.own then s.modHart id s.evalOwn else s.send (s.withdrawal id w) false

/-- MBX_WAIT_TIMEOUT. -/
def execMbxWaitTimeout (h : HartId) (n : Nat) (s : State) : Host.Outcome State Fault Refusal :=
  when (mbxWaitTimeoutReady h n s) (mbxWaitTimeoutEffect h n) s

end Sys2Proof.Machine
end

