-- ==== Sys2Proof/Machine/Footprint.lean ====
section
/-! DEFINITION. Sys2Proof/Machine/Footprint.lean: the footprint of an engine command, its checks as the command leaves its queue (R36, R88)
and the placing of pool lines under a rotation code (R90, R91). -/

namespace Sys2Proof.Machine

/-- A fault with which a command signals: cause, status, VALUE (R392). -/
abbrev TokFault := BitVec 8 × BitVec 4 × BitVec 48

/-- A fault with no value. -/
def faultOf (cause : BitVec 8) : TokFault := (cause, 0, 0)

/-- A fault at a virtual address (R392). -/
def faultAt (cause : BitVec 8) (va : Word) : TokFault := (cause, 0, va.setWidth 48)

/-- A fault whose cause has an address that the spec does not name: VALUE is free (R392) (DESIGN CHOICE, safe; log 44). -/
def State.freeFault (s : State) (cause : BitVec 8) : State × TokFault := (s.free.2, (cause, 0, (Config.freeWord s.free.1).setWidth 48))

/-- A run of bytes of a footprint: virtual address, physical address, length. -/
abbrev Run := Nat × Nat × Nat

/-- Contiguous bytes of a footprint, with the tile row that touches them (R88, R90). -/
structure Piece where
  va : Word
  n : Nat
  row : Nat
  deriving DecidableEq, Repr

/-- A stretch of n bytes cut where either of two addresses crosses a line: offsets and lengths. -/
def cutLines (a b off n fuel : Nat) : List (Nat × Nat) :=
  match fuel with
  | 0 => []
  | f + 1 =>
    if n = 0 then []
    else
      let k := min n (min (64 - (a + off) % 64) (64 - (b + off) % 64))
      (off, k) :: cutLines a b (off + k) (n - k) f

/-- A piece cut into its lines. -/
def Piece.lines (p : Piece) : List Piece :=
  (cutLines p.va.toNat p.va.toNat 0 p.n (p.n + 1)).map (fun o => ⟨p.va + BitVec.ofNat 64 o.1, o.2, p.row⟩)

/-- Where a pool line lies under a rotation code (R90); other addresses stay. -/
def rotatePa (code row pa : Nat) : Nat :=
  if region pa ≠ 1 ∨ code = 0 then pa
  else
    let off := bits pa 0 21
    let l := off / 64
    pa - off + (l / 32 * 32 + (l + row * code) % 32) * 64 + off % 64

/-- What the checks of a footprint answer: its runs, the failures, and whether a walk is waited for. -/
structure Checks where
  runs : List Run
  faults : List (BitVec 8 × Word)
  walk : Bool
  deriving DecidableEq, Repr

/-- The answers for some pieces with that for one before them. -/
def Checks.cons (k : Checks) (code : Nat) (p : Piece) (c : Checked) : Checks :=
  match c with
  | .ok x => { k with runs := (p.va.toNat, rotatePa code p.row x.pa, p.n) :: k.runs }
  | .fault c => { k with faults := (c, p.va) :: k.faults }
  | .walk => { k with walk := true }

/-- The answers for two footprints together. -/
def Checks.both (a b : Checks) : Checks := ⟨a.runs ++ b.runs, a.faults ++ b.faults, a.walk || b.walk⟩

/-- The lines of a footprint checked and translated (R36), under the PTROOT and at the privilege level that the thread has as the command
leaves its queue (DESIGN CHOICE, unsafe; log 98). -/
def State.checkLines (s : State) (who : Asker) (a : Acc) (code : Nat) (ps : List Piece) : State × Checks :=
  match ps with
  | [] => (s, ⟨[], [], false⟩)
  | p :: r =>
    let t := s.check who a p.va
    let u := t.1.checkLines who a code r
    (u.1, u.2.cons code p t.2)

/-- The fault of a footprint (R36): the first check that any byte fails, at the lowest address that fails it. -/
def lowestFault (fs : List (BitVec 8 × Word)) : Option TokFault :=
  (fs.foldl (fun (m : Option (BitVec 8 × Word)) f =>
    match m with
    | none => some f
    | some g => if causeRank f.1 < causeRank g.1 ∨ (causeRank f.1 = causeRank g.1 ∧ f.2.toNat < g.2.toNat) then some f else m) none).map
    (fun f => faultAt f.1 f.2)

/-- The alignment check over some addresses: the lowest that is misaligned (R36, R126). -/
def misaligned (as : List (Word × Nat)) : Option TokFault :=
  lowestFault ((as.filter (fun a => decide (a.1.toNat % max a.2 1 ≠ 0))).map (fun a => (0x04, a.1)))

/-- What an engine command does as it leaves its queue: the flight, the fault with which it signals, or nothing while it waits. -/
abbrev Launching := State × Option (Except TokFault Flight)

/-- How a command stands at its signal: it signals, with its fault; it has gone on and has more to do; or it waits for accesses that it has
asked for. -/
inductive Ended where
  | done (s : State) (fault : Option TokFault)
  | moved (s : State)
  | wait (s : State)

/-- A command under way. -/
def Cmd.flight (c : Cmd) (src : List Run) (segs : List Seg) : Flight :=
  { cmd := c, src := src, segs := segs, moved := [], rows := 0, fault := none, remote := false, parts := 0, started := false, asked := 0,
    stopped := none, written := false, out := [] }

/-- What asks for the translations of a command (R36). -/
def Cmd.asker (c : Cmd) (id : HartId) : Asker := ⟨id, some c.seq, c.home⟩

/-- What the checks of a command make of it: it waits for a walk in its queue (R35), it faults, or it goes on with its runs. -/
def Checks.settle (k : Checks) (s : State) (go : List Run → Launching) : Launching :=
  if k.walk then (s, none)
  else match lowestFault k.faults with
    | some f => (s, some (.error f))
    | none => go k.runs

/-- A command whose footprint is some pieces of one kind of access. -/
def State.startRuns (s : State) (id : HartId) (c : Cmd) (a : Acc) (code : Nat) (ps : List Piece) : Launching :=
  let t := s.checkLines (c.asker id) a code (ps.flatMap Piece.lines)
  t.2.settle t.1 (fun rs => (t.1, some (.ok (c.flight rs []))))

/-- The bytes of a footprint, run after run, as a reader takes them (R134). -/
def State.readRuns (s : State) (who : Reader) (rs : List Run) : List Byte := (rs.map (fun r => s.readAs who r.2.1 r.2.2)).flatten

/-- What a command writes to the runs of its footprint, one after another. -/
def runWrites (rs : List Run) (bs : List Byte) : List (Nat × List Byte) :=
  match rs with
  | [] => []
  | r :: t => (r.2.1, bs.take r.2.2) :: runWrites t (bs.drop r.2.2)

/-- Writes accepted one after another as far as their homes take them: the state and the writes left (R79, R84, R348). -/
def State.writeMore (s : State) (port : Nat) (who : Writer) (ws : List (Nat × List Byte)) : State × List (Nat × List Byte) :=
  match ws with
  | [] => (s, [])
  | w :: r =>
    match s.storeBytes port w.1 w.2 who with
    | none => (s, w :: r)
    | some t => t.writeMore port who r

/-- Who writes what a command writes: the core from which it was issued. -/
def Cmd.writer (c : Cmd) : Writer := { agentWriter c.home with asid := c.asid }

/-- The port of the writes that a command makes as it signals: its agent's for an image of a tape, otherwise the array's (R84). -/
def Cmd.outPort (c : Cmd) : Nat := match c.ins with | .tapeSave .. => agentPort c.home | _ => matrixPort

/-- A command whose writes have been computed has them accepted as far as their homes take them, and signals with the last (R134, R185). -/
def State.writeOut (s : State) (id : HartId) (f : Flight) : Ended :=
  let r := s.writeMore f.cmd.outPort f.cmd.writer f.out
  if r.2.isEmpty then .done r.1 f.fault
  else if r.2.length = f.out.length ∧ (s.hart id).busy.flights.contains f = true then .wait s
  else .moved (r.1.modFlight id f.cmd.seq (fun _ => { f with out := r.2 }))

/-- What a command writes to its footprint, computed as it signals with a fault or none: from here on its writes are accepted. -/
def State.beginWrites (s : State) (id : HartId) (f : Flight) (bs : List Byte) (bad : Option TokFault) : Ended :=
  s.writeOut id { f with written := true, out := runWrites f.src bs, fault := bad }

/-- A run of bytes cut into its units: the bytes of it in each aligned 8-byte word (R134). -/
def unitsIn (pa : Nat) (bs : List Byte) : List (Nat × List Byte) :=
  (List.range ((pa % 8 + bs.length + 7) / 8)).map (fun k =>
    let lo := max pa (8 * (pa / 8 + k))
    (lo, (bs.drop (lo - pa)).take (min (pa + bs.length) (8 * (pa / 8 + k) + 8) - lo)))

/-- One unit of some writes made visible ahead of the others (R134): the state and the writes left; none where it cannot be. -/
def State.writeAhead (s : State) (port : Nat) (who : Writer) (ws : List (Nat × List Byte)) (n : Nat) : Option (State × List (Nat × List Byte)) :=
  let us := ws.flatMap (fun w => unitsIn w.1 w.2)
  us[n]?.bind (fun u => (s.storeBytes port u.1 u.2 who).map (fun t => (t, us.eraseIdx n)))

/-- The first word of a footprint that no code corrects, with the virtual address at which its bytes begin (R81, R83). -/
def State.badRun (s : State) (rs : List Run) : Option (Nat × Word) :=
  rs.findSome? (fun r => (s.badWord r.2.1 r.2.2).map (fun w => (w, BitVec.ofNat 64 (r.1 + (8 * w - r.2.1)))))

/-- The fault of a read of such a word by an engine command (R81, R83). -/
def badFault (w : Nat) (va : Word) : TokFault := if region (8 * w) = 0 then faultAt 0x0B va else faultOf 0x1A

/-- The reads of a footprint asked for at the banks of the vaults (R51), and the state in which they can be made, their turns at pool
banks taken (R84): none while a bank or a held line keeps one waiting. -/
def State.readyRuns (s : State) (id : HartId) (seq port : Nat) (rs : List Run) : State × Option State :=
  let parts := rs.map (·.2)
  let t := s.askAll (.cmd id seq) parts
  (t, if parts.any (fun p => t.heldAt p.1 p.2) || !t.readReady (.cmd id seq) parts then none else t.poolTurns port (linesOf parts))

end Sys2Proof.Machine
end

