-- ==== Sys2Proof/Machine/MatrixRun.lean ====
section
/-! DEFINITION. Sys2Proof/Machine/MatrixRun.lean: what a matrix command does once it has left its queue: its footprint (R333, R334, R339), the
order of commands of a slot (R332), tile loads by segments (R53, R54, R60, R72), the multiplication (R335, R336), the accumulator
banks (R338 to R341), turns (R324), and the events of the lease slots and of the long vector unit (R175, R322, R323). -/

namespace Sys2Proof.Machine

/-! ### Footprints -/

/-- RPITCH in bytes of a pool tile descriptor (R87). -/
def descPitch (v : Word) : Nat := wbits v 0 16 * 64

/-- ROT of a pool tile descriptor (R87). -/
def descRot (v : Word) : Nat := wbits v 32 3

/-- The checks of a pool pair that depend on values (R88): a reserved bit, then the base's alignment with that of other
addresses. -/
def pairFault (desc : Word) (as : List (Word × Nat)) : Option TokFault :=
  if wbits desc 35 29 ≠ 0 then some (faultOf 0x02) else misaligned as

/-- Bytes of an element of a format as a base must be aligned to them (R88). -/
def elemBytes (fmt : Nat) : Nat := max (elemBits fmt / 8) 1

/-- The first byte of row r of a pool tile (R88). -/
def poolRow (base desc : Word) (r : Nat) : Word := base + BitVec.ofNat 64 (r * descPitch desc)

/-- Bytes of the scale area of a tile as a tile load moves it (R195, R331): one line for weights (DEDUCED, unsafe; log 39). -/
def scaleBytes (rows : Nat) (weights : Bool) : Nat := if weights then 64 else (4 * rows + 63) / 64 * 64

/-- The stretches of a tile that a tile load moves: offset, length, tile row; the scale area is at row M (R333). -/
def tileParts (fmt rows frow : Nat) (sc weights : Bool) : List (Nat × Nat × Nat) :=
  (List.range (rows - frow)).map (fun k => ((frow + k) * rowBytes fmt, rowBytes fmt, frow + k)) ++
  (if sc then [(rows * rowBytes fmt, scaleBytes rows weights, rows)] else [])

/-- The pieces of a stretch of a tile, cut at the lines of its source and of its pool destination. -/
def movePieces (src : Word) (dst : Option Word) (p : Nat × Nat × Nat) : List (Piece × Word) :=
  let a := src + BitVec.ofNat 64 p.1
  let b := dst.getD a
  (cutLines a.toNat b.toNat 0 p.2.1 (p.2.1 + 1)).map (fun o =>
    (⟨a + BitVec.ofNat 64 o.1, o.2, p.2.2⟩, match dst with | some b => b + BitVec.ofNat 64 o.1 | none => BitVec.ofNat 64 (p.1 + o.1)))

/-- A move put into a list ordered by source, before the moves of the same source. -/
def insertMove (m : Nat × Nat × Nat × Nat) (ms : List (Nat × Nat × Nat × Nat)) : List (Nat × Nat × Nat × Nat) :=
  match ms with
  | [] => [m]
  | k :: r => if m.1 ≤ k.1 then m :: k :: r else k :: insertMove m r

/-- Moves put in ascending order of their source. -/
def sortMoves (ms : List (Nat × Nat × Nat × Nat)) : List (Nat × Nat × Nat × Nat) := ms.foldr insertMove []

/-- The segments of a tile load in ascending order of vault offset (R53): the moves of one row of one bank each. -/
def segmentsOf (ms : List (Nat × Nat × Nat × Nat)) : List Seg :=
  (sortMoves ms).foldr (fun m (t : List Seg) =>
    match t with
    | g :: r => if g.bank = bankOf (paOff m.1) ∧ g.row = rowOf (paOff m.1) then { g with moves := m :: g.moves } :: r
                else ⟨bankOf (paOff m.1), rowOf (paOff m.1), [m], []⟩ :: t
    | [] => [⟨bankOf (paOff m.1), rowOf (paOff m.1), [m], []⟩]) []

/-- The parts of a run of bytes that some other runs leave uncovered. -/
def uncovered (p : Nat × Nat) (cs : List (Nat × Nat)) : List (Nat × Nat) :=
  cs.foldl (fun ps c => ps.flatMap (fun p =>
    let last := p.1 + p.2
    let next := max p.1 (c.1 + c.2)
    [(p.1, min last c.1 - p.1), (next, last - next)].filter (fun x => decide (0 < x.2)))) [p]

/-- The moves of a tile load from its stretches, each a source, a destination, a length and a tile row: in the pool, a byte that several
rows write, after the rotation of each, is left to the highest-numbered (R89, R91), and belongs to the lowest of them where complete
rows are counted (R54) (DEDUCED, unsafe; log 40). -/
def tileMoves (rows : Nat) (pool : Bool) (xs : List (Nat × Nat × Nat × Nat)) : List (Nat × Nat × Nat × Nat) :=
  if !pool then xs.map (fun x => (x.1, x.2.1, x.2.2.1, min x.2.2.2 (rows - 1)))
  else
    xs.flatMap (fun x =>
      let later := (xs.filter (fun y => decide (x.2.2.2 < y.2.2.2))).map (fun y => (y.2.1, y.2.2.1))
      (uncovered (x.2.1, x.2.2.1) later).map (fun g =>
        let meets (y : Nat × Nat × Nat × Nat) : Bool := decide (y.2.1 < g.1 + g.2) && decide (g.1 < y.2.1 + y.2.2.1)
        (x.1 + (g.1 - x.2.1), g.1, g.2, ((xs.filter meets).map (·.2.2.2)).foldl min (min x.2.2.2 (rows - 1)))))

/-- A tile load leaves its queue (R53, R333): to a buffer, whose keys are tile offsets, or to a pool pair. -/
def State.startTile (s : State) (id : HartId) (c : Cmd) (fmt rows frow : Nat) (sc weights : Bool) (pool : Option (Word × Word)) : Launching :=
  let bad := match pool with
    | some (b, d) => pairFault d [(c.va, 64), (b, elemBytes fmt)]
    | none => misaligned [(c.va, 64)]
  match bad with
  | some f => (s, some (.error f))
  | none =>
    let ps := (tileParts fmt rows frow sc weights).flatMap (fun p => movePieces c.va (pool.map (fun b => poolRow b.1 b.2 p.2.2)) p)
    let code := match pool with | some (_, d) => descRot d | none => 0
    let src := s.checkLines (c.asker id) .engVaultR 0 (ps.map (·.1))
    let dst := if pool.isSome then src.1.checkLines (c.asker id) .engPoolW code (ps.map (fun p => ⟨p.2, p.1.n, p.1.row⟩)) else (src.1, ⟨[], [], false⟩)
    (src.2.both dst.2).settle dst.1 (fun _ =>
      let keys := if pool.isSome then dst.2.runs.map (·.2.1) else ps.map (fun p => p.2.toNat)
      let xs := ((ps.zip src.2.runs).zip keys).map (fun m => (m.1.2.2.1, m.2, m.1.1.1.n, m.1.1.1.row))
      (dst.1, some (.ok (c.flight src.2.runs (segmentsOf (tileMoves rows pool.isSome xs))))))

/-- Bytes of an output row of an OFMT (R339). -/
def outBytes (ofmt : BitVec 2) : Nat := if ofmt = 0 then 512 else if ofmt = 3 then 128 else 256

/-- A command that names pool rows leaves its queue: the pair is checked, then its footprint. -/
def State.startPair (s : State) (id : HartId) (c : Cmd) (a : Acc) (esz : Nat) (ps : List Piece) : Launching :=
  match pairFault c.vd [(c.vb, esz)] with
  | some f => (s, some (.error f))
  | none => s.startRuns id c a (descRot c.vd) ps

/-- A matrix command leaves its queue: its deferred checks and its footprint (R333, R334, R336, R339). -/
def State.startMatrix (s : State) (id : HartId) (c : Cmd) : Launching :=
  let row (r n : Nat) : Piece := ⟨poolRow c.vb c.vd r, n, r⟩
  match c.ins with
  | .tld _ _ _ _ dst fmt rows sc frow => s.startTile id c fmt.toNat (rows.toNat + 1) frow.toNat (sc == 1) (dst == 2) none
  | .tldP _ _ _ _ _ _ fmt rows sc frow => s.startTile id c fmt.toNat (rows.toNat + 1) frow.toNat (sc == 1) false (some (c.vb, c.vd))
  | .wload _ _ _ _ _ _ src fmt sc frow =>
    if src = 0 then s.startTile id c fmt.toNat 128 frow.toNat (sc == 1) true none
    else s.startPair id c .engPoolR (elemBytes fmt.toNat) ((tileParts fmt.toNat 128 frow.toNat (sc == 1) true).map (fun p => row p.2.2 p.2.1))
  | .mma _ _ _ _ _ asrc fmt rows _ _ _ _ =>
    if asrc = 2 then
      let m := rows.toNat + 1
      s.startPair id c .engPoolR (elemBytes fmt.toNat)
        ((List.range m).map (fun r => row r (rowBytes fmt.toNat)) ++ (if fmtScaled fmt.toNat then [row m (4 * m)] else []))
    else (s, some (.ok (c.flight [] [])))
  | .ast _ _ _ _ _ _ rows ofmt _ =>
    s.startPair id c .engPoolW (outBytes ofmt / 128) ((List.range (rows.toNat + 1)).map (fun r => row r (outBytes ofmt)))
  | .tst _ _ _ _ _ rows ofmt _ =>
    match misaligned [(c.va, 64)] with
    | some f => (s, some (.error f))
    | none => s.startRuns id c .engVaultW 0 [⟨c.va, (rows.toNat + 1) * outBytes ofmt, 0⟩]
  | _ => (s, some (.ok (c.flight [] [])))

/-! ### Buffers (R332) -/

/-- The buffers of a lease slot. -/
inductive Buf where
  | ob0 | ob1 | wsh | wlat | working | visible
  deriving DecidableEq, Repr

/-- The buffers that a command reads (R332). -/
def bufReads (i : Instr) : List Buf :=
  match i with
  | .mma _ _ _ _ _ asrc _ _ lt _ _ _ =>
    (if asrc = 0 then [.ob0] else if asrc = 1 then [.ob1] else []) ++ (if lt = 1 then [.wsh] else []) ++ [.wlat, .working]
  | .aswap .. => [.ob0, .ob1, .wsh, .wlat, .working, .visible]
  | .ard .. | .ast .. | .tst .. => [.visible]
  | _ => []

/-- The buffers that a command writes (R332). -/
def bufWrites (i : Instr) : List Buf :=
  match i with
  | .tld _ _ _ _ dst _ _ _ _ => if dst = 0 then [.ob0] else if dst = 1 then [.ob1] else [.wsh]
  | .wload .. => [.wsh]
  | .mma _ _ _ _ _ _ _ _ lt _ _ _ => (if lt = 1 then [.wlat] else []) ++ [.working]
  | .aswap .. => [.working, .visible]
  | .aclr .. => [.working]
  | _ => []

/-- Whether a command waits for an earlier one of its slot (R332, R338). -/
def bufConflict (later earlier : Instr) : Bool :=
  (match later with | .aswap .. => true | _ => false) ||
  (bufWrites earlier).any (fun b => (bufReads later ++ bufWrites later).contains b) ||
  (bufReads earlier).any (fun b => (bufWrites later).contains b)

/-- Whether no earlier command of its slot is in the way of a command of a hart (R332). -/
def Hart.bufClear (h : Hart) (c : Cmd) : Bool :=
  match c.slot with
  | none => true
  | some n => h.busy.commands.all (fun e =>
    !(e.slot == some n && clusterOf e.home == clusterOf c.home && decide (e.seq < c.seq) && bufConflict c.ins e.ins))

/-- Whether the latest writer of a buffer that a command reads ended with a fault (R332) (DEDUCED, unsafe; log 41). -/
def LeaseSlot.badInput (l : LeaseSlot) (i : Instr) : Bool :=
  (bufReads i).any (fun b => match b with | .ob0 => l.badOb0 | .ob1 => l.badOb1 | .wsh => l.badWsh | _ => false)

/-- How a writer of OB0, OB1 or WSH ended, for those that read after it (R332). -/
def LeaseSlot.wrote (l : LeaseSlot) (i : Instr) (bad : Bool) : LeaseSlot :=
  (bufWrites i).foldl (fun l b =>
    match b with
    | .ob0 => { l with badOb0 := bad }
    | .ob1 => { l with badOb1 := bad }
    | .wsh => { l with badWsh := bad }
    | _ => l) l

/-- Words marked uncorrectable that a write of n bytes replaces whole. -/
def eccAfter (e : List (Nat × Nat)) (b off n : Nat) : List (Nat × Nat) :=
  e.filter (fun w => !(w.1 == b && decide (off ≤ 8 * w.2) && decide (8 * w.2 + 8 ≤ off + n)))

/-- Bytes of a buffer written: 0 OB0, 1 OB1, 2 WSH. -/
def LeaseSlot.put (l : LeaseSlot) (b off : Nat) (bs : List Byte) : LeaseSlot :=
  let l := { l with ecc := eccAfter l.ecc b off bs.length }
  match b with
  | 0 => { l with ob0 := l.ob0.write off bs }
  | 1 => { l with ob1 := l.ob1.write off bs }
  | _ => { l with wsh := l.wsh.write off bs }

/-- Whether a read of n bytes of a buffer meets an uncorrectable word (R336). -/
def LeaseSlot.eccBad (l : LeaseSlot) (b n : Nat) : Bool := l.ecc.any (fun w => w.1 == b && decide (8 * w.2 < n))

/-! ### Tile loads (R53, R54, R60, R72) -/

/-- The buffer of a tile load that has one. -/
def tileBuf (i : Instr) : Option Nat :=
  match i with
  | .tld _ _ _ _ dst _ _ _ _ => some dst.toNat
  | .wload .. => some 2
  | _ => none

/-- One move of a segment: the bytes of its source, as the load reads them (R134), put where they go. -/
def State.tileMove (s : State) (id : HartId) (c : Cmd) (m : Nat × Nat × Nat × Nat) : State :=
  let bs := s.readAs (.cmd id c.seq) m.1 m.2.2.1
  match tileBuf c.ins, c.slot with
  | some b, some n => s.modSlot (clusterOf c.home) n (fun l => l.put b m.2.1 bs)
  | none, _ => s.writeMem m.2.1 bs
  | _, _ => s

/-- Tile rows complete when some segments are still to come (R54). -/
def rowsDone (total : Nat) (gs : List Seg) : Nat := ((gs.map (fun g => g.moves.map (·.2.2.2))).flatten).foldl min total

/-- Tile rows of a tile load. -/
def tileRows (i : Instr) : Nat :=
  match i with
  | .tld _ _ _ _ _ _ rows _ _ => rows.toNat + 1
  | .tldP _ _ _ _ _ _ _ rows _ _ => rows.toNat + 1
  | _ => 128

/-- A tile load at the front of its next segment: the flight and the segment. -/
def State.nextSeg (s : State) (id : HartId) (seq : Nat) : Option (Flight × Seg × List Seg) :=
  match (s.hart id).busy.flights.find? (fun f => f.cmd.seq == seq) with
  | none => none
  | some f => match f.segs with | g :: r => if f.fault.isSome then none else some (f, g, r) | [] => none

/-- The source bytes of a segment. -/
def Seg.parts (g : Seg) : List (Nat × Nat) := g.all.map (fun m => (m.1, m.2.2.1))

/-- The lines of a pool that some moves of a tile load write. -/
def moveLines (c : Cmd) (ms : List (Nat × Nat × Nat × Nat)) : List Nat :=
  if (tileBuf c.ins).isSome then [] else linesOf (ms.map (fun m => (m.2.1, m.2.2.1)))

/-- Whether the transfer of a segment is over: it has begun, its last line has left the row (R45, R53), and no line of it is held (R152). -/
def State.segMoved (s : State) (id : HartId) (seq : Nat) (g : Seg) : Bool :=
  let me : Reader := .cmd id seq
  s.readReady me g.parts && g.parts.all (fun p => !s.heldAt p.1 p.2) &&
  (s.vault g.core).served.any (fun x => x.who == me && x.line == g.span.1 / 64 && decide (x.stop ≤ s.clk))

/-- The moves of a tile load that write rows from a number on (R54). -/
def Flight.movesFrom (f : Flight) (n : Nat) : List (Nat × Nat × Nat × Nat) :=
  ((f.moved ++ f.segs).flatMap Seg.all).filter (fun m => decide (n ≤ m.2.2.2))

/-- The moves whose destinations a tile load writes next: those of a stop, or of its next segment. -/
def Flight.nextMoves (f : Flight) (g : Seg) : List (Nat × Nat × Nat × Nat) :=
  if f.asked = f.moved.length then (if f.stopped.isSome then f.movesFrom (rowsDone (tileRows f.cmd.ins) f.segs) else []) else g.moves

/-- TILE_LOAD_SEGMENT can happen: the first segment's preparation may begin, what R332 orders before the load having finished; the next
segment is stopped; or its transfer is over and the banks of a pool destination take its lines (R84). -/
def tileLoadSegmentReady (id : HartId) (seq : Nat) (s : State) : Bool :=
  match s.nextSeg id seq with
  | none => false
  | some (f, g, _) =>
    (if f.asked = f.moved.length then f.stopped.isSome || (f.moved.isEmpty && (s.hart id).bufClear f.cmd) else s.segMoved id seq g) &&
    (s.poolTurns tilePort (moveLines f.cmd (f.nextMoves g))).isSome

/-- Bytes at a destination of a tile load replaced by free ones: their value is unspecified (R54) (DESIGN CHOICE, safe; log 93). -/
def State.looseMove (s : State) (c : Cmd) (m : Nat × Nat × Nat × Nat) : State :=
  let bs := (List.range m.2.2.1).map (fun k => Config.freeByte (s.freeCtr + k))
  let s := { s with freeCtr := s.freeCtr + m.2.2.1 }
  match tileBuf c.ins, c.slot with
  | some b, some n => s.modSlot (clusterOf c.home) n (fun l => l.put b m.2.1 bs)
  | none, _ => s.writeMem m.2.1 bs
  | _, _ => s

/-- The rows of a tile load from a number on left unspecified (R54). -/
def State.looseRows (s : State) (f : Flight) (n : Nat) : State := (f.movesFrom n).foldl (fun s m => s.looseMove f.cmd m) s

/-- REASON of a TLD_STOP record (R77). -/
def SegStop.code (w : SegStop) : Nat := match w with | .repair => 0 | .band => 1

/-- A tile load stopped with n rows complete (R54, R60, R72): logged as TLD_STOP at the clk of the stop (R77). -/
def State.stopTile (s : State) (id : HartId) (f : Flight) (g : Seg) (why : SegStop × Nat) : State :=
  let n := rowsDone (tileRows f.cmd.ins) f.segs
  let s := s.looseRows f n
  let s := s.addLog g.core (logRec 5 g.bank ((s.bank g.core g.bank).place g.row) (id.idx % 4 + why.1.code * 4 + n * 2 ^ 16) (s.stamp g.core why.2))
  s.modFlight id f.cmd.seq (fun f => { f with segs := [], rows := n, fault := some (0x0A, 0, BitVec.ofNat 48 n) })

/-- A segment's transfer used: its grant goes. -/
def State.dropSegment (s : State) (id : HartId) (seq : Nat) (g : Seg) : State :=
  s.modVault g.core (fun v => { v with served := v.served.filter (fun x => !(x.who == .cmd id seq && x.line == g.span.1 / 64)) })

/-- A segment's bytes moved (R53); a word that no code corrects ends the load (R81). -/
def State.moveSegment (s : State) (id : HartId) (f : Flight) (g : Seg) (rest : List Seg) : State :=
  let seq := f.cmd.seq
  match g.moves.findSome? (fun m => s.badWord m.1 m.2.2.1) with
  | some w =>
    let va := (f.src.findSome? (fun r => if r.2.1 < 8 * w + 8 ∧ 8 * w < r.2.1 + r.2.2 then some (BitVec.ofNat 64 (r.1 + (8 * w - r.2.1))) else none)).getD 0
    ((s.modFlight id seq (fun f => { f with segs := [], fault := some (faultAt 0x0B va) })).logUncorr w).dropReads g.core (.cmd id seq)
  | none =>
    let s := (g.moves.foldl (fun s m => s.tileMove id f.cmd m) (s.dropSegment id seq g))
    s.modFlight id seq (fun f => { f with segs := rest, moved := f.moved ++ [g], started := true, rows := rowsDone (tileRows f.cmd.ins) rest })

/-- TILE_LOAD_SEGMENT (R53, R60, R72): the preparation of the first segment begins, a stopped load ends, or a segment's bytes are moved;
its transfer has begun the preparation of the next. -/
def tileLoadSegmentEffect (id : HartId) (seq : Nat) (s : State) : State :=
  match s.nextSeg id seq with
  | none => s
  | some (f, g, rest) =>
    let t := (s.poolTurns tilePort (moveLines f.cmd (f.nextMoves g))).getD s
    if f.asked = f.moved.length then
      match f.stopped with
      | some why => t.stopTile id f g why
      | none => t.prepareSegment id seq
    else
      t.moveSegment id f g rest

/-- Moves cut at the aligned 8-byte words of their destinations (R134). -/
def moveUnits (ms : List (Nat × Nat × Nat × Nat)) : List (Nat × Nat × Nat × Nat) :=
  ms.flatMap (fun m => (List.range ((m.2.1 % 8 + m.2.2.1 + 7) / 8)).map (fun k =>
    let lo := max m.2.1 (8 * (m.2.1 / 8 + k))
    (m.1 + (lo - m.2.1), lo, min (m.2.1 + m.2.2.1) (8 * (m.2.1 / 8 + k) + 8) - lo, m.2.2.2)))

/-- One unit of the segment that a tile load into a pool moves next, written ahead of the others (R134); none where it cannot be. -/
def State.tileAhead (s : State) (id : HartId) (seq n : Nat) : Option State :=
  match s.nextSeg id seq with
  | none => none
  | some (f, g, rest) =>
    let us := moveUnits g.moves
    match us[n]? with
    | none => none
    | some m =>
      if f.asked = f.moved.length ∨ (tileBuf f.cmd.ins).isSome = true ∨ s.segMoved id seq g = false ∨ (s.badWord m.1 m.2.2.1).isSome = true then none
      else (s.poolTurns tilePort (moveLines f.cmd [m])).map (fun t =>
        (t.tileMove id f.cmd m).modFlight id seq (fun f => { f with segs := { g with moves := us.eraseIdx n, done := m :: g.done } :: rest }))

/-- TILE_LOAD_SEGMENT. -/
def execTileLoadSegment (h : HartId) (seq : Nat) (s : State) : Host.Outcome State Fault Refusal :=
  when (tileLoadSegmentReady h seq s) (tileLoadSegmentEffect h seq) s

/-! ### Multiplying (R335, R336) -/

/-- The elements of row r of a tile in a buffer. -/
def rowElems (m : Memory) (fmt r : Nat) : List Nat := lanesOf (elemBits fmt) 128 (ofBytes (m.slice (r * rowBytes fmt) (rowBytes fmt)))

/-- The weights of a slot: bytes, format, scale. -/
structure Weights where
  mem : Memory
  fmt : Nat
  scale : Nat
  deriving DecidableEq, Repr

/-- The weights by which an MMA multiplies (R335, R336): WSH's with LT, otherwise WLAT's. -/
def LeaseSlot.weights (l : LeaseSlot) (lt : BitVec 1) : Weights :=
  if lt = 1 then ⟨l.wsh, l.wshFmt.toNat, l.wshScale.toNat⟩ else ⟨l.wlat, l.wlatFmt.toNat, l.wlatScale.toNat⟩

/-- The columns of a weight tile: column n holds element n of each of its 128 rows. -/
def Weights.columns (w : Weights) : List (List Nat) :=
  let rows := (List.range 128).map (fun k => rowElems w.mem w.fmt k)
  (List.range 128).map (fun n => rows.map (fun r => r.getD n 0))

/-- The 128 words of a row of a bank. -/
def bankRow (m : Memory) (r : Nat) : List Nat := lanesOf 32 128 (ofBytes (m.slice (r * 512) 512))

/-- A row of a bank written. -/
def putRow (m : Memory) (r : Nat) (ws : List Nat) : Memory := m.write (r * 512) (bytesOf 512 (packLanes 32 ws))

/-- One row of an MMA (R336): each word promoted by its column's block sum. -/
def mmaRow (v : FEnv) (rule : PairRule) (fa fw : Nat) (a : List Nat) (cols : List (List Nat)) (sa sw : Nat) (acc : List Nat) : List (Nat × Flags) :=
  (acc.zip cols).map (fun p => promote v rule p.1 (blockSum v rule fa fw a p.2) sa sw)

/-- The rows of an MMA into the working bank: poisoned rows stay (R336, R341). -/
def LeaseSlot.mmaRows (l : LeaseSlot) (v : FEnv) (rule : PairRule) (act : Memory) (fa m : Nat) (w : Weights) : LeaseSlot :=
  let cols := w.columns
  let sw := if fmtScaled w.fmt then w.scale else 0x3F800000
  (List.range m).foldl (fun l r =>
    if l.poisonW.contains r then l
    else
      let sa := if fmtScaled fa then ofBytes (act.slice (m * rowBytes fa + 4 * r) 4) else 0x3F800000
      let out := mmaRow v rule fa w.fmt (rowElems act fa r) cols sa sw (bankRow l.working r)
      { l with working := putRow l.working r (out.map (·.1)), flags := out.foldl (fun f o => f ||| o.2) l.flags }) l

/-- MMA on its slot (R335, R336, R341): the slot and the fault with which the command signals. -/
def LeaseSlot.runMma (l : LeaseSlot) (c : Cmd) (pool : List Byte) : LeaseSlot × Option TokFault :=
  match c.ins with
  | .mma _ _ _ _ _ asrc fmt rows lt sat ftz _ =>
    let m := rows.toNat + 1
    let fa := fmt.toNat
    let w := l.weights lt
    let n := m * rowBytes fa + (if fmtScaled fa then 4 * m else 0)
    match pairRule fa w.fmt with
    | none => (l, some (faultOf 0x10))
    | some rule =>
      if (decide (asrc.toNat < 2) && l.eccBad asrc.toNat n) || l.eccBad (if lt = 1 then 2 else 3) (128 * rowBytes w.fmt + (if fmtScaled w.fmt then 4 else 0)) then
        (l, some (faultOf 0x1A))
      else
        let act := match asrc.toNat with | 0 => l.ob0 | 1 => l.ob1 | 2 => Memory.cells 0 pool | _ => c.wdata
        let l := if lt = 1 then { l with wlat := l.wsh, wlatFmt := l.wshFmt, wlatScale := l.wshScale, ecc := l.ecc.filter (fun e => e.1 != 3) } else l
        (l.mmaRows ⟨0, ftz == 1, sat == 1⟩ rule act fa m w,
         if l.poisonW.any (fun r => decide (r < m)) then some (faultOf 0x11) else none)
  | _ => (l, none)

/-! ### Reading the visible bank (R339 to R341) -/

/-- The pattern that a poisoned row is written as (R341). -/
def poisonWord : Nat := 0x7FBADBAD

/-- A word converted by OFMT (R340). -/
def outWord (ofmt : BitVec 2) (satf : Bool) (x : Nat) : Nat × Flags :=
  match ofmt.toNat with
  | 0 => (x, 0)
  | 1 => convFloat Fmt.f32 Fmt.bf16 ⟨0, false, false⟩ x
  | 2 => convFloat Fmt.f32 Fmt.f16 ⟨0, false, false⟩ x
  | _ => convFloat Fmt.f32 Fmt.e4m3 ⟨0, false, satf⟩ x

/-- The bytes of one output row, and its flags. -/
def LeaseSlot.outRow (l : LeaseSlot) (r : Nat) (ofmt : BitVec 2) (satf : Bool) : List Byte × Flags :=
  let n := outBytes ofmt
  if l.poisonV.contains r then (bytesOf n (packLanes 32 (List.replicate (n / 4) poisonWord)), 0)
  else
    let ws := (bankRow l.visible r).map (outWord ofmt satf)
    (bytesOf n (packLanes (n / 16) (ws.map (·.1))), ws.foldl (fun f o => f ||| o.2) 0)

/-- The bytes and flags of rows of the visible bank, and the fault when one is poisoned. -/
def LeaseSlot.outRows (l : LeaseSlot) (row0 rows : Nat) (ofmt : BitVec 2) (satf : Bool) : List Byte × Flags × Option TokFault :=
  let rs := (List.range rows).map (fun i => l.outRow (row0 + i) ofmt satf)
  ((rs.map (·.1)).flatten, rs.foldl (fun f r => f ||| r.2) 0,
   if (List.range rows).any (fun i => l.poisonV.contains (row0 + i)) then some (faultOf 0x11) else none)

/-- Some bytes of a w register replaced (R339). -/
def Core.putW (c : Core) (r : Reg) (off : Nat) (bs : List Byte) : Core :=
  let old := bytesOf 2048 (c.rw r).toNat
  c.ww r (BitVec.ofNat 16384 (ofBytes (old.take off ++ bs ++ old.drop (off + bs.length))))

/-! ### The commands that act as they signal -/

/-- What a matrix command that reads the pool does with the bytes of its footprint, read through the array's port (R84, R334); it waits
while a bank grants another port. -/
def State.withPool (s : State) (id : HartId) (f : Flight) (go : List Byte → State → State × Option TokFault) : Ended :=
  match s.readyRuns id f.cmd.seq matrixPort f.src with
  | (t, none) => .wait t
  | (_, some s) =>
    match s.badRun f.src with
    | some (w, va) => .done s (some (badFault w va))
    | none => let r := go (s.readRuns (.cmd id f.cmd.seq) f.src) s; .done r.1 r.2

/-- Weights from the pool put into WSH (R334). -/
def LeaseSlot.putWeights (l : LeaseSlot) (fmt : BitVec 4) (sc : Bool) (frow : Nat) (bs : List Byte) : LeaseSlot :=
  let rb := rowBytes fmt.toNat
  let body := bs.take ((128 - frow) * rb)
  let scale := bs.drop body.length
  let l := { (l.put 2 (frow * rb) body) with wshFmt := fmt }
  if sc then { (l.put 2 (128 * rb) scale) with wshScale := BitVec.ofNat 32 (ofBytes (scale.take 4)) } else l

/-- Whether the formats that an MMA would multiply are no pair of R194; it then reads nothing (R336). -/
def LeaseSlot.pairBad (l : LeaseSlot) (i : Instr) : Bool :=
  match i with
  | .mma _ _ _ _ _ _ fmt _ lt _ _ _ => (pairRule fmt.toNat (l.weights lt).fmt).isNone
  | _ => false

/-- What a matrix command that is no tile load does as it signals. -/
def State.matrixDone (s : State) (id : HartId) (f : Flight) (n : Nat) : Ended :=
  let c := f.cmd
  let cl := clusterOf c.home
  let l := (s.cluster cl).slot n
  if l.badInput c.ins then .done s (some (faultOf 0x09))
  else if l.pairBad c.ins then .done s (some (faultOf 0x10))
  else
    match c.ins with
    | .wload _ _ _ _ _ _ _ fmt sc frow =>
      s.withPool id f (fun bs s => (s.modSlot cl n (fun l => l.putWeights fmt (sc == 1) frow.toNat bs), none))
    | .mma .. =>
      s.withPool id f (fun bs s =>
        let r := l.runMma c bs
        (s.modSlot cl n (fun _ => r.1), r.2))
    | .aswap .. =>
      .done (s.modSlot cl n (fun l => { l with working := l.visible, visible := l.working, poisonW := l.poisonV, poisonV := l.poisonW })) none
    | .aclr _ _ _ cf =>
      .done (s.modSlot cl n (fun l => { l with working := [], poisonW := [], flags := if cf = 1 then 0 else l.flags })) none
    | .ard _ _ _ row0 rows wreg =>
      let r := l.outRows row0.toNat (rows.toNat + 1) 0 false
      .done ((List.range (rows.toNat + 1)).foldl (fun s i =>
        s.modCore c.home (fun k => k.putW (BitVec.ofNat 5 (wreg.toNat + i / 4)) (i % 4 * 512) ((r.1.drop (i * 512)).take 512))) s)
        r.2.2
    | .ast _ _ _ _ _ row0 rows ofmt satf | .tst _ _ _ _ row0 rows ofmt satf =>
      let r := l.outRows row0.toNat (rows.toNat + 1) ofmt (satf == 1)
      (s.modSlot cl n (fun l => { l with flags := l.flags ||| r.2.1 })).beginWrites id f r.1 r.2.2
    | _ => .done s none

/-- A finished tile load on its slot: the format of WSH, and its scale when the scale line came with it (R333). -/
def LeaseSlot.loaded (l : LeaseSlot) (i : Instr) (bad : Bool) : LeaseSlot :=
  let set (fmt : BitVec 4) (sc : BitVec 1) : LeaseSlot :=
    let l := { l with wshFmt := fmt }
    if sc = 1 ∧ bad = false then { l with wshScale := BitVec.ofNat 32 (ofBytes (l.wsh.slice (128 * rowBytes fmt.toNat) 4)) } else l
  match i with
  | .tld _ _ _ _ dst fmt _ sc _ => if dst = 2 then set fmt sc else l
  | .wload _ _ _ _ _ _ src fmt sc _ => if src = 0 then set fmt sc else l
  | _ => l

/-! ### Turns (R324) -/

/-- Whether an instruction is an MMA. -/
def isMma (i : Instr) : Bool := match i with | .mma .. => true | _ => false

/-- Whether a command takes part in the turns of the array (R324). -/
def Flight.turn (f : Flight) (l : LeaseSlot) : Bool := isMma f.cmd.ins && f.fault.isNone && !l.badInput f.cmd.ins

/-- The threads of the cores of a cluster, saved ones among them. -/
def State.threadsIn (s : State) (cl : Nat) : List HartId := (coresOf cl).flatMap s.threadsAt

/-- Whether a command acts on a slot of a cluster. -/
def Cmd.onSlot (c : Cmd) (cl n : Nat) : Bool := c.slot == some n && clusterOf c.home == cl

/-- Whether some thread has an MMA of a slot ready to enter the array of a cluster: its waits are met. -/
def State.slotReady (s : State) (cl n : Nat) : Bool :=
  s.harts.any (fun (e : HartId × Hart) => e.2.busy.flights.any (fun f =>
    f.cmd.onSlot cl n && f.turn ((s.cluster cl).slot n) && e.2.bufClear f.cmd))

/-- Whether the turn of the array is spent: CMDS MMAs started, TCLK clk passed, or its slot has left HELD (R324). -/
def Cluster.spent (c : Cluster) (clk : Nat) : Bool :=
  c.turn.isSome && (c.turnSpent || decide (c.budCmds ≤ c.turnCmds) || decide (c.turnClk + c.budTclk ≤ clk))

/-- An MMA boundary (R324): a spent turn goes to the other slot where that has an MMA ready, and otherwise continues with its counts
started again. -/
def State.turnBoundary (s : State) (cl : Nat) : State :=
  let c := s.cluster cl
  match c.turn with
  | none => s
  | some t =>
    if !c.spent s.clk then s
    else
      let n := if s.slotReady cl (1 - t) then 1 - t else t
      s.modCluster cl (fun c => { c with turn := some n, turnCmds := 0, turnClk := s.clk, turnSpent := false, lastTurn := n })

/-- The array takes an MMA of a slot: the turn as it then stands, or none where the turn is the other slot's (R324). -/
def State.takeTurn (s : State) (cl n : Nat) : Option State :=
  let s := s.turnBoundary cl
  let c := s.cluster cl
  match c.turn with
  | none =>
    if s.slotReady cl (1 - n) && c.lastTurn == n then none
    else some (s.modCluster cl (fun c => { c with turn := some n, turnCmds := 1, turnClk := s.clk, turnSpent := false, lastTurn := n }))
  | some t => if t = n then some (s.modCluster cl (fun c => { c with turnCmds := c.turnCmds + 1 })) else none

/-- TURN_EXPIRY can happen: the turn is spent, and no MMA is in the array. -/
def turnExpiryReady (cl : Nat) (s : State) : Bool := (s.cluster cl).spent s.clk

/-- TURN_EXPIRY (R324): a boundary at which the turn is spent. -/
def execTurnExpiry (cluster : Nat) (s : State) : Host.Outcome State Fault Refusal :=
  when (turnExpiryReady cluster s) (fun s => s.turnBoundary cluster) s

/-! ### Lease slots and the long vector unit -/

/-- LEASE_GRANT: the oldest LEASE that still waits and a free slot (DEDUCED, unsafe; log 67). -/
def State.leaseNext (s : State) (cl : Nat) : Option (HartId × Nat) :=
  match (s.cluster cl).leaseQ.find? (fun h => (s.hart h).wait == some .lease), (s.cluster cl).freeSlot with
  | some h, some n => some (h, n)
  | _, _ => none

/-- LEASE_GRANT (R322): granted in the order of issue; the instruction then writes the slot's number. -/
def leaseGrantEffect (cl : Nat) (s : State) : State :=
  match s.leaseNext cl with
  | none => s
  | some (h, n) =>
    let s := s.modCluster cl (fun c => { c with leaseQ := c.leaseQ.filter (fun x => x != h && (s.hart x).wait == some .lease) })
    (s.grantSlot cl n h).modHart h (fun x => { x with wait := some (.leased n), safe := none })

/-- LEASE_GRANT. -/
def execLeaseGrant (cluster : Nat) (s : State) : Host.Outcome State Fault Refusal :=
  when (s.leaseNext cluster).isSome (leaseGrantEffect cluster) s

/-- SLOT_DRAINED can happen: the slot is DRAINING, every command of it has signalled and no taken thread is still to save it. -/
def slotDrainedReady (cl n : Nat) (s : State) : Bool :=
  ((s.cluster cl).slot n).st == .draining &&
  (s.threadsIn cl).all (fun h => (s.hart h).lease != some n) &&
  s.harts.all (fun (e : HartId × Hart) => e.2.busy.commands.all (fun c => !c.onSlot cl n))

/-- SLOT_DRAINED (R323): the slot is reset and FREE. -/
def slotDrainedEffect (cl n : Nat) (s : State) : State :=
  (s.modSlot cl n (fun _ => LeaseSlot.reset)).modCluster cl (fun c => if c.turn = some n then { c with turn := none } else c)

/-- SLOT_DRAINED. -/
def execSlotDrained (cluster slot : Nat) (s : State) : Host.Outcome State Fault Refusal :=
  when (slotDrainedReady cluster slot s) (slotDrainedEffect cluster slot) s

/-- The long-mode instructions that wait for the unit of a cluster. -/
def State.lvuWaiting (s : State) (cl : Nat) : List HartId := (s.cluster cl).lvuQ.filter (fun h => (s.hart h).wait == some .lvu)

/-- The instruction that the unit takes next (R175): round-robin over the cores after the one served last. -/
def State.lvuNext (s : State) (cl : Nat) : Option HartId :=
  let c := s.cluster cl
  if c.lvuNow.isSome then none
  else (List.range 8).findSome? (fun k => (s.lvuWaiting cl).find? (fun h => h.core % 8 == (c.lvuLast + 1 + k) % 8))

/-- LVU_TAKE (R175). -/
def lvuTakeEffect (cl : Nat) (s : State) : State :=
  match s.lvuNext cl with
  | none => s
  | some h =>
    let q := (s.lvuWaiting cl).filter (· != h)
    s.modCluster cl (fun c => { c with lvuQ := q, lvuNow := some h, lvuLast := h.core % 8 })

/-- LVU_TAKE. -/
def execLvuTake (cluster : Nat) (s : State) : Host.Outcome State Fault Refusal := when (s.lvuNext cluster).isSome (lvuTakeEffect cluster) s

end Sys2Proof.Machine
end

