-- ==== Sys2Proof/Machine/PipeRun.lean ====
section
/-! DEFINITION. Sys2Proof/Machine/PipeRun.lean: VPIPE and SELQ once they leave their queue: the parameter block and its checks (R343 to R347),
the target's vault pipeline (R215, R346, R348) and the Auction (R349, R350). -/

namespace Sys2Proof.Machine

/-! ### The parameter block (R344, R345) -/

/-- A stream descriptor (R345). -/
structure Stream where
  base : Nat
  c0 : Nat
  c1 : Nat
  s1 : Int
  s2 : Int
  deriving DecidableEq, Repr

/-- The block's fields (R344). -/
structure JobBlock where
  mul : Nat
  red : Nat
  actv : Nat
  fmt0 : Nat
  fmt1 : Nat
  ftz : Bool
  sat : Bool
  outf : Nat
  layout : Nat
  seglen : Nat
  n : Nat
  scalar : Nat
  streams : List Stream
  dest : Nat
  dlim : Nat
  stype : Nat
  smode : Nat
  pred : Nat
  k : Nat
  t1 : Nat
  t2 : Nat
  ibase : Nat
  deriving DecidableEq, Repr

/-- The fields of a block of 192 bytes. -/
def blockFields (b : List Byte) : JobBlock :=
  let w := field b 0 8
  let q := field b 128 8
  { mul := bits w 0 2, red := bits w 2 2, actv := bits w 4 3, fmt0 := bits w 7 4, fmt1 := bits w 11 4, ftz := bits w 15 1 == 1,
    sat := bits w 16 1 == 1, outf := bits w 17 2, layout := bits w 19 4, seglen := bits w 32 32, n := field b 8 4, scalar := field b 12 4,
    streams := (List.range 4).map (fun k =>
      ⟨field b (16 + 24 * k) 8, field b (24 + 24 * k) 4, field b (28 + 24 * k) 4, sfield b (32 + 24 * k) 4, sfield b (36 + 24 * k) 4⟩),
    dest := field b 112 8, dlim := field b 120 4, stype := bits q 0 3, smode := bits q 3 2, pred := bits q 5 3, k := bits q 8 9,
    t1 := field b 136 8, t2 := field b 144 8, ibase := field b 152 8 }

/-- The stream formats (R344). -/
def jobFmt (f : Nat) : Bool := f == 2 || f == 3 || f == 10 || f == 13 || f == 7

/-- Raw mode (R346). -/
def JobBlock.raw (j : JobBlock) : Bool := j.mul == 0 && j.red == 0 && j.actv == 0 && j.fmt0 == 7

/-- Elements of a segment (R344). -/
def JobBlock.seg (j : JobBlock) : Nat := if j.seglen = 0 then max j.n 1 else j.seglen

/-- Whether a stream is used (R345). -/
def JobBlock.used (j : JobBlock) (k : Nat) : Bool :=
  match k with
  | 0 => true
  | 1 => j.mul == 1
  | 2 => fmtScaled j.fmt0
  | _ => j.mul == 1 && fmtScaled j.fmt1

/-- Bits of an Auction element (R349). -/
def auctionBits (t : Nat) : Nat :=
  match t with
  | 1 | 2 => 16
  | 3 => 8
  | 5 | 6 => 64
  | _ => 32

/-- Bits of an element of a stream (R345). -/
def JobBlock.bitsOf (j : JobBlock) (sel : Bool) (k : Nat) : Nat :=
  match k with
  | 0 => if sel && j.raw then auctionBits j.stype else elemBits j.fmt0
  | 1 => elemBits j.fmt1
  | _ => 32

/-- Bytes that an element of a stream takes in memory; a nibble is read with its byte. -/
def JobBlock.size (j : JobBlock) (sel : Bool) (k : Nat) : Nat := max (j.bitsOf sel k / 8) 1

/-- Blocks of 128 elements in a segment (R215, R345). -/
def JobBlock.blocks (j : JobBlock) : Nat := (j.seg + 127) / 128

/-- The entries of a scale stream that a job takes (R345). -/
def JobBlock.scaleEntries (j : JobBlock) : List Nat :=
  ((List.range ((j.n + j.seg - 1) / j.seg)).map (fun g =>
    (List.range ((min j.seg (j.n - g * j.seg) + 127) / 128)).map (fun b => g * j.blocks + b))).flatten

/-- The elements of a stream that a job reads. -/
def JobBlock.entries (j : JobBlock) (k : Nat) : List Nat :=
  if !j.used k then [] else if k < 2 then List.range j.n else j.scaleEntries

/-- The address of an element of a stream (R345). -/
def Stream.addr (s : Stream) (nibble : Bool) (esz e : Nat) : Word :=
  let a := e % s.c0
  BitVec.ofNat 64 (s.base + (if nibble then a / 2 else a * esz)) + BitVec.ofInt 64 ((e / s.c0 % s.c1 : Nat) * s.s1) +
    BitVec.ofInt 64 ((e / (s.c0 * s.c1) : Nat) * s.s2)

/-- A stream of a block. -/
def JobBlock.stream (j : JobBlock) (k : Nat) : Stream := j.streams.getD k ⟨0, 0, 0, 0, 0⟩

/-- The addresses of the bytes that a stream's elements take, element by element. -/
def JobBlock.bytesOf (j : JobBlock) (sel : Bool) (k : Nat) : List Word :=
  let n := j.size sel k
  (j.entries k).flatMap (fun e =>
    (List.range n).map (fun i => (j.stream k).addr (j.bitsOf sel k == 4) n e + BitVec.ofNat 64 i))

/-- Bits of a result element: a pair of the Auction, or a value of VPIPE (R344, R349). -/
def JobBlock.outBits (j : JobBlock) (sel : Bool) : Nat :=
  if sel then (if 5 ≤ j.stype then 128 else 64) else if j.outf = 0 then 32 else if j.outf = 1 then 16 else 0

/-- A stream whose descriptor step 1 of R347 refuses. -/
def JobBlock.streamBad (j : JobBlock) (sel : Bool) (k : Nat) : Bool :=
  let s := j.stream k
  if j.used k then s.c0 == 0 || s.c1 == 0 || (j.bitsOf sel k == 4 && s.c0 % 2 == 1)
  else s != ⟨0, 0, 0, 0, 0⟩

/-- Step 1 of R347: reserved fields and field values (R344, R345, R348 to R350) (DEDUCED, unsafe; log 46). -/
def fieldsBad (b : List Byte) (sel rr : Bool) : Bool :=
  let j := blockFields b
  bits (field b 0 8) 23 9 != 0 || j.mul == 3 || decide (4 < j.actv) || !jobFmt j.fmt0 ||
  (if j.mul = 1 then !jobFmt j.fmt1 else j.fmt1 != 0) || j.outf == 3 || field b 124 4 != 0 || field b 160 32 != 0 ||
  (List.range 4).any (j.streamBad sel) || (j.dest == 0 && !rr) ||
  (if sel then
    bits (field b 128 8) 17 47 != 0 || j.stype == 7 || j.smode == 3 || (if j.smode = 0 then j.k != 0 else j.k == 0 || decide (256 < j.k)) ||
    (!j.raw && j.stype != 0) || (j.smode != 0 && j.dest != 0 && decide (j.dlim < j.k))
   else field b 128 32 != 0)

/-- Step 2 of R347: the bases and DEST that are misaligned. -/
def JobBlock.misalignedBases (j : JobBlock) (sel : Bool) : Option TokFault :=
  misaligned (((List.range 4).filter j.used).map (fun k => (BitVec.ofNat 64 (j.stream k).base, j.size sel k)) ++ [(BitVec.ofNat 64 j.dest, 64)])

/-- Step 4 of R347: the pair of a job that forms block sums (R194, R346). -/
def JobBlock.pairBad (j : JobBlock) : Bool := j.red == 1 && (pairRule j.fmt0 (if j.mul = 1 then j.fmt1 else 7)).isNone

/-! ### Leaving the queue (R343, R347) -/

/-- The target of a job: a core of this device that is not retired (R343). -/
def State.jobTarget (s : State) (v : Word) : Option Nat :=
  match coreId v with
  | some (dev, c) => if s.ownDev dev && !(s.core c).retired then some c else none
  | none => none

/-- The bytes of the streams checked and translated: the runs stream by stream, and what the checks answer together (R36, R347). -/
def State.checkStreams (s : State) (who : Asker) (tgt : Nat) (vas : List (List Word)) : State × List (List Run) × Checks :=
  match vas with
  | [] => (s, [], ⟨[], [], false⟩)
  | v :: r =>
    let t := s.checkLines who (.remote true false) 0 (v.map (fun a => ⟨a, 1, 0⟩))
    let far := (t.2.runs.filter (fun x => paCore x.2.1 != tgt)).map (fun x => ((0x05 : BitVec 8), BitVec.ofNat 64 x.1))
    let u := t.1.checkStreams who tgt r
    (u.1, t.2.runs :: u.2.1, { t.2 with faults := t.2.faults ++ far }.both u.2.2)

/-- Whether every page of some addresses carries a layout (R347); none while a walk is waited for. -/
def State.pagesCarry (s : State) (who : Asker) (layout : Nat) (vas : List Nat) : State × Option Bool :=
  match vas with
  | [] => (s, some true)
  | va :: r =>
    let t := s.translate who (BitVec.ofNat 64 va)
    let u := t.1.pagesCarry who layout r
    (u.1, match t.2 with
      | .walk => none
      | .ok x => u.2.map (fun b => b && x.ent.clid.toNat == layout)
      | .fault _ => u.2.map (fun _ => false))

/-- Whether the second operand of a job lies in pages of its layout (R347); none while a walk is waited for. -/
def State.resident (s : State) (who : Asker) (j : JobBlock) (rs : List Run) : State × Option Bool :=
  if j.mul ≠ 1 then (s, some true)
  else if j.layout = 0 then (s, some false)
  else s.pagesCarry who j.layout ((rs.map (fun r => r.1 / 4096)).eraseDups.map (· * 4096))

/-- The job's message sent, and the command that waits for its completion (R109, R343). -/
def State.sendJob (s : State) (id : HartId) (c : Cmd) (tgt : Nat) (rd : Reg) (job : Job) (src : List Run) : Launching :=
  let m := s.newMsg id .vpjob s.dev.devnum tgt
  (s.send { m with cmd := some c.seq, tk := c.tk, rr := job.rr, rreg := rd, job := some job, afterLoads := 0, afterSb := 0, relSb := [], relIds := [] } false,
   some (.ok { c.flight src [] with remote := true }))

/-- Steps 3 to 5 of R347 for a block that has passed the steps before. -/
def State.placeJob (s : State) (id : HartId) (c : Cmd) (sel rr flt : Bool) (rd : Reg) (b : List Byte) : Launching :=
  let j := blockFields b
  match s.jobTarget c.vb with
  | none => ((s.freeFault 0x05).1, some (.error (s.freeFault 0x05).2))
  | some tgt =>
    let t := s.checkStreams (c.asker id) tgt ((List.range 4).map (j.bytesOf sel))
    let area := if j.dest = 0 then [] else (Piece.lines ⟨BitVec.ofNat 64 j.dest, 64 + j.dlim * j.outBits sel / 8, 0⟩)
    let d := t.1.checkLines (c.asker id) .engOwnW 0 area
    (t.2.2.both d.2).settle d.1 (fun _ =>
      if j.pairBad then (d.1, some (.error (faultOf 0x10)))
      else
        match d.1.resident (c.asker id) j (t.2.1.getD 1 [] ++ t.2.1.getD 3 []) with
        | (u, none) => (u, none)
        | (u, some ok) =>
          if !ok && flt then (u, some (.error (faultOf 0x16)))
          else u.sendJob id c tgt rd ⟨sel, b, t.2.1.map (fun rs => rs.map (·.2.1)), d.2.runs.map (·.2), ok, flt, rr⟩ t.2.1.flatten)

/-- VPIPE or SELQ leaves its queue (R343, R347): the block is read by ordinary loads of the issuing core, which leave VLAST alone
(R67). -/
def State.startPipe (s : State) (id : HartId) (c : Cmd) (sel rr flt : Bool) (rd : Reg) : Launching :=
  if c.va.toNat % 64 ≠ 0 then (s, some (.error (faultAt 0x04 c.va)))
  else
    match s.blockRead (c.asker id) false c.va 24 with
    | (t, .error .held) => (t, none)
    | (t, .error (.fault k va)) => (t, some (.error (faultAt k va)))
    | (t, .error (.uncorr w va)) => (t.logUncorr w, some (.error (badFault w va)))
    | (t, .ok b) =>
      if fieldsBad b sel rr then (t, some (.error (faultOf 0x02)))
      else
        match (blockFields b).misalignedBases sel with
        | some f => (t, some (.error f))
        | none => t.placeJob id c sel rr flt rd b

/-! ### Values (R214, R215, R346) -/

/-- The elements of a stream as raw codes, from the bytes that its addresses held. -/
def JobBlock.codes (j : JobBlock) (sel : Bool) (k : Nat) (bs : List Byte) : List Nat :=
  let n := j.size sel k
  (j.entries k).zipIdx.map (fun p =>
    let v := ofBytes ((bs.drop (p.2 * n)).take n)
    if j.bitsOf sel k = 4 then bits v (p.1 % (j.stream k).c0 % 2 * 4) 4 else v)

/-- An element as a value (R190 to R193). -/
def elemVal (f : Nat) (ftz : Bool) (c : Nat) : FVal :=
  if f < 8 then (floatFmt f).unpack ftz c
  else .fin (decide (intElem f c < 0)) (intElem f c).natAbs 0

/-- FP32 1.0 as a code. -/
def oneCode : Nat := 0x3F800000

/-- The scale of an element: its block's entry, or 1.0. -/
def JobBlock.scaleOf (j : JobBlock) (used : Bool) (scales : List Nat) (i : Nat) : Nat :=
  if used then
    match (j.scaleEntries.zip scales).find? (fun p => p.1 == i / j.seg * j.blocks + i % j.seg / 128) with
    | some p => p.2
    | none => oneCode
  else oneCode

/-- How a job rounds: to nearest even, with the block's FTZ and SAT (R215) (DEDUCED, unsafe; log 47). -/
def JobBlock.env (j : JobBlock) : FEnv := ⟨0, j.ftz, j.sat⟩

/-- The operand of element i where MUL takes no stream: SCALAR, or 1.0 (R346). -/
def JobBlock.constant (j : JobBlock) : Nat := if j.mul = 2 then j.scalar else oneCode

/-- RED sum over one segment (R215): block sums promoted in ascending order from +0. -/
def JobBlock.segSum (j : JobBlock) (s0 s1 s2 s3 : List Nat) (g : Nat) : Nat × Flags :=
  let fw := if j.mul = 1 then j.fmt1 else 7
  let rule := (pairRule j.fmt0 fw).getD .sequential
  let len := min j.seg (j.n - g * j.seg)
  (List.range ((len + 127) / 128)).foldl (fun (t : Nat × Flags) b =>
    let at_ := g * j.seg + b * 128
    let m := min 128 (len - b * 128)
    let as := (s0.drop at_).take m
    let ws := if j.mul = 1 then (s1.drop at_).take m else List.replicate m j.constant
    let r := promote j.env rule t.1 (blockSum j.env rule j.fmt0 fw as ws) (j.scaleOf (j.used 2) s2 at_) (j.scaleOf (j.used 3) s3 at_)
    (r.1, t.2 ||| r.2)) (0, 0)

/-- An element without RED sum: the product of four factors, rounded once (R215); NV is raised for a signalling NaN in any of the four
(DESIGN CHOICE, unsafe; log 108). -/
def JobBlock.element (j : JobBlock) (s0 s1 s2 s3 : List Nat) (i : Nat) : Nat × Flags :=
  let y := if j.mul = 1 then elemVal j.fmt1 j.ftz (s1.getD i 0) else Fmt.f32.unpack j.ftz j.constant
  let r := tripleRound j.env [elemVal j.fmt0 j.ftz (s0.getD i 0), Fmt.f32.unpack j.ftz (j.scaleOf (j.used 2) s2 i), y,
    Fmt.f32.unpack j.ftz (j.scaleOf (j.used 3) s3 i)]
  (wordOf r.1, r.2)

/-- RED max or min over one segment's values (R302, R346). -/
def reduceMinMax (v : FEnv) (big : Bool) (xs : List Nat) : Nat × Flags :=
  match xs with
  | [] => (0, 0)
  | x :: r => r.foldl (fun t y => let m := Fmt.f32.minmax v big t.1 y; (m.1, t.2 ||| m.2)) (x, 0)

/-- The sigmoid of R214. -/
def sigmoidStep (v : FEnv) (x : Nat) : Nat × Flags :=
  let a := Fmt.f32.mul v 0xBFB8AA3B x
  let b := vexp2 v a.1
  let c := Fmt.f32.add v oneCode b.1
  let d := Fmt.f32.div v oneCode c.1
  (d.1, a.2 ||| b.2 ||| c.2 ||| d.2)

/-- The ACTV stage (R214). -/
def activate (actv : Nat) (ftz : Bool) (x : Nat) : Nat × Flags :=
  let v : FEnv := ⟨0, ftz, false⟩
  match actv with
  | 0 => (x, 0)
  | 1 =>
    match Fmt.f32.unpack ftz x with
    | .nan _ => (Fmt.f32.nan, 0)
    | y => if y.neg then (0, 0) else (Fmt.f32.flushed v x, 0)
  | 2 => vexp2 v x
  | 3 =>
    match Fmt.f32.unpack ftz x with
    | .inf true => (0x80000000, 0)
    | .inf false => (Fmt.f32.inf false, 0)
    | _ =>
      let a := Fmt.f32.mul v 0x3FD9DB23 x
      let b := sigmoidStep v a.1
      let c := Fmt.f32.mul v x b.1
      (c.1, a.2 ||| b.2 ||| c.2)
  | _ => sigmoidStep v x

/-- The values of some computations and the flags of all. -/
def gatherFlags (xs : List (Nat × Flags)) : List Nat × Flags := (xs.map (·.1), xs.foldl (fun f x => f ||| x.2) 0)

/-- The values of a job in arithmetic mode (R215, R346). -/
def JobBlock.values (j : JobBlock) (s0 s1 s2 s3 : List Nat) : List Nat × Flags :=
  let segs := List.range ((j.n + j.seg - 1) / j.seg)
  let base :=
    if j.red = 1 then gatherFlags (segs.map (j.segSum s0 s1 s2 s3))
    else
      let es := gatherFlags ((List.range j.n).map (j.element s0 s1 s2 s3))
      if j.red = 0 then es
      else
        let rs := gatherFlags (segs.map (fun g => reduceMinMax j.env (j.red == 2) ((es.1.drop (g * j.seg)).take j.seg)))
        (rs.1, es.2 ||| rs.2)
  let out := gatherFlags (base.1.map (activate j.actv j.ftz))
  (out.1, base.2 ||| out.2)

/-- A value of VPIPE in raw mode (R346). -/
def rawValue (ftz : Bool) (x : Nat) : Nat :=
  match Fmt.f32.unpack ftz x with
  | .nan _ => Fmt.f32.nan
  | _ => Fmt.f32.flushed ⟨0, ftz, false⟩ x

/-! ### The Auction (R349, R350) -/

/-- The key type of R316 that an element type gives. -/
def keyType (t : Nat) : BitVec 3 := if t < 4 then 0 else if t = 4 then 5 else if t = 5 then 6 else 7

/-- The key of an element: a narrow float widened exactly to FP32 (R349). -/
def keyOf (t x : Nat) : Nat :=
  match t with
  | 1 => (convFloat Fmt.bf16 Fmt.f32 ⟨0, false, false⟩ x).1
  | 2 => (convFloat Fmt.f16 Fmt.f32 ⟨0, false, false⟩ x).1
  | 3 => (convFloat Fmt.e4m3 Fmt.f32 ⟨0, false, false⟩ x).1
  | _ => x

/-- Whether a key is a NaN. -/
def keyNan (t k : Nat) : Bool := decide (t < 4) && (Fmt.f32.unpack false k).isNan

/-- Whether a key is below another; false when either is a NaN. -/
def keyLess (t a b : Nat) : Bool :=
  if t < 4 then ltVal (Fmt.f32.unpack false a) (Fmt.f32.unpack false b)
  else if t = 6 then decide (a % 2 ^ 64 < b % 2 ^ 64)
  else decide (signedOf (auctionBits t) a < signedOf (auctionBits t) b)

/-- a ≤ b; false when either is a NaN. -/
def keyLeq (t a b : Nat) : Bool := !keyNan t a && !keyNan t b && !keyLess t b a

/-- qual of R349 for an element with its key. -/
def JobBlock.qualifies (j : JobBlock) (x : Nat) : Bool :=
  let t := j.stype
  let k := keyOf t x
  let w := auctionBits t
  let t1 := if t < 5 then j.t1 % 2 ^ 32 else j.t1
  let t2 := if t < 5 then j.t2 % 2 ^ 32 else j.t2
  if keyNan t k then false
  else
    match j.pred with
    | 0 => keyLess t t1 k
    | 1 => keyLeq t t1 k
    | 2 => keyLess t k t1
    | 3 => keyLeq t k t1
    | 4 => keyLeq t t1 k && keyLeq t k t2
    | 5 => !keyNan t t1 && !keyNan t t2 && (keyLess t k t1 || keyLess t t2 k)
    | 6 => Nat.land x (j.t2 % 2 ^ w) == j.t1 % 2 ^ w
    | _ => Nat.land x (j.t2 % 2 ^ w) != j.t1 % 2 ^ w

/-- A pair in the layout of R316. -/
def JobBlock.pair (j : JobBlock) (key idx : Nat) : Nat :=
  if 5 ≤ j.stype then key + idx % 2 ^ 64 * 2 ^ 64 else key + idx % 2 ^ 32 * 2 ^ 32

/-- The padding pair (R350). -/
def JobBlock.padding (j : JobBlock) : Nat :=
  j.pair (match j.stype with | 4 => 2 ^ 31 | 5 => 2 ^ 63 | 6 => 0 | _ => 0x7FC00000) (2 ^ 64 - 1)

/-- The Auction (R350): its pairs and COUNT. -/
def JobBlock.auction (j : JobBlock) (xs : List Nat) : List Nat × Nat :=
  let ins := xs.zipIdx.filter (fun p => if j.smode = 1 then !keyNan j.stype (keyOf j.stype p.1) else j.qualifies p.1)
  let ps := ins.map (fun p => j.pair (keyOf j.stype p.1) (j.ibase + p.2))
  if j.smode = 0 then (ps, ps.length)
  else
    let top := (sortPairs (keyType j.stype) ps).take j.k
    (top ++ List.replicate (j.k - top.length) j.padding, top.length)

/-! ### The job (R348) -/

/-- What a job leaves: result elements, COUNT, the last value, flags. -/
structure JobOut where
  elems : List Nat
  count : Nat
  last : Nat
  flags : Flags
  deriving DecidableEq, Repr

/-- The stages over the bytes that the streams held (R346, R349). -/
def JobBlock.run (j : JobBlock) (sel : Bool) (data : List (List Byte)) : JobOut :=
  let c (k : Nat) : List Nat := j.codes sel k (data.getD k [])
  let vs : List Nat × Flags := if j.raw then (if sel then (c 0, 0) else ((c 0).map (rawValue j.ftz), 0)) else j.values (c 0) (c 1) (c 2) (c 3)
  if sel then
    let r := j.auction vs.1
    ⟨r.1, r.2, 0, vs.2⟩
  else
    let out : List Nat × Flags :=
      match j.outf with
      | 0 => (vs.1, 0)
      | 1 => gatherFlags (vs.1.map (convFloat Fmt.f32 Fmt.bf16 ⟨0, j.ftz, false⟩))
      | _ => ([], 0)
    ⟨out.1, vs.1.length, vs.1.getLastD 0, vs.2 ||| out.2⟩

/-- The bytes of the result area: the header, then the elements (R348). -/
def resultBytes (status : Nat) (vst : Nat) (o : JobOut) (w : Nat) : List Byte :=
  bytesOf 4 (status + o.flags.toNat * 2 ^ 8 + vst * 2 ^ 16) ++ bytesOf 4 (min o.count (2 ^ 32 - 1)) ++ bytesOf 56 0 ++
    o.elems.flatMap (fun x => bytesOf (w / 8) x)

/-- Bytes laid over the lines of an area, as far as they go. -/
def layOver (ls : List (Nat × Nat)) (bs : List Byte) : List (Nat × List Byte) :=
  match ls with
  | [] => []
  | l :: r => if bs.isEmpty then [] else (l.1, bs.take l.2) :: layOver r (bs.drop l.2)

/-- A job's outcome: its writes and its fill; more elements than DLIM are cut off and reported (R348). -/
def Job.outcome (job : Job) (m : Msg) (vst : Nat) (status : Nat) (o : JobOut) : JobRun :=
  let j := blockFields job.block
  let cut := decide (j.dest ≠ 0) && decide (j.dlim < o.elems.length)
  let st := if cut then 2 else status
  let o' := if cut then { o with elems := o.elems.take j.dlim } else o
  { msg := m, writes := layOver job.dest (resultBytes st vst o' (j.outBits job.sel)),
    fill := BitVec.ofNat 64 ((if job.sel then min o.count (2 ^ 32 - 1) else o.last) + st * 2 ^ 32), fault := none }

/-- Nothing computed. -/
def JobOut.empty : JobOut := ⟨[], 0, 0, 0⟩

/-- Addresses of bytes that follow one another, joined: first address and length. -/
def joinBytes (pas : List Nat) : List (Nat × Nat) :=
  pas.foldr (fun a (t : List (Nat × Nat)) =>
    match t with
    | (b, n) :: r => if b = a + 1 then (a, n + 1) :: r else (a, 1) :: t
    | [] => [(a, 1)]) []

/-- The bytes that a job reads. -/
def Job.parts (job : Job) : List (Nat × Nat) := if job.resident then joinBytes job.streams.flatten else []

/-- The lowest virtual address of a command's footprint that lies in a word that no code corrects (R392). -/
def State.lowestBad (s : State) (m : Msg) : Word :=
  match (s.hart m.src).busy.flights.find? (fun f => some f.cmd.seq == m.cmd) with
  | none => 0
  | some f =>
    ((f.src.filter (fun r => (s.badWord r.2.1 r.2.2).isSome)).map (·.1)).foldl (fun (t : Option Nat) a =>
      match t with | none => some a | some b => some (min a b)) none |>.elim 0 (BitVec.ofNat 64)

/-- The job that the pipeline runs, to its outcome, once its streams have been served (R348). -/
def State.runJob (s : State) (core : Nat) (m : Msg) (job : Job) : State × JobRun :=
  let j := blockFields job.block
  if !job.resident then (s, job.outcome m 0 1 JobOut.empty)
  else
    match job.parts.findSome? (fun p => s.badWord p.1 p.2) with
    | some w => (s.logUncorr w, ⟨m, [], allOnes, some (0x0B, (s.lowestBad m).setWidth 48)⟩)
    | none =>
      (s, job.outcome m (s.reading core (.msg m.id)).vst 0
        (j.run job.sel (job.streams.map (fun ps => ps.flatMap (fun pa => s.readAs (.msg m.id) pa 1)))))

/-- The job that the pipeline of a core runs goes on: its reads wait in the banks' queues and for held lines (R57, R59, R66, R152), and it
is run once they have been served; its arrival is then complete, its result traffic still to come (R348) (DESIGN CHOICE, unsafe;
log 114). None where nothing can happen to it now. -/
def State.jobEvent (s : State) (core : Nat) (m : Msg) : Option State :=
  match m.job with
  | none => none
  | some job =>
    let t := s.askAll (.msg m.id) job.parts
    if job.parts.any (fun p => t.heldAt p.1 p.2) || !t.readReady (.msg m.id) job.parts then s.unlessSame t
    else
      let r := t.runJob core m job
      some ((r.1.modVault core (fun v => { v with jobs := v.jobs ++ [r.2] })).unserve core m.id)

/-- VPJOB (R348): the pipeline's job goes on, or the next is dispatched, behind the jobs dispatched before it. -/
def State.vpjob (s : State) (core : Nat) : Option State :=
  match ((s.core core).serving.find? (fun m => m.kind == .vpjob)).bind (s.jobEvent core) with
  | some t => some t
  | none => (s.pick core (fun m => m.kind == .vpjob)).map (fun p => (s.leave core p.1).hold core p.2)

/-- VPJOB: system handler 9. -/
def execVpjob (core : Nat) (s : State) : Host.Outcome State Fault Refusal := .next ((s.vpjob core).getD s)

/-- A job whose last write has been accepted (R348): the register is filled, and the command can signal. -/
def State.finishJob (s : State) (j : JobRun) : State :=
  let m := j.msg
  let s := s.modOwner m.src m.epoch (fun h => if m.rr then h.fill m.rreg j.fill else h)
  match m.cmd with
  | some q => s.modFlight m.src q (fun f => { f with remote := false, fault := j.fault.map (fun x => (x.1, 0, x.2)) })
  | none => s

/-- VPJOB_COMPLETE: writes of the first job of a core some of whose writes can be accepted; the job ends with its last. -/
def State.vpjobComplete (s : State) (core : Nat) : Option State :=
  (List.range (s.vault core).jobs.length).findSome? (fun n =>
    match (s.vault core).jobs[n]? with
    | none => none
    | some j =>
      let r := s.writeMore pipePort (j.msg.agentWriter core) j.writes
      if r.2.isEmpty then some ((r.1.modVault core (fun v => { v with jobs := v.jobs.eraseIdx n })).finishJob j)
      else if r.2.length = j.writes.length then none
      else some (r.1.modVault core (fun v => { v with jobs := v.jobs.modify n (fun x => { x with writes := r.2 }) })))

/-- VPJOB_COMPLETE. -/
def execVpjobComplete (core : Nat) (s : State) : Host.Outcome State Fault Refusal := .next ((s.vpjobComplete core).getD s)

end Sys2Proof.Machine
end

