-- ==== Sys2Proof/Machine/TapeRun.lean ====
section
/-! DEFINITION. Sys2Proof/Machine/TapeRun.lean: the signal of a command (R185, R187), tape images read back (R356 to R359), TAPE.SAVE and
TAPE.LOAD (R368), and replay (R145, R355, R369 to R376). -/

namespace Sys2Proof.Machine

/-! ### Signals -/

/-- A context's copy has signalled (R291). -/
def CtxInfo.copyDone (c : CtxInfo) (seq : Nat) (bad : Option TokFault) : CtxInfo :=
  if c.copies.contains seq then
    { c with copies := c.copies.filter (· != seq), copyFault := c.copyFault.or (bad.map (·.1)) }
  else c

/-- What a signal does to its hart: the command is gone, and its token is counted down, with its fault (R185, R187). -/
def Hart.signalled (h : Hart) (ctx : Bool) (c : Cmd) (bad : Option TokFault) : Hart :=
  let h := h.modBusy (fun b =>
    { b with flights := b.flights.filter (fun f => f.cmd.seq != c.seq)
             faults := if bad.isSome then b.faults ++ [⟨c.seq, c.tk, none⟩] else b.faults })
  if ctx then { h with ctx := h.ctx.copyDone c.seq bad }
  else h.modTok c.tk (fun t => t.signal (bad.map (fun b => faultRecord c.tk b.1 b.2.1 b.2.2)))

/-- A command signals (R185): the buffers that it wrote know how it ended (R332), and one that has met data which no code corrects has its
context rolled back (R404). -/
def State.signalCommand (s : State) (id : HartId) (c : Cmd) (bad : Option TokFault) : State :=
  let s := if bad.any (fun b => causeUncorr b.1) then s.rollHart id else s
  let s := match c.slot with
    | some n => s.modSlot (clusterOf c.home) n (fun l => l.wrote c.ins bad.isSome)
    | none => s
  ((s.forgetEarly (.cmd id c.seq)).modHart id (fun h => h.signalled id.isCtx c bad)).settle id

/-! ### Images read back (R356 to R358) -/

/-- The header of an image (R356). -/
structure TapeHdr where
  long : Bool
  wneed : Bool
  wsrc : Bool
  nrec : Nat
  asgen : Nat
  vaultgen : Nat
  pmask : Nat
  core : Nat
  asid : Nat
  wfmt0 : Nat
  exts : List Nat
  deriving DecidableEq, Repr

/-- The fields of a header of 64 bytes. -/
def readHdr (b : List Byte) : TapeHdr :=
  { long := bits (field b 5 1) 0 1 == 1, wneed := bits (field b 5 1) 1 1 == 1, wsrc := bits (field b 5 1) 2 1 == 1, nrec := field b 6 2,
    asgen := field b 8 8, vaultgen := field b 16 4, pmask := field b 20 2, core := bits (field b 22 2) 0 11, asid := bits (field b 24 2) 0 12,
    wfmt0 := bits (field b 26 1) 0 4, exts := (List.range 16).map (fun n => field b (32 + 2 * n) 2) }

/-- The checks of a header (R368): MAGIC, VERSION, HCRC, reserved fields, NREC, and EXTn without its bit of PMASK. -/
def hdrOk (b : List Byte) : Bool :=
  let h := readHdr b
  field b 0 4 == 0x9A3C51E7 && field b 4 1 == 1 && field b 30 2 == headerCrc b && decide (field b 5 1 < 8) &&
  decide (field b 22 2 < 2 ^ 11) && decide (field b 24 2 < 2 ^ 12) && decide (field b 26 1 < 16) && field b 27 3 == 0 &&
  decide (1 ≤ h.nrec) && decide (h.nrec ≤ 1022) && (List.range 16).all (fun n => bits h.pmask n 1 == 1 || h.exts.getD n 0 == 0)

/-- What WORD makes of a record (R358). -/
inductive RecKind where
  | command (i : Instr)
  | barrier (mask : BitVec 8)
  | extension
  | malformed
  deriving DecidableEq, Repr

/-- The commands that a tape may hold (R358, R360). -/
def tapeCommand (i : Instr) : Bool :=
  match i with
  | .tld .. | .tldP .. | .tst .. | .wload .. | .aswap .. | .aclr .. | .ast .. | .copy .. | .copyMc .. => true
  | .mma _ _ _ _ _ asrc _ _ _ _ _ _ => asrc != 3
  | .vpipe _ _ _ _ _ _ rr _ | .selq _ _ _ _ _ _ rr _ => rr == 0
  | .rcall _ _ _ _ _ _ rr _ => rr == 0
  | .actEngine .. | .preEngine .. | .mbxAddEngine .. => true
  | _ => false

/-- The instruction of a record's words, if its fields pass the checks that its instruction makes (R221, R358). -/
def recInstr (word ctl : BitVec 32) : Option Instr :=
  let hd := Head.plain
  let ext := maj word == 0x3F
  let i := if ext then selExtLow hd word ctl else selectBase hd word
  let k : Code := if ext then ⟨8, word, ctl, none⟩ else ⟨4, word, 0, none⟩
  match i with
  | none => none
  | some i => if fieldsOk i && decide (encode i = some k) then some i else none

/-- The kind of a record (R357, R358). -/
def recKind (b : List Byte) (idx : Nat) : RecKind :=
  let word := BitVec.ofNat 32 (field b 0 4)
  let ctl := BitVec.ofNat 32 (field b 4 4)
  let a := field b 8 8
  let c := field b 16 8
  let f := field b 24 4
  if field b 28 2 ≠ idx ∨ field b 30 2 ≠ crc16 (b.take 30) ∨ 2 ^ 15 ≤ f ∨ (bits f 0 1 = 0 ∧ bits f 1 4 ≠ 0) ∨ (bits f 5 1 = 0 ∧ bits f 6 4 ≠ 0) ∨
      (bits f 0 1 = 1 ∧ 2 ^ 40 ≤ a) ∨ (bits f 5 1 = 1 ∧ 2 ^ 40 ≤ c) then .malformed
  else if word = 0 then (if ctl = 0 ∧ bits f 10 5 = 0 then .extension else .malformed)
  else
    match recInstr word ctl with
    | some (.waittk _ m) => if ctl = 0 ∧ a = 0 ∧ c = 0 ∧ f = 0 then .barrier m else .malformed
    | some i =>
      if tapeCommand i && (if isMma i then bits f 14 1 == 1 else bits f 10 5 == 0) && (maj word == 0x3F || decide (ctl.toNat < 2 ^ 11)) then .command i
      else .malformed
    | none => .malformed

/-- Extension records of a command (R358). -/
def extCount (i : Instr) : Nat :=
  match i with
  | .tldP .. | .copyMc .. => 1
  | .rcall .. => 4
  | _ => 0

/-- Whether an extension record is one that a command may have: OPB of a single one is zero (R358). -/
def extOk (n : Nat) (b : List Byte) (idx : Nat) : Bool :=
  decide (recKind b idx = .extension) && (n != 1 || (field b 16 8 == 0 && bits (field b 24 4) 5 1 == 0))

/-- An issue group: its kind and its records (R358). -/
structure TapeGroup where
  kind : RecKind
  recs : List (List Byte)
  deriving DecidableEq, Repr

/-- The group that begins at a record, or the index of its first bad record. -/
def groupAt (get : Nat → List Byte) (idx nrec : Nat) : Except Nat TapeGroup :=
  match recKind (get idx) idx with
  | .malformed | .extension => .error idx
  | .barrier m => .ok ⟨.barrier m, [get idx]⟩
  | .command i =>
    let n := extCount i
    if nrec ≤ idx + n then .error idx
    else
      match (List.range n).find? (fun k => !extOk n (get (idx + 1 + k)) (idx + 1 + k)) with
      | some k => .error (idx + 1 + k)
      | none => .ok ⟨.command i, (List.range (n + 1)).map (fun k => get (idx + k))⟩

/-- The first bad record of an image from an index on. -/
def firstBadRec (get : Nat → List Byte) (idx nrec fuel : Nat) : Option Nat :=
  match fuel with
  | 0 => none
  | f + 1 =>
    if nrec ≤ idx then none
    else match groupAt get idx nrec with
      | .error n => some n
      | .ok g => firstBadRec get (idx + g.recs.length) nrec f

/-! ### TAPE.SAVE and TAPE.LOAD (R368) -/

/-- A replay fault: cause 0x12 with its reason and an index (R369, R392). -/
def tapeFault (reason n : Nat) : TokFault := (0x12, BitVec.ofNat 4 reason, BitVec.ofNat 48 (n % 2 ^ 10))

/-- The physical address of a slot of a tape. -/
def TapeEnt.slotPa (t : TapeEnt) (core n : Nat) : Nat := tapePa core ((t.base + n) * tapeSlot)

/-- Bytes of an image of a tape with some records. -/
def imageBytes (nrec : Nat) : Nat := 64 + 32 * nrec

/-- TAPE.SAVE leaves its queue. -/
def State.startSave (s : State) (id : HartId) (c : Cmd) (tape : Nat) : Launching :=
  let t := (s.core c.home).tape tape
  if c.va.toNat % 64 ≠ 0 then (s, some (.error (faultAt 0x04 c.va)))
  else if t.st ≠ .valid then (s, some (.error (tapeFault 1 0)))
  else s.startRuns id c .engOwnW 0 [⟨c.va, tapeSlot * t.len, 0⟩]

/-- What a TAPE.LOAD makes of the header of its image: a fault, or the slots reserved and the records checked as a footprint. -/
def State.placeTape (s : State) (id : HartId) (c : Cmd) (tape : Nat) (b : List Byte) : Launching :=
  let core := c.home
  let e := s.clearTape core tape
  let n := (readHdr b).nrec
  if !hdrOk b then (e, some (.error (tapeFault 2 0)))
  else
    match (e.core core).findRun (2 + n) with
    | none => (e, some (.error (tapeFault 14 0)))
    | some base =>
      match s.startRuns id c .engOwnR 0 [⟨c.va + 64, 32 * n, 0⟩] with
      | (v, none) => (v, none)
      | (v, some (.error f)) => (v.clearTape core tape, some (.error f))
      | (v, some (.ok fl)) =>
        ((v.writeMem (tapePa core (base * tapeSlot)) b).modCore core (fun k => k.setTape tape ⟨.loading, base, 2 + n⟩), some (.ok fl))

/-- TAPE.LOAD leaves its queue: its header is read and checked, a valid tape is discarded, and slots are reserved (DEDUCED, unsafe; log 48). -/
def State.startLoadTape (s : State) (id : HartId) (c : Cmd) (tape : Nat) : Launching :=
  let core := c.home
  let t := (s.core core).tape tape
  if c.va.toNat % 64 ≠ 0 then (s, some (.error (faultAt 0x04 c.va)))
  else if t.st = .recording ∨ t.st = .loading then (s, some (.error (tapeFault 1 0)))
  else if t.st = .valid ∧ s.tapeBusy core tape = true then (s, none)
  else
    match s.startRuns id c .engOwnR 0 [⟨c.va, 64, 0⟩] with
    | (u, none) => (u, none)
    | (u, some (.error f)) => (u.clearTape core tape, some (.error f))
    | (u, some (.ok h)) =>
      match u.readyRuns id c.seq (agentPort core) h.src with
      | (v, none) => (v, none)
      | (_, some v) =>
        let b := v.readRuns (.cmd id c.seq) h.src
        let v := v.dropReads core (.cmd id c.seq)
        match v.badRun h.src with
        | some (w, va) => ((v.clearTape core tape).logUncorr w, some (.error (badFault w va)))
        | none => v.placeTape id c tape b

/-- TAPE.SAVE as it signals: the image is written as the buffer holds it. -/
def State.saveDone (s : State) (id : HartId) (f : Flight) (tape : Nat) : Ended :=
  let core := f.cmd.home
  let t := (s.core core).tape tape
  let pa := t.slotPa core 0
  match s.badWord pa (tapeSlot * t.len) with
  | some _ => .done s (some (faultOf 0x1A))
  | none => s.beginWrites id f (s.readBytes pa (tapeSlot * t.len)) none

/-- TAPE.LOAD as it signals: the records are checked in order, and the tape is VALID or the ID EMPTY. -/
def State.loadDone (s : State) (id : HartId) (f : Flight) (tape : Nat) : Ended :=
  let core := f.cmd.home
  let t := (s.core core).tape tape
  match s.readyRuns id f.cmd.seq (agentPort core) f.src with
  | (u, none) => .wait u
  | (_, some u) =>
    let img := u.readRuns (.cmd id f.cmd.seq) f.src
    let u := u.dropReads core (.cmd id f.cmd.seq)
    match u.badRun f.src with
    | some (w, va) => .done ((u.clearTape core tape).logUncorr w) (some (badFault w va))
    | none =>
      match firstBadRec (fun n => (img.drop (32 * n)).take 32) 0 (t.len - 2) (t.len - 1) with
      | some n => .done (u.clearTape core tape) (some (tapeFault 11 n))
      | none => .done ((u.writeMem (t.slotPa core 2) img).modCore core (fun k => k.setTape tape { t with st := .valid })) none

/-! ### Replay (R369 to R373) -/

/-- A value of a record as its command takes it (R355): an offset from its window's base, as it stands. -/
def HartCsrs.resolve (c : HartCsrs) (v : Nat) (patched : Bool) (n : Nat) : Word :=
  if patched then BitVec.ofNat 64 (c.patchBase n) + (BitVec.ofNat 40 v).signExtend 64 else BitVec.ofNat 64 v

/-- Both operands of a record, resolved. -/
def HartCsrs.operands (c : HartCsrs) (b : List Byte) : Word × Word :=
  let f := field b 24 4
  (c.resolve (field b 8 8) (bits f 0 1 == 1) (bits f 1 4), c.resolve (field b 16 8) (bits f 5 1 == 1) (bits f 6 4))

/-- The command of a group, as the sequencer enters it (R145, R371). -/
def Hart.groupCmd (h : Hart) (home : Nat) (p : Play) (i : Instr) (recs : List (List Byte)) : Cmd :=
  let b := recs.headD []
  let ctl := field b 4 4
  let (x, y) := h.csr.operands b
  let ext := (recs.drop 1).flatMap (fun r => [(h.csr.operands r).1, (h.csr.operands r).2])
  let inD := match i with | .mma .. | .ast .. => true | .wload _ _ _ _ _ _ src _ _ _ => src == 1 | _ => false
  { seq := h.busy.nextSeq, ins := i, tk := BitVec.ofNat 3 (bits ctl 0 3), wait := BitVec.ofNat 8 (bits ctl 3 8),
    vd := if inD then x else if extCount i = 1 then ext.headD 0 else 0, va := if inD then 0 else x, vb := y,
    args := if extCount i = 4 then ext else [], wdata := [], kickLoads := p.kickLoads, kickSb := p.kickSb, kickMsg := p.kickMsg,
    slot := if isMatrix i then h.lease else none, tape := true, asid := h.asid, home := home }

/-- The core whose sequencer carries out a play: that from which it was issued. -/
def State.playHome (s : State) (id : HartId) (seq : Nat) : Nat :=
  match (s.hart id).busy.flights.find? (fun f => f.cmd.seq == seq) with
  | some f => f.cmd.home
  | none => id.home

/-- The tape that a replay plays. -/
def State.playTape (s : State) (id : HartId) (p : Play) : TapeEnt := (s.core (s.playHome id p.seq)).tape p.id

/-- Records of the tape that a replay plays. -/
def State.playCount (s : State) (id : HartId) (p : Play) : Nat := (s.playTape id p).len - 2

/-- The header of a tape in the buffer. -/
def State.tapeHdr (s : State) (core : Nat) (t : TapeEnt) : List Byte := s.readBytes (t.slotPa core 0) 64

/-- A record of a tape in the buffer. -/
def State.tapeRec (s : State) (core : Nat) (t : TapeEnt) (n : Nat) : List Byte := s.readBytes (t.slotPa core (2 + n)) 32

/-- The format of the weights that a slot's WSH or WLAT holds, as tracked at issue (R362). -/
def State.trackedFmt (s : State) (id : HartId) (home : Nat) (wsh : Bool) : Option (BitVec 4) :=
  (s.hart id).lease.map (fun n =>
    let l := (s.cluster (clusterOf home)).slot n
    if wsh then l.trkWsh else l.trkWlat)

/-- The first start condition that fails (R369, R370). -/
def State.startReason (s : State) (id : HartId) (p : Play) : Option Nat :=
  let core := s.playHome id p.seq
  let t := s.playTape id p
  let b := s.tapeHdr core t
  let h := readHdr b
  let c := (s.hart id).csr
  if t.st ≠ .valid then some 1
  else if !hdrOk b || (s.badWord (t.slotPa core 0) 64).isSome then some 2
  else if h.nrec ≤ p.start ∨ field (s.tapeRec core t p.start) 0 4 = 0 then some 3
  else if h.asid ≠ (s.hart id).asid.toNat ∨ h.core ≠ core then some 4
  else if h.asgen ≠ (s.asgenOf (s.hart id).asid).toNat then some 5
  else if h.vaultgen ≠ (s.vault core).gen.toNat then some 6
  else if h.long ≠ (s.core core).long then some 7
  else if (List.range 16).any (fun n => bits h.pmask n 1 == 1 && decide (c.patchLen n < h.exts.getD n 0)) then some 8
  else if h.wneed then
    match s.trackedFmt id core h.wsrc with
    | none => some 9
    | some f => if f.toNat ≠ h.wfmt0 then some 10 else none
  else none

/-- The play that a sequencer has taken, changed. -/
def State.modPlay (s : State) (id : HartId) (f : Play → Play) : State :=
  s.modHart id (fun h => h.modBusy (fun b => { b with play := b.play.map f }))

/-- TAPE_PLAY_START can happen: the sequencer is free and a TAPE.PLAY has left its queue. -/
def tapePlayStartReady (id : HartId) (s : State) : Bool := (s.hart id).busy.play.isNone && !(s.hart id).busy.plays.isEmpty

/-- TAPE_PLAY_START (R369, R370): the sequencer takes the oldest play and makes the checks of a start; a play that passes them stops at its
first boundary where the thread has been taken, is saved or has resumed elsewhere (R375). -/
def tapePlayStartEffect (id : HartId) (s : State) : State :=
  match (s.hart id).busy.plays with
  | [] => s
  | p :: r =>
    let p := match s.startReason id p with
      | some n => p.stop (BitVec.ofNat 4 n)
      | none => if (s.hart id).isTaken || id.kept || s.playHome id p.seq != id.home then p.stop 13 else p
    s.modHart id (fun h => h.modBusy (fun b => { b with play := some p, plays := r }))

/-- TAPE_PLAY_START. -/
def execTapePlayStart (h : HartId) (s : State) : Host.Outcome State Fault Refusal := when (tapePlayStartReady h s) (tapePlayStartEffect h) s

/-- The check that fails at a record boundary, or the group that is next (R371) (DEDUCED, unsafe; log 50). -/
def State.boundary (s : State) (id : HartId) (p : Play) : Except Nat TapeGroup :=
  let core := s.playHome id p.seq
  let t := s.playTape id p
  let h := readHdr (s.tapeHdr core t)
  if h.asgen ≠ (s.asgenOf (BitVec.ofNat 12 h.asid)).toNat then .error 5
  else if h.vaultgen ≠ (s.vault core).gen.toNat then .error 6
  else if h.long ≠ (s.core core).long then .error 7
  else
    match groupAt (s.tapeRec core t) p.next (s.playCount id p) with
    | .error _ => .error 11
    | .ok g =>
      if (s.badWord (t.slotPa core (2 + p.next)) (tapeSlot * g.recs.length)).isSome then .error 11
      else
        match g.kind with
        | .command i =>
          if isMatrix i && (s.hart id).lease.isNone then .error 9
          else
            match i with
            | .mma _ _ _ _ _ _ _ _ lt _ _ _ =>
              if (s.trackedFmt id core (lt == 1)).map (·.toNat) ≠ some (bits (field (g.recs.headD []) 24 4) 10 4) then .error 10 else .ok g
            | _ => .ok g
        | _ => .ok g

/-- The play that issues records now, with what stands at its boundary; none while it has stopped or passed the last record. -/
def State.replayNext (s : State) (id : HartId) : Option (Play × Except Nat TapeGroup) :=
  match (s.hart id).busy.play with
  | none => none
  | some p => if p.stopped.isSome || decide (s.playCount id p ≤ p.next) then none else some (p, s.boundary id p)

/-- TAPE_RECORD_ISSUE can happen: a check fails at the boundary, or a command stands there and has room (R185, R440). -/
def tapeRecordIssueReady (id : HartId) (s : State) : Bool :=
  match s.replayNext id with
  | none => false
  | some (_, .error _) => true
  | some (p, .ok g) =>
    match g.kind with
    | .command i =>
      let c := (s.hart id).groupCmd (s.playHome id p.seq) p i g.recs
      (match engineQueue i with | some q => s.hasRoom id q c.tk | none => false)
    | _ => false

/-- TAPE_RECORD_ISSUE (R371): the sequencer stops at a failed check, or enters the group as an engine command. -/
def tapeRecordIssueEffect (id : HartId) (s : State) : State :=
  match s.replayNext id with
  | none => s
  | some (_, .error n) => s.modPlay id (·.stop (BitVec.ofNat 4 n))
  | some (p, .ok g) =>
    match g.kind with
    | .command i =>
      let c := (s.hart id).groupCmd (s.playHome id p.seq) p i g.recs
      let s := s.enqueue id ((engineQueue i).getD 0) c
      let s := match c.slot with | some n => s.modSlot (clusterOf c.home) n (fun l => l.track i) | none => s
      s.modPlay id (fun p => { p with next := p.next + g.recs.length, issued := p.issued ++ [c.seq] })
    | _ => s

/-- TAPE_RECORD_ISSUE. -/
def execTapeRecordIssue (h : HartId) (s : State) : Host.Outcome State Fault Refusal := when (tapeRecordIssueReady h s) (tapeRecordIssueEffect h) s

/-- TAPE_BARRIER can happen: a barrier record is next and every token of its mask has count 0. -/
def tapeBarrierReady (id : HartId) (s : State) : Bool :=
  match s.replayNext id with
  | some (_, .ok g) => (match g.kind with | .barrier m => (tokensOf m).all (fun k => ((s.hart id).tok k).count == 0) | _ => false)
  | _ => false

/-- TAPE_BARRIER (R372): a faulted token stops the replay at the barrier, its record left as it is. -/
def tapeBarrierEffect (id : HartId) (s : State) : State :=
  match s.replayNext id with
  | some (_, .ok g) =>
    (match g.kind with
     | .barrier m =>
       if (tokensOf m).any (fun k => ((s.hart id).tok k).fault) then s.modPlay id (·.stop 12)
       else s.modPlay id (fun p => { p with next := p.next + 1 })
     | _ => s)
  | _ => s

/-- TAPE_BARRIER. -/
def execTapeBarrier (h : HartId) (s : State) : Host.Outcome State Fault Refusal := when (tapeBarrierReady h s) (tapeBarrierEffect h) s

/-- TAPE_PLAY_END can happen: the sequencer has stopped or passed the last record, and every record that it issued has signalled
(R373). -/
def tapePlayEndReady (id : HartId) (s : State) : Bool :=
  match (s.hart id).busy.play with
  | none => false
  | some p =>
    (p.stopped.isSome || decide (s.playCount id p ≤ p.next)) &&
    (s.hart id).busy.commands.all (fun c => !p.issued.contains c.seq)

/-- The fault with which a play signals (R373, R375). -/
def Play.fault (p : Play) : Option TokFault :=
  match p.stopped with
  | none => none
  | some (r, n) => if r = 0 then none else some (tapeFault r.toNat n)

/-- TAPE_PLAY_END (R373): the play token is signalled. -/
def tapePlayEndEffect (id : HartId) (s : State) : State :=
  match (s.hart id).busy.play with
  | none => s
  | some p =>
    let s := s.modHart id (fun h => h.modBusy (fun b => { b with play := none }))
    match (s.hart id).busy.flights.find? (fun f => f.cmd.seq == p.seq) with
    | none => s
    | some f => s.signalCommand id f.cmd p.fault

/-- TAPE_PLAY_END. -/
def execTapePlayEnd (h : HartId) (s : State) : Host.Outcome State Fault Refusal := when (tapePlayEndReady h s) (tapePlayEndEffect h) s

end Sys2Proof.Machine
end

