-- ==== Sys2Proof/Machine/EngineRun.lean ====
section
/-! DEFINITION. Sys2Proof/Machine/EngineRun.lean: a command leaves its engine queue (R36, R142, R187, R440), what COPY, COPY.MC, RCALL, MBX.ADD, ACT
and PRE then do (R125 to R128, R275, R280, R285), and TOKEN_SIGNAL (R185). -/

namespace Sys2Proof.Machine

/-! ### Copies (R125 to R128) -/

/-- The elements of a copy in loop order: source and destination addresses (R126). -/
def copyElems (t : List Byte) (src dst : Word) : List (Word × Word) :=
  let at_ (lo : Nat) (i : Nat) : Word := BitVec.ofInt 64 ((i : Int) * sfield t lo 4)
  (List.range (field t 16 4)).flatMap (fun i2 => (List.range (field t 12 4)).flatMap (fun i1 => (List.range (field t 8 4)).map (fun i0 =>
    (src + at_ 24 i0 + at_ 28 i1 + at_ 32 i2, dst + at_ 36 i0 + at_ 40 i1 + at_ 44 i2))))

/-- Bytes of an element of a template (R125). -/
def copySize (t : List Byte) : Nat := 2 ^ bits (field t 0 8) 0 3

/-- Runs of elements that the copy cannot reach at its homes: a retired core, or a cluster whose cores are all retired (R127). -/
def State.copyHomeless (s : State) (rs : List Run) : List (BitVec 8 × Word) :=
  (rs.filter (fun r => (s.copyTarget r.2.1).isNone)).map (fun r => (0x05, BitVec.ofNat 64 r.1))

/-- The core whose agent serves a copy's source (R127) (DEDUCED, unsafe; log 35). -/
def State.copyOwner (s : State) (home pa : Nat) : Nat :=
  if region pa = 0 then paCore pa
  else if region pa = 1 ∧ paCluster pa ≠ clusterOf home then (s.poolAgent (paCluster pa)).getD home
  else home

/-- The sources or the destinations of a copy checked and translated (R36, R126, R127). -/
def State.checkCopy (s : State) (who : Asker) (a : Acc) (size : Nat) (vas : List Word) : State × Checks :=
  let t := s.checkLines who a 0 (vas.map (fun v => ⟨v, size, 0⟩))
  (t.1, { t.2 with faults := t.2.faults ++ t.1.copyHomeless t.2.runs })

/-- The copy's message sent to the agent of its source (R127, R128). -/
def State.sendCopy (s : State) (id : HartId) (c : Cmd) (src : List Run) (elems : List (Nat × Nat × Nat)) : Launching :=
  match src with
  | [] => (s, some (.ok (c.flight [] [])))
  | r :: _ =>
    let m := s.newMsg id .copyreq s.dev.devnum (s.copyOwner c.home r.2.1)
    (s.send { m with elems := elems, cmd := some c.seq, tk := c.tk, afterLoads := 0, afterSb := 0, relSb := [], relIds := [] } false,
     some (.ok { c.flight src [] with remote := true, parts := elems.length }))

/-- An element put into a list in ascending order of destination, before those of the same destination. -/
def insertElem (e : Nat × Nat × Nat) (es : List (Nat × Nat × Nat)) : List (Nat × Nat × Nat) :=
  match es with
  | [] => [e]
  | x :: r => if e.2.1 ≤ x.2.1 then e :: x :: r else x :: insertElem e r

/-- The elements of a copy in the order in which its source's agent takes them: of each element run, those that go to another stack come
last, in ascending order of destination (R127). -/
def State.copyOrder (s : State) (core n0 : Nat) (es : List (Nat × Nat × Nat)) : List (Nat × Nat × Nat) :=
  if es.any (s.copyFar core) then
    (List.range (es.length / max n0 1)).flatMap (fun k =>
      let run := (es.drop (k * n0)).take n0
      run.filter (fun e => !s.copyFar core e) ++ (run.filter (s.copyFar core)).foldr insertElem [])
  else es

/-- The units of an element of n bytes from one address to others: each aligned 8-byte word is read and written by itself, and is read once
for all receivers (R128, R134). -/
def copyUnits (n src : Nat) (dsts : List Nat) : List (Nat × Nat × Nat) :=
  (List.range (max (n / 8) 1)).flatMap (fun k => dsts.map (fun d => (src + 8 * k, d + 8 * k, min n 8)))

/-- COPY leaves its queue (R126, R127): its template is read now (R125). -/
def State.startCopy (s : State) (id : HartId) (c : Cmd) (slot : Nat) : Launching :=
  let t := (s.core c.home).template slot
  if tmplBad t then (s, some (.error (faultOf 0x02)))
  else
    let es := copyElems t c.va c.vb
    let n := copySize t
    match misaligned (es.flatMap (fun e => [(e.1, n), (e.2, n)])) with
    | some f => (s, some (.error f))
    | none =>
      let a := s.checkCopy (c.asker id) .copySrc n (es.map (·.1))
      let b := a.1.checkCopy (c.asker id) .copyDst n (es.map (·.2))
      (a.2.both b.2).settle b.1 (fun _ =>
        let elems := (a.2.runs.zip b.2.runs).map (fun p => (p.1.2.1, p.2.2.1, n))
        let es := b.1.copyOrder (b.1.copyOwner c.home ((a.2.runs.headD (0, 0, 0)).2.1)) (field t 8 4) elems
        b.1.sendCopy id c a.2.runs (es.flatMap (fun e => copyUnits e.2.2 e.1 [e.2.1])))

/-- The receivers of a multicast descriptor in rank order: cluster in the stack, and the core unless POOL (R128). -/
def mcReceivers (stack : Nat) (d : Word) : List (Nat × Option Nat) :=
  let span (lo hi : Nat) : List Nat := (List.range (wbits d hi 3 + 1)).filter (fun k => decide (wbits d lo 3 ≤ k))
  (span 3 9).flatMap (fun y => (span 0 6).flatMap (fun x =>
    let cl := stack * 64 + y * 8 + x
    if wbit d 26 then [(cl, none)]
    else ((List.range 8).filter (fun k => wbits d (12 + k) 1 == 1)).map (fun k => (cl, some (8 * cl + k)))))

/-- A descriptor that COPY.MC refuses (R128). -/
def mcBad (d : Word) : Bool :=
  decide (wbits d 6 3 < wbits d 0 3) || decide (wbits d 9 3 < wbits d 3 3) || wbits d 12 8 == 0 ||
  (wbit d 26 && decide (((List.range 8).filter (fun k => wbits d (12 + k) 1 == 1)).length ≠ 1)) || wbits d 27 5 != 0

/-- Whether a destination lies where its receiver has it (R128). -/
def mcLands (r : Nat × Option Nat) (pa : Nat) : Bool :=
  match r.2 with
  | some c => region pa == 0 && paCore pa == c
  | none => region pa == 1 && paCluster pa == r.1

/-- The core of a receiver that frees its tiles: with POOL, the one that CMASK names (R128, R129). -/
def mcHome (d : Word) (r : Nat × Option Nat) : Nat :=
  r.2.getD (8 * r.1 + ((List.range 8).find? (fun k => wbits d (12 + k) 1 == 1)).getD 0)

/-- The router next to one on the way to the root of a multicast tree, which goes along the root's row first (R128, R129). -/
def meshUp (root cl : Nat) : Nat :=
  if cl / 8 ≠ root / 8 then (if root / 8 < cl / 8 then cl - 8 else cl + 8)
  else if root < cl then cl - 1 else if cl < root then cl + 1 else cl

/-- The routers from one to the root of a tree. -/
def meshPath (root cl fuel : Nat) : List Nat :=
  match fuel with
  | 0 => [cl]
  | n + 1 => if cl = root then [cl] else cl :: meshPath root (meshUp root cl) n

/-- The children of a router in a tree: the cores of its cluster that free their tiles, and the routers next to it (R129). -/
def treeChildren (root cl : Nat) (routers homes : List Nat) : List Nat :=
  homes.filter (fun h => clusterOf h == cl) ++ (routers.filter (fun r => r != root && meshUp root r == cl)).map (2048 + ·)

/-- A combine entry of a router takes one tile more, or a new one is made; none when the router has none free (R129). -/
def State.combineAt (s : State) (core mbx root cl : Nat) (kids : List Nat) : Option State :=
  let es := (s.cluster cl).combine
  let more (e : Combine) : Combine :=
    { e with tiles := e.tiles + 1, queues := kids.foldl (fun t k => if t.has k then t else t.set k []) e.queues }
  if es.any (fun e => e.core == core && e.mbx == mbx) then
    some (s.modCluster cl (fun c => { c with combine := es.map (fun e => if e.core = core ∧ e.mbx = mbx then more e else e) }))
  else if 64 ≤ es.length then none
  else some (s.modCluster cl (fun c => { c with combine := es ++ [more ⟨core, mbx, if cl = root then none else some (meshUp root cl), [], 0⟩] }))

/-- Every router on the reverse tree of a tile takes it into its entry (R129); none when one of them has no entry free. -/
def State.combineTile (s : State) (core mbx : Nat) (homes : List Nat) : Option State :=
  let root := clusterOf core
  let routers := (homes.flatMap (fun h => meshPath root (clusterOf h) 14)).eraseDups
  routers.foldl (fun (r : Option State) cl => r.bind (fun s => s.combineAt core mbx root cl (treeChildren root cl routers homes))) (some s)

/-- The destinations of each receiver of a multicast checked and translated: its runs, and the failures, those that lie elsewhere than its
receiver has them among them (R36, R128). -/
def State.checkReceivers (s : State) (who : Asker) (size : Nat) (ds : List ((Nat × Option Nat) × List Word)) : State × List (List Run) × Checks :=
  match ds with
  | [] => (s, [], ⟨[], [], false⟩)
  | d :: r =>
    let t := s.checkCopy who .copyDst size d.2
    let stray := (t.2.runs.filter (fun x => !mcLands d.1 x.2.1)).map (fun x => ((0x05 : BitVec 8), BitVec.ofNat 64 x.1))
    let u := t.1.checkReceivers who size r
    (u.1, t.2.runs :: u.2.1, { t.2 with faults := t.2.faults ++ stray }.both u.2.2)

/-- COPY.MC leaves its queue (R128, R129): one copy to every receiver, each source element read once for all. -/
def State.startCopyMc (s : State) (id : HartId) (c : Cmd) (slot : Nat) : Launching :=
  let t := (s.core c.home).template slot
  let d := c.vd
  if tmplBad t || mcBad d then (s, some (.error (faultOf 0x02)))
  else
    let es := copyElems t c.va c.vb
    let n := copySize t
    let rs := mcReceivers (stackOf c.home) d
    let dsts := rs.zipIdx.map (fun r => (r.1, es.map (fun e => e.2 + BitVec.ofNat 64 (r.2 * wbits d 32 32))))
    match misaligned (es.map (fun e => (e.1, n)) ++ dsts.flatMap (fun x => x.2.map (fun v => (v, n)))) with
    | some f => (s, some (.error f))
    | none =>
      let a := s.checkCopy (c.asker id) .copySrc n (es.map (·.1))
      let b := a.1.checkReceivers (c.asker id) n dsts
      (a.2.both b.2.2).settle b.1 (fun _ =>
        let cols := b.2.1.foldr (fun rs acc => (rs.zip acc).map (fun p => p.1.2.1 :: p.2)) (es.map (fun _ => []))
        let elems := (a.2.runs.zip cols).flatMap (fun p => copyUnits n p.1.2.1 p.2)
        if elems.isEmpty then (b.1, some (.ok (c.flight [] [])))
        else
          match b.1.combineTile c.home (wbits d 20 6) (rs.map (mcHome d)) with
          | none => (b.1, none)
          | some u => u.sendCopy id c a.2.runs elems)

/-! ### Calls, increments, ACT and PRE -/

/-- RCALL leaves its queue (R280): a target that is no core of the fabric, or a retired one, faults the token. -/
def State.startRcall (s : State) (id : HartId) (c : Cmd) (hidx : BitVec 6) (rr : Bool) (rd : Reg) (ord : BitVec 2) : Launching :=
  let bad : Launching := ((s.freeFault 0x05).1, some (.error (s.freeFault 0x05).2))
  match coreId c.va with
  | none => bad
  | some (dev, core) =>
    if s.retiredHere dev core then bad
    else
      let m := s.newMsg id .rcall dev core
      (s.send { m with hidx := hidx.toNat, rr := rr, rreg := rd, ord := ord, args := c.args, afterLoads := 0, afterSb := 0, relSb := [], relIds := [],
                       cmd := if id.isCtx then none else some c.seq, tk := c.tk } false,
       some (.ok { c.flight [] [] with remote := true }))

/-- MBX.ADD leaves its queue (R122, R285). -/
def State.startMbxAdd (s : State) (id : HartId) (c : Cmd) : Launching :=
  match s.counterName c.va with
  | none => ((s.freeFault 0x05).1, some (.error (s.freeFault 0x05).2))
  | some n =>
    let m := s.newMsg id .mbxadd n.dev n.core
    (s.send { m with addr := c.va, data := c.vb &&& 0xFFFFFFFF, size := 4, ord := 2, cmd := some c.seq, tk := c.tk, afterLoads := 0, afterSb := 0, relSb := [], relIds := [] } false,
     some (.ok { c.flight [] [] with remote := true }))

/-- ACT or PRE leaves its queue (R50, R275, R276): the bank's queue accepts it. -/
def State.startRow (s : State) (id : HartId) (c : Cmd) (act : Bool) : Launching :=
  match s.check (c.asker id) .vault c.va with
  | (t, .fault k) => (t, some (.error (faultAt k c.va)))
  | (t, .walk) => (t, none)
  | (t, .ok x) => (t.askRow act x.pa, some (.ok (c.flight [] [])))

/-- TAPE.PLAY leaves its queue for the sequencer (R369). -/
def State.startPlay (s : State) (id : HartId) (c : Cmd) (tape : Nat) : Launching :=
  let p : Play := ⟨c.seq, tape, c.va.toNat, c.va.toNat, [], none, c.kickLoads, c.kickSb, c.kickMsg⟩
  (s.modHart id (fun h => h.modBusy (fun b => { b with plays := b.plays ++ [p] })), some (.ok { c.flight [] [] with remote := true }))

/-! ### ENGINE_QUEUE_LEAVE -/

/-- What a command does as it leaves its queue. -/
def State.startCmd (s : State) (id : HartId) (c : Cmd) : Launching :=
  match c.ins with
  | .copy _ _ _ _ _ t => s.startCopy id c t.toNat
  | .copyMc _ _ _ _ _ _ t => s.startCopyMc id c t.toNat
  | .rcall _ d _ _ _ hidx rr ord => s.startRcall id c hidx (rr == 1) d ord
  | .mbxAddEngine .. => s.startMbxAdd id c
  | .vpipe _ d _ _ _ _ rr flt => s.startPipe id c false (rr == 1) (flt == 1) d
  | .selq _ d _ _ _ _ rr flt => s.startPipe id c true (rr == 1) (flt == 1) d
  | .actEngine .. => s.startRow id c true
  | .preEngine .. => s.startRow id c false
  | .tapePlay _ _ _ _ t => s.startPlay id c t.toNat
  | .tapeSave _ _ _ _ t => s.startSave id c t.toNat
  | .tapeLoad _ _ _ _ t => s.startLoadTape id c t.toNat
  | _ => s.startMatrix id c

/-- The register that a command with RR = 1 fills (R280, R343). -/
def resultReg (i : Instr) : Option Reg :=
  match i with
  | .rcall _ d _ _ _ _ rr _ | .vpipe _ d _ _ _ _ rr _ | .selq _ d _ _ _ _ rr _ => if rr = 1 then some d else none
  | _ => none

/-- A faulted command with RR = 1 fills its register with the error value (R280, R348) (DEDUCED, unsafe; log 43). -/
def State.errorFill (s : State) (id : HartId) (i : Instr) : State :=
  match resultReg i with
  | some d => s.modHart id (fun h => h.fill d allOnes)
  | none => s

/-- Whether the pre-issue wait of a command is over: every command issued before it under its mask has signalled (R187). -/
def HartBusy.waited (b : HartBusy) (c : Cmd) : Bool := b.commands.all (fun e => !(decide (e.seq < c.seq) && c.wait.getLsbD e.tk.toNat))

/-- Whether the accesses before a command's kick are performed (R142). -/
def HartBusy.kicked (b : HartBusy) (c : Cmd) : Bool :=
  b.loads.all (fun l => decide (c.kickLoads ≤ l.num)) && b.sb.all (fun e => decide (c.kickSb ≤ e.num)) &&
  b.posted.all (fun p => decide (c.kickMsg ≤ p.id))

/-- A command out of its queue with how it started: the walks that answered it and its reads are used. -/
def State.takeOff (s : State) (id : HartId) (q : Nat) (f : Flight) : State :=
  (s.dropReads f.cmd.home (.cmd id f.cmd.seq)).modHart id (fun h => h.modBusy (fun b =>
    { b with queues := b.queues.set q ((b.queues.get q []).drop 1), flights := b.flights ++ [f]
             walked := b.walked.filter (fun w => w.cmd != some f.cmd.seq) }))

/-- ENGINE_QUEUE_LEAVE: the head of a queue leaves it once its waits are over; a fault that its wait observed and no WAITTK has
discharged for it is its own (R187); a call from a context is not waited for (R291) (DESIGN CHOICE, safe; log 88). A command that waits
for a walk, a bank or an entry stays (R35). -/
def State.queueLeave (s : State) (id : HartId) (q : Nat) : Option State :=
  let h := s.hart id
  match h.queue q with
  | [] => none
  | c :: _ =>
    if !h.busy.waited c || !h.busy.kicked c then none
    else if h.busy.observed c.seq c.wait then
      some ((s.takeOff id q { c.flight [] [] with fault := some (faultOf 0x09) }).errorFill id c.ins)
    else
      match s.startCmd id c with
      | (t, none) => s.unlessSame t
      | (t, some (.error f)) => some ((t.takeOff id q { c.flight [] [] with fault := some f }).errorFill id c.ins)
      | (t, some (.ok f)) =>
        let t := t.takeOff id q f
        some (match c.ins with
          | .rcall .. => if id.isCtx then t.signalCommand id c none else t
          | _ => t)

/-- ENGINE_QUEUE_LEAVE. -/
def execEngineQueueLeave (h : HartId) (q : Nat) (s : State) : Host.Outcome State Fault Refusal := .next ((s.queueLeave h q).getD s)

/-! ### TOKEN_SIGNAL -/

/-- What a matrix command that has not faulted before does as it signals (DEDUCED, unsafe; log 38). The end of an MMA is a boundary of the
array's turns (R324). -/
def State.matrixSignal (s : State) (id : HartId) (f : Flight) (n : Nat) : Ended :=
  let cl := clusterOf f.cmd.home
  let load : State := s.modSlot cl n (fun l => l.loaded f.cmd.ins false)
  match f.cmd.ins with
  | .tld .. | .tldP .. => .done load none
  | .wload _ _ _ _ _ _ src _ _ _ => if src = 0 then .done load none else s.matrixDone id f n
  | _ =>
    if f.turn ((s.cluster cl).slot n) then
      match s.takeTurn cl n with
      | none => .wait s
      | some t =>
        match t.matrixDone id f n with
        | .done u x => .done (u.turnBoundary cl) x
        | .moved u => .moved u
        | .wait _ => .wait s
    else s.matrixDone id f n

/-- What a command does at its signal (R185): its effect where that comes with the signal, and the fault it signals. -/
def State.lastEffect (s : State) (id : HartId) (f : Flight) : Ended :=
  if f.written then s.writeOut id f
  else
    match f.fault with
    | some x =>
      match f.cmd.slot with
      | some n => .done (s.modSlot (clusterOf f.cmd.home) n (fun l => if f.started then l.loaded f.cmd.ins true else l)) (some x)
      | none => .done s (some x)
    | none =>
      match f.cmd.ins, f.cmd.slot with
      | .tapeSave _ _ _ _ t, _ => s.saveDone id f t.toNat
      | .tapeLoad _ _ _ _ t, _ => s.loadDone id f t.toNat
      | _, some n => s.matrixSignal id f n
      | _, none => .done s none

/-- TOKEN_SIGNAL: a command whose work is done, or that has faulted, signals once what R332 orders before it has. A TAPE.PLAY
signals as its replay ends (R373). -/
def State.tokenSignal (s : State) (id : HartId) (seq : Nat) : Option State :=
  match (s.hart id).busy.flights.find? (fun f => f.cmd.seq == seq) with
  | none => none
  | some f =>
    if f.remote || (f.fault.isNone && !f.segs.isEmpty) || !(s.hart id).bufClear f.cmd then none
    else match s.lastEffect id f with
      | .done t x => some (t.signalCommand id f.cmd x)
      | .moved t => some t
      | .wait t => s.unlessSame t

/-- TOKEN_SIGNAL. -/
def execTokenSignal (h : HartId) (seq : Nat) (s : State) : Host.Outcome State Fault Refusal := .next ((s.tokenSignal h seq).getD s)

end Sys2Proof.Machine
end

