-- ==== Sys2Proof/Machine/Fps.lean ====
section
/-! DEFINITION. Sys2Proof/Machine/Fps.lean: the scalar FP32 instructions (R301 to R303), which read the low 32 bits of their registers,
round by FCSR, raise FCSR's flags and write zero above an FP32 result (R207). -/

namespace Sys2Proof.Machine

/-- The FP32 value that a register holds (R207). -/
def low32 (v : Word) : Nat := bits v.toNat 0 32

/-- rd and the flags of FCSR written, and the instruction completed. -/
def writeF (ik : Code) (hd : Head) (d : Reg) (r : Nat × Flags) (s : State) : State :=
  writeRd ik hd d (BitVec.ofNat 64 r.1) (addFcsr r.2 s)

/-- A form with two sources. -/
def fp2 (ik : Code) (hd : Head) (d a b : Reg) (f : FEnv → Word → Word → Nat × Flags) (s : State) : State :=
  issue ik hd 0 true [.x a, .x b] [.x d] (fun s => writeF ik hd d (f (csrEnv s.me.csr.fcsr) (s.rx a) (s.rx b)) s) s

/-- A form with one source. -/
def fp1 (ik : Code) (hd : Head) (d a : Reg) (f : FEnv → Word → Nat × Flags) (s : State) : State :=
  issue ik hd 0 true [.x a] [.x d] (fun s => writeF ik hd d (f (csrEnv s.me.csr.fcsr) (s.rx a)) s) s

/-- An FMA4 form (R303): np and nc negate the product and the addend; an exact zero sum is +0 unless both addends are −0
(R202). -/
def fp3 (ik : Code) (hd : Head) (d a b c : Reg) (np nc : Bool) (s : State) : State :=
  issue ik hd 0 true [.x a, .x b, .x c] [.x d] (fun s =>
    writeF ik hd d (Fmt.f32.fma (csrEnv s.me.csr.fcsr) false np nc (low32 (s.rx a)) (low32 (s.rx b)) (low32 (s.rx c))) s) s

/-- A comparison's result as an integer. -/
def boolF (r : Bool × Flags) : Nat × Flags := (b2n r.1, r.2)

/-- The sign injections: a with a sign bit (R301). -/
def withSign (a sign : Nat) : Nat := a % 2 ^ 31 + sign % 2 * 2 ^ 31

/-- FADD.S (R301). -/
def execFaddS (hd : Head) (d a b : Reg) (s : State) : Host.Outcome State Fault Refusal :=
  .next (fp2 (codeOf (.faddS hd d a b)) hd d a b (fun v x y => Fmt.f32.add v (low32 x) (low32 y)) s)

/-- FSUB.S (R301). -/
def execFsubS (hd : Head) (d a b : Reg) (s : State) : Host.Outcome State Fault Refusal :=
  .next (fp2 (codeOf (.fsubS hd d a b)) hd d a b (fun v x y => Fmt.f32.sub v (low32 x) (low32 y)) s)

/-- FMUL.S (R301). -/
def execFmulS (hd : Head) (d a b : Reg) (s : State) : Host.Outcome State Fault Refusal :=
  .next (fp2 (codeOf (.fmulS hd d a b)) hd d a b (fun v x y => Fmt.f32.mul v (low32 x) (low32 y)) s)

/-- FDIV.S (R301). -/
def execFdivS (hd : Head) (d a b : Reg) (s : State) : Host.Outcome State Fault Refusal :=
  .next (fp2 (codeOf (.fdivS hd d a b)) hd d a b (fun v x y => Fmt.f32.div v (low32 x) (low32 y)) s)

/-- FSQRT.S (R301). -/
def execFsqrtS (hd : Head) (d a : Reg) (s : State) : Host.Outcome State Fault Refusal :=
  .next (fp1 (codeOf (.fsqrtS hd d a)) hd d a (fun v x => Fmt.f32.sqrt v (low32 x)) s)

/-- FMIN.S (R302). -/
def execFminS (hd : Head) (d a b : Reg) (s : State) : Host.Outcome State Fault Refusal :=
  .next (fp2 (codeOf (.fminS hd d a b)) hd d a b (fun v x y => Fmt.f32.minmax v false (low32 x) (low32 y)) s)

/-- FMAX.S (R302). -/
def execFmaxS (hd : Head) (d a b : Reg) (s : State) : Host.Outcome State Fault Refusal :=
  .next (fp2 (codeOf (.fmaxS hd d a b)) hd d a b (fun v x y => Fmt.f32.minmax v true (low32 x) (low32 y)) s)

/-- FEQ.S (R301). -/
def execFeqS (hd : Head) (d a b : Reg) (s : State) : Host.Outcome State Fault Refusal :=
  .next (fp2 (codeOf (.feqS hd d a b)) hd d a b (fun v x y => boolF (Fmt.f32.eq v (low32 x) (low32 y))) s)

/-- FLT.S (R301). -/
def execFltS (hd : Head) (d a b : Reg) (s : State) : Host.Outcome State Fault Refusal :=
  .next (fp2 (codeOf (.fltS hd d a b)) hd d a b (fun v x y => boolF (Fmt.f32.lt v (low32 x) (low32 y))) s)

/-- FLE.S (R301). -/
def execFleS (hd : Head) (d a b : Reg) (s : State) : Host.Outcome State Fault Refusal :=
  .next (fp2 (codeOf (.fleS hd d a b)) hd d a b (fun v x y => boolF (Fmt.f32.le v (low32 x) (low32 y))) s)

/-- FCLASS.S (R302). -/
def execFclassS (hd : Head) (d a : Reg) (s : State) : Host.Outcome State Fault Refusal :=
  .next (fp1 (codeOf (.fclassS hd d a)) hd d a (fun _ x => (fclassWord (low32 x), 0)) s)

/-- FCVT.S.L (R301, R210). -/
def execFcvtSL (hd : Head) (d a : Reg) (s : State) : Host.Outcome State Fault Refusal :=
  .next (fp1 (codeOf (.fcvtSL hd d a)) hd d a (fun v x => convFromInt Fmt.f32 v x.toInt) s)

/-- FCVT.S.LU (R301, R210). -/
def execFcvtSLu (hd : Head) (d a : Reg) (s : State) : Host.Outcome State Fault Refusal :=
  .next (fp1 (codeOf (.fcvtSLu hd d a)) hd d a (fun v x => convFromInt Fmt.f32 v x.toNat) s)

/-- FCVT.L.S (R301, R210). -/
def execFcvtLS (hd : Head) (d a : Reg) (s : State) : Host.Outcome State Fault Refusal :=
  .next (fp1 (codeOf (.fcvtLS hd d a)) hd d a (fun v x =>
    let r := convToInt Fmt.f32 v (-(2 : Int) ^ 63) ((2 : Int) ^ 63 - 1) (low32 x)
    ((BitVec.ofInt 64 r.1).toNat, r.2)) s)

/-- FCVT.LU.S (R301, R210). -/
def execFcvtLuS (hd : Head) (d a : Reg) (s : State) : Host.Outcome State Fault Refusal :=
  .next (fp1 (codeOf (.fcvtLuS hd d a)) hd d a (fun v x =>
    let r := convToInt Fmt.f32 v 0 ((2 : Int) ^ 64 - 1) (low32 x)
    ((BitVec.ofInt 64 r.1).toNat, r.2)) s)

/-- FSGNJ.S (R301). -/
def execFsgnjS (hd : Head) (d a b : Reg) (s : State) : Host.Outcome State Fault Refusal :=
  .next (fp2 (codeOf (.fsgnjS hd d a b)) hd d a b (fun _ x y => (withSign (low32 x) (bits y.toNat 31 1), 0)) s)

/-- FSGNJN.S (R301). -/
def execFsgnjnS (hd : Head) (d a b : Reg) (s : State) : Host.Outcome State Fault Refusal :=
  .next (fp2 (codeOf (.fsgnjnS hd d a b)) hd d a b (fun _ x y => (withSign (low32 x) (bits y.toNat 31 1 + 1), 0)) s)

/-- FSGNJX.S (R301). -/
def execFsgnjxS (hd : Head) (d a b : Reg) (s : State) : Host.Outcome State Fault Refusal :=
  .next (fp2 (codeOf (.fsgnjxS hd d a b)) hd d a b
    (fun _ x y => (withSign (low32 x) (bits x.toNat 31 1 + bits y.toNat 31 1), 0)) s)

/-- FMADD.S (R303). -/
def execFmaddS (hd : Head) (d a b c : Reg) (s : State) : Host.Outcome State Fault Refusal :=
  .next (fp3 (codeOf (.fmaddS hd d a b c)) hd d a b c false false s)

/-- FMSUB.S (R303). -/
def execFmsubS (hd : Head) (d a b c : Reg) (s : State) : Host.Outcome State Fault Refusal :=
  .next (fp3 (codeOf (.fmsubS hd d a b c)) hd d a b c false true s)

/-- FNMADD.S (R303). -/
def execFnmaddS (hd : Head) (d a b c : Reg) (s : State) : Host.Outcome State Fault Refusal :=
  .next (fp3 (codeOf (.fnmaddS hd d a b c)) hd d a b c true true s)

/-- FNMSUB.S (R303). -/
def execFnmsubS (hd : Head) (d a b c : Reg) (s : State) : Host.Outcome State Fault Refusal :=
  .next (fp3 (codeOf (.fnmsubS hd d a b c)) hd d a b c true false s)

end Sys2Proof.Machine
end

