-- ==== Sys2Proof/Machine/RegEvents.lean ====
section
/-! DEFINITION. Sys2Proof/Machine/RegEvents.lean: writes that management, a function's register BAR or supervisor code make to registers through
the window, as events (R110, R116, R262, R378 to R380, R394, R396, R403 to R405, R413), and the delivery of notices (R118). -/

namespace Sys2Proof.Machine

/-! ### Hardware queues (R378 to R380) -/

/-- A hardware queue exists. -/
def queueOk (q : Nat) : Bool := decide (q < 64)

/-- HQTAIL: the doorbell (R378). -/
def execHqtail (q : Nat) (v : Word) (s : State) : Host.Outcome State Fault Refusal := when (queueOk q) (fun s => s.hqtailSet q v) s

/-- HQ_ENABLE: HQCTL written with EN = 1 (R380). -/
def execHqEnable (q : Nat) (v : Word) (s : State) : Host.Outcome State Fault Refusal :=
  when (queueOk q && wbit v 0) (fun s => s.hqctlSet q v) s

/-- HQ_DISABLE: HQCTL written with EN = 0 (R380). -/
def execHqDisable (q : Nat) (v : Word) (s : State) : Host.Outcome State Fault Refusal :=
  when (queueOk q && !wbit v 0) (fun s => s.hqctlSet q v) s

/-- HQSTAT_CLR: CLR written to HQSTAT (R379). -/
def execHqstatClr (q : Nat) (s : State) : Host.Outcome State Fault Refusal := when (queueOk q) (fun s => s.hqstatClear q) s

/-! ### Slots and cores -/

/-- PREEMPT_REQ: REQ of a slot's PREEMPT set (R396). -/
def execPreemptReq (h : HartId) (s : State) : Host.Outcome State Fault Refusal :=
  .next (s.preemptSet h true (wbit (s.hart h).csr.preempt 1))

/-- PREEMPT_KILL: KILL of a slot's PREEMPT set (R396). -/
def execPreemptKill (h : HartId) (s : State) : Host.Outcome State Fault Refusal :=
  .next (s.preemptSet h (wbit (s.hart h).csr.preempt 0) true)

/-- SLOTCTL_RESTART (R394). -/
def execSlotctlRestart (h : HartId) (s : State) : Host.Outcome State Fault Refusal := .next (s.restart h)

/-- HTBASE_WRITE (R110): it waits while the vault cannot accept the images. -/
def execHtbaseWrite (core : Nat) (v : Word) (s : State) : Host.Outcome State Fault Refusal := .next ((s.htbaseSet core v).getD s)

/-- MSGERR_WRITE (R116). -/
def execMsgerrWrite (h : HartId) (s : State) : Host.Outcome State Fault Refusal := .next (s.msgerrClear h)

/-- VAULTEVT_WRITE (R75). -/
def execVaultevtWrite (core : Nat) (v : Word) (s : State) : Host.Outcome State Fault Refusal := .next (s.vaultevtSet core v)

/-- AQSTAT_WRITE (R107). -/
def execAqstatWrite (core : Nat) (v : Word) (s : State) : Host.Outcome State Fault Refusal := .next (s.aqstatSet core v)

/-- SPILL_CONFIG_WRITE: SPILLQUOTA or SPILLBASE written (R107). -/
def execSpillConfigWrite (core : Nat) (quota : Bool) (v : Word) (s : State) : Host.Outcome State Fault Refusal :=
  .next (s.spillSet core quota v)

/-- CLKSTEP_WRITE (R413). -/
def execClkstepWrite (cluster : Nat) (v : Word) (s : State) : Host.Outcome State Fault Refusal := .next (s.clkstepSet cluster v)

/-- A write that a register takes, or leaves it as it is while it cannot (DEDUCED, unsafe; log 15). -/
def WRes.stateOr (r : WRes) (s : State) : State :=
  match r with
  | .ok t => t
  | _ => s

/-- REGISTER_WRITE: a whole register written at management level under its field rules (R262). An address at which no register
stands is a fault. -/
def execRegisterWrite (pa : Nat) (v : Word) (s : State) : Host.Outcome State Fault Refusal :=
  match (if region pa = 4 ∧ pa % 8 = 0 then mmioReg pa else none) with
  | none => .fault (.noSuchRegister pa)
  | some r => .next ((s.mmioSet r v).stateOr s)

/-! ### Checkpoints and snapshots (R403 to R405) -/

/-- CKPT_ENABLE: CKPTCTL written (R403). -/
def execCkptEnable (v : Word) (s : State) : Host.Outcome State Fault Refusal := .next (s.ckptctlSet v)

/-- CKPT_CLOSE: CLOSE written while logging is on (R403, R404). -/
def execCkptClose (s : State) : Host.Outcome State Fault Refusal := when s.dev.ckptEn State.closeInterval s

/-- Clk in a microsecond (R4). -/
def usClk : Nat := 1050

/-- INTERVAL_TIMER can happen: INTUS has elapsed since the interval began. -/
def intervalTimerReady (s : State) : Bool := s.dev.ckptEn && decide (s.dev.ckptClk + s.dev.ckptUs * usClk ≤ s.clk)

/-- INTERVAL_TIMER (R404). -/
def execIntervalTimer (s : State) : Host.Outcome State Fault Refusal := when (intervalTimerReady s) State.closeInterval s

/-- LOG_THRESHOLD can happen: a vault's log has reached seven-eighths of LEN, in units of 64 KB. -/
def logThresholdReady (core : Nat) (s : State) : Bool :=
  s.dev.ckptEn && decide (7 * s.dev.ckptLen * 65536 ≤ 8 * 128 * (s.vault core).ckpt.length)

/-- LOG_THRESHOLD (R404). -/
def execLogThreshold (core : Nat) (s : State) : Host.Outcome State Fault Refusal := when (logThresholdReady core s) State.closeInterval s

/-- SNAP_WRITE: bit 0 of SNAP written (R405). -/
def execSnapWrite (stack : Nat) (s : State) : Host.Outcome State Fault Refusal := .next (s.snapSet stack 1)

/-! ### Notices (R118) -/

/-- SUPERVISOR_NOTICE: the oldest notice of a stack's management channel is delivered (R118). -/
def supervisorNoticeEffect (k : Nat) (s : State) : State :=
  match (s.stk k).notices with
  | [] => s
  | n :: r => s.modStk k (fun t => { t with notices := r, delivered := t.delivered ++ [n] })

/-- SUPERVISOR_NOTICE. -/
def execSupervisorNotice (n : Nat) (s : State) : Host.Outcome State Fault Refusal :=
  when (!(s.stk n).notices.isEmpty) (supervisorNoticeEffect n) s

end Sys2Proof.Machine
end

