-- ==== Sys2Proof/Machine/Reliability.lean ====
section
/-! DEFINITION. Sys2Proof/Machine/Reliability.lean: counted errors and retirement (R401), lockstep mismatches (R402), rollback (R404) and the links
(R400, R401, R408). -/

namespace Sys2Proof.Machine

/-! ### Counted errors (R401) -/

/-- Clk in a second (R4). -/
def secClk : Nat := 1050000000

/-- ERROR_EVENT (R401): the event is counted against its unit; the THRESH-th within WIN seconds makes the fault lasting
(DEDUCED, unsafe; log 64). -/
def errorEventEffect (u : UnitId) (s : State) : State :=
  let ts := ((s.dev.errors.get u []) ++ [s.clk]).filter (fun t => decide (s.clk ≤ t + s.dev.cfg.win * secClk))
  let lasting := decide (s.dev.cfg.thresh ≤ ts.length)
  s.modDev (fun d =>
    { d with errors := d.errors.set u ts, lasting := if lasting && !d.lasting.contains u then d.lasting ++ [u] else d.lasting })

/-- ERROR_EVENT. -/
def execErrorEvent (u : UnitId) (s : State) : Host.Outcome State Fault Refusal := .next (errorEventEffect u s)

/-- Whether a hart holds nothing: no unit, no context, no command. -/
def Hart.free (h : Hart) : Bool := (h.st == .idle || h.st == .saved) && h.busy.commands.isEmpty

/-- An idle point of a core (R401): its slots and contexts idle, its agent and its pipeline without work. -/
def State.coreIdle (s : State) (core : Nat) : Bool :=
  (s.threadsAt core ++ ctxsOf core).all (fun h => (s.hart h).free) && (s.core core).ondie.isEmpty && (s.core core).ring.isEmpty &&
  (s.core core).serving.isEmpty && (s.vault core).jobs.isEmpty

/-- An idle point of a cluster's engines: both lease slots free. -/
def State.engineIdle (s : State) (cl : Nat) : Bool := [0, 1].all (fun n => ((s.cluster cl).slot n).st == .free)

/-- UNIT_RETIRE can happen: the fault is lasting and the unit stands at an idle point. -/
def unitRetireReady (u : UnitId) (s : State) : Bool :=
  s.dev.lasting.contains u &&
  (match u with
   | .core c => s.coreIdle c
   | .engine cl => s.engineIdle cl
   | _ => false)

/-- UNIT_RETIRE (R401): numbering is kept, and addresses naming a retired core are malformed (R16). -/
def unitRetireEffect (u : UnitId) (s : State) : State :=
  match u with
  | .core c => s.modCore c (fun k => { k with retired := true })
  | .engine cl => s.modCluster cl (fun c => { c with engRetired := true })
  | _ => s

/-- UNIT_RETIRE. -/
def execUnitRetire (u : UnitId) (s : State) : Host.Outcome State Fault Refusal := when (unitRetireReady u s) (unitRetireEffect u) s

/-! ### Rollback (R404) -/

/-- The launches of a stack that belong to a context (R395). -/
def State.contextLaunches (s : State) (k ccb : Nat) : List Nat :=
  (((s.stk k).launches.filter (fun (e : Nat × Launch) => e.2.item.used && e.2.item.ccb == ccb)).map (·.1))

/-- Whether a unit is one of a context. -/
def State.unitOf (s : State) (ccb : Nat) (h : Hart) : Bool :=
  match h.unit with
  | some (k, l, _) => (s.launchOf k l).item.ccb == ccb && h.st != .idle && h.st != .saved
  | none => false

/-- The harts on which a context's units run. -/
def State.contextHarts (s : State) (ccb : Nat) : List HartId := (s.harts.filter (fun (e : HartId × Hart) => s.unitOf ccb e.2)).map (·.1)

/-- The four stacks. -/
def allStacks : List Nat := [0, 1, 2, 3]

/-- Every item of a context that is not DONE is cancelled (R163, R404). -/
def State.cancelContext (s : State) (ccb : Nat) : State :=
  allStacks.foldl (fun s k =>
    let t := s.stk k
    let ids (tb : Nat) (l : List Nat) : List (Nat × Nat) :=
      (l.filter (fun i => (s.item k tb i).used && (s.item k tb i).ccb == ccb && (s.item k tb i).st != .done)).map (fun i => (tb, i))
    let all := ids 3 (t.jobs.map (·.1)) ++ ids 2 (t.phases.map (·.1)) ++ ids 1 (t.graphs.map (·.1)) ++ ids 0 (t.launches.map (·.1))
    all.foldl (fun s p => if (s.item k p.1 p.2).st = .done then s else s.cancelItem k p.1 p.2) s) s

/-- Whether a unit has nothing under way that could still write. -/
def Hart.writesDone (h : Hart) : Bool :=
  h.busy.flights.isEmpty && h.busy.sb.isEmpty && h.busy.loads.isEmpty && h.busy.commit.isNone && h.busy.posted.isEmpty &&
  (match h.busy.xact with | some x => x.settled | none => true)

/-- The address spaces of a context: those of its launches and of its units (R395, R404). -/
def State.rollAsids (s : State) (ccb : Nat) : List (BitVec 12) :=
  (allStacks.flatMap (fun k => (s.contextLaunches k ccb).map (fun l => (s.launchOf k l).ptroot.extractLsb' 4 12)) ++
    (s.contextHarts ccb).map (fun h => (s.hart h).asid)).eraseDups

/-- ROLLBACK can happen: the context is to be rolled back, what its units have under way is done, no interval is closing, and no row of a
line to be written back is under repair (R404, R414) (DEDUCED, unsafe; log 66). -/
def rollbackReady (ccb : Nat) (why : RollCause) (s : State) : Bool :=
  s.dev.rolls.contains (ccb, why) && s.dev.closing.isNone && (s.contextHarts ccb).all (fun h => (s.hart h).writesDone) &&
  (let asids := s.rollAsids ccb
   s.vaults.all (fun (e : Nat × Vault) => e.2.ckpt.all (fun c =>
     !asids.contains c.asid || !(s.bank e.1 (bankOf (paOff c.pa))).underRepair (rowOf (paOff c.pa)))))

/-- A logged line written back: what the write buffer holds of it goes (R404). -/
def State.writeBack (s : State) (e : CkptEnt) : State :=
  let core := paCore e.pa
  let line := paOff e.pa / 64
  ((s.dropReads core (.drain line)).modVault core (fun v => { v with wbuf := v.wbuf.filter (fun l => l.line != line) })).writeMem e.pa e.old

/-- ROLLBACK (R404): the context's items are cancelled and its units killed, each vault writes back newest first, and the
supervisor of each stack that holds the context's launches is told NUM. -/
def rollbackEffect (ccb : Nat) (s : State) : State :=
  let told := allStacks.filter (fun k => !(s.contextLaunches k ccb).isEmpty)
  let asids := s.rollAsids ccb
  let hs := s.contextHarts ccb
  let s := s.cancelContext ccb
  let s := hs.foldl (fun s h => s.killUnit h 0) s
  let s := s.vaults.foldl (fun (s : State) (e : Nat × Vault) =>
    (e.2.ckpt.reverse.filter (fun c => asids.contains c.asid)).foldl (fun s c => s.writeBack c) s) s
  let s := told.foldl (fun s k => s.notify k (.rollback s.dev.ckptNum.toNat)) s
  s.modDev (fun d => { d with rolls := d.rolls.filter (fun e => e.1 != ccb) })

/-- ROLLBACK. -/
def execRollback (ccb : Nat) (why : RollCause) (s : State) : Host.Outcome State Fault Refusal := when (rollbackReady ccb why s) (rollbackEffect ccb) s

/-! ### Lockstep (R402) -/

/-- Whether a hart runs a unit of a context under lockstep (R395, R402, R411). -/
def State.lockstepUnit (s : State) (h : Hart) : Option Nat :=
  match h.unit with
  | some (k, l, _) =>
    let ccb := (s.launchOf k l).item.ccb
    if s.dev.cfg.lockstep && bits (s.readNum ccb 8) 0 1 == 1 then some ccb else none
  | none => none

/-- The contexts under lockstep whose units run in a cluster. -/
def State.lockstepIn (s : State) (cl : Nat) : List Nat :=
  ((((coresOf cl).map threadsOf).flatten).filterMap (fun h => s.lockstepUnit (s.hart h))).eraseDups

/-- Clk by which the trailer of a pair is behind its leader (R402). -/
def trailClk : Nat := 2

/-- A commit that has been compared, and agrees, is done with (R402). -/
def Trail.agreed (t : Trail) (clk : Nat) : Bool := decide (t.due ≤ clk) && t.lead == t.trail

/-- What a hart of a leader has committed with an instruction, for its trailer, which executes the same on the same inputs 2 clk later
(R402) (DESIGN CHOICE, unsafe; log 65). -/
def State.noteCommit (s : State) (id : HartId) : State :=
  let h := s.hart id
  if clusterOf id.core % 2 = 0 ∧ id.kind = .thread ∧ (s.lockstepUnit h).isSome = true then
    s.modCluster (clusterOf id.core) (fun c =>
      { c with trail := c.trail.filter (fun t => !t.agreed s.clk) ++ [⟨id, s.clk + trailClk, h, h⟩] })
  else s

/-- An error in one cluster of a pair: an x register of the trailer differs in a commit that has not been compared (R402). -/
def State.trailError (s : State) (cl n : Nat) (r : Reg) (v : Word) : State :=
  s.modCluster cl (fun c =>
    { c with trail := c.trail.modify n (fun t => if s.clk < t.due then { t with trail := { t.trail with x := t.trail.x.set r v } } else t) })

/-- The slots of a cluster frozen as they stand. -/
def State.haltCluster (s : State) (cl : Nat) : State :=
  let s := s.modCluster cl (fun c => { c with halted := true, trail := [] })
  (((coresOf cl).map threadsOf).flatten).foldl (fun s h => s.modHart h (fun x => if x.st = .running then { x with st := .frozen } else x)) s

/-- LOCKSTEP_MISMATCH can happen: a commit of the cluster, which leads a pair, is compared and differs. -/
def lockstepMismatchReady (cl : Nat) (s : State) : Bool :=
  decide (cl < 256) && cl % 2 == 0 && (s.cluster cl).trail.any (fun t => decide (t.due ≤ s.clk) && t.lead != t.trail)

/-- LOCKSTEP_MISMATCH (R402): both clusters halt, a machine check goes to management, and the contexts under lockstep there are rolled back:
their items are cancelled now, and ROLLBACK does the rest (DESIGN CHOICE, unsafe; log 65). -/
def lockstepMismatchEffect (cl : Nat) (s : State) : State :=
  let cs := s.lockstepIn cl
  let s := (s.haltCluster cl).haltCluster (cl + 1)
  let s := s.machineCheck (8 * cl) 0
  cs.foldl (fun s c => (s.cancelContext c).noteRoll c .lockstep) s

/-- LOCKSTEP_MISMATCH. -/
def execLockstepMismatch (cluster : Nat) (s : State) : Host.Outcome State Fault Refusal :=
  when (lockstepMismatchReady cluster s) (lockstepMismatchEffect cluster) s

/-! ### Links (R400, R401, R408) -/

/-- The state with a port changed. -/
def State.modPort (s : State) (p : Nat) (f : Port → Port) : State :=
  s.modDev (fun d => { d with ports := d.ports.set p (f (d.ports.get p Port.reset)) })

/-- LINK_RETRY: a flit is sent again and counted (R400, R408). -/
def execLinkRetry (port : Nat) (s : State) : Host.Outcome State Fault Refusal := .next (s.modPort port (fun t => { t with retry := t.retry + 1 }))

/-- LINK_DOWN (R408): messages on their way to a device that is no longer reached are answered with cause 0x0D (R130). -/
def linkDownEffect (port : Nat) (s : State) : State :=
  let s := s.modPort port (fun t => { t with st := 0, peer := 0xFFFF })
  let lost := s.dev.net.filter (fun m => !s.reachable m.dev)
  let s := s.modDev (fun d => { d with net := d.net.filter (fun m => s.reachable m.dev) })
  lost.foldl (fun s m => s.nackMsg m 0x0D 0) s

/-- LINK_DOWN. -/
def execLinkDown (port : Nat) (s : State) : Host.Outcome State Fault Refusal := .next (linkDownEffect port s)

/-- LINK_RETRAIN can happen: the port is up, and one of its lanes has a lasting fault without which it does not train yet (R401). -/
def linkRetrainReady (port : Nat) (s : State) : Bool :=
  decide (2 ≤ (s.dev.ports.get port Port.reset).st.toNat) &&
  s.dev.lasting.any (fun u => match u with | .lane p _ => p == port | _ => false)

/-- LINK_RETRAIN (R401): the link trains again, without the lane. -/
def execLinkRetrain (port : Nat) (s : State) : Host.Outcome State Fault Refusal :=
  when (linkRetrainReady port s) (fun s => s.modPort port (fun t => { t with st := 1, narrow := true })) s

/-- A port that is down begins to train (R408). -/
def State.train (s : State) (port : Nat) : State :=
  s.modPort port (fun t => if t.st = 0 then { t with st := 1 } else t)

/-- PORT_UP (R401, R408): a port that has trained comes up with its peer's number, at reduced width where it does without a lane. -/
def execPortUp (port : Nat) (peer : BitVec 16) (s : State) : Host.Outcome State Fault Refusal :=
  when ((s.dev.ports.get port Port.reset).st == 1) (fun s => s.modPort port (fun t => { t with st := if t.narrow then 3 else 2, peer := peer })) s

end Sys2Proof.Machine
end

