-- ==== Sys2Proof/Machine/HostLink.lean ====
section
/-! DEFINITION. Sys2Proof/Machine/HostLink.lean: requests that reach the device from a host function or a peer (R122, R148, R378, R403, R407), and
the management interfaces (R409 to R411). -/

namespace Sys2Proof.Machine

/-! ### Host requests (R148, R407) -/

/-- Whether a function may reach a register through its BAR: the registers of its own queues (R378, R407), and for the physical
function, number 0, those of checkpointing (R403). -/
def State.barReg (s : State) (src : Nat) (r : MmioReg) : Bool :=
  match r with
  | .hq q _ => s.dev.cfg.queueFn.getD q 0 == src
  | .ckptctl | .ckptlog => src == 0
  | _ => false

/-- A register that a function reaches at an address. -/
def State.barAt (s : State) (src pa n : Nat) : Option MmioReg :=
  if region pa = 4 ∧ pa % 8 = 0 ∧ n = 8 then (mmioReg pa).bind (fun r => if s.barReg src r then some r else none) else none

/-- An increment of a counter by a host function (R122): 4 bytes at the counter's address, as an MBXADD on its link; what its record
names as its sender is not stated (DESIGN CHOICE, unsafe; log 116). None while it cannot arrive. -/
def State.hostAdd (s : State) (src pa : Nat) (bs : List Byte) : Option State :=
  match s.counterName (BitVec.ofNat 64 pa) with
  | none => some s
  | some n =>
    if bs.length ≠ 4 ∨ s.ownDev n.dev = false then some s
    else
      let m := s.newMsg ⟨.mgmt, 0, 0⟩ .mbxadd n.dev n.core
      s.fromLink { m with org := .host src, addr := BitVec.ofNat 64 pa, data := BitVec.ofNat 64 (ofBytes bs), size := 4, ord := 2, asid := 0,
                          epoch := 0, seq := 0, relSb := [], relIds := [] }

/-- A request of n bytes that one PCIe packet can carry: within the physical address space and within 4 KB (DEDUCED, unsafe; log 71). -/
def packetOk (pa n : Nat) : Bool := decide (pa < 2 ^ 48) && decide (pa % 4096 + n ≤ 4096)

/-- The core to which a write of a host function to a vault or a pool goes: the vault's, and the first of the pool's cluster. -/
def hostTarget (pa : Nat) : Nat := if region pa = 1 then 8 * paCluster pa else paCore pa

/-- Whether an increment of a function for the core to which a write of it goes has arrived there and is not performed: the posted writes of a
function to a core are executed in their order of arrival (R148). -/
def State.hostBehind (s : State) (src pa : Nat) : Bool :=
  let c := s.core (hostTarget pa)
  decide (region pa < 2) && (c.ondie ++ c.ring ++ c.serving).any (fun m => m.org == .host src)

/-- A posted write of a host function or a peer (R148): to a vault or a pool, a counter, a register of the function, or host
memory. One that the device does not serve is dropped. None while its home cannot accept it, or it has to wait for an earlier write of the
function (DESIGN CHOICE, safe; log 72). A function's accesses to a pool go through the port of the first core's agent (DESIGN CHOICE,
unsafe; log 132). -/
def State.hostWrite (s : State) (src pa : Nat) (bs : List Byte) : Option State :=
  if s.hostBehind src pa then none
  else if region pa = 4 then some (match s.barAt src pa bs.length with | some r => (s.mmioSet r (BitVec.ofNat 64 (ofBytes bs))).stateOr s | none => s)
  else if region pa = 2 then s.hostAdd src pa bs
  else if s.malformed pa then some s
  else if region pa = 0 then s.storeBytes (agentPort (paCore pa)) pa bs (agentWriter (paCore pa))
  else if region pa = 1 then s.storeBytes (agentPort 0) pa bs (agentWriter (8 * paCluster pa))
  else if 8 ≤ region pa then s.storeBytes (agentPort 0) pa bs (agentWriter 0)
  else some s

/-- The held lines that a write from outside the device meets, which measure its wait (R152). -/
def State.outsideWaits (s : State) (src pa n : Nat) : State :=
  if s.hostBehind src pa || !s.heldAt pa n then s
  else s.modVault (paCore pa) (fun v =>
    { v with locks := v.locks.map (fun l => if paOff pa / 64 ≤ l.line ∧ l.line * 64 < paOff pa + n then { l with outside := true } else l) })

/-- HOST_WRITE. -/
def execHostWrite (src pa : Nat) (bytes : List Byte) (s : State) : Host.Outcome State Fault Refusal :=
  .next (if packetOk pa bytes.length then (s.hostWrite src pa bytes).getD (s.outsideWaits src pa bytes.length) else s)

/-- What a host read or AtomicOp returns. -/
def State.hostAnswer (s : State) (src pa : Nat) (bs : List Byte) : State := s.modDev (fun d => { d with hostReads := d.hostReads ++ [(src, pa, bs)] })

/-- Whether an increment of a function has arrived and is not performed. -/
def State.hostPosted (s : State) (src : Nat) : Bool :=
  s.cores.any (fun (e : Nat × Core) => (e.2.ondie ++ e.2.ring ++ e.2.serving).any (fun m => m.org == .host src))

/-- A read of a host function (R148): performed after its earlier writes. It asks the banks of a vault as any other read does, and takes
its turn at a pool's at the port of the first core's agent (R51, R84) (DESIGN CHOICE, unsafe; log 132). None while nothing can happen to
it. -/
def State.hostRead (s : State) (src pa n : Nat) : Option State :=
  let me : Reader := .host src pa
  if s.hostPosted src then none
  else if region pa = 4 then
    some (match s.barAt src pa n with
      | some r => (s.mmioTouch r).hostAnswer src pa (bytesOf 8 (s.mmioValue r).toNat)
      | none => s)
  else if s.malformed pa then some s
  else if region pa ≠ 0 ∧ region pa ≠ 1 ∧ region pa < 8 then some s
  else
    let t := s.askAll me [(pa, n)]
    if t.heldAt pa n || !t.readReady me [(pa, n)] then s.unlessSame t
    else
      let bs := t.readAs me pa n
      let t := t.dropReads (paCore pa) me
      match t.badWord pa n with
      | some w => some (t.logUncorr w)
      | none => (t.poolTurns (agentPort 0) (linesOf [(pa, n)])).map (fun t => t.hostAnswer src pa bs)

/-- HOST_READ. -/
def execHostRead (src pa n : Nat) (s : State) : Host.Outcome State Fault Refusal := .next ((if packetOk pa n then s.hostRead src pa n else none).getD s)

/-- What an AtomicOp leaves (R407): 0 FetchAdd, 1 Swap, 2 CAS. -/
def atomicNew (op : BitVec 2) (n : Nat) (old v cmp : Nat) : Nat :=
  match op.toNat with
  | 0 => (old + v) % 2 ^ (8 * n)
  | 1 => v % 2 ^ (8 * n)
  | _ => if old = cmp % 2 ^ (8 * n) then v % 2 ^ (8 * n) else old

/-- HOST_ATOMICOP can happen: an aligned address of a host-visible window, and one of the three operations. -/
def hostAtomicopReady (op : BitVec 2) (w : BitVec 1) (pa : Nat) : Bool :=
  decide (12 ≤ region pa) && decide (pa < 2 ^ 48) && decide (pa % (if w = 1 then 8 else 4) = 0) && decide (op.toNat < 3)

/-- HOST_ATOMICOP (R407): the old value is returned. -/
def hostAtomicopEffect (src : Nat) (op : BitVec 2) (w : BitVec 1) (pa : Nat) (v cmp : Word) (s : State) : State :=
  let n := if w = 1 then 8 else 4
  let old := s.readNum pa n
  (s.writeMem pa (bytesOf n (atomicNew op n old v.toNat cmp.toNat))).hostAnswer src pa (bytesOf n old)

/-- HOST_ATOMICOP. -/
def execHostAtomicop (src : Nat) (op : BitVec 2) (w : BitVec 1) (pa : Nat) (v cmp : Word) (s : State) : Host.Outcome State Fault Refusal :=
  when (hostAtomicopReady op w pa) (hostAtomicopEffect src op w pa v cmp) s

/-! ### Management interfaces (R409 to R411) -/

/-- Whether the management core answers a request: in recovery only firmware update (R410); certificate slots are numbered 0 to 7
(DESIGN CHOICE, safe; log 70). -/
def State.mctpServed (s : State) (r : MctpReq) : Bool :=
  (!s.dev.recovery || r == .pldmUpdate) && (match r with | .spdmCert n => decide (n < 8) | _ => true)

/-- What an answer of the management core holds: the contents of a certificate slot, the measurements of the firmware that runs, or the
readings of the platform, which the spec does not give (R409) (DESIGN CHOICE, safe; log 70). -/
def State.mctpBody (s : State) (r : MctpReq) : List Byte :=
  match r with
  | .pldmMonitor => Config.monitoring s.freeCtr
  | .pldmUpdate => []
  | .spdmMeasure => Config.measurement (match s.dev.fwActive with | some true => s.dev.fwB | some false => s.dev.fwA | none => none)
  | .spdmCert n => Config.certificate n

/-- An answer of the management core; platform monitoring reports a layer that has failed (R412). -/
def State.mctpAnswer (s : State) (i3c : Bool) (r : MctpReq) : State :=
  let a : MctpAnswer := ⟨i3c, r, s.mctpBody r, if r = .pldmMonitor then s.dev.layerFail else none⟩
  s.free.2.modDev (fun d => { d with mctp := d.mctp ++ [a] })

/-- MCTP_REQUEST (R409): the request is answered, over the interface on which it came. -/
def execMctpRequest (ask : MctpAsk) (s : State) : Host.Outcome State Fault Refusal :=
  when (s.mctpServed ask.req) (fun s => s.mctpAnswer ask.i3c ask.req) s

/-- Whether an image is accepted (R410). -/
def State.imageOk (s : State) (f : FwImage) : Bool := f.rsaOk && f.slhOk && decide (s.dev.fwMin ≤ f.version)

/-- FIRMWARE_UPDATE (R410): the inactive slot is written. -/
def firmwareUpdateEffect (f : FwImage) (s : State) : State :=
  s.modDev (fun d => if d.fwActive = some false then { d with fwB := some f.version } else { d with fwA := some f.version })

/-- FIRMWARE_UPDATE. -/
def execFirmwareUpdate (img : FwImage) (s : State) : Host.Outcome State Fault Refusal := when (s.imageOk img) (firmwareUpdateEffect img) s

/-- CONFIG_RECORD (R411): a record that fails its check is ignored. -/
def execConfigRecord (cr : ConfigRec) (s : State) : Host.Outcome State Fault Refusal :=
  when (cr.rsaOk && cr.slhOk) (fun s => s.modDev (fun d => { d with cfg := cr })) s

end Sys2Proof.Machine
end

