-- ==== Sys2Proof/Machine/Power.lean ====
section
/-! DEFINITION. Sys2Proof/Machine/Power.lean: resets (R83, R84, R95, R110, R122, R175, R265, R410, R411), power-up and power gating (R81, R86,
R412). What a reset keeps that the spec does not state is in log 42. -/

namespace Sys2Proof.Machine

/-! ### Resets -/

/-- The stack whose unit a physical address names; host memory has none. -/
def paStack (pa : Nat) : Option Nat :=
  match region pa with
  | 0 => some (stackOf (paCore pa))
  | 1 | 3 => some (paCluster pa / 64)
  | _ => none

/-- A vault after a reset: the rows that spares replace and VAULTGEN stay, MAT comes from the configuration record (R64, R411). -/
def Vault.afterReset (v : Vault) (mat : Nat) : Vault :=
  { Vault.reset with banks := v.banks.map (fun (e : Nat × Bank) => (e.1, { Bank.reset with map := e.2.map })), gen := v.gen, mat := mat }

/-- A core after a reset: it stays retired, and TRAVMAX comes from the configuration record (R121, R401, R411). -/
def Core.afterReset (c : Core) (travMax : Nat) : Core := { Core.reset with retired := c.retired, travMax := travMax }

/-- A cluster after a reset: its clocks start again (R413), and what is retired or without power stays so. -/
def Cluster.afterReset (c : Cluster) (clk : Nat) : Cluster :=
  { Cluster.reset with cycClk := clk, engRetired := c.engRetired, gated := c.gated }

/-- A table with the things at some keys put as they are after a reset. -/
def Table.renew {α : Type} (t : Table Nat α) (keys : List Nat) (d : α) (f : α → α) : Table Nat α :=
  t.filter (fun e => !keys.contains e.1) ++ keys.map (fun k => (k, f (t.get k d)))

/-- A stack's units after its reset; pools and shadow storage read zero (R83), the banks are closed and what the write buffers held
is gone. -/
def State.resetStack (s : State) (k : Nat) : State :=
  let s := s.closeUnless (fun l => stackOf l.1 == k)
  let cores := (List.range 512).map (512 * k + ·)
  let cls := (List.range 64).map (64 * k + ·)
  let mine (h : HartId) : Bool := stackOf h.home == k
  { s with
    mem := s.mem.filter (fun c => !(paStack c.1 == some k && region c.1 != 0))
    bad := s.bad.filter (fun w => !(paStack (8 * w) == some k && region (8 * w) != 0))
    harts := s.harts.filter (fun (e : HartId × Hart) => !mine e.1)
    cores := Table.renew s.cores cores Core.reset (·.afterReset s.dev.cfg.travmax.toNat)
    vaults := Table.renew s.vaults cores Vault.reset (·.afterReset s.dev.cfg.mat.toNat)
    clusters := Table.renew s.clusters cls Cluster.reset (·.afterReset s.clk)
    stks := s.stks.set k { Stack.reset with resetClk := s.clk, gated := (s.stk k).gated, ready := (s.stk k).ready }
    dev := { s.dev with net := s.dev.net.filter (fun m => !(m.org.local && mine m.src)), replies := s.dev.replies.filter (fun r => !mine r.dst),
                        early := s.dev.early.filter (fun e => paStack e.2.1 != some k && !e.1.hart.any mine) } }

/-- STACK_RESET (R83, R84, R95, R110, R122, R175). -/
def execStackReset (stack : Nat) (s : State) : Host.Outcome State Fault Refusal := .next (s.resetStack stack)

/-- The slot that boots: the newest valid one, A or B where their versions are equal (R410); false is A. -/
def bootSlot (a b : Option Nat) (tie : Bool) : Option Bool :=
  match a, b with
  | none, none => none
  | some _, none => some false
  | none, some _ => some true
  | some x, some y => if x < y then some true else if y < x then some false else some tie

/-- The device after its reset: the newest valid firmware slot boots, and with none the device is in recovery (R410). -/
def State.resetDevice (s : State) : State :=
  let f := s.free
  let s := allStacks.foldl (fun s k => s.resetStack k) f.2
  let d := s.dev
  let boot := bootSlot d.fwA d.fwB (Config.freeNat f.1 % 2 == 1)
  { s with
    cur := firstHart
    dev := { Device.reset with fwA := d.fwA, fwB := d.fwB, fwMin := d.fwMin, fwActive := boot, recovery := boot.isNone || d.layerFail.isSome, cfg := d.cfg,
                               errors := d.errors, lasting := d.lasting, timeOff := -BitVec.ofNat 64 s.ticks, bringUp := d.bringUp,
                               layerFail := d.layerFail } }

/-- DEVICE_RESET (R410). -/
def execDeviceReset (s : State) : Host.Outcome State Fault Refusal := .next s.resetDevice

/-! ### Power (R412) -/

/-- The layers of the package in the order in which they come up, numbered stack × 8 + layer: layer 0 of each stack, then layer 1 (R412)
(DESIGN CHOICE, unsafe; log 137). -/
def layerOrder : List Nat := (List.range 8).flatMap (fun l => allStacks.map (fun k => 8 * k + l))

/-- POWER_UP (R412): the logic is reset, DRAM holds nothing, and the layers are to come up, all of them or all before one that will not;
until then they are clamped. -/
def powerUpEffect (fail : Option Nat) (s : State) : State :=
  let s := (s.modDev (fun d => { d with layerFail := none })).resetDevice
  { s with
    mem := s.mem.filter (fun c => decide (8 ≤ region c.1))
    bad := s.bad.filter (fun w => decide (8 ≤ region (8 * w)))
    stks := allStacks.foldl (fun t k => t.set k { s.stk k with gated := [], ready := [] }) s.stks
    clusters := s.clusters.map (fun (e : Nat × Cluster) => (e.1, { e.2 with gated := false }))
    dev := { s.dev with bringUp := layerOrder, layerFail := fail } }

/-- The next layer of a power-up reports ready, and its interface is released; or it does not, which leaves the device in recovery and is
reported over PLDM (R412). -/
def State.layerUpNext (s : State) : State :=
  match s.dev.bringUp with
  | [] => s
  | n :: r =>
    if s.dev.layerFail = some n then
      (s.modDev (fun d => { d with bringUp := [], recovery := true })).mctpAnswer false .pldmMonitor
    else
      (s.modStk (n / 8) (fun t => { t with ready := t.ready ++ [n % 8] })).modDev (fun d => { d with bringUp := r })

/-- POWER_UP. -/
def execPowerUp (fail : Option Nat) (s : State) : Host.Outcome State Fault Refusal :=
  when (match fail with | some n => decide (n < 32) | none => true) (powerUpEffect fail) s

/-- LAYER_POWER_GATE can happen: the layer has power. That FENCE.V comes first is for management to see to (R81, R412). -/
def layerPowerGateReady (k layer : Nat) (s : State) : Bool := decide (k < 4) && decide (layer < 8) && !(s.stk k).gated.contains layer

/-- A vault as a layer loses its power: committed lines survive, buffered ones do not, and no row is open (R80). -/
def Vault.gateLayer (v : Vault) (layer : Nat) : Vault :=
  { v with
    wbuf := v.wbuf.filter (fun l => bankOf (l.line * 64) / 4 != layer)
    served := v.served.filter (fun g => !(VReqKind.isDrain (.read g.who) && bankOf (g.line * 64) / 4 == layer))
    banks := v.banks.map (fun (b : Nat × Bank) =>
      if b.1 / 4 = layer then (b.1, { b.2 with opened := none, q := b.2.q.filter (fun q => !q.kind.isDrain) }) else b) }

/-- LAYER_POWER_GATE (R80, R81) (DEDUCED, unsafe; log 68). -/
def layerPowerGateEffect (k layer : Nat) (s : State) : State :=
  let s := { s with vaults := s.vaults.map (fun (e : Nat × Vault) => if stackOf e.1 = k then (e.1, e.2.gateLayer layer) else e) }
  let s := s.closeUnless (fun l => stackOf l.1 == k && bankOf (l.2 * 64) / 4 == layer)
  s.modStk k (fun t => { t with gated := t.gated ++ [layer] })

/-- LAYER_POWER_GATE. -/
def execLayerPowerGate (stack layer : Nat) (s : State) : Host.Outcome State Fault Refusal :=
  when (layerPowerGateReady stack layer s) (layerPowerGateEffect stack layer) s

/-- CLUSTER_POWER_GATE can happen: nothing runs in the cluster. -/
def clusterPowerGateReady (cl : Nat) (s : State) : Bool :=
  !(s.cluster cl).gated && (coresOf cl).all (fun c => s.coreIdle c) && s.engineIdle cl && (s.cluster cl).saving.isEmpty

/-- CLUSTER_POWER_GATE (R86): the pool's contents are lost. -/
def clusterPowerGateEffect (cl : Nat) (s : State) : State :=
  let mine (pa : Nat) : Bool := region pa == 1 && paCluster pa == cl
  ({ s with mem := s.mem.filter (fun c => !mine c.1), bad := s.bad.filter (fun w => !mine (8 * w)) }).modCluster cl (fun c =>
    { c with gated := true, locks := [] })

/-- CLUSTER_POWER_GATE. -/
def execClusterPowerGate (cluster : Nat) (s : State) : Host.Outcome State Fault Refusal :=
  when (clusterPowerGateReady cluster s) (clusterPowerGateEffect cluster) s

/-- POWER_UNGATE (R412): power returns to a layer, whose interface is released once it reports ready, or to a cluster. -/
def powerUngateEffect (u : UnitId) (s : State) : State :=
  match u with
  | .layer k l => s.modStk k (fun t => { t with gated := t.gated.filter (· != l) })
  | .cluster c => s.modCluster c (fun c => { c with gated := false })
  | _ => s

/-- POWER_UNGATE. -/
def execPowerUngate (u : UnitId) (s : State) : Host.Outcome State Fault Refusal := .next (powerUngateEffect u s)

end Sys2Proof.Machine
end

