-- ==== Sys2Proof/Machine/Dispatch.lean ====
section
/-! DEFINITION. Sys2Proof/Machine/Dispatch.lean: one arm for each row of the opcode table. -/

namespace Sys2Proof.Machine

def exec (i : Instr) (s : State) : Host.Outcome State Fault Refusal :=
  match i with
  | .add hd d a b => Sys2Proof.Machine.execAdd hd d a b s
  | .sub hd d a b => Sys2Proof.Machine.execSub hd d a b s
  | .and hd d a b => Sys2Proof.Machine.execAnd hd d a b s
  | .or hd d a b => Sys2Proof.Machine.execOr hd d a b s
  | .xor hd d a b => Sys2Proof.Machine.execXor hd d a b s
  | .sll hd d a b => Sys2Proof.Machine.execSll hd d a b s
  | .srl hd d a b => Sys2Proof.Machine.execSrl hd d a b s
  | .sra hd d a b => Sys2Proof.Machine.execSra hd d a b s
  | .rol hd d a b => Sys2Proof.Machine.execRol hd d a b s
  | .ror hd d a b => Sys2Proof.Machine.execRor hd d a b s
  | .slt hd d a b => Sys2Proof.Machine.execSlt hd d a b s
  | .sltu hd d a b => Sys2Proof.Machine.execSltu hd d a b s
  | .min hd d a b => Sys2Proof.Machine.execMin hd d a b s
  | .max hd d a b => Sys2Proof.Machine.execMax hd d a b s
  | .minu hd d a b => Sys2Proof.Machine.execMinu hd d a b s
  | .maxu hd d a b => Sys2Proof.Machine.execMaxu hd d a b s
  | .addw hd d a b => Sys2Proof.Machine.execAddw hd d a b s
  | .subw hd d a b => Sys2Proof.Machine.execSubw hd d a b s
  | .andn hd d a b => Sys2Proof.Machine.execAndn hd d a b s
  | .orn hd d a b => Sys2Proof.Machine.execOrn hd d a b s
  | .addsat hd d a b => Sys2Proof.Machine.execAddsat hd d a b s
  | .subsat hd d a b => Sys2Proof.Machine.execSubsat hd d a b s
  | .addi hd d a imm => Sys2Proof.Machine.execAddi hd d a imm s
  | .andi hd d a imm => Sys2Proof.Machine.execAndi hd d a imm s
  | .ori hd d a imm => Sys2Proof.Machine.execOri hd d a imm s
  | .xori hd d a imm => Sys2Proof.Machine.execXori hd d a imm s
  | .slli hd d a n => Sys2Proof.Machine.execSlli hd d a n s
  | .srli hd d a n => Sys2Proof.Machine.execSrli hd d a n s
  | .srai hd d a n => Sys2Proof.Machine.execSrai hd d a n s
  | .rori hd d a n => Sys2Proof.Machine.execRori hd d a n s
  | .slti hd d a imm => Sys2Proof.Machine.execSlti hd d a imm s
  | .sltiu hd d a imm => Sys2Proof.Machine.execSltiu hd d a imm s
  | .lhi hd d imm => Sys2Proof.Machine.execLhi hd d imm s
  | .addpc hd d imm => Sys2Proof.Machine.execAddpc hd d imm s
  | .mul hd d a b => Sys2Proof.Machine.execMul hd d a b s
  | .mulh hd d a b => Sys2Proof.Machine.execMulh hd d a b s
  | .mulhu hd d a b => Sys2Proof.Machine.execMulhu hd d a b s
  | .mulhsu hd d a b => Sys2Proof.Machine.execMulhsu hd d a b s
  | .div hd d a b => Sys2Proof.Machine.execDiv hd d a b s
  | .divu hd d a b => Sys2Proof.Machine.execDivu hd d a b s
  | .rem hd d a b => Sys2Proof.Machine.execRem hd d a b s
  | .remu hd d a b => Sys2Proof.Machine.execRemu hd d a b s
  | .mulw hd d a b => Sys2Proof.Machine.execMulw hd d a b s
  | .clz hd d a => Sys2Proof.Machine.execClz hd d a s
  | .ctz hd d a => Sys2Proof.Machine.execCtz hd d a s
  | .popc hd d a => Sys2Proof.Machine.execPopc hd d a s
  | .brev hd d a => Sys2Proof.Machine.execBrev hd d a s
  | .bswap hd d a => Sys2Proof.Machine.execBswap hd d a s
  | .sextb hd d a => Sys2Proof.Machine.execSextb hd d a s
  | .sexth hd d a => Sys2Proof.Machine.execSexth hd d a s
  | .sextw hd d a => Sys2Proof.Machine.execSextw hd d a s
  | .zextw hd d a => Sys2Proof.Machine.execZextw hd d a s
  | .clmul hd d a b => Sys2Proof.Machine.execClmul hd d a b s
  | .clmulh hd d a b => Sys2Proof.Machine.execClmulh hd d a b s
  | .clmulr hd d a b => Sys2Proof.Machine.execClmulr hd d a b s
  | .bfx hd d a b => Sys2Proof.Machine.execBfx hd d a b s
  | .bfi hd d a b => Sys2Proof.Machine.execBfi hd d a b s
  | .faddS hd d a b => Sys2Proof.Machine.execFaddS hd d a b s
  | .fsubS hd d a b => Sys2Proof.Machine.execFsubS hd d a b s
  | .fmulS hd d a b => Sys2Proof.Machine.execFmulS hd d a b s
  | .fdivS hd d a b => Sys2Proof.Machine.execFdivS hd d a b s
  | .fsqrtS hd d a => Sys2Proof.Machine.execFsqrtS hd d a s
  | .fminS hd d a b => Sys2Proof.Machine.execFminS hd d a b s
  | .fmaxS hd d a b => Sys2Proof.Machine.execFmaxS hd d a b s
  | .feqS hd d a b => Sys2Proof.Machine.execFeqS hd d a b s
  | .fltS hd d a b => Sys2Proof.Machine.execFltS hd d a b s
  | .fleS hd d a b => Sys2Proof.Machine.execFleS hd d a b s
  | .fclassS hd d a => Sys2Proof.Machine.execFclassS hd d a s
  | .fcvtSL hd d a => Sys2Proof.Machine.execFcvtSL hd d a s
  | .fcvtSLu hd d a => Sys2Proof.Machine.execFcvtSLu hd d a s
  | .fcvtLS hd d a => Sys2Proof.Machine.execFcvtLS hd d a s
  | .fcvtLuS hd d a => Sys2Proof.Machine.execFcvtLuS hd d a s
  | .fsgnjS hd d a b => Sys2Proof.Machine.execFsgnjS hd d a b s
  | .fsgnjnS hd d a b => Sys2Proof.Machine.execFsgnjnS hd d a b s
  | .fsgnjxS hd d a b => Sys2Proof.Machine.execFsgnjxS hd d a b s
  | .fmaddS hd d a b c => Sys2Proof.Machine.execFmaddS hd d a b c s
  | .fmsubS hd d a b c => Sys2Proof.Machine.execFmsubS hd d a b c s
  | .fnmaddS hd d a b c => Sys2Proof.Machine.execFnmaddS hd d a b c s
  | .fnmsubS hd d a b c => Sys2Proof.Machine.execFnmsubS hd d a b c s
  | .beq hd a b o => Sys2Proof.Machine.execBeq hd a b o s
  | .bne hd a b o => Sys2Proof.Machine.execBne hd a b o s
  | .blt hd a b o => Sys2Proof.Machine.execBlt hd a b o s
  | .bge hd a b o => Sys2Proof.Machine.execBge hd a b o s
  | .bltu hd a b o => Sys2Proof.Machine.execBltu hd a b o s
  | .bgeu hd a b o => Sys2Proof.Machine.execBgeu hd a b o s
  | .jal hd d imm => Sys2Proof.Machine.execJal hd d imm s
  | .jalr hd d a imm => Sys2Proof.Machine.execJalr hd d a imm s
  | .loop hd a imm => Sys2Proof.Machine.execLoop hd a imm s
  | .loopi hd n imm => Sys2Proof.Machine.execLoopi hd n imm s
  | .ld hd d a w u imm => Sys2Proof.Machine.execLd hd d a w u imm s
  | .ldAcq hd d a w u imm => Sys2Proof.Machine.execLdAcq hd d a w u imm s
  | .ldl hd d a w u imm => Sys2Proof.Machine.execLdl hd d a w u imm s
  | .st hd d a w imm => Sys2Proof.Machine.execSt hd d a w imm s
  | .stRel hd d a w imm => Sys2Proof.Machine.execStRel hd d a w imm s
  | .stu hd d a w imm => Sys2Proof.Machine.execStu hd d a w imm s
  | .ldx hd d a b w u q => Sys2Proof.Machine.execLdx hd d a b w u q s
  | .stx hd d a b w r => Sys2Proof.Machine.execStx hd d a b w r s
  | .amoadd hd d a b w o => Sys2Proof.Machine.execAmoadd hd d a b w o s
  | .amoand hd d a b w o => Sys2Proof.Machine.execAmoand hd d a b w o s
  | .amoor hd d a b w o => Sys2Proof.Machine.execAmoor hd d a b w o s
  | .amoxor hd d a b w o => Sys2Proof.Machine.execAmoxor hd d a b w o s
  | .amomin hd d a b w o => Sys2Proof.Machine.execAmomin hd d a b w o s
  | .amomax hd d a b w o => Sys2Proof.Machine.execAmomax hd d a b w o s
  | .amominu hd d a b w o => Sys2Proof.Machine.execAmominu hd d a b w o s
  | .amomaxu hd d a b w o => Sys2Proof.Machine.execAmomaxu hd d a b w o s
  | .amoswap hd d a b w o => Sys2Proof.Machine.execAmoswap hd d a b w o s
  | .amocas hd d a b w o => Sys2Proof.Machine.execAmocas hd d a b w o s
  | .fence hd c => Sys2Proof.Machine.execFence hd c s
  | .fenceAcq hd c => Sys2Proof.Machine.execFenceAcq hd c s
  | .fenceRel hd c => Sys2Proof.Machine.execFenceRel hd c s
  | .fenceV hd c => Sys2Proof.Machine.execFenceV hd c s
  | .act hd a => Sys2Proof.Machine.execAct hd a s
  | .actEngine hd c a => Sys2Proof.Machine.execActEngine hd c a s
  | .pre hd a => Sys2Proof.Machine.execPre hd a s
  | .preEngine hd c a => Sys2Proof.Machine.execPreEngine hd c a s
  | .prea hd => Sys2Proof.Machine.execPrea hd s
  | .vstat hd d a => Sys2Proof.Machine.execVstat hd d a s
  | .vevt hd d => Sys2Proof.Machine.execVevt hd d s
  | .rload hd d a w o => Sys2Proof.Machine.execRload hd d a w o s
  | .rstore hd d a w o => Sys2Proof.Machine.execRstore hd d a w o s
  | .ramoadd hd d a w o => Sys2Proof.Machine.execRamoadd hd d a w o s
  | .ramoand hd d a w o => Sys2Proof.Machine.execRamoand hd d a w o s
  | .ramoor hd d a w o => Sys2Proof.Machine.execRamoor hd d a w o s
  | .ramoxor hd d a w o => Sys2Proof.Machine.execRamoxor hd d a w o s
  | .ramomin hd d a w o => Sys2Proof.Machine.execRamomin hd d a w o s
  | .ramomax hd d a w o => Sys2Proof.Machine.execRamomax hd d a w o s
  | .ramominu hd d a w o => Sys2Proof.Machine.execRamominu hd d a w o s
  | .ramomaxu hd d a w o => Sys2Proof.Machine.execRamomaxu hd d a w o s
  | .ramoswap hd d a w o => Sys2Proof.Machine.execRamoswap hd d a w o s
  | .ramocas hd d a w o => Sys2Proof.Machine.execRamocas hd d a w o s
  | .migrate hd d a b => Sys2Proof.Machine.execMigrate hd d a b s
  | .reply hd a => Sys2Proof.Machine.execReply hd a s
  | .hret hd => Sys2Proof.Machine.execHret hd s
  | .hset hd a b => Sys2Proof.Machine.execHset hd a b s
  | .hclr hd a => Sys2Proof.Machine.execHclr hd a s
  | .mbxAdd hd a b => Sys2Proof.Machine.execMbxAdd hd a b s
  | .mbxAddEngine hd c a b => Sys2Proof.Machine.execMbxAddEngine hd c a b s
  | .mbxWait hd d a b => Sys2Proof.Machine.execMbxWait hd d a b s
  | .mbxRead hd d a => Sys2Proof.Machine.execMbxRead hd d a s
  | .mbxSet hd a b => Sys2Proof.Machine.execMbxSet hd a b s
  | .bfree hd a => Sys2Proof.Machine.execBfree hd a s
  | .sete hd d f => Sys2Proof.Machine.execSete hd d f s
  | .isfull hd d a f => Sys2Proof.Machine.execIsfull hd d a f s
  | .tkq hd d k => Sys2Proof.Machine.execTkq hd d k s
  | .tkflt hd d k => Sys2Proof.Machine.execTkflt hd d k s
  | .waittk hd m => Sys2Proof.Machine.execWaittk hd m s
  | .trap hd a => Sys2Proof.Machine.execTrap hd a s
  | .eret hd => Sys2Proof.Machine.execEret hd s
  | .halt hd => Sys2Proof.Machine.execHalt hd s
  | .yield hd => Sys2Proof.Machine.execYield hd s
  | .exit hd => Sys2Proof.Machine.execExit hd s
  | .vmodeL hd => Sys2Proof.Machine.execVmodeL hd s
  | .vmodeS hd => Sys2Proof.Machine.execVmodeS hd s
  | .launch hd d a => Sys2Proof.Machine.execLaunch hd d a s
  | .cancel hd d a => Sys2Proof.Machine.execCancel hd d a s
  | .waitctr hd d a => Sys2Proof.Machine.execWaitctr hd d a s
  | .brk hd => Sys2Proof.Machine.execBrk hd s
  | .pause hd a => Sys2Proof.Machine.execPause hd a s
  | .tlbinv hd a b => Sys2Proof.Machine.execTlbinv hd a b s
  | .fenceI hd => Sys2Proof.Machine.execFenceI hd s
  | .xbegin hd => Sys2Proof.Machine.execXbegin hd s
  | .xcommit hd d => Sys2Proof.Machine.execXcommit hd d s
  | .xabort hd => Sys2Proof.Machine.execXabort hd s
  | .csrxch hd d a c => Sys2Proof.Machine.execCsrxch hd d a c s
  | .csrbis hd d a c => Sys2Proof.Machine.execCsrbis hd d a c s
  | .csrbic hd d a c => Sys2Proof.Machine.execCsrbic hd d a c s
  | .vadd hd d a b t => Sys2Proof.Machine.execVadd hd d a b t s
  | .vsub hd d a b t => Sys2Proof.Machine.execVsub hd d a b t s
  | .vmul hd d a b t => Sys2Proof.Machine.execVmul hd d a b t s
  | .vmin hd d a b t => Sys2Proof.Machine.execVmin hd d a b t s
  | .vmax hd d a b t => Sys2Proof.Machine.execVmax hd d a b t s
  | .vabsd hd d a b t => Sys2Proof.Machine.execVabsd hd d a b t s
  | .vand hd d a b t => Sys2Proof.Machine.execVand hd d a b t s
  | .vor hd d a b t => Sys2Proof.Machine.execVor hd d a b t s
  | .vxor hd d a b t => Sys2Proof.Machine.execVxor hd d a b t s
  | .vshl hd d a b t => Sys2Proof.Machine.execVshl hd d a b t s
  | .vshr hd d a b t => Sys2Proof.Machine.execVshr hd d a b t s
  | .vsra hd d a b t => Sys2Proof.Machine.execVsra hd d a b t s
  | .vadds hd d a b t => Sys2Proof.Machine.execVadds hd d a b t s
  | .vsubs hd d a b t => Sys2Proof.Machine.execVsubs hd d a b t s
  | .vmulh hd d a b t => Sys2Proof.Machine.execVmulh hd d a b t s
  | .vavg hd d a b t => Sys2Proof.Machine.execVavg hd d a b t s
  | .vceq hd d a b t => Sys2Proof.Machine.execVceq hd d a b t s
  | .vclt hd d a b t => Sys2Proof.Machine.execVclt hd d a b t s
  | .vcle hd d a b t => Sys2Proof.Machine.execVcle hd d a b t s
  | .vcltu hd d a b t => Sys2Proof.Machine.execVcltu hd d a b t s
  | .vsel hd d a b t => Sys2Proof.Machine.execVsel hd d a b t s
  | .vfma hd d a b t => Sys2Proof.Machine.execVfma hd d a b t s
  | .vfms hd d a b t => Sys2Proof.Machine.execVfms hd d a b t s
  | .vdot hd d a b p => Sys2Proof.Machine.execVdot hd d a b p s
  | .vclmul hd d a b t => Sys2Proof.Machine.execVclmul hd d a b t s
  | .vclmulh hd d a b t => Sys2Proof.Machine.execVclmulh hd d a b t s
  | .vrcps hd d a b => Sys2Proof.Machine.execVrcps hd d a b s
  | .vrsqs hd d a b => Sys2Proof.Machine.execVrsqs hd d a b s
  | .vrcp hd d a => Sys2Proof.Machine.execVrcp hd d a s
  | .vrsq hd d a => Sys2Proof.Machine.execVrsq hd d a s
  | .vexp2 hd d a => Sys2Proof.Machine.execVexp2 hd d a s
  | .vlog2 hd d a => Sys2Proof.Machine.execVlog2 hd d a s
  | .vsqrt hd d a t => Sys2Proof.Machine.execVsqrt hd d a t s
  | .vabs hd d a t => Sys2Proof.Machine.execVabs hd d a t s
  | .vneg hd d a t => Sys2Proof.Machine.execVneg hd d a t s
  | .vpopc hd d a t => Sys2Proof.Machine.execVpopc hd d a t s
  | .vcvt hd d a g t => Sys2Proof.Machine.execVcvt hd d a g t s
  | .vredadd hd d a t => Sys2Proof.Machine.execVredadd hd d a t s
  | .vredmax hd d a t => Sys2Proof.Machine.execVredmax hd d a t s
  | .vredmin hd d a t => Sys2Proof.Machine.execVredmin hd d a t s
  | .vclz hd d a t => Sys2Proof.Machine.execVclz hd d a t s
  | .vld hd d a => Sys2Proof.Machine.execVld hd d a s
  | .vst hd d a => Sys2Proof.Machine.execVst hd d a s
  | .vlds hd d a b t => Sys2Proof.Machine.execVlds hd d a b t s
  | .vsts hd d a b t => Sys2Proof.Machine.execVsts hd d a b t s
  | .vbcast hd d a t => Sys2Proof.Machine.execVbcast hd d a t s
  | .vins hd d a b t => Sys2Proof.Machine.execVins hd d a b t s
  | .vext hd d a b t => Sys2Proof.Machine.execVext hd d a b t s
  | .vldrow hd d a => Sys2Proof.Machine.execVldrow hd d a s
  | .vperm hd d a b t => Sys2Proof.Machine.execVperm hd d a b t s
  | .vzip hd d a b t => Sys2Proof.Machine.execVzip hd d a b t s
  | .vunzip hd d a b t => Sys2Proof.Machine.execVunzip hd d a b t s
  | .vmergeLo hd d a b t => Sys2Proof.Machine.execVmergeLo hd d a b t s
  | .vmergeHi hd d a b t => Sys2Proof.Machine.execVmergeHi hd d a b t s
  | .vsort hd d a t => Sys2Proof.Machine.execVsort hd d a t s
  | .vslide hd d a b t => Sys2Proof.Machine.execVslide hd d a b t s
  | .tld hd a tk wait dst fmt rows sc frow => Sys2Proof.Machine.execTld hd a tk wait dst fmt rows sc frow s
  | .tldP hd d a b tk wait fmt rows sc frow => Sys2Proof.Machine.execTldP hd d a b tk wait fmt rows sc frow s
  | .tst hd a tk wait row0 rows ofmt satf => Sys2Proof.Machine.execTst hd a tk wait row0 rows ofmt satf s
  | .wload hd d a b tk wait src fmt sc frow => Sys2Proof.Machine.execWload hd d a b tk wait src fmt sc frow s
  | .mma hd d b tk wait asrc fmt rows lt sat ftz wreg => Sys2Proof.Machine.execMma hd d b tk wait asrc fmt rows lt sat ftz wreg s
  | .aswap hd tk wait => Sys2Proof.Machine.execAswap hd tk wait s
  | .aclr hd tk wait cf => Sys2Proof.Machine.execAclr hd tk wait cf s
  | .ard hd tk wait row0 rows wreg => Sys2Proof.Machine.execArd hd tk wait row0 rows wreg s
  | .ast hd d b tk wait row0 rows ofmt satf => Sys2Proof.Machine.execAst hd d b tk wait row0 rows ofmt satf s
  | .lease hd d try1 => Sys2Proof.Machine.execLease hd d try1 s
  | .release hd => Sys2Proof.Machine.execRelease hd s
  | .vpipe hd d a b tk wait rr flt => Sys2Proof.Machine.execVpipe hd d a b tk wait rr flt s
  | .selq hd d a b tk wait rr flt => Sys2Proof.Machine.execSelq hd d a b tk wait rr flt s
  | .copy hd a b tk wait tmpl => Sys2Proof.Machine.execCopy hd a b tk wait tmpl s
  | .copyMc hd d a b tk wait tmpl => Sys2Proof.Machine.execCopyMc hd d a b tk wait tmpl s
  | .rcall hd d a tk wait hidx rr ord => Sys2Proof.Machine.execRcall hd d a tk wait hidx rr ord s
  | .tapeRec hd d id lim => Sys2Proof.Machine.execTapeRec hd d id lim s
  | .tapeEnd hd d => Sys2Proof.Machine.execTapeEnd hd d s
  | .tapePlay hd a tk wait id => Sys2Proof.Machine.execTapePlay hd a tk wait id s
  | .tapePatch hd a b slot => Sys2Proof.Machine.execTapePatch hd a b slot s
  | .tapeSave hd a tk wait id => Sys2Proof.Machine.execTapeSave hd a tk wait id s
  | .tapeLoad hd a tk wait id => Sys2Proof.Machine.execTapeLoad hd a tk wait id s
  | .tapeInv hd id => Sys2Proof.Machine.execTapeInv hd id s
  | .li32 hd d a imm => Sys2Proof.Machine.execLi32 hd d a imm s
  | .xstore hd a b w => Sys2Proof.Machine.execXstore hd a b w s
  | .tmpl hd a slot => Sys2Proof.Machine.execTmpl hd a slot s
  | .cAddisp d u => Sys2Proof.Machine.execCAddisp d u s
  | .cLd d a u => Sys2Proof.Machine.execCLd d a u s
  | .cSt d a u => Sys2Proof.Machine.execCSt d a u s
  | .cWaittk m => Sys2Proof.Machine.execCWaittk m s
  | .cAddi d imm => Sys2Proof.Machine.execCAddi d imm s
  | .cLi d imm => Sys2Proof.Machine.execCLi d imm s
  | .cSrli d n => Sys2Proof.Machine.execCSrli d n s
  | .cSrai d n => Sys2Proof.Machine.execCSrai d n s
  | .cAndi d imm => Sys2Proof.Machine.execCAndi d imm s
  | .cSub d b => Sys2Proof.Machine.execCSub d b s
  | .cXor d b => Sys2Proof.Machine.execCXor d b s
  | .cOr d b => Sys2Proof.Machine.execCOr d b s
  | .cAnd d b => Sys2Proof.Machine.execCAnd d b s
  | .cJ o => Sys2Proof.Machine.execCJ o s
  | .cBeqz a o => Sys2Proof.Machine.execCBeqz a o s
  | .cBnez a o => Sys2Proof.Machine.execCBnez a o s
  | .cSlli d n => Sys2Proof.Machine.execCSlli d n s
  | .cLdsp d u => Sys2Proof.Machine.execCLdsp d u s
  | .cStsp d u => Sys2Proof.Machine.execCStsp d u s
  | .cJr a => Sys2Proof.Machine.execCJr a s
  | .cMv d b => Sys2Proof.Machine.execCMv d b s
  | .cJalr a => Sys2Proof.Machine.execCJalr a s
  | .cAdd d b => Sys2Proof.Machine.execCAdd d b s
  | .cExit => Sys2Proof.Machine.execCExit s
  | .loadComplete h => Sys2Proof.Machine.execLoadComplete h s
  | .storeVisible h => Sys2Proof.Machine.execStoreVisible h s
  | .writeBufferDrain core n => Sys2Proof.Machine.execWriteBufferDrain core n s
  | .bankRequest core bank => Sys2Proof.Machine.execBankRequest core bank s
  | .refreshSlot core => Sys2Proof.Machine.execRefreshSlot core s
  | .refreshEnd core bank => Sys2Proof.Machine.execRefreshEnd core bank s
  | .holdStart core bank => Sys2Proof.Machine.execHoldStart core bank s
  | .holdEnd core bank => Sys2Proof.Machine.execHoldEnd core bank s
  | .tileLoadSegment h seq => Sys2Proof.Machine.execTileLoadSegment h seq s
  | .rowRepairRequest core bank row => Sys2Proof.Machine.execRowRepairRequest core bank row s
  | .repairStart core bank => Sys2Proof.Machine.execRepairStart core bank s
  | .repairCopy core bank => Sys2Proof.Machine.execRepairCopy core bank s
  | .repairSwitch core bank => Sys2Proof.Machine.execRepairSwitch core bank s
  | .thermalSample stack temps => Sys2Proof.Machine.execThermalSample stack temps s
  | .vaultLogMmioRead core => Sys2Proof.Machine.execVaultLogMmioRead core s
  | .poolBankAccess cluster bank => Sys2Proof.Machine.execPoolBankAccess cluster bank s
  | .ldlRetry h => Sys2Proof.Machine.execLdlRetry h s
  | .tlbMiss h va => Sys2Proof.Machine.execTlbMiss h va s
  | .ptread stack n => Sys2Proof.Machine.execPtread stack n s
  | .walkStep stack n => Sys2Proof.Machine.execWalkStep stack n s
  | .messageArrival n => Sys2Proof.Machine.execMessageArrival n s
  | .rloadRequest core => Sys2Proof.Machine.execRloadRequest core s
  | .rstoreRequest core => Sys2Proof.Machine.execRstoreRequest core s
  | .ramoRequest core => Sys2Proof.Machine.execRamoRequest core s
  | .rcallRequest core => Sys2Proof.Machine.execRcallRequest core s
  | .travel core => Sys2Proof.Machine.execTravel core s
  | .mbxadd core => Sys2Proof.Machine.execMbxadd core s
  | .mbxwatch core => Sys2Proof.Machine.execMbxwatch core s
  | .copyreq core => Sys2Proof.Machine.execCopyreq core s
  | .chunk core => Sys2Proof.Machine.execChunk core s
  | .vpjob core => Sys2Proof.Machine.execVpjob core s
  | .vpjobComplete core => Sys2Proof.Machine.execVpjobComplete core s
  | .repcommitLock core => Sys2Proof.Machine.execRepcommitLock core s
  | .repcommitData core => Sys2Proof.Machine.execRepcommitData core s
  | .repcommitStart h => Sys2Proof.Machine.execRepcommitStart h s
  | .repcommitGrant n => Sys2Proof.Machine.execRepcommitGrant n s
  | .repcommitAck n => Sys2Proof.Machine.execRepcommitAck n s
  | .repcommitRetry h core => Sys2Proof.Machine.execRepcommitRetry h core s
  | .lineLockTimeout core line => Sys2Proof.Machine.execLineLockTimeout core line s
  | .xactLock core => Sys2Proof.Machine.execXactLock core s
  | .xactData core => Sys2Proof.Machine.execXactData core s
  | .xactUnlock core => Sys2Proof.Machine.execXactUnlock core s
  | .xcommitVote n => Sys2Proof.Machine.execXcommitVote n s
  | .xcommitAck n => Sys2Proof.Machine.execXcommitAck n s
  | .replyFill n => Sys2Proof.Machine.execReplyFill n s
  | .nack n => Sys2Proof.Machine.execNack n s
  | .travellerEndNotice n => Sys2Proof.Machine.execTravellerEndNotice n s
  | .acceptanceNotice n => Sys2Proof.Machine.execAcceptanceNotice n s
  | .handlerWatchdog h => Sys2Proof.Machine.execHandlerWatchdog h s
  | .handlerEntryWritten core entry => Sys2Proof.Machine.execHandlerEntryWritten core entry s
  | .busyTimeout core n => Sys2Proof.Machine.execBusyTimeout core n s
  | .watchExpiry core n => Sys2Proof.Machine.execWatchExpiry core n s
  | .watchRetry h n => Sys2Proof.Machine.execWatchRetry h n s
  | .mbxWaitTimeout h n => Sys2Proof.Machine.execMbxWaitTimeout h n s
  | .bfreeCombine cluster n => Sys2Proof.Machine.execBfreeCombine cluster n s
  | .engineQueueLeave h q => Sys2Proof.Machine.execEngineQueueLeave h q s
  | .tokenSignal h seq => Sys2Proof.Machine.execTokenSignal h seq s
  | .lvuTake cluster => Sys2Proof.Machine.execLvuTake cluster s
  | .leaseGrant cluster => Sys2Proof.Machine.execLeaseGrant cluster s
  | .slotDrained cluster slot => Sys2Proof.Machine.execSlotDrained cluster slot s
  | .turnExpiry cluster => Sys2Proof.Machine.execTurnExpiry cluster s
  | .tapePlayStart h => Sys2Proof.Machine.execTapePlayStart h s
  | .tapeRecordIssue h => Sys2Proof.Machine.execTapeRecordIssue h s
  | .tapeBarrier h => Sys2Proof.Machine.execTapeBarrier h s
  | .tapePlayEnd h => Sys2Proof.Machine.execTapePlayEnd h s
  | .hqtail q v => Sys2Proof.Machine.execHqtail q v s
  | .hqEnable q v => Sys2Proof.Machine.execHqEnable q v s
  | .hqDisable q v => Sys2Proof.Machine.execHqDisable q v s
  | .hqstatClr q => Sys2Proof.Machine.execHqstatClr q s
  | .launchRecordAccept q => Sys2Proof.Machine.execLaunchRecordAccept q s
  | .recordFlush q => Sys2Proof.Machine.execRecordFlush q s
  | .launchReady stack lslot => Sys2Proof.Machine.execLaunchReady stack lslot s
  | .unitDispatch stack lslot unit slot => Sys2Proof.Machine.execUnitDispatch stack lslot unit slot s
  | .gangBind stack lslot => Sys2Proof.Machine.execGangBind stack lslot s
  | .priorityAging stack lslot => Sys2Proof.Machine.execPriorityAging stack lslot s
  | .unitEnd h => Sys2Proof.Machine.execUnitEnd h s
  | .preemptReq h => Sys2Proof.Machine.execPreemptReq h s
  | .preemptKill h => Sys2Proof.Machine.execPreemptKill h s
  | .safePointTake h => Sys2Proof.Machine.execSafePointTake h s
  | .clusterSave cluster => Sys2Proof.Machine.execClusterSave cluster s
  | .saveComplete cluster => Sys2Proof.Machine.execSaveComplete cluster s
  | .unitResume saved h => Sys2Proof.Machine.execUnitResume saved h s
  | .migrationDeadline h => Sys2Proof.Machine.execMigrationDeadline h s
  | .safepointWatchdog h => Sys2Proof.Machine.execSafepointWatchdog h s
  | .slotctlRestart h => Sys2Proof.Machine.execSlotctlRestart h s
  | .htbaseWrite core v => Sys2Proof.Machine.execHtbaseWrite core v s
  | .msgerrWrite h => Sys2Proof.Machine.execMsgerrWrite h s
  | .vaultevtWrite core v => Sys2Proof.Machine.execVaultevtWrite core v s
  | .aqstatWrite core v => Sys2Proof.Machine.execAqstatWrite core v s
  | .spillConfigWrite core quota v => Sys2Proof.Machine.execSpillConfigWrite core quota v s
  | .registerWrite pa v => Sys2Proof.Machine.execRegisterWrite pa v s
  | .ckptEnable v => Sys2Proof.Machine.execCkptEnable v s
  | .ckptClose => Sys2Proof.Machine.execCkptClose s
  | .intervalTimer => Sys2Proof.Machine.execIntervalTimer s
  | .logThreshold core => Sys2Proof.Machine.execLogThreshold core s
  | .rollback ccb why => Sys2Proof.Machine.execRollback ccb why s
  | .lockstepMismatch cluster => Sys2Proof.Machine.execLockstepMismatch cluster s
  | .snapWrite stack => Sys2Proof.Machine.execSnapWrite stack s
  | .errorEvent u => Sys2Proof.Machine.execErrorEvent u s
  | .unitRetire u => Sys2Proof.Machine.execUnitRetire u s
  | .linkRetry port => Sys2Proof.Machine.execLinkRetry port s
  | .linkDown port => Sys2Proof.Machine.execLinkDown port s
  | .linkRetrain port => Sys2Proof.Machine.execLinkRetrain port s
  | .hostWrite src pa bytes => Sys2Proof.Machine.execHostWrite src pa bytes s
  | .hostRead src pa n => Sys2Proof.Machine.execHostRead src pa n s
  | .hostAtomicop src op w pa v cmp => Sys2Proof.Machine.execHostAtomicop src op w pa v cmp s
  | .mctpRequest ask => Sys2Proof.Machine.execMctpRequest ask s
  | .firmwareUpdate img => Sys2Proof.Machine.execFirmwareUpdate img s
  | .deviceReset => Sys2Proof.Machine.execDeviceReset s
  | .stackReset stack => Sys2Proof.Machine.execStackReset stack s
  | .powerUp fail => Sys2Proof.Machine.execPowerUp fail s
  | .layerPowerGate stack layer => Sys2Proof.Machine.execLayerPowerGate stack layer s
  | .configRecord cr => Sys2Proof.Machine.execConfigRecord cr s
  | .clkstepWrite cluster v => Sys2Proof.Machine.execClkstepWrite cluster v s
  | .jobRelease stack job => Sys2Proof.Machine.execJobRelease stack job s
  | .supervisorNotice n => Sys2Proof.Machine.execSupervisorNotice n s
  | .portUp port peer => Sys2Proof.Machine.execPortUp port peer s
  | .clusterPowerGate cluster => Sys2Proof.Machine.execClusterPowerGate cluster s
  | .powerUngate u => Sys2Proof.Machine.execPowerUngate u s

end Sys2Proof.Machine
end

