-- ==== Sys2Proof/Machine/Units.lean ====
section
/-! DEFINITION. Sys2Proof/Machine/Units.lean: an access of several units of R134 one unit at a time, in any order (R134, R143): reads of engine
commands, jobs and host functions, writes of engine commands, jobs and CHUNKs. A unit that no turn of the agenda names is read or written
with the rest of its access. -/

namespace Sys2Proof.Machine

/-! ### Reads -/

/-- Some words read by a reader ahead of the rest of its access; those that no code corrects, and those it has read, are left (R134). -/
def State.readEarly (s : State) (who : Reader) (words : List Nat) : State :=
  let ws := words.filter (fun w => (s.badWord (8 * w) 8).isNone && !s.hasEarly who (8 * w))
  s.modDev (fun d => { d with early := d.early ++ ws.flatMap (fun w => (List.range 8).map (fun k => (who, (8 * w + k, s.readByte (8 * w + k))))) })

/-- The word of a vault at an address read ahead: its bank has served it to the reader, and no lock holds it (R51, R152). -/
def State.readServed (s : State) (who : Reader) (pa : Nat) : State :=
  if (s.vault (paCore pa)).turnAt who (paOff pa / 64) && !s.heldAt (pa / 8 * 8) 8 then s.readEarly who [pa / 8] else s

/-- The pool lines that an engine command reads through the array's port as it signals (R84, R334, R336). -/
def Flight.poolReads (f : Flight) : List Nat :=
  match f.cmd.ins with
  | .wload .. | .mma .. => (linesOf (f.src.map (·.2))).filter (fun l => region (l * 64) == 1)
  | _ => []

/-- The line of a pool that an engine command reads, read ahead by one access of its bank at the turn of the array's port (R84). -/
def State.readPool (s : State) (id : HartId) (f : Flight) (pa : Nat) : State :=
  if f.poolReads.contains (pa / 64) && (s.hart id).bufClear f.cmd then
    match s.poolTurns matrixPort [pa / 64] with
    | some t => t.readEarly (.cmd id f.cmd.seq) ((List.range 8).map (fun k => 8 * (pa / 64) + k))
    | none => s
  else s

/-- A unit of an access of several units read ahead of the others (R134, R143) (DESIGN CHOICE, safe; log 118). -/
def State.readUnit (s : State) (who : Reader) (pa : Nat) : State :=
  match who with
  | .cmd id seq =>
    match (s.hart id).busy.flights.find? (fun f => f.cmd.seq == seq) with
    | none => s
    | some f => if region pa = 0 then s.readServed who pa else s.readPool id f pa
  | .msg _ | .host _ _ => if region pa = 0 then s.readServed who pa else s
  | _ => s

/-! ### Writes -/

/-- A unit of the result of a job written ahead of the others (R348); none where there is none. -/
def State.jobUnit (s : State) (id n : Nat) : Option State :=
  s.vaults.findSome? (fun (e : Nat × Vault) =>
    (e.2.jobs.find? (fun j => j.msg.id == id)).bind (fun j =>
      (s.writeAhead pipePort (j.msg.agentWriter e.1) j.writes n).map (fun r =>
        r.1.modVault e.1 (fun v => { v with jobs := v.jobs.map (fun x => if x.msg.id = id then { x with writes := r.2 } else x) }))))

/-- A unit of a CHUNK that the service path of a core holds written ahead of the others (R127). -/
def State.chunkPart (s : State) (core n : Nat) (m : Msg) : Option State :=
  if !s.chunkOk core m then none
  else
    (s.writeAhead (agentPort core) (m.agentWriter core) (cellRuns m.bytes) n).map (fun r =>
      let left := r.2.flatMap (fun w => w.2.zipIdx.map (fun b => (w.1 + b.2, b.1)))
      r.1.modCore core (fun c => { c with serving := c.serving.map (fun x => if x.id = m.id then { m with bytes := left } else x) }))

/-- A unit of a CHUNK written ahead of the others: the service path holds it, or now takes it (R105, R127). -/
def State.chunkUnit (s : State) (id n : Nat) : Option State :=
  s.cores.findSome? (fun (e : Nat × Core) =>
    match e.2.serving.find? (fun m => m.id == id && m.kind == .chunk) with
    | some m => s.chunkPart e.1 n m
    | none =>
      (s.pick e.1 (fun m => m.id == id && m.kind == .chunk)).bind (fun p => ((s.leave e.1 p.1).hold e.1 p.2).chunkPart e.1 n p.2))

/-- A unit of a write of several units made visible ahead of the others: of a tile load, a matrix command or an image of a tape, of a job's
result, or of a CHUNK (R134). -/
def State.writeUnit (s : State) (who : Reader) (n : Nat) : State :=
  match who with
  | .cmd id seq =>
    match (s.hart id).busy.flights.find? (fun f => f.cmd.seq == seq) with
    | none => s
    | some f =>
      if f.written then
        match s.writeAhead f.cmd.outPort f.cmd.writer f.out n with
        | some (t, out) => t.modFlight id seq (fun f => { f with out := out })
        | none => s
      else (s.tileAhead id seq n).getD s
  | .msg id => (s.jobUnit id n).getD ((s.chunkUnit id n).getD s)
  | _ => s

end Sys2Proof.Machine
end

