-- ==== Sys2Proof/Machine/Run.lean ====
section
/-! DEFINITION. Sys2Proof/Machine/Run.lean: from the bytes at a program counter to the effect of the instruction that they encode
(R216, R222): fetch, decode, live mask, effect; and what happens next when the agenda names nothing (log 5). The decoder is
noncomputable (it builds instructions that Lean's compiler cannot build), so the one function that joins it to exec has a
second form, which reads the same fields and calls the same meanings without building the instruction; the compiler uses that
form, and the theorem decodedRun_eq says that the two are one function. -/

namespace Sys2Proof

/-- The cause of an encoding that names no instruction (R222). -/
def DecodeError.cause (e : DecodeError) : BitVec 8 :=
  match e with
  | .illegal | .short => 0x01
  | .reserved => 0x02

namespace Machine

/-! ### The instruction that an encoding names -/

/-- What an instruction is to the decoder: its field checks, its encoding, its effect. -/
structure Pick where
  ok : Bool
  code : Option Code
  run : State → Host.Outcome State Fault Refusal

/-- An instruction seen so. -/
def pickOf (i : Instr) : Pick := ⟨fieldsOk i, encode i, exec i⟩

/-- The effect of an encoding, or why it names no instruction (R222). -/
noncomputable def decodedRun (k : Code) : Except DecodeError (State → Host.Outcome State Fault Refusal) :=
  match decodeCode k with
  | .error e => .error e
  | .ok i => .ok (exec i)

/-- What selCReg picks. -/
def pickCReg (h : BitVec 16) : Option Pick :=
  if (h.extractLsb' 10 5) == 0 then
    (if (h.extractLsb' 5 5) == 0 then (if (h.extractLsb' 15 1) == 1 then some ⟨true, some codeCExit, execCExit⟩ else none)
     else if (h.extractLsb' 15 1) == 1 then some ⟨(notX0 (h.extractLsb' 5 5)), some (codeCJalr (h.extractLsb' 5 5)), execCJalr (h.extractLsb' 5 5)⟩ else some ⟨(notX0 (h.extractLsb' 5 5)), some (codeCJr (h.extractLsb' 5 5)), execCJr (h.extractLsb' 5 5)⟩)
  else if (h.extractLsb' 5 5) == 0 then none
  else if (h.extractLsb' 15 1) == 1 then some ⟨(notX0 (h.extractLsb' 5 5) && notX0 (h.extractLsb' 10 5)), some (codeCAdd (h.extractLsb' 5 5) (h.extractLsb' 10 5)), execCAdd (h.extractLsb' 5 5) (h.extractLsb' 10 5)⟩ else some ⟨(notX0 (h.extractLsb' 5 5) && notX0 (h.extractLsb' 10 5)), some (codeCMv (h.extractLsb' 5 5) (h.extractLsb' 10 5)), execCMv (h.extractLsb' 5 5) (h.extractLsb' 10 5)⟩

/-- What selCAlu picks. -/
def pickCAlu (h : BitVec 16) : Option Pick :=
  match (h.extractLsb' 8 2).toNat with
  | 0 => some ⟨true, some (codeCSrli (h.extractLsb' 5 3) (h.extractLsb' 10 6)), execCSrli (h.extractLsb' 5 3) (h.extractLsb' 10 6)⟩
  | 1 => some ⟨true, some (codeCSrai (h.extractLsb' 5 3) (h.extractLsb' 10 6)), execCSrai (h.extractLsb' 5 3) (h.extractLsb' 10 6)⟩
  | 2 => some ⟨true, some (codeCAndi (h.extractLsb' 5 3) (h.extractLsb' 10 6)), execCAndi (h.extractLsb' 5 3) (h.extractLsb' 10 6)⟩
  | _ =>
    if (h.extractLsb' 15 1) == 1 then none
    else match (h.extractLsb' 13 2).toNat with
      | 0 => some ⟨true, some (codeCSub (h.extractLsb' 5 3) (h.extractLsb' 10 3)), execCSub (h.extractLsb' 5 3) (h.extractLsb' 10 3)⟩
      | 1 => some ⟨true, some (codeCXor (h.extractLsb' 5 3) (h.extractLsb' 10 3)), execCXor (h.extractLsb' 5 3) (h.extractLsb' 10 3)⟩
      | 2 => some ⟨true, some (codeCOr (h.extractLsb' 5 3) (h.extractLsb' 10 3)), execCOr (h.extractLsb' 5 3) (h.extractLsb' 10 3)⟩
      | _ => some ⟨true, some (codeCAnd (h.extractLsb' 5 3) (h.extractLsb' 10 3)), execCAnd (h.extractLsb' 5 3) (h.extractLsb' 10 3)⟩

/-- What select16 picks. -/
def pick16 (h : BitVec 16) : Option Pick :=
  match (h.extractLsb' 0 2).toNat, (h.extractLsb' 2 3).toNat with
  | 0, 0 => if (h.extractLsb' 8 8) == 0 then none else some ⟨((h.extractLsb' 8 8) != 0), some (codeCAddisp (h.extractLsb' 5 3) (h.extractLsb' 8 8)), execCAddisp (h.extractLsb' 5 3) (h.extractLsb' 8 8)⟩
  | 0, 1 => some ⟨true, some (codeCLd (h.extractLsb' 5 3) (h.extractLsb' 8 3) (h.extractLsb' 11 5)), execCLd (h.extractLsb' 5 3) (h.extractLsb' 8 3) (h.extractLsb' 11 5)⟩
  | 0, 2 => some ⟨true, some (codeCSt (h.extractLsb' 5 3) (h.extractLsb' 8 3) (h.extractLsb' 11 5)), execCSt (h.extractLsb' 5 3) (h.extractLsb' 8 3) (h.extractLsb' 11 5)⟩
  | 0, 3 => some ⟨true, some (codeCWaittk (h.extractLsb' 8 8)), execCWaittk (h.extractLsb' 8 8)⟩
  | 1, 0 => if (h.extractLsb' 5 5) == 0 then none else some ⟨(notX0 (h.extractLsb' 5 5)), some (codeCAddi (h.extractLsb' 5 5) (h.extractLsb' 10 6)), execCAddi (h.extractLsb' 5 5) (h.extractLsb' 10 6)⟩
  | 1, 1 => if (h.extractLsb' 5 5) == 0 then none else some ⟨(notX0 (h.extractLsb' 5 5)), some (codeCLi (h.extractLsb' 5 5) (h.extractLsb' 10 6)), execCLi (h.extractLsb' 5 5) (h.extractLsb' 10 6)⟩
  | 1, 2 => pickCAlu h
  | 1, 3 => some ⟨true, some (codeCJ (h.extractLsb' 5 11)), execCJ (h.extractLsb' 5 11)⟩
  | 1, 4 => some ⟨true, some (codeCBeqz (h.extractLsb' 5 3) (h.extractLsb' 8 8)), execCBeqz (h.extractLsb' 5 3) (h.extractLsb' 8 8)⟩
  | 1, 5 => some ⟨true, some (codeCBnez (h.extractLsb' 5 3) (h.extractLsb' 8 8)), execCBnez (h.extractLsb' 5 3) (h.extractLsb' 8 8)⟩
  | 2, 0 => if (h.extractLsb' 5 5) == 0 then none else some ⟨(notX0 (h.extractLsb' 5 5)), some (codeCSlli (h.extractLsb' 5 5) (h.extractLsb' 10 6)), execCSlli (h.extractLsb' 5 5) (h.extractLsb' 10 6)⟩
  | 2, 1 => if (h.extractLsb' 5 5) == 0 then none else some ⟨(notX0 (h.extractLsb' 5 5)), some (codeCLdsp (h.extractLsb' 5 5) (h.extractLsb' 10 6)), execCLdsp (h.extractLsb' 5 5) (h.extractLsb' 10 6)⟩
  | 2, 2 => some ⟨true, some (codeCStsp (h.extractLsb' 5 5) (h.extractLsb' 10 6)), execCStsp (h.extractLsb' 5 5) (h.extractLsb' 10 6)⟩
  | 2, 3 => pickCReg h
  | _, _ => none

/-- What selExt picks. -/
def pickExt (hd : Head) (w c : BitVec 32) : Option Pick :=
  match (fn7 w).toNat with
  | 15 => some ⟨headOk hd, some (codeTmpl hd (fa w) (c.extractLsb' 0 4)), execTmpl hd (fa w) (c.extractLsb' 0 4)⟩
  | 23 => some ⟨headOk hd, some (codeTapeInv hd (c.extractLsb' 0 3)), execTapeInv hd (c.extractLsb' 0 3)⟩
  | 24 => some ⟨headOk hd, some (codeLi32 hd (fd w) (fa w) c), execLi32 hd (fd w) (fa w) c⟩
  | 25 => some ⟨headOk hd, some (codeXstore hd (fa w) (fb w) (c.extractLsb' 0 2)), execXstore hd (fa w) (fb w) (c.extractLsb' 0 2)⟩
  | _ => (selExtLow hd w c).map pickOf

/-- What select32 picks. -/
def pick32 (hd : Head) (w c : BitVec 32) : Option Pick :=
  if maj w == 0x3F then pickExt hd w c else (selectBase hd w).map pickOf

theorem pickCReg_eq (h : BitVec 16) : (selCReg h).map pickOf = pickCReg h := by
  simp only [selCReg, apply_ite (Option.map pickOf), Option.map_some, Option.map_none]
  rfl

theorem pickCAlu_eq (h : BitVec 16) : (selCAlu h).map pickOf = pickCAlu h := by
  unfold selCAlu pickCAlu
  generalize (h.extractLsb' 8 2).toNat = q
  generalize (h.extractLsb' 13 2).toNat = o
  rcases q with _ | _ | _ | q <;> try rfl
  rcases o with _ | _ | _ | o <;> exact apply_ite (Option.map pickOf) _ _ _

theorem pick16_eq (h : BitVec 16) : (select16 h).map pickOf = pick16 h := by
  unfold select16 pick16
  generalize (h.extractLsb' 0 2).toNat = q
  generalize (h.extractLsb' 2 3).toNat = o
  rcases q with _ | _ | _ | q <;> rcases o with _ | _ | _ | _ | _ | _ | o <;>
    first | rfl | exact pickCReg_eq h | exact pickCAlu_eq h | exact apply_ite (Option.map pickOf) _ _ _

theorem pickExt_eq (hd : Head) (w c : BitVec 32) : (selExt hd w c).map pickOf = pickExt hd w c := by
  unfold selExt pickExt
  generalize (fn7 w).toNat = q
  split <;> first | rfl | (split <;> first | rfl | (exfalso; simp_all))

theorem pick32_eq (hd : Head) (w c : BitVec 32) : (select32 hd w c).map pickOf = pick32 hd w c := by
  unfold select32 pick32
  rw [apply_ite (Option.map pickOf), pickExt_eq]

/-- decodedRun in the form that Lean's compiler can run. -/
def pickedRun (k : Code) : Except DecodeError (State → Host.Outcome State Fault Refusal) :=
  match (if k.len = 2 then pick16 (k.w.setWidth 16) else pick32 (headOf k.w (k.mask.getD 0)) k.w k.c) with
  | none => .error .illegal
  | some p => if p.ok && p.code == some k then .ok p.run else .error .reserved

@[csimp] theorem decodedRun_eq : @decodedRun = @pickedRun := by
  funext k
  unfold decodedRun pickedRun decodeCode
  rw [← pick16_eq, ← pick32_eq, ← apply_ite (Option.map pickOf)]
  generalize (if k.len = 2 then select16 (k.w.setWidth 16) else select32 (headOf k.w (k.mask.getD 0)) k.w k.c) = o
  cases o with
  | none => rfl
  | some i =>
    simp only [Option.map_some, pickOf]
    by_cases hk : (fieldsOk i && encode i == some k) = true
    · rw [if_pos hk, if_pos hk]
    · rw [if_neg hk, if_neg hk]

/-! ### A turn of a hart -/

/-- Steps 1 to 4 of R222 on a fetched encoding: the effect of its instruction, or the trap of cause 0x01 or 0x02. -/
def runCode (k : Code) (s : State) : Host.Outcome State Fault Refusal :=
  match decodedRun k with
  | .ok f => f s
  | .error e => .next (trapInstr e.cause k s)

/-- The outcome of a fetch that stops: one that waits makes the hart wait (R33, R57, R84, R152), the rest are precise traps (R81, R391). -/
def stopFetch (e : FetchStop) (s : State) : State :=
  match e with
  | .held => s.modMe (fun h => { h with wait := some (h.wait.getD .fetch) })
  | .fault c va => trapVal c va s
  | .uncorr w va => trapUncorr w va s

/-- The words of an instruction have been fetched: what was read for them is used, and it waits for them no more. -/
def State.fetchedAll (s : State) : State :=
  if s.me.fetchDone then s
  else (s.dropReads s.myCore (.instr s.cur)).modMe (fun h => { h with wait := none })

/-- The instruction at the program counter of the issuing hart: its words are fetched and their selectors and fields checked;
then its live-mask word, if it has one, is fetched; then it has its effect (R180, R216, R222). -/
def runInstr (s : State) : Host.Outcome State Fault Refusal :=
  match s.fetchBase s.cur s.me.pc with
  | (s1, .error e) => .next (stopFetch e s1)
  | (s1, .ok k) =>
    if k.mask.isNone then runCode k s1.fetchedAll
    else
      match decodedRun k with
      | .error e => .next (trapInstr e.cause k s1.fetchedAll)
      | .ok _ =>
        match s1.fetchMask s1.cur s1.me.pc k with
        | (s2, .error e) => .next (stopFetch e s2)
        | (s2, .ok k2) => runCode k2 s2.fetchedAll

/-- Whether an outcome leaves a hart waiting at its instruction. -/
def waitsAt (id : HartId) (o : Host.Outcome State Fault Refusal) : Bool :=
  match o with
  | .next t => (match (t.hart id).wait with | some w => !w.parked | none => false)
  | _ => false

/-- A hart is ready when it may issue and its next instruction has no unmet wait (R172). -/
def State.ready (s : State) (id : HartId) : Bool := s.canIssue id && !waitsAt id (runInstr { s with cur := id })

/-- The other ready threads of the core of a thread. -/
def State.rivals (s : State) (id : HartId) : List HartId :=
  if id.kind = .thread then (threadsOf id.core).filter (fun g => g != id && s.ready g) else []

/-- Whether a hart comes before each ready rival of its core (R172). -/
def State.first (s : State) (id : HartId) (rivals : List HartId) : Bool := rivals.all (fun g => !s.precedes g id)

/-- The issue of a hart, where it may issue and no ready thread of its core comes before it; an instruction that waits has not issued
(R172). -/
def State.issueTurn (s : State) (id : HartId) : Option (Host.Outcome State Fault Refusal) :=
  if s.canIssue id then
    let rivals := s.rivals id
    if s.first id rivals then
      match runInstr { s with cur := id } with
      | .next t => some (.next (if waitsAt id (.next t) then t else (t.noteIssue id rivals).noteCommit id))
      | o => some o
    else none
  else none

/-- The turn of a hart: one that cannot issue lets it pass. -/
def runHart (id : HartId) (s : State) : Host.Outcome State Fault Refusal := (s.issueTurn id).getD (.next s)

/-! ### What happens next when the agenda names nothing (log 5) -/

/-- An effect where its condition holds. -/
def guarded (ready : Bool) (f : State → State) (s : State) : Option State := if ready then some (f s) else none

/-- The first of some events that can happen. -/
def firstOf (fs : List (State → Option State)) (s : State) : Option State :=
  match fs with
  | [] => none
  | f :: r => match f s with | some t => some t | none => firstOf r s

/-- The first thing of a list for which an event can happen. -/
def firstAt {α : Type} (xs : List α) (f : α → State → Option State) (s : State) : Option State :=
  match xs with
  | [] => none
  | x :: r => match f x s with | some t => some t | none => firstAt r f s

/-- The events of a hart that can happen by themselves. -/
def hartEvents (id : HartId) : List (State → Option State) :=
  [ fun s => firstAt (s.hart id).busy.flights (fun f s => s.tokenSignal id f.cmd.seq) s,
    fun s => firstAt (s.hart id).busy.flights (fun f s => guarded (tileLoadSegmentReady id f.cmd.seq s) (tileLoadSegmentEffect id f.cmd.seq) s) s,
    fun s => firstAt (List.range 7) (fun q s => s.queueLeave id q) s,
    fun s => guarded (tapePlayStartReady id s) (tapePlayStartEffect id) s,
    fun s => guarded (tapeRecordIssueReady id s) (tapeRecordIssueEffect id) s,
    fun s => guarded (tapeBarrierReady id s) (tapeBarrierEffect id) s,
    fun s => guarded (tapePlayEndReady id s) (tapePlayEndEffect id) s,
    fun s => guarded (loadCompleteReady id s) (loadCompleteEffect id) s,
    fun s => s.storeHead id,
    fun s => guarded (repcommitStartReady id s) (repcommitStartEffect id) s,
    fun s => firstAt (match (s.hart id).busy.commit with | some c => c.retry.map (·.1) | none => [])
      (fun core s => guarded (repcommitRetryReady id core s) (repcommitRetryEffect id core) s) s,
    fun s => guarded (ldlRetryReady id s) (ldlRetryEffect id) s,
    fun s => firstAt (List.range (s.hart id).busy.mbx.length) (fun n s => guarded (watchRetryReady id n s) (watchRetryEffect id n) s) s,
    fun s => guarded (safePointTakeReady id s) (safePointTakeEffect id) s,
    fun s => guarded (unitEndReady id s) (unitEndEffect id) s ]

/-- The events of the reply channel. -/
def replyEvent (n : Nat) (s : State) : Option State :=
  match s.dev.replies[n]? with
  | none => none
  | some r =>
    let t := s.dropReply n
    if r.kind = .fill then some (replyFillEffect r t)
    else if r.kind = .endNotice then some (travellerEndEffect r t)
    else if r.kind = .accept then some (acceptanceEffect r t)
    else if r.isGrant then some (repcommitGrantEffect r t)
    else if r.kind = .repAck then some (commitAnswer r t)
    else if r.isVote then some (xcommitVoteEffect r t)
    else if r.kind = .ack then some (xcommitAckEffect r t)
    else if r.isNack then some (nackEffect r t)
    else none

/-- The events of the network. -/
def netEvent (n : Nat) (s : State) : Option State :=
  match s.dev.net[n]? with
  | none => none
  | some m =>
    match m.router with
    | some (c, _) => guarded (bfreeCombineReady c n s) (bfreeCombineEffect c n) s
    | none => s.messageArrives n

/-- The service of the calls or the travellers of a core. -/
def callEvent (core : Nat) (k : MsgKind) (s : State) : Option State := s.serve core (fun m => m.kind == k) (serveCall core)

/-- The service of an arrival of a core. -/
def arrivalEvents (core : Nat) : List (State → Option State) :=
  [ fun s => s.serve core (fun m => m.kind == .rload) (serveRload core),
    fun s => s.serve core (fun m => m.kind == .rstore) (serveRstore core),
    fun s => s.serve core (fun m => m.kind == .ramo) (serveRamo core),
    fun s => s.serve core (fun m => m.kind == .mbxadd) (serveMbxadd core),
    fun s => s.serve core (fun m => m.kind == .mbxwatch) (serveMbxwatch core),
    fun s => callEvent core .rcall s,
    fun s => callEvent core .travel s,
    fun s => s.copyreq core,
    fun s => s.serve core (fun m => m.kind == .chunk) (serveChunk core),
    fun s => s.serve core (fun m => m.kind == .repcommit && m.sub == 0) (serveRepLock core),
    fun s => s.serve core (fun m => m.kind == .repcommit && m.sub == 1) (serveRepData core),
    fun s => s.serve core (fun m => m.kind == .xact && m.sub == 0) (serveXactLock core),
    fun s => s.serve core (fun m => m.kind == .xact && m.sub == 1) (serveXactData core),
    fun s => s.serve core (fun m => m.kind == .xact && m.sub == 2) (serveXactUnlock core),
    fun s => s.vpjob core,
    fun s => s.vpjobComplete core,
    fun s => firstAt (((s.core core).ht.filter (fun (e : Nat × HEntry) => e.2.st == .busy)).map (·.1)) (fun n s => s.entryWritten core n) s ]

/-- The events of a bank, and the write buffer of its vault. -/
def bankEvents (core b : Nat) : List (State → Option State) :=
  [ fun s => guarded (holdEndReady core b s) (holdEndEffect core b) s,
    fun s => guarded (refreshEndReady core b s) (refreshEndEffect core b) s,
    fun s => guarded (repairSwitchReady core b s) (repairSwitchEffect core b) s,
    fun s => guarded (repairCopyReady core b s) (repairCopyEffect core b) s,
    fun s => guarded (s.bankReady core b) (bankRequestEffect core b) s,
    fun s => guarded (holdStartReady core b s) (holdStartEffect core b) s,
    fun s => guarded (repairStartReady core b s) (repairStartEffect core b) s ]

/-- The events of a vault. -/
def vaultEvents (core : Nat) (s : State) : Option State :=
  match firstAt ((s.vault core).banks.map (·.1)) (fun b => firstOf (bankEvents core b)) s with
  | some t => some t
  | none => firstAt (List.range (s.vault core).wbuf.length) (fun n s => s.drain core n) s

/-- The events of a cluster. -/
def clusterEvents (cl : Nat) : List (State → Option State) :=
  [ fun s => firstAt (s.cluster cl).pq (fun q s => guarded (s.poolGrant cl q.bank).isSome (poolBankAccessEffect cl q.bank) s) s,
    fun s => guarded (s.leaseNext cl).isSome (leaseGrantEffect cl) s,
    fun s => firstAt (List.range 2) (fun n s => guarded (slotDrainedReady cl n s) (slotDrainedEffect cl n) s) s,
    fun s => guarded (s.lvuNext cl).isSome (lvuTakeEffect cl) s,
    fun s => guarded (clusterSaveReady cl s) (clusterSaveEffect cl) s,
    fun s => guarded (saveCompleteReady cl s) (saveCompleteEffect cl) s,
    fun s => guarded (lockstepMismatchReady cl s) (lockstepMismatchEffect cl) s ]

/-- Dispatch of a launch. -/
def launchEvents (k l : Nat) : List (State → Option State) :=
  [ fun s => guarded (launchReadyReady k l s) (launchReadyEffect k l) s,
    fun s => guarded (gangBindReady k l s) (gangBindEffect k l) s,
    fun s => firstAt ((List.range (recUnits (s.launchOf k l).record)).drop (s.launchOf k l).next)
      (fun u => firstAt (List.range 4) (fun n s => guarded (unitDispatchReady k l u n s) (unitDispatchEffect k l u n) s)) s ]

/-- The events of a stack. -/
def stackEvents (k : Nat) : List (State → Option State) :=
  [ fun s => guarded (!(s.stk k).notices.isEmpty) (supervisorNoticeEffect k) s,
    fun s => (s.nextMiss k).map (fun m => tlbMissEffect m.2.who.hart s),
    fun s => firstAt (List.range (s.stk k).walks.length) (fun n s => guarded (walkStepReady k n s) (walkStepEffect k n) s) s,
    fun s => firstAt (List.range (s.stk k).walks.length) (fun n s => guarded (ptreadReady k n s) (ptreadEffect k n) s) s,
    fun s => firstAt ((s.stk k).hqs.map (fun (e : Nat × Hq) => 16 * k + e.1)) (fun q s => guarded (launchRecordAcceptReady q s) (launchRecordAcceptEffect q) s) s,
    fun s => firstAt ((s.stk k).hqs.map (fun (e : Nat × Hq) => 16 * k + e.1)) (fun q s => guarded (recordFlushReady q s) (recordFlushEffect q) s) s,
    fun s => firstAt ((s.stk k).launches.map (·.1)) (fun l => firstOf (launchEvents k l)) s ]

/-- A saved unit that can resume. -/
def resumeEvent (s : State) : Option State :=
  firstAt s.allSaves (fun e s => match s.resumeSlot e.2 with | some h => s.resume e.2.owner h | none => none) s

/-- The first device event that can happen by itself; timers, refreshes, errors and what comes from outside stand in the agenda
alone. -/
def State.nextEvent (s : State) : Option State :=
  firstOf
    [ fun s => firstAt s.dev.rolls (fun e s => guarded (rollbackReady e.1 e.2 s) (rollbackEffect e.1) s) s,
      fun s => firstAt (List.range s.dev.replies.length) replyEvent s,
      fun s => firstAt (s.harts.map (·.1)) (fun h => firstOf (hartEvents h)) s,
      fun s => firstAt (s.vaults.map (·.1)) vaultEvents s,
      fun s => firstAt (s.cores.map (·.1)) (fun c => firstOf (arrivalEvents c)) s,
      fun s => firstAt (List.range s.dev.net.length) netEvent s,
      fun s => firstAt (s.clusters.map (·.1)) (fun c => firstOf (clusterEvents c)) s,
      fun s => firstAt (List.range 4) (fun k => firstOf (stackEvents k)) s,
      resumeEvent ] s

/-- The order in which the harts are asked for their next instruction: those after the one that issued last, then the others, but for
the management cores, whose turns stand in the agenda. -/
def State.candidates (s : State) : List HartId :=
  let hs := (s.harts.map (·.1)).filter (fun h => h.kind != .mgmt)
  let n := hs.idxOf s.cur + 1
  hs.drop n ++ hs.take n

/-- The first hart of a list that may issue and whose instruction does not stand and wait as before, issued; none where there is none. -/
def firstRun (hs : List HartId) (s : State) : Option (Host.Outcome State Fault Refusal) :=
  match hs with
  | [] => none
  | h :: r =>
    match s.issueTurn h with
    | none => firstRun r s
    | some (.next t) =>
      if waitsAt h (.next t) && (s.hart h).wait == (t.hart h).wait && t.dev.asks == s.dev.asks then firstRun r s else some (.next t)
    | some o => some o

/-- What happens when the agenda names nothing: an event that can happen; else the instruction of a hart that can issue; else the
time passes (DESIGN CHOICE, unsafe; log 8). -/
def runNext (s : State) : Host.Outcome State Fault Refusal :=
  if s.dev.recovery then .next s
  else
    match s.nextEvent with
    | some t => .next t
    | none =>
      match firstRun s.candidates s with
      | some o => o
      | none => .next s

/-! ### Turns -/

/-- Whether a load in flight reads a word, or a reader has read it ahead of the rest of its access: an error that falls on it then comes after
its read (DESIGN CHOICE, unsafe; log 110). -/
def State.wordInFlight (s : State) (w : Nat) : Bool :=
  s.harts.any (fun (e : HartId × Hart) =>
    e.2.busy.loads.any (fun l => l.parts.any (fun p => decide (p.1 < 8 * w + 8) && decide (8 * w < p.1 + p.2)))) ||
  s.dev.early.any (fun e => e.2.1 / 8 == w)

/-- Whether the device acts on a turn while it is in recovery: only firmware update is answered, until a reset or a new power-up (R410, R412). -/
def Act.inRecovery (a : Act) : Bool :=
  match a with
  | .event e =>
    (match e with
     | .mctpRequest _ | .firmwareUpdate _ | .deviceReset | .powerUp _ => true
     | _ => false)
  | _ => false

/-- A turn of the agenda: the issue of a hart, bytes fetched ahead (R260), a unit of an access ahead of the others (R134), a device
event, what comes from outside, what management reads back (R406), or an error. In recovery most have no effect (R410). -/
def runAct (a : Act) (s : State) : Host.Outcome State Fault Refusal :=
  if s.dev.recovery && !a.inRecovery then .next s
  else
    match a with
    | .issue h => runHart h s
    | .fetchAhead h va n => .next (if (s.hart h).st = .running then s.fetchAhead h va n else s)
    | .storeUnit h n => .next (s.storeUnit h n)
    | .loadUnit h num n => .next (s.loadUnit h num n)
    | .readUnit who pa => .next (s.readUnit who pa)
    | .writeUnit who n => .next (s.writeUnit who n)
    | .event e => if (encode e).isNone && e.wellFormed then exec e s else .next s
    | .arrive m => .next ((s.fromLink m).getD s)
    | .train p => .next (if p < 8 then s.train p else s)
    | .readHart h => .next (s.readBack (.hart h (s.hart h)))
    | .readCore c => .next (s.readBack (.core c (s.core c)))
    | .readVault c => .next (s.readBack (.vault c (s.vault c)))
    | .readCluster c => .next (s.readBack (.cluster c (s.cluster c)))
    | .readStack k => .next (s.readBack (.stack k (s.stk k)))
    | .trailError cl n r v => .next (s.trailError cl n r v)
    | .corrupt w => .next (if s.bad.contains w || s.wordInFlight w then s else { s with bad := w :: s.bad })
    | .corruptLine core n w =>
      .next (if w < 8 then
          s.modVault core (fun v => { v with wbuf := v.wbuf.modify n (fun l => { l with bad := if l.bad.contains w then l.bad else w :: l.bad }) })
        else s)
    | .poison cl slot row vis =>
      .next (if slot < 2 ∧ row < 128 then
          s.modSlot cl slot (fun l => if vis then { l with poisonV := row :: l.poisonV } else { l with poisonW := row :: l.poisonW })
        else s)
    | .corruptBuf cl slot b w => .next (if slot < 2 then s.modSlot cl slot (fun l => { l with ecc := (b, w) :: l.ecc }) else s)

/-! ### What time brings -/

/-- The events of a vault whose moment its rules give, each with that moment: refresh slots and the ends of refreshes (R55, R56), holds
(R65, R66) and the switch of a repair (R58). -/
def State.timedAt (s : State) (core : Nat) : List (Nat × (State → Option State)) :=
  let v := s.vault core
  (max ((s.stk (stackOf core)).resetClk + v.slotClk) (s.bank core (v.slotN % 32)).segEnd,
    fun s => guarded (refreshSlotReady core s) (refreshSlotEffect core) s) ::
  v.banks.flatMap (fun (e : Nat × Bank) =>
    let b := e.1
    [(e.2.refreshEnd.getD 0, fun s => guarded (refreshEndReady core b s) (refreshEndEffect core b) s),
     (after (e.2.hold.map (·.2)) Config.tRFM, fun s => guarded (holdEndReady core b s) (holdEndEffect core b) s),
     (e.2.holdClk, fun s => guarded (holdStartReady core b s) (holdStartEffect core b) s),
     (after e.2.preClk Config.tRP, fun s => guarded (repairSwitchReady core b s) (repairSwitchEffect core b) s)])

/-- The earlier of two dated states. -/
def earlier (a b : Option (Nat × State)) : Option (Nat × State) :=
  match a, b with
  | some x, some y => if y.1 < x.1 then b else a
  | some _, none => a
  | none, _ => b

/-- The state after the first of the events of the vaults in use whose moment comes before a clk, which happens at its moment. -/
def State.due (s : State) (now : Nat) : Option State :=
  ((s.vaults.flatMap (fun (e : Nat × Vault) => s.timedAt e.1)).foldl (fun t x =>
    if x.1 < now then earlier t ((x.2 { s with clk := max s.clk x.1 }).map (fun u => (max s.clk x.1, u))) else t) none).map (·.2)

/-- The clk to which the next turn takes the device: its own, or the next where the agenda names none. -/
def State.nextClk (s : State) : Nat :=
  match s.agenda with
  | [] => s.clk + 1
  | t :: _ => max s.clk t.clk

/-- What happens before the next turn: the next layer of a power-up comes up (R412), or, where the turn comes at a later clk, an event of a
vault that is due before it (DESIGN CHOICE, unsafe; log 135). -/
def State.beforeTurn (s : State) : Option State :=
  if !s.dev.bringUp.isEmpty then some s.layerUpNext
  else if s.clk < s.nextClk then s.due s.nextClk
  else none

/-- The waits whose length the device measures, noted as they begin and end: on held lines (R152) and on BUSY handler entries (R113). -/
def State.noteTurn (s : State) : State :=
  (s.cores.filter (fun (e : Nat × Core) => e.2.ondie.any Msg.needsCtx)).foldl
    (fun s (e : Nat × Core) => (s.noteBusy e.1 .rcall).noteBusy e.1 .travel) s.noteAllWaits

/-- The outcome of a turn with those waits noted. -/
def noted (o : Host.Outcome State Fault Refusal) : Host.Outcome State Fault Refusal :=
  match o with
  | .next t => .next t.noteTurn
  | o => o

/-! ### A program placed from outside (log 5) -/

/-- The hart whose program is placed: slot 0 of core 0. -/
def loadHart : HartId := ⟨.thread, 0, 0⟩

/-- Where a placed program begins, in the vault of core 0. -/
def loadBase : Nat := 0x1000

/-- Tables that map the first 2 MB of the vault of core 0 to themselves, readable, writable, executable and reachable from kernel
level (R23, R24). -/
def loadTables (m : Memory) : Memory :=
  ((m.write 0x1FD000 (bytesOf 8 0x1FE0001)).write 0x1FE000 (bytesOf 8 0x1FF0001)).write 0x1FF000 (bytesOf 8 0x9F)

/-- The leaf of those 2 MB. -/
def loadLeaf : TlbEnt :=
  { asid := 0, va := 0, size := 0x200000, pa := 0, r := true, w := true, x := true, u := true, g := false, clid := 0, rep := none }

/-- A unit dispatched by R169 into slot 0 of core 0 with its program at loadBase, as the scheduler would after a launch whose
pages hold these bytes, its page in the TLB of its core; the bytes have been fetched (R260), and its instruction issues next. -/
def State.loaded (s : State) (bs : List Byte) : State :=
  let s := s.modHart loadHart (fun h =>
    { Hart.reset with
      pc := BitVec.ofNat 64 loadBase, st := .running, epoch := h.epoch + 1, fetched := bs.zipIdx.map (fun b => (loadBase + b.2, b.1))
      csr := { HartCsrs.reset with ptroot := 0x1FD0001 } })
  let s := s.modCore 0 (fun c => { c with tlb := [loadLeaf], passed := [(0, 4)], order := 0 :: c.order.filter (· != 0) })
  let s := s.modVault 0 (fun v => { v.drop (.instr loadHart) with wbuf := [], locks := [], banks := v.banks.set (bankOf loadBase) Bank.reset })
  { s with
    mem := (loadTables s.mem).write loadBase bs
    bad := s.bad.filter (fun w => decide (region (8 * w) ≠ 0))
    cur := loadHart, agenda := [⟨s.clk, .issue loadHart⟩] }

end Machine

end Sys2Proof
end

