-- ==== Sys2Proof/Machine/Step.lean ====
section
/-! DEFINITION. Sys2Proof/Machine/Step.lean: one step of the device. A step takes the next turn of the agenda, at its time, once what is
due before it has happened; when the agenda is empty, one clk passes and what can happen by itself does (log 5). -/

namespace Sys2Proof.Machine

/-- One step. -/
def step (s : State) : Host.Outcome State Fault Refusal :=
  match s.beforeTurn with
  | some t => noted (.next t)
  | none =>
    match s.agenda with
    | [] => noted (runNext { s with clk := s.clk + 1 })
    | t :: r => noted (runAct t.act { s with agenda := r, clk := max s.clk t.clk })

/-- The state with an instruction placed where the next step fetches it: the instruction whose bits the opcode table numbers as
w, every bit above nbits zero. -/
def State.withFetchWord (s : State) (nbits w : Nat) : State := s.loaded (tableBytes nbits w)

end Sys2Proof.Machine
end

