-- ==== Sys2Proof/Safety.lean ====
section
/-! DEFINITION. Sys2Proof/Safety.lean: what counts as a safe run: no step stops, and memory keeps its canonical form; and the terms
in which statements say that an instruction finds its registers as it needs them. -/

namespace Sys2Proof.Machine

/-- A state from which the next step does not stop. -/
def State.goes (s : State) : Prop := ∃ t, step s = .next t

/-- The invariant of memory: addresses strictly rising, no entry of the value that an unlisted address reads as. -/
def State.memOk (s : State) : Prop := s.mem.wf = true

/-- A run of k steps that never stops and keeps memory in its canonical form. -/
def State.safeFor (k : Nat) (s : State) : Prop :=
  match k with
  | 0 => s.memOk
  | n + 1 => s.memOk ∧ ∃ t, step s = .next t ∧ t.safeFor n

/-- The registers that an instruction names let it go on (R183, R184, R268): its sources are FULL, its destinations FULL or VOID, no
load in flight has yet to write one of them, and its live mask leaves bit 27 clear (R180). -/
def State.clear (s : State) (hd : Head) (srcs dsts : List RegRef) : Prop :=
  (hd.s && hd.mask.getLsbD 27) = false ∧ (∀ r ∈ srcs, s.regSt r = .full ∧ s.loading r = false) ∧
  (∀ r ∈ dsts, (s.regSt r = .void ∨ s.regSt r = .full) ∧ s.loading r = false)

/-- The issuing hart stands at a new instruction: it has asked the banks of its vault for nothing, waits for no pool lock and has read nothing
ahead (R95, R134, R148). -/
def State.fresh (s : State) : Prop :=
  (s.vault s.myCore).reads (.instr s.cur) = false ∧ s.lockHeld s.cur = s.me.lock ∧ s.dev.early.any (fun e => e.1 == .instr s.cur) = false

/-- The issuing hart is a thread or a management core, no handler context (R101), and holds no pool lock (R97). -/
def State.freeThread (s : State) : Prop := s.cur.isCtx = false ∧ s.me.lock = none

end Sys2Proof.Machine
end

