-- ==== Sys2Proof/Certificates/Slice0/Obligations.lean ====
section
/-! DEFINITION. Sys2Proof/Certificates/Slice0/Obligations.lean: the statements for the provers, from the numbered rules of the spec. -/

namespace Sys2Proof.Claims

open Sys2Proof.Machine

/-- An instruction completes at its sequential successor having written v to rd (R217, R240). -/
def gives (i : Instr) (hd : Head) (d : Reg) (v : Word) (s : State) : Prop :=
  exec i s = .next (finish (codeOf i) hd (s.wx d v))

/-- An instruction completes at its sequential successor in the state t. -/
def completes (i : Instr) (hd : Head) (t : State) (s : State) : Prop := exec i s = .next (finish (codeOf i) hd t)

/-- The value that holds 1 where a condition holds and 0 elsewhere. -/
def truth (p : Prop) [Decidable p] : Word := if p then 1 else 0

/-- The low 32 bits, sign-extended (R240). -/
def sign32 (v : Int) : Word := BitVec.ofInt 64 (v.bmod (2 ^ 32))

/-- A number clamped to the signed 64-bit range (R241). -/
def clamped (v : Int) : Word := BitVec.ofInt 64 (max (-(2 ^ 63)) (min (2 ^ 63 - 1) v))

end Sys2Proof.Claims

open Sys2Proof Sys2Proof.Machine Sys2Proof.Claims

/-! ### Scalar arithmetic (R240 to R248) -/

/-- R241: every ALU instruction whose registers are clear writes its value and completes. -/
def Obligations.AluRegister : Prop :=
  ∀ (hd : Head) (d a b : Reg) (s : State), s.clear hd [.x a, .x b] [.x d] →
    let A := s.rx a
    let B := s.rx b
    let n := B.toNat % 64
    gives (.add hd d a b) hd d (BitVec.ofNat 64 (A.toNat + B.toNat)) s ∧
    gives (.sub hd d a b) hd d (BitVec.ofInt 64 (A.toInt - B.toInt)) s ∧
    gives (.and hd d a b) hd d (A &&& B) s ∧
    gives (.or hd d a b) hd d (A ||| B) s ∧
    gives (.xor hd d a b) hd d (A ^^^ B) s ∧
    gives (.sll hd d a b) hd d (BitVec.ofNat 64 (A.toNat * 2 ^ n)) s ∧
    gives (.srl hd d a b) hd d (BitVec.ofNat 64 (A.toNat / 2 ^ n)) s ∧
    gives (.sra hd d a b) hd d (BitVec.ofInt 64 (A.toInt / 2 ^ n)) s ∧
    gives (.rol hd d a b) hd d ((A <<< n) ||| (A >>> (64 - n))) s ∧
    gives (.ror hd d a b) hd d ((A >>> n) ||| (A <<< (64 - n))) s ∧
    gives (.slt hd d a b) hd d (truth (A.toInt < B.toInt)) s ∧
    gives (.sltu hd d a b) hd d (truth (A.toNat < B.toNat)) s ∧
    gives (.min hd d a b) hd d (BitVec.ofInt 64 (min A.toInt B.toInt)) s ∧
    gives (.max hd d a b) hd d (BitVec.ofInt 64 (max A.toInt B.toInt)) s ∧
    gives (.minu hd d a b) hd d (BitVec.ofNat 64 (min A.toNat B.toNat)) s ∧
    gives (.maxu hd d a b) hd d (BitVec.ofNat 64 (max A.toNat B.toNat)) s ∧
    gives (.addw hd d a b) hd d (sign32 (A.toInt + B.toInt)) s ∧
    gives (.subw hd d a b) hd d (sign32 (A.toInt - B.toInt)) s ∧
    gives (.andn hd d a b) hd d (A &&& ~~~B) s ∧
    gives (.orn hd d a b) hd d (A ||| ~~~B) s ∧
    gives (.addsat hd d a b) hd d (clamped (A.toInt + B.toInt)) s ∧
    gives (.subsat hd d a b) hd d (clamped (A.toInt - B.toInt)) s

/-- R242 to R244: the immediate instructions, LHI, ADDPC and LI32. -/
def Sys2Proof.Claims.aluImmediate : Prop :=
  ∀ (hd : Head) (d a : Reg) (i : BitVec 12) (n : BitVec 6) (j : BitVec 17) (w : BitVec 32) (s : State),
    s.clear hd [.x a] [.x d] →
    let A := s.rx a
    gives (.addi hd d a i) hd d (BitVec.ofInt 64 (A.toInt + i.toInt)) s ∧
    gives (.andi hd d a i) hd d (A &&& BitVec.ofInt 64 i.toInt) s ∧
    gives (.ori hd d a i) hd d (A ||| BitVec.ofInt 64 i.toInt) s ∧
    gives (.xori hd d a i) hd d (A ^^^ BitVec.ofInt 64 i.toInt) s ∧
    gives (.slli hd d a n) hd d (BitVec.ofNat 64 (A.toNat * 2 ^ n.toNat)) s ∧
    gives (.srli hd d a n) hd d (BitVec.ofNat 64 (A.toNat / 2 ^ n.toNat)) s ∧
    gives (.srai hd d a n) hd d (BitVec.ofInt 64 (A.toInt / 2 ^ n.toNat)) s ∧
    gives (.rori hd d a n) hd d ((A >>> n.toNat) ||| (A <<< (64 - n.toNat))) s ∧
    gives (.slti hd d a i) hd d (truth (A.toInt < i.toInt)) s ∧
    gives (.sltiu hd d a i) hd d (truth (A.toNat < (BitVec.ofInt 64 i.toInt).toNat)) s ∧
    gives (.lhi hd d j) hd d (BitVec.ofInt 64 (j.toInt * 2 ^ 12)) s ∧
    gives (.addpc hd d j) hd d (BitVec.ofInt 64 (s.me.pc.toInt + j.toInt * 2 ^ 12)) s ∧
    gives (.li32 hd d a w) hd d
      (if a = 0 then BitVec.ofInt 64 w.toInt else BitVec.ofNat 64 (A.toNat % 2 ^ 32 * 2 ^ 32 + w.toNat)) s

/-- R245: multiplication and division. -/
def Obligations.MultiplyDivide : Prop :=
  ∀ (hd : Head) (d a b : Reg) (s : State), s.clear hd [.x a, .x b] [.x d] →
    let A := s.rx a
    let B := s.rx b
    gives (.mul hd d a b) hd d (BitVec.ofNat 64 (A.toNat * B.toNat)) s ∧
    gives (.mulh hd d a b) hd d (BitVec.ofInt 64 (A.toInt * B.toInt / 2 ^ 64)) s ∧
    gives (.mulhu hd d a b) hd d (BitVec.ofNat 64 (A.toNat * B.toNat / 2 ^ 64)) s ∧
    gives (.mulhsu hd d a b) hd d (BitVec.ofInt 64 (A.toInt * (B.toNat : Int) / 2 ^ 64)) s ∧
    gives (.mulw hd d a b) hd d (sign32 (A.toInt * B.toInt)) s ∧
    gives (.div hd d a b) hd d
      (if B = 0 then BitVec.ofInt 64 (-1) else BitVec.ofInt 64 (A.toInt.tdiv B.toInt)) s ∧
    gives (.divu hd d a b) hd d (if B = 0 then BitVec.ofInt 64 (-1) else BitVec.ofNat 64 (A.toNat / B.toNat)) s ∧
    gives (.rem hd d a b) hd d (BitVec.ofInt 64 (A.toInt - B.toInt * A.toInt.tdiv B.toInt)) s ∧
    gives (.remu hd d a b) hd d (BitVec.ofNat 64 (A.toNat % B.toNat)) s

/-- R246 to R248: bit manipulation, each value by its bits. -/
def Obligations.BitManipulation : Prop :=
  ∀ (hd : Head) (d a b : Reg) (s : State), s.clear hd [.x a, .x b, .x d] [.x d] →
    let A := s.rx a
    let B := s.rx b
    let pos := B.toNat % 64
    let len := min (B.toNat / 64 % 64 + 1) (64 - pos)
    (∃ n ≤ 64, gives (.clz hd d a) hd d (BitVec.ofNat 64 n) s ∧
      (∀ k < n, A.getLsbD (63 - k) = false) ∧ (n < 64 → A.getLsbD (63 - n) = true)) ∧
    (∃ n ≤ 64, gives (.ctz hd d a) hd d (BitVec.ofNat 64 n) s ∧
      (∀ k < n, A.getLsbD k = false) ∧ (n < 64 → A.getLsbD n = true)) ∧
    gives (.popc hd d a) hd d (BitVec.ofNat 64 ((List.range 64).countP (fun k => A.getLsbD k))) s ∧
    (∃ v : Word, gives (.brev hd d a) hd d v s ∧ ∀ k < 64, v.getLsbD k = A.getLsbD (63 - k)) ∧
    (∃ v : Word, gives (.bswap hd d a) hd d v s ∧ ∀ k < 64, v.getLsbD k = A.getLsbD (8 * (7 - k / 8) + k % 8)) ∧
    gives (.sextb hd d a) hd d (BitVec.ofInt 64 (A.toInt.bmod (2 ^ 8))) s ∧
    gives (.sexth hd d a) hd d (BitVec.ofInt 64 (A.toInt.bmod (2 ^ 16))) s ∧
    gives (.sextw hd d a) hd d (BitVec.ofInt 64 (A.toInt.bmod (2 ^ 32))) s ∧
    gives (.zextw hd d a) hd d (BitVec.ofNat 64 (A.toNat % 2 ^ 32)) s ∧
    (∃ p : BitVec 128,
      p = (List.range 64).foldl (fun p n => if B.getLsbD n then p ^^^ (A.setWidth 128 <<< n) else p) 0 ∧
      gives (.clmul hd d a b) hd d (p.extractLsb' 0 64) s ∧
      gives (.clmulh hd d a b) hd d (p.extractLsb' 64 64) s ∧
      gives (.clmulr hd d a b) hd d (p.extractLsb' 63 64) s) ∧
    (∃ v : Word, gives (.bfx hd d a b) hd d v s ∧ ∀ k < 64, v.getLsbD k =
      if k < len then A.getLsbD (pos + k) else B.getLsbD 12 && A.getLsbD (pos + len - 1)) ∧
    (∃ v : Word, gives (.bfi hd d a b) hd d v s ∧ ∀ k < 64, v.getLsbD k =
      if pos ≤ k ∧ k < pos + len then A.getLsbD (k - pos) else (s.rx d).getLsbD k)

/-- R225: the compressed register forms act as their expansions, at their own length of two bytes. -/
def Sys2Proof.Claims.compressedAlu : Prop :=
  ∀ (d a : Reg) (e f : BitVec 3) (i : BitVec 6) (u : BitVec 8) (s : State),
    let pd := prime e
    let pb := prime f
    let plain (ik : Code) (r : Reg) (v : Word) : Host.Outcome State Fault Refusal := .next (finish ik Head.plain (s.wx r v))
    (s.clear Head.plain [.x 2] [.x pd] →
      exec (.cAddisp e u) s = plain (codeCAddisp e u) pd (s.rx 2 + BitVec.ofNat 64 (8 * u.toNat))) ∧
    (s.clear Head.plain [.x d] [.x d] →
      exec (.cAddi d i) s = plain (codeCAddi d i) d (BitVec.ofInt 64 ((s.rx d).toInt + i.toInt)) ∧
      exec (.cSlli d i) s = plain (codeCSlli d i) d (BitVec.ofNat 64 ((s.rx d).toNat * 2 ^ i.toNat))) ∧
    (s.clear Head.plain [] [.x d] → exec (.cLi d i) s = plain (codeCLi d i) d (BitVec.ofInt 64 i.toInt)) ∧
    (s.clear Head.plain [.x pd] [.x pd] →
      exec (.cSrli e i) s = plain (codeCSrli e i) pd (BitVec.ofNat 64 ((s.rx pd).toNat / 2 ^ i.toNat)) ∧
      exec (.cSrai e i) s = plain (codeCSrai e i) pd (BitVec.ofInt 64 ((s.rx pd).toInt / 2 ^ i.toNat)) ∧
      exec (.cAndi e i) s = plain (codeCAndi e i) pd (s.rx pd &&& BitVec.ofInt 64 i.toInt)) ∧
    (s.clear Head.plain [.x pd, .x pb] [.x pd] →
      exec (.cSub e f) s = plain (codeCSub e f) pd (BitVec.ofInt 64 ((s.rx pd).toInt - (s.rx pb).toInt)) ∧
      exec (.cXor e f) s = plain (codeCXor e f) pd (s.rx pd ^^^ s.rx pb) ∧
      exec (.cOr e f) s = plain (codeCOr e f) pd (s.rx pd ||| s.rx pb) ∧
      exec (.cAnd e f) s = plain (codeCAnd e f) pd (s.rx pd &&& s.rx pb)) ∧
    (s.clear Head.plain [.x a] [.x d] → exec (.cMv d a) s = plain (codeCMv d a) d (s.rx a)) ∧
    (s.clear Head.plain [.x d, .x a] [.x d] →
      exec (.cAdd d a) s = plain (codeCAdd d a) d (BitVec.ofNat 64 ((s.rx d).toNat + (s.rx a).toNat)))

/-- R225, R242 to R244: the immediate instructions, LHI, ADDPC and LI32, and the compressed register forms, which act as their expansions. -/
def Obligations.AluImmediate : Prop := Sys2Proof.Claims.aluImmediate ∧ Sys2Proof.Claims.compressedAlu

/-- R217, R177, R178: where the next instruction is found and what becomes of the loop stack: NOP (ADDI x0, x0, 0) of either
length of successor. -/
def Sys2Proof.Claims.successorAndLoopEnd : Prop :=
  ∀ (hd : Head) (i : BitVec 12) (s : State), s.clear hd [.x 0] [.x 0] →
    let next := s.me.pc + (if hd.s then 8 else 4)
    ∃ t : State, exec (.addi hd 0 0 i) s = .next t ∧
      (s.me.loops = [] → t.me.pc = next ∧ t.me.loops = []) ∧
      (∀ e r, s.me.loops = e :: r → e.stop ≠ next → t.me.pc = next ∧ t.me.loops = e :: r) ∧
      (∀ e r, s.me.loops = e :: r → e.stop = next → 1 < e.count.toNat →
        t.me.pc = e.start ∧ t.me.loops = { e with count := e.count - 1 } :: r) ∧
      (∀ e, s.me.loops = [e] → e.stop = next → e.count.toNat ≤ 1 → t.me.pc = next ∧ t.me.loops = []) ∧
      (∀ e f r, s.me.loops = e :: f :: r → e.stop = next → e.count.toNat ≤ 1 → f.stop = next → 1 < f.count.toNat →
        t.me.pc = f.start ∧ t.me.loops = { f with count := f.count - 1 } :: r) ∧
      (∀ q, t.me.rx q = s.me.rx q) ∧ (∀ h, h ≠ s.cur → t.hart h = s.hart h) ∧ t.mem = s.mem

/-! ### Scalar floating point (R301 to R303) -/

/-- The FP32 encoding in a register (R207). -/
def Sys2Proof.Claims.fp32 (v : Word) : Nat := v.toNat % 2 ^ 32

/-- A scalar float instruction completes with rd, zero above bit 31 of an FP32 result, and its flags added to FCSR (R204, R301). -/
def Sys2Proof.Claims.floats (i : Instr) (hd : Head) (d : Reg) (r : Nat × Flags) (s : State) : Prop :=
  exec i s = .next (finish (codeOf i) hd ((addFcsr r.2 s).wx d (BitVec.ofNat 64 r.1)))

/-- R301 to R303: the rounded results, flags included, of every FPS and FMA4 instruction whose registers are clear, and the bits of
those that round nothing. -/
def Obligations.ScalarFloat : Prop :=
  ∀ (hd : Head) (d a b c : Reg) (s : State), s.clear hd [.x a, .x b, .x c] [.x d] →
    let v := csrEnv s.me.csr.fcsr
    let A := fp32 (s.rx a)
    let B := fp32 (s.rx b)
    let C := fp32 (s.rx c)
    floats (.faddS hd d a b) hd d (Fmt.f32.add v A B) s ∧
    floats (.fsubS hd d a b) hd d (Fmt.f32.sub v A B) s ∧
    floats (.fmulS hd d a b) hd d (Fmt.f32.mul v A B) s ∧
    floats (.fdivS hd d a b) hd d (Fmt.f32.div v A B) s ∧
    floats (.fsqrtS hd d a) hd d (Fmt.f32.sqrt v A) s ∧
    floats (.fminS hd d a b) hd d (Fmt.f32.minmax v false A B) s ∧
    floats (.fmaxS hd d a b) hd d (Fmt.f32.minmax v true A B) s ∧
    floats (.feqS hd d a b) hd d (if (Fmt.f32.eq v A B).1 then 1 else 0, (Fmt.f32.eq v A B).2) s ∧
    floats (.fltS hd d a b) hd d (if (Fmt.f32.lt v A B).1 then 1 else 0, (Fmt.f32.lt v A B).2) s ∧
    floats (.fleS hd d a b) hd d (if (Fmt.f32.le v A B).1 then 1 else 0, (Fmt.f32.le v A B).2) s ∧
    floats (.fclassS hd d a) hd d
      ((if A % 2 ^ 31 = 0 then 0 else if A / 2 ^ 23 % 2 ^ 8 = 0 then 1 else if A / 2 ^ 23 % 2 ^ 8 < 255 then 2
        else if A % 2 ^ 23 = 0 then 3 else if A / 2 ^ 22 % 2 = 0 then 20 else 4) + A / 2 ^ 31 * 8, 0) s ∧
    floats (.fcvtSL hd d a) hd d (convFromInt Fmt.f32 v (s.rx a).toInt) s ∧
    floats (.fcvtSLu hd d a) hd d (convFromInt Fmt.f32 v (s.rx a).toNat) s ∧
    (let r := convToInt Fmt.f32 v (-(2 : Int) ^ 63) ((2 : Int) ^ 63 - 1) A
     floats (.fcvtLS hd d a) hd d ((BitVec.ofInt 64 r.1).toNat, r.2) s) ∧
    (let r := convToInt Fmt.f32 v 0 ((2 : Int) ^ 64 - 1) A
     floats (.fcvtLuS hd d a) hd d ((BitVec.ofInt 64 r.1).toNat, r.2) s) ∧
    floats (.fsgnjS hd d a b) hd d (A % 2 ^ 31 + B / 2 ^ 31 * 2 ^ 31, 0) s ∧
    floats (.fsgnjnS hd d a b) hd d (A % 2 ^ 31 + (1 - B / 2 ^ 31) * 2 ^ 31, 0) s ∧
    floats (.fsgnjxS hd d a b) hd d (A % 2 ^ 31 + (A / 2 ^ 31 + B / 2 ^ 31) % 2 * 2 ^ 31, 0) s ∧
    floats (.fmaddS hd d a b c) hd d (Fmt.f32.fma v false false false A B C) s ∧
    floats (.fmsubS hd d a b c) hd d (Fmt.f32.fma v false false true A B C) s ∧
    floats (.fnmaddS hd d a b c) hd d (Fmt.f32.fma v false true true A B C) s ∧
    floats (.fnmsubS hd d a b c) hd d (Fmt.f32.fma v false true false A B C) s

/-- Whether an FP32 encoding is finite (R191). -/
def Sys2Proof.Claims.finite32 (v : Nat) : Prop := v < 2 ^ 32 ∧ v / 2 ^ 23 % 2 ^ 8 ≠ 255

/-- The rational number that a finite FP32 encoding stands for (R191). -/
def Sys2Proof.Claims.value32 (v : Nat) : ℚ :=
  (if v / 2 ^ 31 % 2 = 1 then -1 else 1) *
    (if v / 2 ^ 23 % 2 ^ 8 = 0 then (v % 2 ^ 23 : ℕ) * (2 : ℚ) ^ (-149 : Int)
     else (2 ^ 23 + v % 2 ^ 23 : ℕ) * (2 : ℚ) ^ (((v / 2 ^ 23 % 2 ^ 8 : ℕ) : Int) - 150))

/-- R207, R301: a sum, a difference or a product of finite values that is itself an FP32 value is given exactly, in every rounding
mode, with no flag, while FTZ is 0. -/
def Sys2Proof.Claims.exactFloatResults : Prop :=
  ∀ (hd : Head) (d a b : Reg) (C : Nat) (s : State), s.clear hd [.x a, .x b] [.x d] → s.me.csr.fcsr.getLsbD 8 = false →
    let A := fp32 (s.rx a)
    let B := fp32 (s.rx b)
    finite32 A → finite32 B → finite32 C →
    (value32 C = value32 A + value32 B →
      ∃ V, finite32 V ∧ value32 V = value32 C ∧ floats (.faddS hd d a b) hd d (V, 0) s) ∧
    (value32 C = value32 A - value32 B →
      ∃ V, finite32 V ∧ value32 V = value32 C ∧ floats (.fsubS hd d a b) hd d (V, 0) s) ∧
    (value32 C = value32 A * value32 B →
      ∃ V, finite32 V ∧ value32 V = value32 C ∧ floats (.fmulS hd d a b) hd d (V, 0) s)

/-- R301: the comparisons order finite values as the numbers they stand for, with no flag, while FTZ is 0; every NaN is unequal and
unordered. -/
def Sys2Proof.Claims.floatComparisons : Prop :=
  ∀ (hd : Head) (d a b : Reg) (s : State), s.clear hd [.x a, .x b] [.x d] → s.me.csr.fcsr.getLsbD 8 = false →
    let A := fp32 (s.rx a)
    let B := fp32 (s.rx b)
    (finite32 A → finite32 B →
      floats (.feqS hd d a b) hd d (if value32 A = value32 B then 1 else 0, 0) s ∧
      floats (.fltS hd d a b) hd d (if value32 A < value32 B then 1 else 0, 0) s ∧
      floats (.fleS hd d a b) hd d (if value32 A ≤ value32 B then 1 else 0, 0) s) ∧
    (255 * 2 ^ 23 < A % 2 ^ 31 ∨ 255 * 2 ^ 23 < B % 2 ^ 31 →
      floats (.fltS hd d a b) hd d (0, flagNV) s ∧ floats (.fleS hd d a b) hd d (0, flagNV) s ∧
      ∃ f, floats (.feqS hd d a b) hd d (0, f) s)

/-- R191, R207, R301: exact sums, differences and products are given exactly, and the comparisons order finite values as the numbers for which they stand. -/
def Obligations.FloatValues : Prop := Sys2Proof.Claims.exactFloatResults ∧ Sys2Proof.Claims.floatComparisons

/-! ### Control flow (R176 to R178, R249 to R251) -/

/-- What is left of a loop stack by a taken branch to a target (R178): the entries from the first whose range contains it. -/
def Sys2Proof.Claims.kept (target : Word) (l : List LoopEnt) : List LoopEnt :=
  l.dropWhile (fun e => !(decide (e.start.toNat ≤ target.toNat) && decide (target.toNat < e.stop.toNat)))

/-- The thread goes to a target by a taken branch (R178); what the instruction waited for is used, and everything else is as in u. -/
def Sys2Proof.Claims.takes (hd : Head) (target : Word) (u : State) : State :=
  u.modMe (fun h => { h.forgetWalks with pc := target, loops := kept target h.loops, safe := if hd.s then some hd.mask else none, wait := none })

/-- R249: a branch whose comparison holds is taken to its own address plus twice its offset; one whose comparison fails goes on to its
successor. -/
def Sys2Proof.Claims.branches : Prop :=
  ∀ (hd : Head) (a b : Reg) (o : BitVec 12) (s : State), s.clear hd [.x a, .x b] [] →
    let A := s.rx a
    let B := s.rx b
    let goes (i : Instr) (c : Prop) : Prop :=
      (c → exec i s = .next (takes hd (s.me.pc + BitVec.ofInt 64 (2 * o.toInt)) s)) ∧ (¬c → completes i hd s s)
    goes (.beq hd a b o) (A = B) ∧ goes (.bne hd a b o) (A ≠ B) ∧
    goes (.blt hd a b o) (A.toInt < B.toInt) ∧ goes (.bge hd a b o) (B.toInt ≤ A.toInt) ∧
    goes (.bltu hd a b o) (A.toNat < B.toNat) ∧ goes (.bgeu hd a b o) (B.toNat ≤ A.toNat)

/-- R250: JAL and JALR write their successor and jump; JALR reads rs1 first. -/
def Sys2Proof.Claims.jumps : Prop :=
  ∀ (hd : Head) (d a : Reg) (j : BitVec 17) (i : BitVec 12) (s : State), s.clear hd [.x a] [.x d] →
    let link := s.me.pc + (if hd.s then 8 else 4)
    let t := s.rx a + BitVec.ofInt 64 i.toInt
    exec (.jal hd d j) s = .next (takes hd (s.me.pc + BitVec.ofInt 64 (2 * j.toInt)) (s.wx d link)) ∧
    (t.toNat < 2 ^ 48 → t.toNat % 2 = 0 → exec (.jalr hd d a i) s = .next (takes hd t (s.wx d link)))

/-- R250, R391: a JALR whose target has bit 0 set raises cause 0x04 with the target in TVAL, one with bits above bit 47 cause 0x06, and
rd keeps its value. -/
def Sys2Proof.Claims.jalrTraps : Prop :=
  ∀ (hd : Head) (d a : Reg) (i : BitVec 12) (s : State), s.clear hd [.x a] [.x d] →
    s.cur.isCtx = false → s.me.inTrap = false →
    let t := s.rx a + BitVec.ofInt 64 i.toInt
    ∃ u : State, exec (.jalr hd d a i) s = .next u ∧
      (t.toNat % 2 = 1 → u.me.csr.tcause = 0x04 ∧ u.me.csr.tval = t ∧ u.me.csr.tepc.toNat = s.me.pc.toNat % 2 ^ 48 ∧ ∀ r, u.me.rx r = s.me.rx r) ∧
      (t.toNat % 2 = 0 → 2 ^ 48 ≤ t.toNat →
        u.me.csr.tcause = 0x06 ∧ u.me.csr.tval = t ∧ u.me.csr.tepc.toNat = s.me.pc.toNat % 2 ^ 48 ∧ ∀ r, u.me.rx r = s.me.rx r)

/-- R217, R250, R391: JAL and JALR, and the traps of a JALR's target. That a target which is odd and has a bit above 47 raises 0x04 is the model's
choice (log 87). -/
def Obligations.Jumps : Prop := Sys2Proof.Claims.jumps ∧ Sys2Proof.Claims.jalrTraps

/-- R176, R251: LOOP and LOOPI push an entry, go to END with a count of 0 (where R177's end check applies), and raise cause 0x14 at
depth 4, pushing nothing. -/
def Sys2Proof.Claims.hardwareLoops : Prop :=
  ∀ (hd : Head) (a : Reg) (n : BitVec 10) (i : BitVec 12) (s : State), s.clear hd [.x a] [] →
    let start := s.me.pc + (if hd.s then 8 else 4)
    let stop := s.me.pc + BitVec.ofNat 64 (2 * i.toNat)
    let acts (ins : Instr) (count : Word) : Prop :=
      (s.me.loops.length < 4 → count ≠ 0 →
        completes ins hd (s.modMe (fun h => { h with loops := ⟨start, stop, count⟩ :: h.loops })) s) ∧
      (s.me.loops.length < 4 → count = 0 → ∃ t : State, exec ins s = .next t ∧
        t.me.pc = (loopEndCheck stop s.me.loops).2 ∧ t.me.loops = (loopEndCheck stop s.me.loops).1 ∧ ∀ r, t.me.rx r = s.me.rx r) ∧
      (4 ≤ s.me.loops.length → s.cur.isCtx = false → s.me.inTrap = false → ∃ t : State, exec ins s = .next t ∧
        t.me.csr.tcause = 0x14 ∧ t.me.csr.tepc.toNat = s.me.pc.toNat % 2 ^ 48 ∧ t.me.csr.ldepth = BitVec.ofNat 64 s.me.loops.length)
    acts (.loop hd a i) (s.rx a) ∧ acts (.loopi hd n i) (BitVec.ofNat 64 n.toNat)

/-- R176 to R178, R217, R251: the sequential successor, the end check of the innermost loops, and LOOP and LOOPI. That LOOP and LOOPI with four loops
open and a count of 0 raise 0x14 is the model's choice (log 87). -/
def Obligations.LoopsAndSuccessors : Prop := Sys2Proof.Claims.successorAndLoopEnd ∧ Sys2Proof.Claims.hardwareLoops

/-- R225: the compressed jumps and branches act as their expansions, with links two bytes on. -/
def Sys2Proof.Claims.compressedFlow : Prop :=
  ∀ (a : Reg) (e : BitVec 3) (o : BitVec 11) (f : BitVec 8) (s : State),
    exec (.cJ o) s = .next (takes Head.plain (s.me.pc + BitVec.ofInt 64 (2 * o.toInt)) s) ∧
    (s.clear Head.plain [.x (prime e)] [] →
      let dest := s.me.pc + BitVec.ofInt 64 (2 * f.toInt)
      (s.rx (prime e) = 0 → exec (.cBeqz e f) s = .next (takes Head.plain dest s) ∧ completes (.cBnez e f) Head.plain s s) ∧
      (s.rx (prime e) ≠ 0 → exec (.cBnez e f) s = .next (takes Head.plain dest s) ∧ completes (.cBeqz e f) Head.plain s s)) ∧
    (s.clear Head.plain [.x a] [] → (s.rx a).toNat < 2 ^ 48 → (s.rx a).toNat % 2 = 0 →
      exec (.cJr a) s = .next (takes Head.plain (s.rx a) s)) ∧
    (s.clear Head.plain [.x a] [.x 1] → (s.rx a).toNat < 2 ^ 48 → (s.rx a).toNat % 2 = 0 →
      exec (.cJalr a) s = .next (takes Head.plain (s.rx a) (s.wx 1 (s.me.pc + 2))))

/-- R225, R249: the branches, and the compressed branches and jumps. -/
def Obligations.Branches : Prop := Sys2Proof.Claims.branches ∧ Sys2Proof.Claims.compressedFlow

/-! ### Loads, stores and atomics (R18, R19, R95, R96, R135, R141, R268 to R274) -/

/-- An access of the issuing hart passes every check of R19: aligned, translated to x, permitted, at its level and in reach. u is the
state after the translation, which may have filled a TLB (R32). -/
def Sys2Proof.Claims.reaches (a : Acc) (n : Nat) (va : Word) (s u : State) (x : Xlat) : Prop :=
  s.access (.instr s.cur) a n va = (u, .ok x)

/-- A location from which a load returns data (R14, R83, R135): no hole of the MMIO window, no word that no code corrects, and the hart's
store buffer holds all of its bytes or none. -/
def Sys2Proof.Claims.loadable (pa n : Nat) (u : State) : Prop :=
  mmioHole pa = false ∧ u.badWord pa n = none ∧ forwardAll u.me.busy.sb [(pa, n)] ≠ .part

/-- The address of the M format (R269): the base plus the signed offset in units of the width. -/
def Sys2Proof.Claims.eaM (s : State) (a : Reg) (i : BitVec 7) (w : BitVec 2) : Word :=
  s.rx a + BitVec.ofInt 64 (i.toInt * 2 ^ w.toNat)

/-- A load goes into flight (R135, R268): its entry with the address, the width and the register that it will write, and the thread goes
on; no register and no byte of memory changes, and no other hart. -/
def Sys2Proof.Claims.loads (ik : Code) (hd : Head) (i : Instr) (dst : LoadDst) (pa n : Nat) (u s : State) : Prop :=
  ∃ t : State, exec i s = .next t ∧ t.me.pc = (finish ik hd u).me.pc ∧ t.me.loops = (finish ik hd u).me.loops ∧ t.me.wait = none ∧
    (∃ e : LoadEnt, t.me.busy.loads = u.me.busy.loads ++ [e] ∧ e.num = u.me.busy.loadNext ∧ e.dst = dst ∧ e.parts = [(pa, n)]) ∧
    t.me.busy.loadNext = u.me.busy.loadNext + 1 ∧ t.me.x = u.me.x ∧ t.me.csr = u.me.csr ∧ t.mem = u.mem ∧
    (∀ b, t.readByte b = u.readByte b) ∧ ∀ h, h ≠ s.cur → t.hart h = u.hart h

/-- R269 to R271: every load form whose access passes the checks goes into flight. -/
def Obligations.LoadsIssue : Prop :=
  ∀ (hd : Head) (d a b : Reg) (w : BitVec 2) (u q : BitVec 1) (i : BitVec 7) (e f : BitVec 3) (o : BitVec 5) (c : BitVec 6) (s t : State)
    (x : Xlat), s.me.acqWait = false →
    let n := 2 ^ w.toNat
    (loadable x.pa n t → s.clear hd [.x a] [.x d] → reaches (.load n true) n (eaM s a i w) s t x →
      loads (codeOf (.ld hd d a w u i)) hd (.ld hd d a w u i) (.x d (u == 0)) x.pa n t s ∧
      loads (codeOf (.ldAcq hd d a w u i)) hd (.ldAcq hd d a w u i) (.x d (u == 0)) x.pa n t s) ∧
    (loadable x.pa n t → s.clear hd [.x a, .x b] [.x d] → reaches (.load n true) n (s.rx a + BitVec.ofNat 64 ((s.rx b).toNat * n)) s t x →
      loads (codeOf (.ldx hd d a b w u q)) hd (.ldx hd d a b w u q) (.x d (u == 0)) x.pa n t s) ∧
    (loadable x.pa 8 t → s.clear Head.plain [.x (prime f)] [.x (prime e)] →
      reaches (.load 8 true) 8 (s.rx (prime f) + BitVec.ofNat 64 (8 * o.toNat)) s t x →
      loads (codeCLd e f o) Head.plain (.cLd e f o) (.x (prime e) true) x.pa 8 t s) ∧
    (loadable x.pa 8 t → s.clear Head.plain [.x 2] [.x d] → reaches (.load 8 true) 8 (s.rx 2 + BitVec.ofNat 64 (8 * c.toNat)) s t x →
      loads (codeCLdsp d c) Head.plain (.cLdsp d c) (.x d true) x.pa 8 t s)

/-- A store enters the hart's store buffer (R135) and the thread goes on; nothing that any hart reads from memory changes yet. -/
def Sys2Proof.Claims.stores (ik : Code) (hd : Head) (i : Instr) (x : Xlat) (n : Nat) (v : Word) (rel : Bool) (u s : State) : Prop :=
  ∃ t : State, exec i s = .next t ∧ t.me.pc = (finish ik hd u).me.pc ∧ t.me.loops = (finish ik hd u).me.loops ∧ t.me.wait = none ∧
    (∃ e : SbEnt, t.me.busy.sb = u.me.busy.sb ++ [e] ∧ e.parts = [(x.pa, n, v)] ∧ e.afterLoads = u.me.busy.loadNext ∧
      e.afterMsg.isSome = rel ∧ e.rep = x.ent.rep ∧ e.unlock = none ∧ e.afterIds = u.me.busy.relIds) ∧
    t.me.x = u.me.x ∧ t.me.csr = u.me.csr ∧ t.mem = u.mem ∧ (∀ b, t.readByte b = u.readByte b) ∧ ∀ h, h ≠ s.cur → t.hart h = u.hart h

/-- R269 to R271: every store form whose access passes the checks enters the store buffer with its address, width and data. -/
def Obligations.StoresIssue : Prop :=
  ∀ (hd : Head) (d a b : Reg) (w : BitVec 2) (r : BitVec 1) (i : BitVec 7) (e f : BitVec 3) (o : BitVec 5) (c : BitVec 6) (s t : State)
    (x : Xlat), s.me.acqWait = false → mmioHole x.pa = false →
    let n := 2 ^ w.toNat
    (s.clear hd [.x d, .x a] [] → reaches .store n (eaM s a i w) s t x →
      stores (codeOf (.st hd d a w i)) hd (.st hd d a w i) x n (s.rx d) false t s ∧
      stores (codeOf (.stRel hd d a w i)) hd (.stRel hd d a w i) x n (s.rx d) true t s) ∧
    (s.clear hd [.x d, .x a, .x b] [] → reaches .store n (s.rx a + BitVec.ofNat 64 ((s.rx b).toNat * n)) s t x →
      stores (codeOf (.stx hd d a b w r)) hd (.stx hd d a b w r) x n (s.rx d) (r == 1) t s) ∧
    (s.clear Head.plain [.x (prime e), .x (prime f)] [] →
      reaches .store 8 (s.rx (prime f) + BitVec.ofNat 64 (8 * o.toNat)) s t x →
      stores (codeCSt e f o) Head.plain (.cSt e f o) x 8 (s.rx (prime e)) false t s) ∧
    (s.clear Head.plain [.x d, .x 2] [] → reaches .store 8 (s.rx 2 + BitVec.ofNat 64 (8 * c.toNat)) s t x →
      stores (codeCStsp d c) Head.plain (.cStsp d c) x 8 (s.rx d) false t s)

/-- R19, R269: a scalar load or store of a width checks alignment first, then translation, permission, level and reach; the first check
that fails is the cause, with the address in TVAL, the register file unchanged and nothing stored. -/
def Obligations.AccessFaults : Prop :=
  ∀ (hd : Head) (d a : Reg) (w : BitVec 2) (u : BitVec 1) (i : BitVec 7) (s : State), s.clear hd [.x d, .x a] [.x d] →
    s.me.acqWait = false → s.cur.isCtx = false → s.me.inTrap = false →
    let n := 2 ^ w.toNat
    let ea := eaM s a i w
    let traps (ins : Instr) (c : BitVec 8) : Prop := ∃ t : State, exec ins s = .next t ∧ t.me.csr.tcause = c.setWidth 64 ∧ t.me.csr.tval = ea ∧
      t.me.csr.tepc.toNat = s.me.pc.toNat % 2 ^ 48 ∧ (∀ r, t.me.rx r = s.me.rx r) ∧ t.mem = s.mem ∧ t.me.busy.sb = s.me.busy.sb
    let both (c : BitVec 8) : Prop := traps (.ld hd d a w u i) c ∧ traps (.st hd d a w i) c
    (ea.toNat % n ≠ 0 → both 0x04) ∧
    (∀ c, ea.toNat % n = 0 → (s.translate (.instr s.cur) ea).2 = .fault c → both c) ∧
    (∀ x, ea.toNat % n = 0 → (s.translate (.instr s.cur) ea).2 = .ok x →
      (x.ent.r = false ∨ (x.ent.u = false ∧ s.me.priv = 0) → traps (.ld hd d a w u i) 0x07) ∧
      (x.ent.w = false ∨ (x.ent.u = false ∧ s.me.priv = 0) → traps (.st hd d a w i) 0x07) ∧
      (x.ent.r = true → x.ent.w = true → x.ent.u = true → region x.pa = 3 → s.me.priv = 0 → both 0x03) ∧
      (x.ent.r = true → x.ent.w = true → (x.ent.u = true ∨ 1 ≤ s.me.priv) → region x.pa = 4 → s.me.priv < 2 → both 0x03) ∧
      (x.ent.r = true → x.ent.w = true → (x.ent.u = true ∨ 1 ≤ s.me.priv) → region x.pa = 0 → paCore x.pa ≠ s.cur.home → both 0x05) ∧
      (x.ent.r = true → x.ent.w = true → (x.ent.u = true ∨ 1 ≤ s.me.priv) → region x.pa = 1 → paCluster x.pa ≠ clusterOf s.cur.home →
        both 0x05))

/-- R84, R95, R97, R98, R390: at its turn at the bank an LDL of a free lock takes it, with LAST 0, and loads; one to which the bank has
granted the lock takes it over; an LDL under the lock of its address loads and keeps it; one that finds the lock taken waits and counts a
retry; an LDL or an STU at another lock raises cause 0x07; an STU under the lock of its address stores and gives it up. -/
def Obligations.PoolLocks : Prop :=
  ∀ (hd : Head) (d a : Reg) (w : BitVec 2) (u : BitVec 1) (i : BitVec 7) (s t : State) (x : Xlat),
    s.clear hd [.x d, .x a] [.x d] → s.me.acqWait = false →
    let n := 2 ^ w.toNat
    let ea := eaM s a i w
    let k := lockOf x.pa
    let v := loaded (t.readNum x.pa n) n (u == 0)
    (s.me.poolStores = false → s.me.busy.loads = [] → reaches .ldl n ea s t x →
      ((t.poolTurns (portOf s.cur false) [x.pa / 64]).isSome = true → t.badWord x.pa n = none →
        (t.me.lock = some k → ∃ r : State, exec (.ldl hd d a w u i) s = .next r ∧ r.me.lock = some k ∧ (d ≠ 0 → r.me.rx d = v) ∧ r.mem = t.mem ∧
          (∀ q, q ≠ d → r.me.rx q = s.me.rx q) ∧ r.me.pc = (finish (codeOf (.ldl hd d a w u i)) hd t).me.pc ∧ r.me.wait = none) ∧
        (t.me.lock = none → t.me.lockTries k = none → ((t.plock k).holder = none ∨ t.me.wait = some (.locked k.1 k.2.1 k.2.2)) →
          ∃ r : State, exec (.ldl hd d a w u i) s = .next r ∧ r.me.lock = some k ∧ (r.plock k).holder = some s.cur ∧
            (d ≠ 0 → r.me.rx d = v) ∧ wbit r.me.csr.plockstat 16 = true ∧
            wbits r.me.csr.plockstat 0 16 = (if t.me.wait = some (.locked k.1 k.2.1 k.2.2) then wbits s.me.csr.plockstat 0 16 else 0) ∧
            r.mem = t.mem ∧ r.me.wait = none)) ∧
      (t.me.lock = none → t.me.wait ≠ some (.locked k.1 k.2.1 k.2.2) → (t.plock k).holder ≠ none → t.me.lockTries k = none →
        ∃ r : State, exec (.ldl hd d a w u i) s = .next r ∧ r.me.wait = some (.lock k.1 k.2.1 k.2.2 1 (s.clk + 4)) ∧ r.me.pc = s.me.pc ∧
          wbits r.me.csr.plockstat 32 32 = (wbits t.me.csr.plockstat 32 32 + 1) % 2 ^ 32) ∧
      (∀ h, t.me.lock = some h → h ≠ k → s.cur.isCtx = false → s.me.inTrap = false →
        ∃ r : State, exec (.ldl hd d a w u i) s = .next r ∧ r.me.csr.tcause = 0x07 ∧ r.me.csr.tval = ea)) ∧
    (reaches .stu n ea s t x →
      (t.me.lock = some k → ∃ r : State, exec (.stu hd d a w i) s = .next r ∧ r.me.lock = none ∧
        (∃ e : SbEnt, r.me.busy.sb = t.me.busy.sb ++ [e] ∧ e.parts = [(x.pa, n, t.rx d)] ∧ e.unlock = some k) ∧ r.mem = t.mem ∧
        r.me.pc = (finish (codeOf (.stu hd d a w i)) hd t).me.pc) ∧
      (t.me.lock ≠ some k → s.cur.isCtx = false → s.me.inTrap = false →
        ∃ r : State, exec (.stu hd d a w i) s = .next r ∧ r.me.csr.tcause = 0x07 ∧ r.me.csr.tval = ea))

/-- The signed number in the low n bytes of a value. -/
def Sys2Proof.Claims.signedLow (n v : Nat) : Int := (v : Int).bmod (2 ^ (8 * n))

/-- The number that an AMO of an operation writes, on n-byte values (R272); a CAS that fails writes nothing. -/
def Sys2Proof.Claims.amoWrites (op n old b rd : Nat) : Option Nat :=
  let m := 2 ^ (8 * n)
  match op with
  | 0 => some ((old + b) % m)
  | 1 => some (old &&& b % m)
  | 2 => some (old ||| b % m)
  | 3 => some (old ^^^ b % m)
  | 4 => some (if signedLow n b < signedLow n old then b % m else old)
  | 5 => some (if signedLow n old < signedLow n b then b % m else old)
  | 6 => some (min old (b % m))
  | 7 => some (max old (b % m))
  | 8 => some (b % m)
  | _ => if old = rd % m then some (b % m) else none

/-- The ten AMO instructions, by the number of their operation (R272). -/
def Sys2Proof.Claims.amos (hd : Head) (d a b : Reg) (w : BitVec 1) (o : BitVec 2) : List Instr :=
  [.amoadd hd d a b w o, .amoand hd d a b w o, .amoor hd d a b w o, .amoxor hd d a b w o, .amomin hd d a b w o, .amomax hd d a b w o,
   .amominu hd d a b w o, .amomaxu hd d a b w o, .amoswap hd d a b w o, .amocas hd d a b w o]

/-- An address is no second name of a byte of a vault: bits 43..39 of a vault address are zero (R13). -/
def Sys2Proof.Claims.proper (b : Nat) : Prop := region b = 0 → b < 2 ^ 39

/-- Whether two runs of bytes share none, by the place at which each byte is held (R13). -/
def Sys2Proof.Claims.apart (b pa n : Nat) : Prop := homePa b < homePa pa ∨ homePa pa + n ≤ homePa b

/-- A vault can accept a store at once: a free entry in its write buffer, no checkpoint log (R79, R404). -/
def Sys2Proof.Claims.accepts (core : Nat) (s : State) : Prop := s.bufRoom core = true ∧ s.dev.ckptEn = false

/-- The reads of some parts that a reader has asked for have been served, and no commit holds their lines (R51, R152). -/
def Sys2Proof.Claims.served (who : Reader) (parts : List (Nat × Nat)) (s : State) : Prop :=
  s.askAll who parts = s ∧ s.readReady who parts = true ∧ ∀ p ∈ parts, s.heldAt p.1 p.2 = false

/-- R18, R84, R96, R272: an AMO, once the hart's earlier accesses are performed, gives rd the old value and writes the result of its operation,
every byte outside the operand being as before: on the own pool at its turn at the bank, the lock of its address free, granted to it or its
own, and held after it only if it was before; on the own vault once its bank has served its read and its line is not held; on host memory for
ADD, SWAP and CAS, where the host takes AtomicOps, and with cause 0x0D where it does not. -/
def Obligations.PoolAtomics : Prop :=
  ∀ (hd : Head) (d a b : Reg) (w : BitVec 1) (o : BitVec 2) (op : Nat) (ins : Instr) (s t : State) (x : Xlat),
    (amos hd d a b w o)[op]? = some ins → s.clear hd [.x d, .x a, .x b] [.x d] →
    s.me.acqWait = false → s.me.busy.sb = [] → s.me.busy.loads = [] → s.me.busy.posted = [] →
    let n := if w = 0 then 4 else 8
    let k := lockOf x.pa
    let old := t.readNum x.pa n
    reaches (.amo (op == 0 || op == 8 || op == 9)) n (s.rx a) s t x → proper x.pa →
    let done : Prop := ∃ r : State, exec ins s = .next r ∧ (d ≠ 0 → r.me.rx d = BitVec.ofInt 64 (signedLow n old)) ∧
      r.readNum x.pa n = (amoWrites op n old (s.rx b).toNat (s.rx d).toNat).getD old ∧
      (∀ p, proper p → apart p x.pa n → r.readByte p = t.readByte p) ∧
      (∀ q, q ≠ d → r.me.rx q = s.me.rx q) ∧ r.me.lock = t.me.lock ∧ r.me.pc = (finish (codeOf ins) hd t).me.pc
    (region x.pa = 1 → t.badWord x.pa n = none → (t.poolTurns (portOf s.cur false) [x.pa / 64]).isSome = true →
      (t.me.lock = some k ∨ (t.me.lock = none ∧ t.me.lockTries k = none ∧
        ((t.plock k).holder = none ∨ t.me.wait = some (.locked k.1 k.2.1 k.2.2)))) → done) ∧
    (region x.pa = 0 → t.badWord x.pa n = none → served (.instr s.cur) [(x.pa, n)] t → accepts (paCore x.pa) t → done) ∧
    (8 ≤ region x.pa → Config.hostAtomics = true → done) ∧
    (8 ≤ region x.pa → Config.hostAtomics = false → s.cur.isCtx = false → s.me.inTrap = false →
      ∃ r : State, exec ins s = .next r ∧ r.me.csr.tcause = 0x0D ∧ r.me.csr.tval = s.rx a ∧ r.mem = s.mem ∧ ∀ q, r.me.rx q = s.me.rx q)

/-- Whether an access to some addresses falls in a scope (R139): to a device location in every scope, to the host in system scope alone. -/
def Sys2Proof.Claims.accessed (c : BitVec 3) (pas : List Nat) : Prop := c = 5 ∨ ∃ pa ∈ pas, region pa < 8

/-- Whether a message of the hart's unit counts at a scope (R139, R140). -/
def Sys2Proof.Claims.counted (c : BitVec 3) (s : State) (p : Sent) : Prop :=
  p.epoch = s.me.epoch ∧ s.inScope s.cur c.toNat p.core p.dev = true

/-- R80, R139, R140, R260, R274: at each scope FENCE completes, changing nothing else, once no earlier load, store, message or fill of the
hart in its scope is outstanding; FENCE.ACQ once no read or fill is; FENCE.V once, besides, the lines that it covers have left the write
buffers; each of them waits where it finds one outstanding. FENCE.REL waits for nothing and marks the loads, the stores and the messages that later
stores, atomics and messages must wait for. FENCE.I completes once the store buffer is empty and drops what was fetched ahead. A pending
fill in scope is cause 0x08 for the others under a pool lock. -/
def Obligations.Fences : Prop :=
  ∀ (hd : Head) (c : BitVec 3) (s : State), s.clear hd [] [] →
    let loads := ∃ l ∈ s.me.busy.loads, accessed c (l.parts.map (·.1))
    let stores := ∃ e ∈ s.me.busy.sb, accessed c (e.parts.map (·.1))
    let sent := ∃ p ∈ s.me.busy.posted, counted c s p
    let asked := ∃ p ∈ s.me.busy.posted, counted c s p ∧ p.read = true
    let fills := ∃ f ∈ s.me.busy.fills, s.inScope s.cur c.toNat f.core f.dev = true
    let buffered := ∃ v ∈ s.vaults, ∃ l ∈ v.2.wbuf,
      if s.cur.kind = .mgmt then s.inScope s.cur (max c.toNat 1) v.1 0xFFFF = true
      else ∃ w ∈ l.by_, w.1 = s.cur ∧ (w.2 = false ∨ s.inScope s.cur c.toNat v.1 0xFFFF = true)
    let waits (i : Instr) : Prop := s.cur.isCtx = false → s.me.lock = none →
      ∃ t : State, exec i s = .next t ∧ t.me.wait = some .stall ∧ t.me.pc = s.me.pc
    (¬ loads → ¬ stores → ¬ sent → ¬ fills → completes (.fence hd c) hd s s ∧ (¬ buffered → completes (.fenceV hd c) hd s s)) ∧
    (¬ loads → ¬ asked → ¬ fills → completes (.fenceAcq hd c) hd s s) ∧
    (loads ∨ stores ∨ sent → waits (.fence hd c) ∧ waits (.fenceV hd c)) ∧ (buffered → waits (.fenceV hd c)) ∧
    (loads ∨ asked → waits (.fenceAcq hd c)) ∧ (fills → waits (.fence hd c) ∧ waits (.fenceV hd c) ∧ waits (.fenceAcq hd c)) ∧
    (∃ t : State, exec (.fenceRel hd c) s = .next t ∧
      t.me.pc = (finish (codeOf (.fenceRel hd c)) hd s).me.pc ∧ t.me.wait = none ∧
      (∀ l ∈ s.me.busy.loads, accessed c (l.parts.map (·.1)) ∨ l.num ∈ s.me.busy.relLoads → l.num ∈ t.me.busy.relLoads) ∧
      (∀ e ∈ s.me.busy.sb, accessed c (e.parts.map (·.1)) ∨ e.num ∈ s.me.busy.relSb → e.num ∈ t.me.busy.relSb) ∧
      (∀ p ∈ s.me.busy.posted, counted c s p ∨ p.id ∈ s.me.busy.relIds → p.id ∈ t.me.busy.relIds) ∧
      t.me.busy.sb = s.me.busy.sb ∧ t.me.busy.loads = s.me.busy.loads ∧ t.me.busy.posted = s.me.busy.posted ∧
      t.me.x = s.me.x ∧ t.me.csr = s.me.csr ∧ t.mem = s.mem ∧ ∀ h, h ≠ s.cur → t.hart h = s.hart h) ∧
    (s.me.busy.sb = [] → completes (.fenceI hd) hd (s.modMe (fun h => { h with fetched := [] })) s) ∧
    (s.me.busy.sb ≠ [] → waits (.fenceI hd)) ∧
    (fills → s.cur.isCtx = false → s.me.lock ≠ none → s.me.inTrap = false →
      ∀ i ∈ [Instr.fence hd c, .fenceAcq hd c, .fenceV hd c], ∃ (t : State) (f : Fill), exec i s = .next t ∧
        f ∈ s.me.busy.fills ∧ s.inScope s.cur c.toNat f.core f.dev = true ∧ t.me.csr.tcause = 0x08 ∧ t.me.csr.tval = f.reg.setWidth 64)

/-! ### Full bits and tokens (R183 to R187, R287, R288) -/

/-- R287: SETE leaves a register VOID (x0 stays as it is); ISFULL gives 1, 0 or 2 for FULL, PENDING or VOID and waits for nothing; TKQ and
TKFLT sample a token. -/
def Obligations.FullBitsAndTokens : Prop :=
  ∀ (hd : Head) (d a : Reg) (k : BitVec 3) (s : State), s.cur.isCtx = false →
    (s.clear hd [] [.x d] →
      (d ≠ 0 → ∃ t : State, exec (.sete hd d 0) s = .next t ∧ t.me.stx d = .void ∧ (∀ r, t.me.rx r = s.me.rx r) ∧
        (∀ r, r ≠ d → t.me.stx r = s.me.stx r) ∧ t.me.pc = (finish (codeOf (.sete hd d 0)) hd s).me.pc) ∧
      (d = 0 → completes (.sete hd d 0) hd s s) ∧
      gives (.isfull hd d a 0) hd d (match s.me.stx a with | .full => 1 | .pending => 0 | .void => 2) s ∧
      (s.long = false ∨ a.toNat < 8 →
        gives (.isfull hd d a 1) hd d (match s.stv a with | .full => 1 | .pending => 0 | .void => 2) s) ∧
      gives (.tkq hd d k) hd d
        (BitVec.ofNat 64 ((s.me.tok k).count + (if (s.me.tok k).fault then 256 else 0) + (if (s.me.tok k).more then 512 else 0))) s ∧
      gives (.tkflt hd d k) hd d (if (s.me.tok k).fault then (s.me.tok k).word else 0) s) ∧
    (s.clear hd [] [.v d] → (s.long = false ∨ d.toNat < 8) → ∃ t : State, exec (.sete hd d 1) s = .next t ∧ t.stv d = .void ∧
      (∀ r, r ≠ d → t.stv r = s.stv r) ∧ (∀ r, t.me.rv r = s.me.rv r) ∧ (∀ r, (t.core s.myCore).rw r = (s.core s.myCore).rw r))

/-- R186, R288: WAITTK completes when every token of its mask is at 0 without a fault, changing nothing else (in a thread that does not
record); it waits while one is not at 0; and it raises cause 0x09 for the lowest faulted token of its mask, whose record goes to TKFAULT
and whose flags it clears. -/
def Sys2Proof.Claims.waitTokens : Prop :=
  ∀ (hd : Head) (m : BitVec 8) (s : State), s.cur.isCtx = false → s.me.lock = none → s.clear hd [] [] → s.me.recording = none →
    let plain := s.clear Head.plain [] []
    (∀ k : BitVec 3, m.getLsbD k.toNat = true → (s.me.tok k).count = 0 ∧ (s.me.tok k).fault = false) →
      completes (.waittk hd m) hd s s ∧ (plain → completes (.cWaittk m) Head.plain s s)

/-- R185, R186: a WAITTK whose mask holds a token that is not at 0 waits at itself. -/
def Sys2Proof.Claims.waitTokensWaits : Prop :=
  ∀ (hd : Head) (m : BitVec 8) (k : BitVec 3) (s : State), s.cur.isCtx = false → s.me.lock = none → s.clear hd [] [] →
    m.getLsbD k.toNat = true → (s.me.tok k).count ≠ 0 →
    ∃ t : State, exec (.waittk hd m) s = .next t ∧ t.me.wait = some .stall ∧ t.me.pc = s.me.pc ∧ (∀ j, t.me.tok j = s.me.tok j) ∧
      ∀ r, t.me.rx r = s.me.rx r

/-- R186, R391: a WAITTK whose tokens are all at 0 raises cause 0x09 for the lowest-numbered faulted one: TKFAULT takes that record, its
FAULT and MORE are cleared, TEPC names the WAITTK, and the other tokens keep their flags. -/
def Sys2Proof.Claims.waitTokensFault : Prop :=
  ∀ (hd : Head) (m : BitVec 8) (k : BitVec 3) (s : State), s.cur.isCtx = false → s.me.lock = none → s.clear hd [] [] →
    s.me.recording = none → s.me.inTrap = false →
    (∀ j : BitVec 3, m.getLsbD j.toNat = true → (s.me.tok j).count = 0) → m.getLsbD k.toNat = true → (s.me.tok k).fault = true →
    (∀ j : BitVec 3, m.getLsbD j.toNat = true → j.toNat < k.toNat → (s.me.tok j).fault = false) →
    ∃ t : State, exec (.waittk hd m) s = .next t ∧ t.me.csr.tcause = 0x09 ∧ t.me.csr.tepc.toNat = s.me.pc.toNat % 2 ^ 48 ∧ t.me.csr.tkfault = (s.me.tok k).word ∧
      (t.me.tok k).fault = false ∧ (t.me.tok k).more = false ∧ (∀ j, j ≠ k → t.me.tok j = s.me.tok j) ∧
      (∀ j : BitVec 3, t.me.csr.tval.getLsbD j.toNat = (m.getLsbD j.toNat && (s.me.tok j).fault))

/-- R185, R186, R288, R391: WAITTK completes at tokens that are all at 0 without a fault, waits for one that is not at 0, and raises cause 0x09 for the lowest faulted one. -/
def Obligations.WaitTokens : Prop := Sys2Proof.Claims.waitTokens ∧ Sys2Proof.Claims.waitTokensWaits ∧ Sys2Proof.Claims.waitTokensFault

/-! ### Traps and system instructions (R174, R252 to R255, R389) -/

/-- R389: what taking a trap does to a thread slot that is not handling one: it saves the privilege, the pc, the cause and the loop stack
and goes to the handler at TVEC. -/
def Sys2Proof.Claims.trapped (cause : BitVec 8) (val epc : Word) (s t : State) : Prop :=
  t.me.csr.tepc.toNat = epc.toNat % 2 ^ 48 ∧ t.me.csr.tcause = cause.setWidth 64 ∧ t.me.csr.tval = val ∧
  wbits t.me.csr.tstatus 2 2 = s.me.priv ∧ t.me.priv = max s.me.priv 1 ∧ t.me.inTrap = true ∧
  t.me.pc.toNat = wbits s.me.csr.tvec 1 47 * 2 ∧ t.me.loops = [] ∧
  t.me.csr.ldepth = BitVec.ofNat 64 s.me.loops.length ∧
  (∀ n, n < s.me.loops.length → ∃ e : LoopEnt, s.me.loops.reverse[n]? = some e ∧ (t.me.csr.lstart.get n 0).toNat = e.start.toNat % 2 ^ 48 / 2 * 2 ∧
    (t.me.csr.lend.get n 0).toNat = e.stop.toNat % 2 ^ 48 / 2 * 2 ∧ t.me.csr.lcount.get n 0 = e.count) ∧
  (∀ n, s.me.loops.length ≤ n → t.me.csr.lstart.get n 0 = 0 ∧ t.me.csr.lend.get n 0 = 0 ∧ t.me.csr.lcount.get n 0 = 0) ∧
  (∀ r, t.me.rx r = s.me.rx r) ∧ (∀ r, t.me.rv r = s.me.rv r) ∧ t.me.busy.tokens = s.me.busy.tokens ∧ t.me.busy.sb = s.me.busy.sb ∧
  t.me.lease = s.me.lease ∧ t.me.lock = s.me.lock ∧ t.me.csr.fcsr = s.me.csr.fcsr ∧ t.me.csr.ptroot = s.me.csr.ptroot ∧
  t.me.csr.tvec = s.me.csr.tvec ∧ t.mem = s.mem ∧ (∀ b, t.readByte b = s.readByte b) ∧ (∀ h, h ≠ s.cur → t.hart h = s.hart h)

/-- R253, R389: TRAP takes cause 0x1C with rs1 in TVAL and TEPC at its successor; BRK takes cause 0x1B with its own address. -/
def Sys2Proof.Claims.trapEntry : Prop :=
  ∀ (hd : Head) (a : Reg) (s : State), s.cur.isCtx = false → s.me.inTrap = false → s.me.priv ≤ 2 → s.me.loops.length ≤ 4 →
    s.clear hd [.x a] [] →
    (∃ t : State, exec (.trap hd a) s = .next t ∧ trapped 0x1C (s.rx a) (s.me.pc + (if hd.s then 8 else 4)) s t) ∧
    (∃ t : State, exec (.brk hd) s = .next t ∧ trapped 0x1B s.me.pc s.me.pc s t)

/-- R389: a trap raised while a trap is being handled freezes the slot with its state kept and puts a machine check on the management
channel of its stack. -/
def Sys2Proof.Claims.trapInTrap : Prop :=
  ∀ (hd : Head) (a : Reg) (s : State), s.fresh → s.cur.isCtx = false → s.me.inTrap = true → s.clear hd [.x a] [] →
    ∃ t : State, exec (.trap hd a) s = .next t ∧ t.me.st = .frozen ∧ t.me.pc = s.me.pc ∧ t.me.csr = s.me.csr ∧ t.me.x = s.me.x ∧
      (t.stk (stackOf s.myCore)).notices = (s.stk (stackOf s.myCore)).notices ++ [.machineCheck s.myCore 0] ∧ t.mem = s.mem

/-- R103, R253: a TRAP or a BRK in a handler context ends the context with a NACK that carries its cause. -/
def Sys2Proof.Claims.trapInContext : Prop :=
  ∀ (hd : Head) (a : Reg) (m : Msg) (s : State), s.cur.isCtx = true → s.clear hd [.x a] [] → s.me.ctx.arrival = some m → m.org = .own →
    s.me.ctx.copyFault = none → s.me.copiesOut = false → s.me.busy.sb = [] → s.me.busy.loads = [] →
    let nacked (i : Instr) (c : BitVec 8) : Prop := ∃ (t : State) (r : Reply), exec i s = .next t ∧ t.me.st = .idle ∧ t.me.ctx.arrival = none ∧
      t.dev.replies = s.dev.replies ++ [r] ∧ r.kind = .nack ∧ r.cause = c ∧ r.msg = m.id ∧ r.dst = m.src ∧ (t.core s.myCore).hfault = true
    nacked (.trap hd a) 0x1C ∧ nacked (.brk hd) 0x1B

/-- R103, R253, R389: a trap of a thread, a trap while one is being handled, and a trap of a handler context. -/
def Obligations.TrapEntry : Prop := Sys2Proof.Claims.trapEntry ∧ Sys2Proof.Claims.trapInTrap ∧ Sys2Proof.Claims.trapInContext

/-- R254: ERET at supervisor level goes to TEPC with the loop stack of the save area, PRIV from PPRIV and INTRAP 0, and what was fetched
ahead is discarded; with TEPC odd it raises cause 0x04; at kernel level cause 0x03. -/
def Obligations.ReturnFromTrap : Prop :=
  ∀ (hd : Head) (s : State), s.cur.isCtx = false → s.clear hd [] [] →
    (1 ≤ s.me.priv → (s.me.priv = 1 → wbits s.me.csr.tstatus 2 2 ≠ 2) → wbit s.me.csr.tepc 0 = false →
      ∃ t : State, exec (.eret hd) s = .next t ∧ t.me.pc.toNat = s.me.csr.tepc.toNat % 2 ^ 48 ∧ t.me.priv = wbits s.me.csr.tstatus 2 2 ∧
        t.me.inTrap = false ∧ t.me.fetched = [] ∧ t.me.loops.length = min (wbits s.me.csr.ldepth 0 3) 4 ∧
        (∀ n, n < t.me.loops.length → ∃ e : LoopEnt, t.me.loops.reverse[n]? = some e ∧ e.start = s.me.csr.lstart.get n 0 ∧
          e.stop = s.me.csr.lend.get n 0 ∧ e.count = s.me.csr.lcount.get n 0) ∧
        (∀ r, t.me.rx r = s.me.rx r) ∧ t.mem = s.mem ∧ ∀ h, h ≠ s.cur → t.hart h = s.hart h) ∧
    (s.me.inTrap = false → 1 ≤ s.me.priv → (s.me.priv = 1 → wbits s.me.csr.tstatus 2 2 ≠ 2) → wbit s.me.csr.tepc 0 = true →
      ∃ t : State, exec (.eret hd) s = .next t ∧ t.me.csr.tcause = 0x04 ∧ t.me.csr.tval.toNat = s.me.csr.tepc.toNat % 2 ^ 48) ∧
    (s.me.inTrap = false → s.me.priv = 0 → ∃ t : State, exec (.eret hd) s = .next t ∧ t.me.csr.tcause = 0x03)

/-- R170, R174, R255: YIELD changes nothing; HALT leaves the slot halted at its successor once its tokens are at 0 and its stores are
visible; EXIT stands at its end; PAUSE of 0 goes on and any other waits until its time; VMODE.L and VMODE.S switch the core's mode once
its vector instructions have completed. -/
def Obligations.SystemInstructions : Prop :=
  ∀ (hd : Head) (a : Reg) (s : State), s.cur.isCtx = false → s.clear hd [.x a] [] →
    completes (.yield hd) hd s s ∧
    (1 ≤ s.me.priv → s.me.lock = none → (∀ k, (s.me.tok k).count = 0) → s.me.busy.sb = [] → s.me.busy.commit = none →
      exec (.halt hd) s = .next ((finish (codeOf (.halt hd)) hd s).modMe (fun h => { h with st := .halted }))) ∧
    (let ending := s.modMe (fun h => { h with wait := some .exit, safe := none })
     exec (.exit hd) s = .next ending ∧ exec .cExit s = .next ending) ∧
    (s.me.pauseTo = 0 → s.rx a = 0 → ∃ t : State, exec (.pause hd a) s = .next t ∧ t.me.pc = (finish (codeOf (.pause hd a)) hd s).me.pc ∧
      (∀ r, t.me.rx r = s.me.rx r) ∧ t.me.wait = none) ∧
    (s.me.pauseTo ≠ 0 → ∃ t : State, exec (.pause hd a) s = .next t ∧ t.me.pc = (finish (codeOf (.pause hd a)) hd s).me.pc ∧ t.me.pauseTo = 0 ∧
      ∀ r, t.me.rx r = s.me.rx r) ∧
    (s.me.pauseTo = 0 → s.rx a ≠ 0 → (s.cluster (clusterOf s.myCore)).step = 16 → ∃ t : State, exec (.pause hd a) s = .next t ∧
      t.me.pc = s.me.pc ∧ t.me.pauseTo = s.clk + min (s.rx a).toNat 65535) ∧
    (s.vecDone s.myCore = true → ∃ t : State, exec (.vmodeL hd) s = .next t ∧ t.long = true ∧
      (∀ r, (t.core s.myCore).rw r = 0 ∧ t.stv r = .full) ∧ t.me.pc = (finish (codeOf (.vmodeL hd)) hd s).me.pc ∧
      ∀ r, t.me.rx r = s.me.rx r) ∧
    (s.long = true → s.vecDone s.myCore = true → ∃ t : State, exec (.vmodeS hd) s = .next t ∧ t.long = false ∧
      (∀ r, (t.core s.myCore).rw r = (s.core s.myCore).rw r) ∧ t.me.pc = (finish (codeOf (.vmodeS hd)) hd s).me.pc) ∧
    (s.long = false → completes (.vmodeS hd) hd s s)

/-- R103, R282: REPLY, HRET and EXIT in a handler context whose copies have signalled and whose accesses are performed end it and answer
its sender: with the value of rs1, or of x8, for the register that an arrival with RR names; with RR 0 no value is sent and the answer names no
register, only its command. The end of a traveller is an end notice, for the count of its last sender. -/
def Obligations.ContextEndings : Prop :=
  ∀ (hd : Head) (a : Reg) (m : Msg) (s : State), s.cur.isCtx = true → s.clear hd [.x a, .x 8] [] → s.me.ctx.arrival = some m → m.org = .own →
    s.me.ctx.copyFault = none → s.me.copiesOut = false → s.me.busy.sb = [] → s.me.busy.loads = [] →
    let answers (i : Instr) (v : Word) : Prop := ∃ (t : State) (r : Reply), exec i s = .next t ∧ t.me.st = .idle ∧ t.me.ctx.arrival = none ∧ t.me.loops = [] ∧
      t.dev.replies = s.dev.replies ++ [r] ∧ (m.kind = .rcall → r.kind = .fill ∧ r.trav = none) ∧
      (m.kind = .travel → r.kind = .endNotice ∧ r.trav = some m.sentBy) ∧
      (m.rr = true → r.reg = some m.rreg ∧ r.value = v) ∧ (m.rr = false → r.reg = none ∧ r.value = 0) ∧ r.cmd = m.cmd ∧ r.msg = m.id ∧ r.dst = m.src ∧
      t.mem = s.mem ∧ ∀ h, h ≠ s.cur → t.hart h = s.hart h
    answers (.reply hd a) (s.rx a) ∧ answers (.hret hd) (s.rx 8) ∧ answers (.exit hd) (s.rx 8) ∧
      (s.clear Head.plain [.x 8] [] → answers .cExit (s.rx 8))

/-- R104, R184, R391: in a thread a VOID source raises cause 0x08, a PENDING source or destination makes the thread wait, or raises cause 0x08 when E
is 1 or under a pool lock (R97); TVAL names the register, a vector register with bit 5 set; a VOID destination is written and is FULL. In a handler
context a VOID source and a PENDING register end the context with a NACK of cause 0x08, whatever E. -/
def Sys2Proof.Claims.emptyRegisters : Prop :=
  ∀ (hd : Head) (d a b : Reg) (ty : BitVec 3) (s : State), (hd.s && hd.mask.getLsbD 27) = false →
    let full (r : RegRef) : Prop := s.regSt r = .full ∧ s.loading r = false
    let traps (i : Instr) (v : Word) : Prop := ∃ t : State, exec i s = .next t ∧ t.me.csr.tcause = 0x08 ∧ t.me.csr.tval = v ∧
      t.me.csr.tepc.toNat = s.me.pc.toNat % 2 ^ 48 ∧ (∀ r, t.me.rx r = s.me.rx r) ∧ ∀ r, t.vval r = s.vval r
    let waits (i : Instr) : Prop := ∃ t : State, exec i s = .next t ∧ t.me.wait = some .stall ∧ t.me.pc = s.me.pc ∧
      (∀ r, t.me.rx r = s.me.rx r) ∧ ∀ r, t.vval r = s.vval r
    let pending (i : Instr) (v : Word) : Prop := (hd.e = true ∨ s.me.lock ≠ none → traps i v) ∧ (hd.e = false → s.me.lock = none → waits i)
    let source (i : Instr) (r : RegRef) : Prop := s.loading r = false → (s.regSt r = .void → traps i r.tval) ∧ (s.regSt r = .pending → pending i r.tval)
    let dest (i : Instr) (r : RegRef) : Prop := s.loading r = false → s.regSt r = .pending → pending i r.tval
    (s.cur.isCtx = false → s.me.inTrap = false →
      source (.add hd d a b) (.x a) ∧
      (full (.x a) → source (.add hd d a b) (.x b) ∧ (full (.x b) → dest (.add hd d a b) (.x d))) ∧
      ((∀ r ∈ [d, a, b], s.long = true → r.toNat < 8) →
        source (.vadd hd d a b ty) (.v a) ∧
        (full (.v a) → source (.vadd hd d a b ty) (.v b) ∧ (full (.v b) → dest (.vadd hd d a b ty) (.v d))))) ∧
    (full (.x a) → full (.x b) → d ≠ 0 → s.loading (.x d) = false → s.regSt (.x d) = .void →
      ∃ t : State, exec (.add hd d a b) s = .next t ∧ t.me.rx d = s.rx a + s.rx b ∧ t.me.stx d = .full ∧
        (∀ r, r ≠ d → t.me.rx r = s.me.rx r ∧ t.me.stx r = s.me.stx r) ∧ t.me.pc = (finish (codeOf (.add hd d a b)) hd s).me.pc) ∧
    (s.cur.isCtx = false → s.long = false → full (.v a) → full (.v b) → s.loading (.v d) = false → s.regSt (.v d) = .void →
      ∃ t : State, exec (.vadd hd d a b ty) s = .next t ∧ t.stv d = .full ∧ (∀ r, r ≠ d → t.stv r = s.stv r ∧ t.vval r = s.vval r) ∧
        t.me.pc = (finish (codeOf (.vadd hd d a b ty)) hd s).me.pc) ∧
    (∀ m, s.cur.isCtx = true → s.me.ctx.arrival = some m → m.org = .own → s.me.copiesOut = false → s.me.busy.sb = [] → s.me.busy.loads = [] →
      s.me.ctx.copyFault = none → s.me.stx a ≠ .full ∨ s.me.stx b ≠ .full ∨ s.me.stx d = .pending →
      ∃ (t : State) (r : Reply), exec (.add hd d a b) s = .next t ∧ t.dev.replies = s.dev.replies ++ [r] ∧ r.kind = .nack ∧ r.cause = 0x08 ∧
        r.msg = m.id ∧ r.dst = m.src ∧ t.me.st = .idle)

/-- R222, R252: an instruction issued below its level raises cause 0x03, and one that no handler context may issue raises cause 0x01
there, whatever its registers hold. -/
def Sys2Proof.Claims.privilegeAndContextChecks : Prop :=
  ∀ (hd : Head) (a b : Reg) (s : State),
    (s.cur.isCtx = false → s.me.inTrap = false → s.me.priv = 0 →
      ∀ i ∈ ([.eret hd, .halt hd, .tlbinv hd a b, .hset hd a b, .hclr hd a] : List Instr),
        ∃ t : State, exec i s = .next t ∧ t.me.csr.tcause = 0x03 ∧ t.me.csr.tepc.toNat = s.me.pc.toNat % 2 ^ 48 ∧ t.me.csr.tval = (codeOf i).w.setWidth 64 ∧
          ∀ r, t.me.rx r = s.me.rx r) ∧
    (∀ m, s.cur.isCtx = true → 1 ≤ s.me.priv → s.me.ctx.arrival = some m → m.org = .own → s.me.copiesOut = false → s.me.busy.sb = [] →
      s.me.busy.loads = [] → s.me.ctx.copyFault = none →
      ∀ i ∈ ([.eret hd, .halt hd, .yield hd, .vmodeL hd, .vmodeS hd, .tlbinv hd a b, .launch hd a b, .waitctr hd a b, .xbegin hd, .xcommit hd a,
              .xabort hd, .waittk hd 0, .lease hd a 0, .release hd, .tapeEnd hd a] : List Instr),
        ∃ (t : State) (r : Reply), exec i s = .next t ∧ t.dev.replies = s.dev.replies ++ [r] ∧ r.kind = .nack ∧ r.cause = 0x01 ∧ t.me.st = .idle)

/-- R184, R222, R252, R391: empty registers, privilege levels and the instructions that no handler context may issue. -/
def Obligations.IssueChecks : Prop := Sys2Proof.Claims.emptyRegisters ∧ Sys2Proof.Claims.privilegeAndContextChecks

/-! ### Vault control (R50, R74, R78, R275 to R277) -/

/-- R50, R275, R276: the direct forms of ACT and PRE enter one request in the queue of the bank of their address, PREA a precharge in each
of the 32 queues, and the thread goes on; memory is as before. -/
def Sys2Proof.Claims.rowCommands : Prop :=
  ∀ (hd : Head) (a : Reg) (s t : State) (x : Xlat),
    let asks (i : Instr) (k : VReqKind) : Prop := ∃ r : State, exec i s = .next r ∧
      (∃ q : VReq, (r.bank (paCore x.pa) (bankOf (paOff x.pa))).q = (t.bank (paCore x.pa) (bankOf (paOff x.pa))).q ++ [q] ∧ q.kind = k ∧
        q.row = rowOf (paOff x.pa) ∧ q.line = paOff x.pa / 64) ∧
      (∀ b, b ≠ bankOf (paOff x.pa) → r.bank (paCore x.pa) b = t.bank (paCore x.pa) b) ∧ r.mem = t.mem ∧
      r.me.pc = (finish (codeOf i) hd t).me.pc ∧ ∀ q, r.me.rx q = s.me.rx q
    (s.clear hd [.x a] [] → reaches .vault 1 (s.rx a) s t x → asks (.act hd a) .act ∧ asks (.pre hd a) .pre) ∧
    (s.clear hd [] [] → ∃ r : State, exec (.prea hd) s = .next r ∧ (∀ b, b < 32 →
        ∃ q : VReq, (r.bank s.myCore b).q = (s.bank s.myCore b).q ++ [q] ∧ q.kind = .pre) ∧
      r.mem = s.mem ∧ r.me.pc = (finish (codeOf (.prea hd)) hd s).me.pc)

/-- R74, R78, R277: VSTAT gives the bank status word, VEVT the oldest log record (or zero) in rd and the next register and takes it out. -/
def Sys2Proof.Claims.vaultStatus : Prop :=
  ∀ (hd : Head) (d a : Reg) (s : State),
    (s.clear hd [.x a] [.x d] → (s.rx a).toNat < 32 →
      (∀ r, (s.bank s.myCore (s.rx a).toNat).opened = some r → r.row < 2 ^ 12) → ∃ v, gives (.vstat hd d a) hd d v s ∧
      (let b := s.bank s.myCore (s.rx a).toNat
       let band := s.band s.myCore ((s.rx a).toNat / 4)
       (b.opened = none ∨ (b.refresh.isSome = true ∧ b.copyEnd ≤ s.clk) → wbits v 0 14 = 0) ∧
       (∀ r, b.opened = some r → b.refresh = none ∨ s.clk < b.copyEnd → wbits v 0 12 = r.row ∧ wbit v 12 = true ∧ wbit v 13 = r.spare) ∧
       wbit v 14 = b.refresh.isSome ∧ wbit v 15 = b.hold.isSome ∧ wbit v 16 = b.repair.isSome ∧
       (b.map.length < 2 ^ 7 → band < 2 ^ 8 → b.refPtr < 2 ^ 32 → v.toNat / 2 ^ 17 = b.map.length + band * 2 ^ 7 + b.refPtr * 2 ^ 15))) ∧
    (s.clear hd [.x a] [.x d] → s.cur.isCtx = false → s.me.inTrap = false → 32 ≤ (s.rx a).toNat →
      ∃ t : State, exec (.vstat hd d a) s = .next t ∧ t.me.csr.tcause = 0x02 ∧ t.me.rx d = s.me.rx d) ∧
    (s.clear hd [] [.x d, .x (d + 1)] → ∃ t : State, exec (.vevt hd d) s = .next t ∧
      (let r := (s.vault s.myCore).log.headD 0
       (d ≠ 0 → t.me.rx d = r.extractLsb' 0 64) ∧ (d + 1 ≠ 0 → t.me.rx (d + 1) = r.extractLsb' 64 64)) ∧
      (t.vault s.myCore).log = (s.vault s.myCore).log.tail ∧ (∀ r, r ≠ d → r ≠ d + 1 → t.me.rx r = s.me.rx r) ∧ t.mem = s.mem ∧
      t.me.pc = (finish (codeOf (.vevt hd d)) hd s).me.pc)

/-- R50, R74, R78, R275 to R277: ACT, PRE, PREA, VSTAT and VEVT. -/
def Obligations.VaultInstructions : Prop := Sys2Proof.Claims.rowCommands ∧ Sys2Proof.Claims.vaultStatus

/-! ### Messages (R108, R121, R129, R136, R278 to R286) -/

/-- The ten RAMO instructions, by the number of their operation (R278). -/
def Sys2Proof.Claims.ramos (hd : Head) (d a : Reg) (w o : BitVec 2) : List Instr :=
  [.ramoadd hd d a w o, .ramoand hd d a w o, .ramoor hd d a w o, .ramoxor hd d a w o, .ramomin hd d a w o, .ramomax hd d a w o,
   .ramominu hd d a w o, .ramomaxu hd d a w o, .ramoswap hd d a w o, .ramocas hd d a w o]

/-- An instruction completes having sent one message of a kind to a core (R108): the message stands last on the request channel with a new
number, the sender, its address, its epoch and its address space and the count of the messages it has sent there; nothing that any hart reads from memory changes. -/
def Sys2Proof.Claims.sends (i : Instr) (hd : Head) (kind : MsgKind) (core : Nat) (p : Msg → Prop) (u s : State) : Prop :=
  ∃ (r : State) (m : Msg), exec i s = .next r ∧ r.dev.net = u.dev.net ++ [m] ∧ r.dev.nextMsg = u.dev.nextMsg + 1 ∧ m.id = u.dev.nextMsg ∧ m.kind = kind ∧
    m.core = core ∧ m.src = s.cur ∧ m.org = .own ∧ m.epoch = u.me.epoch ∧ m.asid = u.me.asid ∧
    m.seq = BitVec.ofNat 32 (u.me.busy.sent.get (u.seqKey m.dev core) 0) ∧ p m ∧ r.mem = u.mem ∧
    r.me.pc = (finish (codeOf i) hd u).me.pc ∧ r.me.wait = none ∧ (∀ h, h ≠ s.cur → r.hart h = u.hart h)

/-- R138, R278, R279: RLOAD, RSTORE and the RAMOs whose access passes the checks send their message to the vault of the address; a form
with a result leaves rd PENDING (x0 stays FULL), and the acquire half makes the hart's next access wait. -/
def Obligations.RemoteAccesses : Prop :=
  ∀ (hd : Head) (d a : Reg) (w o : BitVec 2) (op : Nat) (ins : Instr) (s t : State) (x : Xlat), s.me.acqWait = false →
    let n := 2 ^ w.toNat
    let asks (i : Instr) (kind : MsgKind) (p : Msg → Prop) : Prop :=
      sends i hd kind (paCore x.pa) (fun m => m.addr = BitVec.ofNat 64 x.pa ∧ m.size = n ∧ m.ord = o ∧ m.rr = true ∧ m.rreg = d ∧ p m) t s ∧
      ∃ r : State, exec i s = .next r ∧ (d ≠ 0 → r.me.stx d = .pending) ∧ (∀ q, q ≠ d → r.me.stx q = s.me.stx q) ∧
        (∀ q, r.me.rx q = s.me.rx q) ∧ (o.getLsbD 0 = true ↔ r.me.busy.acq ≠ [])
    (s.clear hd [.x a] [.x d] → reaches (.remote true false) n (s.rx a) s t x → asks (.rload hd d a w o) .rload (fun _ => True)) ∧
    (s.clear hd [.x d, .x a] [] → reaches (.remote false true) n (s.rx a) s t x →
      sends (.rstore hd d a w o) hd .rstore (paCore x.pa) (fun m => m.addr = BitVec.ofNat 64 x.pa ∧ m.size = n ∧ m.rr = false ∧
        m.data.toNat = (s.rx d).toNat % 2 ^ (8 * n)) t s) ∧
    ((ramos hd d a w o)[op]? = some ins → s.clear hd [.x d, .x a, .x (d + 1)] [.x d] → reaches (.remote true true) n (s.rx a) s t x →
      asks ins .ramo (fun m => m.op = op ∧ (if op = 9 then m.cmp = s.rx d ∧ m.data = s.rx (d + 1) else m.data = s.rx d)))

/-- R120, R121, R281: MIGRATE of a thread with a place among its core's travellers sends TRAVEL with x8 to x15 and counts it in flight; in
a traveller context it ends the context and sends the next hop with the origin's fields. -/
def Obligations.Migrate : Prop :=
  ∀ (hd : Head) (d a b : Reg) (dev : BitVec 16) (core : Nat) (s : State),
    s.clear hd (.x a :: .x b :: argRefs) [.x d] → coreId (s.rx a) = some (dev, core) → (s.rx b).toNat < 64 → s.retiredHere dev core = false →
    s.reachable dev = true →
    (s.cur.isCtx = false → (s.core s.myCore).inflight < (s.core s.myCore).travMax → s.me.acqWait = false →
      sends (.migrate hd d a b) hd .travel core (fun m => m.dev = dev ∧ m.hidx = (s.rx b).toNat ∧ m.args = s.me.args ∧ m.rreg = d ∧
        m.rr = (d != 0)) s s ∧
      ∃ r : State, exec (.migrate hd d a b) s = .next r ∧ (r.core s.myCore).inflight = (s.core s.myCore).inflight + 1 ∧
        (d ≠ 0 → r.me.stx d = .pending)) ∧
    (∀ o, s.cur.isCtx = true → d = 0 → s.me.ctx.traveller = true → s.me.ctx.arrival = some o → s.me.copiesOut = false → s.me.busy.sb = [] →
      s.me.busy.loads = [] → s.me.busy.posted = [] → s.me.ctx.copyFault = none →
      ∃ (r : State) (m : Msg), exec (.migrate hd d a b) s = .next r ∧ r.dev.net = s.dev.net ++ [m] ∧ m.kind = .travel ∧ m.core = core ∧ m.src = o.src ∧
        m.org = o.org ∧ m.rr = o.rr ∧ m.rreg = o.rreg ∧ m.epoch = o.epoch ∧ m.hops = min (o.hops + 1) 255 ∧ m.args = s.me.args ∧ r.me.st = .idle)

/-- R113, R283: HSET of a checked descriptor and HCLR make their entry BUSY and wait for the write; once it is written they complete. -/
def Obligations.HandlerTableWrites : Prop :=
  ∀ (hd : Head) (a b : Reg) (s : State), s.clear hd [.x a, .x b] [] → 1 ≤ s.me.priv → (s.rx a).toNat < 64 →
    ((s.rx a).toNat < 16 → s.me.priv = 2) →
    let n := (s.rx a).toNat
    (s.me.wait = none → (s.core s.myCore).htbase ≠ 0 → ((s.core s.myCore).entry n).st ≠ .busy →
      (∃ r : State, exec (.hclr hd a) s = .next r ∧ ((r.core s.myCore).entry n).st = .busy ∧
        ((r.core s.myCore).entry n).next = some (s.cur, none) ∧ r.me.wait = some (.entry n) ∧ r.me.pc = s.me.pc) ∧
      (∀ t blk e, (s.rx b).toNat % 16 = 0 → s.me.acqWait = false → s.me.busy.loads = [] →
        s.blockRead (.instr s.cur) true (s.rx b) 2 = (t, .ok blk) → hsetFields blk t.me.priv = some e →
        ∃ r : State, exec (.hset hd a b) s = .next r ∧ ((r.core s.myCore).entry n).st = .busy ∧
          ((r.core s.myCore).entry n).next = some (s.cur, some e) ∧ r.me.wait = some (.entry n) ∧ r.me.pc = t.me.pc)) ∧
    (s.me.wait = some (.entryDone n) → completes (.hset hd a b) hd s s ∧ completes (.hclr hd a) hd s s)

/-- R122, R129, R284, R285: MBX.ADD and BFREE send MBXADD with their increment, BFREE to the router of the own cluster; MBX.SET of an own
counter enters the store buffer; MBX.READ of an own counter is a load, and of another a message that leaves rd PENDING (x0 stays FULL). -/
def Sys2Proof.Claims.mbxSends (hd : Head) (d a b : Reg) (n : CounterName) (s : State) : Prop :=
  sends (.mbxAdd hd a b) hd .mbxadd n.core (fun m => m.dev = n.dev ∧ m.addr = s.rx a ∧ m.data.toNat = (s.rx b).toNat % 2 ^ 32 ∧ m.rel = true ∧
    m.router = none) s s ∧
  (s.ownDev n.dev = true → stackOf n.core = stackOf s.myCore →
    sends (.bfree hd a) hd .mbxadd n.core (fun m => m.dev = n.dev ∧ m.addr = s.rx a ∧ m.data = 1 ∧ m.rel = true ∧
      m.router = some (clusterOf s.myCore, s.myCore)) s s) ∧
  (s.ownCounter n s.myCore = true →
    (∃ (r : State) (e : SbEnt), exec (.mbxSet hd a b) s = .next r ∧ r.me.busy.sb = s.me.busy.sb ++ [e] ∧
      e.parts = [(s.counterPa (s.rx a).toNat, 4, s.rx b)] ∧ r.mem = s.mem ∧ r.me.pc = (finish (codeOf (.mbxSet hd a b)) hd s).me.pc) ∧
    (∃ (r : State) (e : LoadEnt), exec (.mbxRead hd d a) s = .next r ∧ r.me.busy.loads = s.me.busy.loads ++ [e] ∧
      e.parts = [(s.counterPa (s.rx a).toNat, 4)] ∧ e.dst = .x d false ∧ r.mem = s.mem ∧ r.me.pc = (finish (codeOf (.mbxRead hd d a)) hd s).me.pc)) ∧
  (s.ownCounter n s.myCore = false →
    sends (.mbxRead hd d a) hd .mbxwatch n.core (fun m => m.dev = n.dev ∧ m.rr = true ∧ m.rreg = d ∧ m.sub = 0) s s ∧
    ∃ r : State, exec (.mbxRead hd d a) s = .next r ∧ (d ≠ 0 → r.me.stx d = .pending) ∧ ∀ q, q ≠ d → r.me.stx q = s.me.stx q)

/-- R123, R286: MBX.WAIT of a register leaves it PENDING and goes on, with a watch asked of another core; of an own counter that has come far
enough it fills the register at once, behind a watch of the slot that is not satisfied it waits its turn (log 78, the model's reading). With x0 it waits at itself, completes once its wait is satisfied, and traps with the cause of a timeout or
a NACK. -/
def Sys2Proof.Claims.mbxWaits (hd : Head) (d a b : Reg) (n : CounterName) (s : State) : Prop :=
  let target : BitVec 32 := (s.rx b).setWidth 32
  let count : BitVec 32 := (s.core n.core).counter n.idx
  let done : Prop := (count - target).toNat < 2 ^ 31
  let own : Prop := s.ownCounter n s.myCore = true
  let ready : Prop := own → s.me.busy.loads = [] ∧ ∀ e ∈ s.me.busy.sb, ∀ p ∈ e.parts, p.1 ≠ s.counterPa (s.rx a).toNat
  let first : Prop := ∀ w ∈ s.me.busy.mbx, w.own = false
  let behind : Prop := ∃ w : MbxWait, s.me.busy.mbx.find? (·.own) = some w ∧
    2 ^ 31 ≤ ((s.core w.counter.core).counter w.counter.idx - w.target).toNat
  let at_ : Word := (finish (codeOf (.mbxWait hd d a b)) hd s).me.pc
  (s.me.busy.mbxEnd = none → (∀ w ∈ s.me.busy.mbx, w.reg ≠ none) → ready →
    (d ≠ 0 → ¬ own →
      ∃ (r : State) (m : Msg) (w : MbxWait), exec (.mbxWait hd d a b) s = .next r ∧ r.me.stx d = .pending ∧ r.dev.net = s.dev.net ++ [m] ∧
        m.kind = .mbxwatch ∧ m.core = n.core ∧ m.dev = n.dev ∧ m.data.toNat % 2 ^ 32 = target.toNat ∧ m.sub = 1 ∧
        r.me.busy.mbx = s.me.busy.mbx ++ [w] ∧ w.target = target ∧ w.reg = some d ∧ r.me.pc = at_ ∧ r.mem = s.mem ∧ ∀ q, r.me.rx q = s.me.rx q) ∧
    (d ≠ 0 → own → (first ∧ ¬ done) ∨ behind →
      ∃ (r : State) (w : MbxWait), exec (.mbxWait hd d a b) s = .next r ∧ r.me.stx d = .pending ∧ r.me.busy.mbx = s.me.busy.mbx ++ [w] ∧
        w.target = target ∧ w.reg = some d ∧ w.own = true ∧ r.me.pc = at_ ∧ r.mem = s.mem ∧ ∀ q, r.me.rx q = s.me.rx q) ∧
    (d ≠ 0 → own → first → done →
      ∃ r : State, exec (.mbxWait hd d a b) s = .next r ∧ r.me.stx d = .full ∧ r.me.rx d = count.setWidth 64 ∧ r.me.pc = at_ ∧ r.mem = s.mem ∧
        ∀ q, q ≠ d → r.me.rx q = s.me.rx q ∧ r.me.stx q = s.me.stx q) ∧
    (d = 0 → ∃ r : State, exec (.mbxWait hd d a b) s = .next r ∧ r.me.wait = some .mbx ∧ r.me.pc = s.me.pc ∧
      (own → first → done → r.me.busy.mbxEnd = some (0, 0)))) ∧
  (d = 0 → s.me.busy.mbxEnd = some (0, 0) → ∃ r : State, exec (.mbxWait hd d a b) s = .next r ∧ r.me.pc = at_ ∧ r.me.wait = none ∧
    r.me.busy.mbxEnd = none ∧ r.me.x = s.me.x ∧ r.me.csr = s.me.csr ∧ r.mem = s.mem ∧ ∀ h, h ≠ s.cur → r.hart h = s.hart h) ∧
  (∀ c t, d = 0 → s.me.busy.mbxEnd = some (c, t) → c ≠ 0 → s.me.inTrap = false → ∃ r : State, exec (.mbxWait hd d a b) s = .next r ∧
    r.me.csr.tcause = (0 : BitVec 48) ++ t ++ c ∧ r.me.csr.tval = s.rx a ∧ r.me.busy.mbxEnd = none)

/-- R122, R123, R129, R284 to R286: the mailbox instructions on a counter whose name is well formed and whose device is in reach: MBX.ADD,
BFREE, MBX.SET, MBX.READ in every context, and MBX.WAIT of a thread without a pool lock. A name that is malformed raises cause 0x05
in the first four. -/
def Obligations.Mailboxes : Prop :=
  ∀ (hd : Head) (d a b : Reg) (s : State), s.clear hd [.x a, .x b] [.x d] → s.me.acqWait = false →
    (∀ n, s.counterName (s.rx a) = some n → s.reachable n.dev = true →
      mbxSends hd d a b n s ∧ (s.cur.isCtx = false → s.me.lock = none → mbxWaits hd d a b n s)) ∧
    (s.counterName (s.rx a) = none → s.cur.isCtx = false → s.me.inTrap = false →
      ∀ i ∈ ([.mbxAdd hd a b, .bfree hd a, .mbxSet hd a b, .mbxRead hd d a] : List Instr),
        ∃ t : State, exec i s = .next t ∧ t.me.csr.tcause = 0x05 ∧ t.me.csr.tval = s.rx a ∧ ∀ q, t.me.rx q = s.me.rx q)

/-- R103, R136, R275: the engine forms of ACT, PRE and MBX.ADD and every command of an engine: its checks passed, its registers clear and
room for it, the command stands last in its engine's queue with its token counted, and the thread goes on (R142, R185, R440). -/
def Sys2Proof.Claims.enters (i : Instr) (hd : Head) (q : Nat) (tk : BitVec 3) (p : Cmd → Prop) (s : State) : Prop :=
  ∃ (r : State) (c : Cmd), exec i s = .next r ∧ r.me.queue q = s.me.queue q ++ [c] ∧ c.ins = i ∧ c.tk = tk ∧ c.seq = s.me.busy.nextSeq ∧
    c.kickLoads = s.me.busy.loadNext ∧ c.kickSb = s.me.busy.sbNext ∧ c.asid = s.me.asid ∧ p c ∧
    (s.cur.isCtx = false → (r.me.tok tk).count = (s.me.tok tk).count + 1 ∧ (∀ k, k ≠ tk → r.me.tok k = s.me.tok k)) ∧
    (∀ j, j ≠ q → r.me.queue j = s.me.queue j) ∧ r.me.x = s.me.x ∧ r.mem = s.mem ∧
    r.me.pc = (finish (codeOf i) hd s).me.pc ∧ r.me.wait = none ∧ ∀ h, h ≠ s.cur → r.hart h = s.hart h

/-- What every engine command needs besides its registers: a thread that does not record, a token below 255 and room in the queue. -/
def Sys2Proof.Claims.room (q : Nat) (tk : BitVec 3) (s : State) : Prop :=
  s.cur.isCtx = false ∧ s.me.busy.recording = none ∧ (s.me.tok tk).count < 255 ∧ (s.me.queue q).length < 32

/-- R275, R276, R285: the engine forms read their control value from the register that rd names. -/
def Sys2Proof.Claims.engineForms : Prop :=
  ∀ (hd : Head) (c a b : Reg) (s : State),
    let v := s.rx c
    let tk := v.extractLsb' 0 3
    v.toNat < 2 ^ 11 →
    let same (m : Cmd) : Prop := m.va = s.rx a ∧ m.wait = v.extractLsb' 3 8
    (s.clear hd [.x c, .x a] [] → room 5 tk s →
      enters (.actEngine hd c a) hd 5 tk same s ∧ enters (.preEngine hd c a) hd 5 tk same s) ∧
    (s.clear hd [.x c, .x a, .x b] [] → room 3 tk s → (s.counterName (s.rx a)).isSome = true →
      enters (.mbxAddEngine hd c a b) hd 3 tk (fun m => same m ∧ m.vb = s.rx b) s)

/-! ### Work items, translations, transactions and CSRs (R40 to R42, R154, R155, R160 to R165, R256 to R259, R261 to R264, R292 to R294) -/

/-- R161, R164, R257 to R259: CANCEL of an item that is not DONE gives 0 and leaves it CANCELLING, or DONE with status CANCELLED where nothing
of it lives; of a DONE item it gives 1 and changes nothing. WAITCTR gives the status of a DONE item and waits for another. LAUNCH of a
record that passes its checks creates a SEALED launch of all its units, counts it in its graph and gives its handle; a refused record
gives all ones and creates nothing. -/
def Obligations.WorkItems : Prop :=
  ∀ (hd : Head) (d a : Reg) (s : State), s.freeThread → s.me.st = .running → s.clear hd [.x a] [.x d] →
    (∀ k tb i, s.ownItem (s.rx a) = .ok (k, tb, i) → tb < 4 →
      ((s.item k tb i).st = .done → gives (.cancel hd d a) hd d 1 s ∧
        gives (.waitctr hd d a) hd d (BitVec.ofNat 64 (s.item k tb i).status) s) ∧
      ((s.item k tb i).st ≠ .done →
        (∃ t : State, exec (.cancel hd d a) s = .next t ∧ (d ≠ 0 → t.me.rx d = 0) ∧
          ((t.item k tb i).st = .cancelling ∨ ((t.item k tb i).st = .done ∧ (t.item k tb i).status = 1)) ∧
          (∀ r, r ≠ d → t.me.rx r = s.me.rx r) ∧ t.mem = s.mem ∧ t.me.pc = (finish (codeOf (.cancel hd d a)) hd s).me.pc) ∧
        ∃ t : State, exec (.waitctr hd d a) s = .next t ∧ t.me.wait = some .stall ∧ t.me.pc = s.me.pc ∧ ∀ r, t.me.rx r = s.me.rx r)) ∧
    (∀ v, s.ownItem (s.rx a) = .error v → gives (.cancel hd d a) hd d v s ∧ gives (.waitctr hd d a) hd d v s) ∧
    (∀ (u : State) (r : List Byte) (k l unit n : Nat), s.me.acqWait = false → s.me.busy.loads = [] → (s.rx a).toNat % 128 = 0 →
      s.blockRead (.instr s.cur) true (s.rx a) 16 = (u, .ok r) → u.performed u.cur 4 false = true → u.me.unit = some (k, l, unit) →
      u.freeLaunch k = some n →
      let ccb := (u.launchOf k l).item.ccb
      let g := u.recItem k r 1
      (recBad r = false → u.recRefused k ccb r = false → g.used = true → g.st = .opened → recId r 3 = u.above k l 3 → recUnits r ≠ 0 →
        (∀ x ∈ recDeps r, (u.depOf k r x).isSome = true) → u.cancelledUp k 2 (recId r 1) = false →
        ∃ t : State, exec (.launch hd d a) s = .next t ∧
          (d ≠ 0 → t.me.rx d = BitVec.ofNat 64 (1 + k * 256 + n * 2 ^ 16 + (u.item k 0 n).gen.toNat * 2 ^ 32)) ∧
          (t.launchOf k n).record = r ∧ (t.launchOf k n).item.used = true ∧ (t.launchOf k n).item.st = .sealed ∧
          (t.launchOf k n).item.live = recUnits r ∧ (t.launchOf k n).item.parent = recId r 1 ∧ (t.launchOf k n).hq = (u.launchOf k l).hq ∧
          (t.recItem k r 1).live = g.live + 1 ∧ t.me.pc = (finish (codeOf (.launch hd d a)) hd u).me.pc ∧
          ∀ q, q ≠ d → t.me.rx q = s.me.rx q) ∧
      (recBad r = true ∨ g.used = false ∨ g.st ≠ .opened ∨ recId r 3 ≠ u.above k l 3 →
        exec (.launch hd d a) s = .next (finish (codeOf (.launch hd d a)) hd (u.wx d allOnes))))

/-- R40 to R42: a TLBINV whose earlier accesses are performed drops from the TLBs of every core in its scope the translations that its
address and its ALLVA, ALLAS and ASID fields match (a global one only by ALLAS), bumps the generation of its address space when BUMP
is 1, and waits for the holders; it completes once the loads, stores, commands, commits and messages that they had issued under a named
address space are done; a control value with a bit above 16 raises cause 0x02. -/
def Sys2Proof.Claims.translationInvalidation : Prop :=
  ∀ (hd : Head) (a b : Reg) (s : State), s.cur.isCtx = false → 1 ≤ s.me.priv → s.clear hd [.x a, .x b] [] → s.me.busy.fills = [] →
    let ctl := s.rx b
    let scope := wbits ctl 15 2 + 1
    let named (asid : BitVec 12) : Prop := wbit ctl 13 = true ∨ asid = ctl.extractLsb' 0 12
    let hit (e : TlbEnt) : Bool := (wbit ctl 13 || (!e.g && e.asid == ctl.extractLsb' 0 12)) &&
      (wbit ctl 12 || (decide (e.va ≤ (s.rx a).toNat % 2 ^ 48) && decide ((s.rx a).toNat % 2 ^ 48 < e.va + e.size)))
    (s.me.wait = none → wbits ctl 17 47 = 0 → s.performed s.cur scope false = true →
      ∃ t : State, exec (.tlbinv hd a b) s = .next t ∧ (∃ hs n, t.me.wait = some (.inv hs n)) ∧ t.me.pc = s.me.pc ∧
        (∀ core, s.inScope s.cur scope core 0xFFFF = true → (t.core core).tlb = (s.core core).tlb.filter (fun e => !hit e) ∧
          (t.core core).agentTlb = (s.core core).agentTlb.filter (fun e => !hit e)) ∧
        (∀ core, s.inScope s.cur scope core 0xFFFF = false → (t.core core).tlb = (s.core core).tlb) ∧
        (wbit ctl 14 = true → wbit ctl 13 = false → ∀ n, n < 4096 → t.dev.asgen.get n 0 =
          s.dev.asgen.get n 0 + (if n = wbits ctl 0 12 then 1 else 0)) ∧
        (wbit ctl 14 = false → t.dev.asgen = s.dev.asgen) ∧ (∀ r, t.me.rx r = s.me.rx r) ∧ t.mem = s.mem) ∧
    (∀ hs n, s.me.wait = some (.inv hs n) →
      (∀ p ∈ hs, let h := s.hart p.1
        (∀ l ∈ h.busy.loads, named l.asid → p.2.1 ≤ l.num) ∧ (∀ e ∈ h.busy.sb, named e.asid → p.2.2.1 ≤ e.num) ∧
        (∀ c ∈ h.busy.commands, named c.asid → p.2.2.2 ≤ c.seq) ∧
        (∀ x, h.busy.xact = some x → x.committing = true → (∃ e ∈ x.ents, named e.leaf.asid) → x.settled = true) ∧ (h.st = .running → s.onStale p.1 = false)) →
      (∀ m ∈ s.messages, m.id < n → s.inScope s.cur scope m.src.home 0xFFFF = true → ¬ named m.asid) →
      s.performed s.cur scope false = true → completes (.tlbinv hd a b) hd s s) ∧
    (s.me.wait = none → s.me.inTrap = false → wbits ctl 17 47 ≠ 0 → ∃ t : State, exec (.tlbinv hd a b) s = .next t ∧ t.me.csr.tcause = 0x02 ∧
      t.me.csr.tepc.toNat = s.me.pc.toNat % 2 ^ 48 ∧ (∀ core, (t.core core).tlb = (s.core core).tlb))

/-- R154, R155, R292 to R294: XBEGIN opens an empty transaction and discards an open one, XABORT discards it, XSTORE adds its store and
makes nothing visible, and XCOMMIT gives 4 with no transaction, 3 after an interruption, 2 after an overflow, 0 when it is empty; one with
entries sends a lock request to each of its vaults and waits; once every vault has granted and acknowledged it gives 0, and where some
refused 1, or 5 where one of them answered with a NACK, with the lowest of them (log 76, the model's reading). An XSTORE to a discarded transaction adds nothing; one outside a transaction raises cause 0x01. -/
def Obligations.Transactions : Prop :=
  ∀ (hd : Head) (d a b : Reg) (w : BitVec 2) (s : State), s.cur.isCtx = false → s.clear hd [.x a, .x b] [.x d] →
    let closed (u : State) : State := u.modMe (fun h => h.modBusy (fun z => { z with xact := none }))
    let ends (v : Word) : Prop := exec (.xcommit hd d) s = .next (finish (codeOf (.xcommit hd d)) hd ((closed s).wx d v))
    (∃ t : State, exec (.xbegin hd) s = .next t ∧ (∃ x : Xact, t.me.busy.xact = some x ∧ x.ents = [] ∧ x.overflow = false ∧ x.interrupted = false ∧
        x.committing = false) ∧ t.me.x = s.me.x ∧ t.mem = s.mem ∧ t.me.pc = (finish (codeOf (.xbegin hd)) hd s).me.pc) ∧
    completes (.xabort hd) hd (closed s) s ∧
    (∀ (x : Xact) (u : State) (y : Xlat), s.me.busy.xact = some x →
      reaches (.remote false true) (2 ^ w.toNat) (s.rx a) s u y →
      ∃ (t : State) (z : Xact), exec (.xstore hd a b w) s = .next t ∧ t.me.busy.xact = some z ∧ t.mem = s.mem ∧ t.me.x = s.me.x ∧
        t.me.pc = (finish (codeXstore hd a b w) hd u).me.pc ∧ (x.interrupted = true → z = x) ∧
        (x.interrupted = false → (16 ≤ x.ents.length ∨ 8 < ((x.ents.map (fun e => paCore e.pa)) ++ [paCore y.pa]).eraseDups.length) → z.overflow = true ∧ z.ents = x.ents) ∧
        (x.interrupted = false → x.ents.length < 16 → ((x.ents.map (fun e => paCore e.pa)) ++ [paCore y.pa]).eraseDups.length ≤ 8 →
          ∃ e : XEnt, z.ents = x.ents ++ [e] ∧ e.pa = y.pa ∧ e.size = 2 ^ w.toNat ∧ e.data = s.rx b ∧ z.overflow = x.overflow)) ∧
    (s.me.busy.xact = none → s.me.inTrap = false → ∃ t : State, exec (.xstore hd a b w) s = .next t ∧ t.me.csr.tcause = 0x01) ∧
    (s.me.busy.xact = none → ends 4) ∧
    (∀ x : Xact, s.me.busy.xact = some x →
      (x.committing = false → x.interrupted = true → ends 3) ∧
      (x.committing = false → x.interrupted = false → x.overflow = true → ends 2) ∧
      (x.committing = false → x.interrupted = false → x.overflow = false → s.me.acqWait = false → s.performed s.cur 5 false = true →
        (x.ents = [] → ends 0) ∧
        (x.ents ≠ [] → ∃ (t : State) (z : Xact), exec (.xcommit hd d) s = .next t ∧ t.me.wait = some .commit ∧ t.me.pc = s.me.pc ∧
          t.me.busy.xact = some z ∧ z.committing = true ∧ z.asked = (x.ents.map (fun e => paCore e.pa)).eraseDups ∧
          (∃ ms : List Msg, t.dev.net = s.dev.net ++ ms ∧ ms.map (·.core) = z.asked ∧ ∀ m ∈ ms, m.kind = .xact ∧ m.sub = 0 ∧ m.src = s.cur) ∧
          t.mem = s.mem)) ∧
      (x.committing = true → x.refused = [] → x.granted.length = x.asked.length → x.acked.length = x.asked.length → ends 0) ∧
      (∀ p ∈ x.refused, x.committing = true → (∀ r ∈ x.refused, p.1 ≤ r.1) → x.granted.length + x.refused.length = x.asked.length →
        ends (BitVec.ofNat 64 ((if x.refused.any (·.2) then 5 else 1) + p.1 * 256))))

/-- The bits that a write stores in a CSR whose every other bit reads 0 and whose write has no effect of its own (R22, R29, R217, R266,
R390); none for the other CSRs. -/
def Sys2Proof.Claims.csrMask (n : Nat) : Option Nat :=
  if n = 0x008 ∨ n = 0x104 ∨ n = 0x105 ∨ (0x038 ≤ n ∧ n ≤ 0x03B) then some (2 ^ 64 - 1)
  else if (0x010 ≤ n ∧ n ≤ 0x01F) ∨ n = 0x102 then some (2 ^ 48 - 1)
  else if (0x020 ≤ n ∧ n ≤ 0x02F) ∨ n = 0x103 then some (2 ^ 16 - 1)
  else if (0x030 ≤ n ∧ n ≤ 0x037) ∨ n = 0x101 then some (2 ^ 48 - 2)
  else if n = 0x10A then some (2 ^ 48 - 2 ^ 11)
  else none

/-- R261 to R264: in a thread a CSR instruction gives rd the old value; CSRXCH writes rs1, CSRBIS and CSRBIC set and clear its bits and
write nothing when it is 0, and the CSR keeps the bits that its field map has, every other CSR as before; a read-only CSR keeps its value;
a number outside the map raises cause 0x01, a level too low cause 0x03, and so does a write of DEVNUM, ASGEN, HTGEN or VAULTGEN below
machine level, which changes neither the CSR nor rd. -/
def Obligations.CsrInstructions : Prop :=
  ∀ (hd : Head) (d a : Reg) (c : BitVec 12) (s : State), s.cur.isCtx = false → s.clear hd [.x a] [.x d] → s.me.csrBusy c.toNat = false →
    let n := c.toNat
    let old := s.csrRead s.cur n
    let traps (i : Instr) (k : BitVec 8) : Prop := ∃ t : State, exec i s = .next t ∧ t.me.csr.tcause = k.setWidth 64 ∧ t.me.csr.tepc.toNat = s.me.pc.toNat % 2 ^ 48 ∧
      ∀ r, t.me.rx r = s.me.rx r
    let all (i : Instr) (v : Word) : Prop := ∃ t : State, exec i s = .next t ∧ t.csrRead s.cur n = v ∧ (d ≠ 0 → t.me.rx d = old) ∧
      (∀ r, r ≠ d → t.me.rx r = s.me.rx r) ∧ (∀ m, m ≠ n → t.csrRead s.cur m = s.csrRead s.cur m) ∧ t.mem = s.mem ∧
      t.me.pc = (finish (codeOf i) hd s).me.pc ∧ ∀ h, h ≠ s.cur → t.hart h = s.hart h
    (∀ i : CsrInfo, csrInfo n = some i → i.rd ≤ s.me.priv →
      (s.rx a = 0 → gives (.csrbis hd d a c) hd d old s ∧ gives (.csrbic hd d a c) hd d old s) ∧
      (i.wr = 3 → n ≠ 5 → n ≠ 6 → gives (.csrxch hd d a c) hd d old s) ∧
      (∀ m, csrMask n = some m → all (.csrxch hd d a c) (s.rx a &&& BitVec.ofNat 64 m) ∧
        (s.rx a ≠ 0 → all (.csrbis hd d a c) ((old ||| s.rx a) &&& BitVec.ofNat 64 m) ∧
          all (.csrbic hd d a c) ((old &&& ~~~ s.rx a) &&& BitVec.ofNat 64 m)))) ∧
    (s.me.inTrap = false →
      (csrInfo n = none → traps (.csrxch hd d a c) 0x01 ∧ traps (.csrbis hd d a c) 0x01 ∧ traps (.csrbic hd d a c) 0x01) ∧
      (∀ i : CsrInfo, csrInfo n = some i → s.me.priv < i.rd →
        traps (.csrxch hd d a c) 0x03 ∧ traps (.csrbis hd d a c) 0x03 ∧ traps (.csrbic hd d a c) 0x03) ∧
      (n ∈ [0x007, 0x109, 0x201, 0x207] → s.me.priv < 2 → traps (.csrxch hd d a c) 0x03))

/-! ### Vector instructions (R173 to R175, R204, R223, R297 to R318) -/

/-- Lane k of w bits of a register's value (R223). -/
def Sys2Proof.Claims.lane (w v k : Nat) : Nat := v / 2 ^ (w * k) % 2 ^ w

/-- The number that a lane of an integer type stands for: unsigned for .n64 and two's complement for the others (R304). -/
def Sys2Proof.Claims.num (t : BitVec 3) (x : Nat) : Int := if t = 7 then (x : Int) else (x : Int).bmod (2 ^ laneW t)

/-- A number written into a lane modulo 2^W (R304). -/
def Sys2Proof.Claims.wrap (t : BitVec 3) (k : Int) : Nat × Flags := ((k % (2 : Int) ^ laneW t).toNat, 0)

/-- A number clamped to the range of an integer type and written into a lane (R304). -/
def Sys2Proof.Claims.sat (t : BitVec 3) (k : Int) : Nat × Flags :=
  let lo : Int := if t = 7 then 0 else -(2 : Int) ^ (laneW t - 1)
  let hi : Int := if t = 7 then (2 : Int) ^ 64 - 1 else (2 : Int) ^ (laneW t - 1) - 1
  wrap t (max lo (min k hi))

/-- All ones in the lane where a condition holds, else zero (R305). -/
def Sys2Proof.Claims.mask (t : BitVec 3) (b : Bool) (f : Flags) : Nat × Flags := (if b then 2 ^ laneW t - 1 else 0, f)

/-- A thread may run a vector instruction on the registers that it names: in short mode at once, in long mode on w0 to w7 once the unit
of its cluster takes it (R173, R175). -/
def Sys2Proof.Claims.vready (s : State) (rs : List Reg) : Prop :=
  s.cur.isCtx = false ∧ (s.long = true → (s.cluster (clusterOf s.myCore)).lvuNow = some s.cur ∧ ∀ r ∈ rs, r.toNat < 8)

/-- The state with the unit's grant used up (R175). -/
def Sys2Proof.Claims.granted (s : State) : State :=
  if (s.cluster (clusterOf s.myCore)).lvuNow == some s.cur then s.modCluster (clusterOf s.myCore) (fun c => { c with lvuNow := none }) else s

/-- A vector instruction completes having written lane k of vd with the value of g k, for each of the n lanes of w bits, and having added
the flags of all lanes to VCSR; no other vector register, no x register and no byte of memory changes. -/
def Sys2Proof.Claims.vecs (i : Instr) (hd : Head) (d : Reg) (w : Nat) (g : Nat → Nat × Flags) (s : State) : Prop :=
  ∃ t : State, exec i s = .next t ∧ (∀ k, k < s.vbits / w → lane w (t.vval d) k = (g k).1 % 2 ^ w) ∧
    (∃ f : Flags, t.me.csr.vcsr = addFlags s.me.csr.vcsr f ∧
      ∀ j, j < 5 → (f.getLsbD j = true ↔ ∃ k, k < s.vbits / w ∧ (g k).2.getLsbD j = true)) ∧
    t.stv d = .full ∧ (∀ r, r ≠ d → t.vval r = s.vval r) ∧ t.me.x = s.me.x ∧ t.me.csr.fcsr = s.me.csr.fcsr ∧ t.mem = s.mem ∧
    t.me.pc = (finish (codeOf i) hd s).me.pc ∧ t.me.wait = none

/-- R304 to R308: lane by lane, what each VA, VC and VU instruction writes for every integer type, from the lanes of vs1, vs2 and vd. -/
def Obligations.VectorIntegerLanes : Prop :=
  ∀ (hd : Head) (d a b : Reg) (t : BitVec 3) (s : State), vready s [d, a, b] → s.clear hd [.v a, .v b] [.v d] → 3 ≤ t.toNat →
    let w := laneW t
    let x (k : Nat) : Nat := lane w (s.vval a) k
    let y (k : Nat) : Nat := lane w (s.vval b) k
    let z (k : Nat) : Nat := lane w (s.vval d) k
    let V (i : Instr) (g : Nat → Nat × Flags) : Prop := vecs i hd d w g s
    V (.vadd hd d a b t) (fun k => wrap t (x k + y k)) ∧ V (.vsub hd d a b t) (fun k => wrap t (x k - y k)) ∧
    V (.vmul hd d a b t) (fun k => wrap t (x k * y k)) ∧
    V (.vmin hd d a b t) (fun k => (if num t (x k) ≤ num t (y k) then x k else y k, 0)) ∧
    V (.vmax hd d a b t) (fun k => (if num t (x k) ≤ num t (y k) then y k else x k, 0)) ∧
    V (.vabsd hd d a b t) (fun k => wrap t (num t (x k) - num t (y k)).natAbs) ∧
    V (.vand hd d a b t) (fun k => (x k &&& y k, 0)) ∧ V (.vor hd d a b t) (fun k => (x k ||| y k, 0)) ∧
    V (.vxor hd d a b t) (fun k => (x k ^^^ y k, 0)) ∧
    V (.vshl hd d a b t) (fun k => wrap t (x k * 2 ^ (y k % w))) ∧ V (.vshr hd d a b t) (fun k => (x k / 2 ^ (y k % w), 0)) ∧
    V (.vsra hd d a b t) (fun k => wrap t ((x k : Int).bmod (2 ^ w) / (2 : Int) ^ (y k % w))) ∧
    V (.vadds hd d a b t) (fun k => sat t (num t (x k) + num t (y k))) ∧ V (.vsubs hd d a b t) (fun k => sat t (num t (x k) - num t (y k))) ∧
    V (.vmulh hd d a b t) (fun k => wrap t (num t (x k) * num t (y k) / (2 : Int) ^ w)) ∧
    V (.vavg hd d a b t) (fun k => wrap t ((num t (x k) + num t (y k) + 1) / 2)) ∧
    V (.vceq hd d a b t) (fun k => mask t (decide (x k = y k)) 0) ∧ V (.vclt hd d a b t) (fun k => mask t (decide (num t (x k) < num t (y k))) 0) ∧
    V (.vcle hd d a b t) (fun k => mask t (decide (num t (x k) ≤ num t (y k))) 0) ∧ V (.vcltu hd d a b t) (fun k => mask t (decide (x k < y k)) 0) ∧
    (s.clear hd [.v d] [] → V (.vsel hd d a b t) (fun k => ((z k &&& x k) ||| ((2 ^ w - 1 - z k) &&& y k), 0)) ∧
      V (.vfma hd d a b t) (fun k => wrap t (z k + x k * y k)) ∧ V (.vfms hd d a b t) (fun k => wrap t (z k - x k * y k))) ∧
    (6 ≤ t.toNat → V (.vclmul hd d a b t) (fun k => (clmulBits (x k) (y k) 64 % 2 ^ 64, 0)) ∧
      V (.vclmulh hd d a b t) (fun k => (clmulBits (x k) (y k) 64 / 2 ^ 64, 0))) ∧
    V (.vabs hd d a t) (fun k => wrap t (num t (x k)).natAbs) ∧ V (.vneg hd d a t) (fun k => wrap t (-(x k : Int))) ∧
    V (.vpopc hd d a t) (fun k => (((List.range w).filter (fun j => (x k).testBit j)).length, 0)) ∧
    V (.vclz hd d a t) (fun k => (((List.range w).find? (fun j => (x k).testBit (w - 1 - j))).getD w, 0))

/-- R204 to R213, R302 to R308: lane by lane, what the vector instructions write for the float types: each lane is the rounded result of
its format, and every lane's flags are added to VCSR; a type that an instruction does not accept raises cause 0x01. -/
def Obligations.VectorFloatLanes : Prop :=
  ∀ (hd : Head) (d a b : Reg) (t : BitVec 3) (s : State), vready s [d, a, b] → s.clear hd [.v a, .v b] [.v d] → t.toNat < 3 →
    let w := laneW t
    let f := vfmt t
    let v := s.vEnv
    let x (k : Nat) : Nat := lane w (s.vval a) k
    let y (k : Nat) : Nat := lane w (s.vval b) k
    let z (k : Nat) : Nat := lane w (s.vval d) k
    let V (i : Instr) (g : Nat → Nat × Flags) : Prop := vecs i hd d w g s
    let X (k : Nat) : Nat := lane 32 (s.vval a) k
    let Y (k : Nat) : Nat := lane 32 (s.vval b) k
    let W (i : Instr) (g : Nat → Nat × Flags) : Prop := vecs i hd d 32 g s
    V (.vadd hd d a b t) (fun k => f.add v (x k) (y k)) ∧ V (.vsub hd d a b t) (fun k => f.sub v (x k) (y k)) ∧
    V (.vmul hd d a b t) (fun k => f.mul v (x k) (y k)) ∧ V (.vmin hd d a b t) (fun k => f.minmax v false (x k) (y k)) ∧
    V (.vmax hd d a b t) (fun k => f.minmax v true (x k) (y k)) ∧ V (.vabsd hd d a b t) (fun k => f.absd v (x k) (y k)) ∧
    V (.vavg hd d a b t) (fun k => f.avg v (x k) (y k)) ∧
    V (.vand hd d a b t) (fun k => (x k &&& y k, 0)) ∧ V (.vor hd d a b t) (fun k => (x k ||| y k, 0)) ∧
    V (.vxor hd d a b t) (fun k => (x k ^^^ y k, 0)) ∧
    V (.vceq hd d a b t) (fun k => mask t (f.eq v (x k) (y k)).1 (f.eq v (x k) (y k)).2) ∧
    V (.vclt hd d a b t) (fun k => mask t (f.lt v (x k) (y k)).1 (f.lt v (x k) (y k)).2) ∧
    V (.vcle hd d a b t) (fun k => mask t (f.le v (x k) (y k)).1 (f.le v (x k) (y k)).2) ∧
    (s.clear hd [.v d] [] → V (.vsel hd d a b t) (fun k => ((z k &&& x k) ||| ((2 ^ w - 1 - z k) &&& y k), 0)) ∧
      V (.vfma hd d a b t) (fun k => f.fma v v.zeroNeg false false (x k) (y k) (z k)) ∧
      V (.vfms hd d a b t) (fun k => f.fma v v.zeroNeg true false (x k) (y k) (z k))) ∧
    V (.vsqrt hd d a t) (fun k => f.sqrt v (x k)) ∧ V (.vabs hd d a t) (fun k => (x k % 2 ^ (w - 1), 0)) ∧
    V (.vneg hd d a t) (fun k => (x k ^^^ 2 ^ (w - 1), 0)) ∧
    W (.vrcp hd d a) (fun k => vrcp32 v (X k)) ∧ W (.vrsq hd d a) (fun k => vrsq32 v (X k)) ∧
    W (.vexp2 hd d a) (fun k => vexp2 v (X k)) ∧ W (.vlog2 hd d a) (fun k => vlog2 v (X k)) ∧
    W (.vrcps hd d a b) (fun k => vrcps32 v (X k) (Y k)) ∧ W (.vrsqs hd d a b) (fun k => vrsqs32 v (X k) (Y k)) ∧
    (s.me.inTrap = false →
      ∀ i ∈ ([.vshl hd d a b t, .vshr hd d a b t, .vsra hd d a b t, .vadds hd d a b t, .vsubs hd d a b t, .vmulh hd d a b t, .vcltu hd d a b t,
              .vpopc hd d a t, .vclz hd d a t] : List Instr),
        ∃ u : State, exec i s = .next u ∧ u.me.csr.tcause = 0x01 ∧ u.me.csr.tepc.toNat = s.me.pc.toNat % 2 ^ 48 ∧ ∀ r, u.vval r = s.vval r)

/-- What VCVT makes of one lane of type t for type g (R310): between floats a rounding, from a float to an integer a saturating
conversion, from an integer to a float a rounding, between integers an extension or a clamp. -/
def Sys2Proof.Claims.converted (v : FEnv) (g t : BitVec 3) (x : Nat) : Nat × Flags :=
  let lo : Int := if g = 7 then 0 else -(2 : Int) ^ (laneW g - 1)
  let hi : Int := if g = 7 then (2 : Int) ^ 64 - 1 else (2 : Int) ^ (laneW g - 1) - 1
  if t.toNat < 3 ∧ g.toNat < 3 then convFloat (vfmt t) (vfmt g) v x
  else if t.toNat < 3 then let r := convToInt (vfmt t) v lo hi x; ((wrap g r.1).1, r.2)
  else if g.toNat < 3 then convFromInt (vfmt g) v (num t x)
  else if laneW t ≤ laneW g then wrap g (num t x)
  else sat g (num t x)

/-- The 128 elements of e bits of block k of the operand group that begins at a register (R307). -/
def Sys2Proof.Claims.dotBlock (s : State) (e : Nat) (r : Reg) (k : Nat) : List Nat :=
  (List.range 128).map (fun j =>
    let p := (k * 128 + j) * e
    lane e (s.vval (r + BitVec.ofNat 5 (p / s.vbits))) (p % s.vbits / e))

/-- R302, R306, R307, R309 to R311, R315: the lanes that the reductions, VCVT, the permutations and VDOT write: the float reductions by the
model's addition, maximum and minimum of two lanes, VDOT, for each pair code, by its sum of a block and its promotion. -/
def Obligations.VectorWhole : Prop :=
  ∀ (hd : Head) (d a b : Reg) (g t : BitVec 3) (s : State), vready s [d, a, b] → s.clear hd [.v a, .v b] [.v d] →
    let w := laneW t
    let n := s.vbits / w
    let x (k : Nat) : Nat := lane w (s.vval a) k
    let y (k : Nat) : Nat := lane w (s.vval b) k
    let xs := (List.range n).map x
    let V (i : Instr) (g : Nat → Nat × Flags) : Prop := vecs i hd d w g s
    let first (r : Nat × Flags) (k : Nat) : Nat × Flags := if k = 0 then r else (0, 0)
    (3 ≤ t.toNat →
      V (.vredadd hd d a t) (first ((xs.foldl (· + ·) 0) % 2 ^ w, 0)) ∧
      (∃ m ∈ xs, (∀ k ∈ xs, num t k ≤ num t m) ∧ V (.vredmax hd d a t) (first (m, 0))) ∧
      (∃ m ∈ xs, (∀ k ∈ xs, num t m ≤ num t k) ∧ V (.vredmin hd d a t) (first (m, 0)))) ∧
    (t.toNat < 3 →
      V (.vredmax hd d a t) (first (foldLanes ((vfmt t).minmax s.vEnv true) xs)) ∧
      V (.vredmin hd d a t) (first (foldLanes ((vfmt t).minmax s.vEnv false) xs)) ∧
      V (.vredadd hd d a t) (first (treeSum ((vfmt t).add s.vEnv) xs (Nat.log2 n)))) ∧
    V (.vperm hd d a b t) (fun k => (x (y k % n), 0)) ∧
    V (.vzip hd d a b t) (fun k => (if k % 2 = 0 then x (k / 2) else y (k / 2), 0)) ∧
    V (.vunzip hd d a b t) (fun k => (if k < n / 2 then x (2 * k) else y (2 * (k - n / 2)), 0)) ∧
    V (.vslide hd d a b t) (fun k =>
      let j : Int := k + (y 0 : Int).bmod (2 ^ w)
      (if 0 ≤ j ∧ j < n then x j.toNat else 0, 0)) ∧
    (g ≠ t → vecs (.vcvt hd d a g t) hd d (laneW g)
      (fun k => if k < n then converted (csrEnv s.me.csr.vcsr) g t (x k) else (0, 0)) s) ∧
    (vecs (.vcvt hd d a 0 0) hd d 8 (fun k => if k < s.vbits / 32 then convFloat Fmt.f32 Fmt.e4m3 (csrEnv s.me.csr.vcsr) (lane 32 (s.vval a) k) else (0, 0)) s) ∧
    (vecs (.vcvt hd d a 2 2) hd d 32 (fun k => convFloat Fmt.e4m3 Fmt.f32 (csrEnv s.me.csr.vcsr) (lane 8 (s.vval a) k)) s) ∧
    (s.long = false → a.toNat % 4 = 0 → b.toNat % 4 = 0 →
      s.clear hd (.v d :: ([a, a + 1, a + 2, a + 3, b, b + 1, b + 2, b + 3] : List Reg).map RegRef.v) [.v d] → s.me.csr.vcsr.getLsbD 11 = false →
      vecs (.vdot hd d a b 3) hd d 32 (fun k =>
        let at8 (r : Reg) (j : Nat) : Int := ((lane 8 (s.vval (r + BitVec.ofNat 5 (j / 32))) (j % 32) : Nat) : Int).bmod 256
        if k = 0 then ((((lane 32 (s.vval d) 0 : Nat) + (List.range 128).foldl (fun (q : Int) j => q + at8 a j * at8 b j) 0) % (2 : Int) ^ 32).toNat, 0)
        else (lane 32 (s.vval d) k, 0)) s) ∧
    (∀ p : BitVec 3, (s.long = true ∨ 3 ≤ p.toNat) → dotBad s.long d a b p = false →
      let named := dotGroup s.long a ++ dotGroup s.long b ++ (if 4 ≤ p.toNat then [d, d + 1] else [d])
      s.clear hd (named.map RegRef.v) [.v d] → vready s named →
      let e := elemBits (dotFmt p)
      let env : FEnv := ⟨0, wbit s.me.csr.vcsr 8, wbit s.me.csr.vcsr 11⟩
      let rule : PairRule := if p = 3 then .int32 else if p = 6 ∨ p = 7 then .intFloat else if p = 4 ∨ p = 5 then .fixed else .sequential
      let scale (k : Nat) : Nat := if 4 ≤ p.toNat then lane 32 (s.vval (d + 1)) k else 0x3F800000
      vecs (.vdot hd d a b p) hd d 32 (fun k =>
        if k < (if s.long then 1 else 4) * s.vbits / (128 * e) then
          promote env rule (lane 32 (s.vval d) k) (blockSum env rule (dotFmt p) (dotFmt p) (dotBlock s e a k) (dotBlock s e b k)) (scale k)
            (scale (s.vbits / 64 + k))
        else (lane 32 (s.vval d) k, 0)) s)

/-- A vector instruction with the registers that it reads and writes, the vector registers that it names, and whether its type is one that it
has (R304 to R318). -/
structure Sys2Proof.Claims.VForm where
  ins : Instr
  srcs : List RegRef
  dsts : List RegRef
  named : List Reg
  legal : Prop

/-- Every vector instruction (R173, R298, R304 to R318). -/
def Sys2Proof.Claims.vectorForms (hd : Head) (d a b : Reg) (g t : BitVec 3) (s : State) : List VForm :=
  let dot (r : Reg) : List Reg := dotGroup s.long r
  let dots := dot a ++ dot b ++ (if 4 ≤ t.toNat then [d, d + 1] else [d])
  ([.vadd hd d a b t, .vsub hd d a b t, .vmul hd d a b t, .vmin hd d a b t, .vmax hd d a b t, .vabsd hd d a b t, .vand hd d a b t, .vor hd d a b t,
    .vxor hd d a b t, .vavg hd d a b t, .vceq hd d a b t, .vclt hd d a b t, .vcle hd d a b t, .vrcps hd d a b, .vrsqs hd d a b, .vperm hd d a b t,
    .vzip hd d a b t, .vunzip hd d a b t, .vslide hd d a b t] : List Instr).map (fun i => ⟨i, [.v a, .v b], [.v d], [d, a, b], True⟩) ++
  ([.vshl hd d a b t, .vshr hd d a b t, .vsra hd d a b t, .vadds hd d a b t, .vsubs hd d a b t, .vmulh hd d a b t, .vcltu hd d a b t] : List Instr).map
    (fun i => ⟨i, [.v a, .v b], [.v d], [d, a, b], 3 ≤ t.toNat⟩) ++
  ([.vclmul hd d a b t, .vclmulh hd d a b t] : List Instr).map (fun i => ⟨i, [.v a, .v b], [.v d], [d, a, b], 6 ≤ t.toNat⟩) ++
  ([.vmergeLo hd d a b t, .vmergeHi hd d a b t] : List Instr).map (fun i => ⟨i, [.v a, .v b], [.v d], [d, a, b], t = 0 ∨ 5 ≤ t.toNat⟩) ++
  ([.vsel hd d a b t, .vfma hd d a b t, .vfms hd d a b t] : List Instr).map (fun i => ⟨i, [.v a, .v b, .v d], [.v d], [d, a, b], True⟩) ++
  ([.vrcp hd d a, .vrsq hd d a, .vexp2 hd d a, .vlog2 hd d a, .vabs hd d a t, .vneg hd d a t, .vredadd hd d a t, .vredmax hd d a t,
    .vredmin hd d a t] : List Instr).map (fun i => ⟨i, [.v a], [.v d], [d, a], True⟩) ++
  [⟨.vsqrt hd d a t, [.v a], [.v d], [d, a], t.toNat < 3⟩, ⟨.vpopc hd d a t, [.v a], [.v d], [d, a], 3 ≤ t.toNat⟩,
   ⟨.vclz hd d a t, [.v a], [.v d], [d, a], 3 ≤ t.toNat⟩, ⟨.vsort hd d a t, [.v a], [.v d], [d, a], t = 0 ∨ 5 ≤ t.toNat⟩,
   ⟨.vcvt hd d a g t, [.v a], [.v d], [d, a], g ≠ t ∨ g.toNat < 4⟩,
   ⟨.vdot hd d a b t, dots.map RegRef.v, [.v d], dots, dotBad s.long d a b t = false⟩,
   ⟨.vbcast hd d a t, [.x a], [.v d], [d], True⟩, ⟨.vins hd d a b t, [.x a, .x b, .v d], [.v d], [d], True⟩,
   ⟨.vext hd d a b t, [.x b, .v a], [.x d], [a], True⟩, ⟨.vld hd d a, [.x a], [.v d], [d], s.me.acqWait = false⟩,
   ⟨.vst hd d a, [.x a, .v d], [], [d], s.me.acqWait = false⟩, ⟨.vlds hd d a b t, [.x a, .x b], [.v d], [d], s.me.acqWait = false⟩,
   ⟨.vsts hd d a b t, [.x a, .x b, .v d], [], [d], s.me.acqWait = false⟩, ⟨.vldrow hd d a, [.x a], [.v d], [d], s.me.acqWait = false⟩]

/-- R175, R312, R316 to R318: VBCAST, VINS and VEXT move single lanes; VSORT and the two halves of VMERGE rearrange pairs: nothing is lost,
and no pair stands before one that precedes it; in long mode every vector instruction, its registers clear and its type one of its own, that the
unit of its cluster has not taken stands once in the unit's queue and waits at itself. -/
def Obligations.VectorLanesAndPairs : Prop :=
  ∀ (hd : Head) (d a b : Reg) (g t : BitVec 3) (s : State),
    let w := laneW t
    let n := s.vbits / w
    let pairs (r : Nat) : List Nat := (List.range (s.vbits / (2 * w))).map (lane (2 * w) r)
    let ordered (l : List Nat) : Prop := l.Pairwise (fun p q => pairPrecedes t q p = false)
    (vready s [d] → s.clear hd [.x a] [.v d] → vecs (.vbcast hd d a t) hd d w (fun _ => ((s.rx a).toNat, 0)) s) ∧
    (vready s [d] → s.clear hd [.x a, .x b, .v d] [.v d] →
      vecs (.vins hd d a b t) hd d w (fun k => (if k = (s.rx b).toNat % n then (s.rx a).toNat else lane w (s.vval d) k, 0)) s) ∧
    (vready s [a] → s.clear hd [.x b, .v a] [.x d] →
      let e := lane w (s.vval a) ((s.rx b).toNat % n)
      ∃ u : State, exec (.vext hd d a b t) s = .next u ∧ (d ≠ 0 → u.me.rx d = if t.toNat < 3 then BitVec.ofNat 64 e else BitVec.ofInt 64 (num t e)) ∧
        (∀ r, r ≠ d → u.me.rx r = s.me.rx r) ∧ (∀ r, u.vval r = s.vval r) ∧ u.mem = s.mem ∧
        u.me.pc = (finish (codeOf (.vext hd d a b t)) hd s).me.pc) ∧
    (vready s [d, a, b] → (t = 0 ∨ 5 ≤ t.toNat) → s.clear hd [.v a, .v b] [.v d] →
      (∃ u : State, exec (.vsort hd d a t) s = .next u ∧ (pairs (u.vval d)).Perm (pairs (s.vval a)) ∧ ordered (pairs (u.vval d)) ∧
        (∀ r, r ≠ d → u.vval r = s.vval r) ∧ u.me.x = s.me.x ∧ u.mem = s.mem ∧ u.me.pc = (finish (codeOf (.vsort hd d a t)) hd s).me.pc) ∧
      ∃ u v : State, exec (.vmergeHi hd d a b t) s = .next u ∧ exec (.vmergeLo hd d a b t) s = .next v ∧
        (pairs (u.vval d) ++ pairs (v.vval d)).Perm (pairs (s.vval a) ++ pairs (s.vval b)) ∧
        (ordered (pairs (s.vval a)) → ordered (pairs (s.vval b)) → ordered (pairs (u.vval d) ++ pairs (v.vval d))) ∧
        (∀ r, r ≠ d → u.vval r = s.vval r ∧ v.vval r = s.vval r) ∧ u.mem = s.mem ∧ v.mem = s.mem ∧
        u.me.pc = (finish (codeOf (.vmergeHi hd d a b t)) hd s).me.pc ∧ v.me.pc = (finish (codeOf (.vmergeLo hd d a b t)) hd s).me.pc) ∧
    (∀ e ∈ vectorForms hd d a b g t s, s.cur.isCtx = false → s.long = true → e.legal → s.clear hd e.srcs e.dsts → (∀ r ∈ e.named, r.toNat < 8) →
      (s.cluster (clusterOf s.myCore)).lvuNow ≠ some s.cur →
      let q := (s.cluster (clusterOf s.myCore)).lvuQ
      ∃ u : State, exec e.ins s = .next u ∧ u.me.wait = some .lvu ∧ u.me.pc = s.me.pc ∧
        (u.cluster (clusterOf s.myCore)).lvuQ = (if s.cur ∈ q then q else q ++ [s.cur]) ∧ (∀ r, u.vval r = s.vval r) ∧ u.mem = s.mem)

/-- R31, R135, R175, R298, R299, R312 to R314: outside the MMIO window a vector load whose parts all pass their checks, and of whose bytes the
hart's store buffer holds all or none, goes into flight for the whole register; a vector store enters the store buffer as one store of 8-byte
words or of lanes, whole also where its pages are replicated in one set (R134), the thread going on; an address that is not a multiple of the piece
raises cause 0x04. The model's choice (log 73): the parts in which the register is checked and loaded, the 8-byte words of a store, and a store for each
part where only some of its pages are replicated, or in several sets. -/
def Obligations.VectorMemory : Prop :=
  ∀ (hd : Head) (d a b : Reg) (t : BitVec 3) (s u : State) (xs : List Xlat), vready s [d] → s.me.acqWait = false →
    let n := if s.long then 64 else 32
    let m := if s.long then 32 else 1
    let w := laneW t / 8
    let base := s.rx a
    let line (k : Nat) : Word := base + BitVec.ofNat 64 (n * k)
    let at_ (k : Nat) : Word := base + BitVec.ofNat 64 k * s.rx b
    let dst : LoadDst := if s.long then .w d else .v d
    let plain (k : Nat) : Prop := (∀ x ∈ xs, region x.pa ≠ 4 ∧ u.badWord x.pa k = none) ∧
      forwardAll u.me.busy.sb (xs.map (fun x => (x.pa, k))) ≠ .part
    let row (x : Xlat) : List (Nat × Nat) := (List.range 32).map (fun k => (x.pa / 2048 * 2048 + 64 * k, 64))
    let loadsOf (i : Instr) (parts : List (Nat × Nat)) : Prop := ∃ r : State, exec i s = .next r ∧ (∃ e : LoadEnt,
      r.me.busy.loads = s.me.busy.loads ++ [e] ∧ e.dst = dst ∧ e.parts = parts ∧ e.num = s.me.busy.loadNext) ∧ (∀ q, r.vval q = s.vval q) ∧
      r.me.x = s.me.x ∧ r.mem = s.mem ∧ r.me.pc = (finish (codeOf i) hd s).me.pc ∧ r.me.wait = none
    let storesOf (i : Instr) (parts : List (List (Nat × Nat × Word))) : Prop := ∃ (r : State) (es : List SbEnt), exec i s = .next r ∧
      r.me.busy.sb = s.me.busy.sb ++ es ∧ (∀ e ∈ es, e.afterLoads = s.me.busy.loadNext) ∧
      (let set := (xs.head?).bind (·.ent.rep)
       ((∀ x ∈ xs, x.ent.rep = set) → es.map (fun e => (e.parts, e.rep)) = [(parts.flatten, set)]) ∧
       ((∃ x ∈ xs, x.ent.rep ≠ set) → es.map (·.parts) = parts ∧ es.map (·.rep) = xs.map (·.ent.rep))) ∧ (∀ q, r.vval q = s.vval q) ∧
      r.me.x = s.me.x ∧ r.mem = s.mem ∧ r.me.pc = (finish (codeOf i) hd s).me.pc ∧ r.me.wait = none
    (s.clear hd [.x a] [.v d] → base.toNat % n = 0 →
      (granted s).accessAll (.instr s.cur) (.load n false) 1 ((List.range m).map line) = (u, ⟨xs, [], false⟩) → plain n →
      loadsOf (.vld hd d a) (xs.map (fun x => (x.pa, n)))) ∧
    (s.clear hd [.x a, .x b] [.v d] → (granted s).accessAll (.instr s.cur) (.load w false) w ((List.range (s.vbits / laneW t)).map at_) = (u, ⟨xs, [], false⟩) →
      plain w → loadsOf (.vlds hd d a b t) (xs.map (fun x => (x.pa, w)))) ∧
    (∀ x, s.long = true → s.clear hd [.x a] [.v d] → (granted s).access (.instr s.cur) .row 1 base = (u, .ok x) →
      (∀ p ∈ row x, u.badWord p.1 p.2 = none) → forwardAll u.me.busy.sb (row x) ≠ .part → loadsOf (.vldrow hd d a) (row x)) ∧
    (s.clear hd [.x a, .v d] [] → base.toNat % n = 0 → (granted s).accessAll (.instr s.cur) .store 1 ((List.range m).map line) = (u, ⟨xs, [], false⟩) →
      (∀ x ∈ xs, region x.pa ≠ 4) →
      storesOf (.vst hd d a) (xs.zipIdx.map (fun (x, k) => (List.range (n / 8)).map (fun j =>
        (x.pa + 8 * j, 8, BitVec.ofNat 64 (lane 64 (s.vval d) (k * (n / 8) + j))))))) ∧
    (s.clear hd [.x a, .x b, .v d] [] → (granted s).accessAll (.instr s.cur) .store w ((List.range (s.vbits / laneW t)).map at_) = (u, ⟨xs, [], false⟩) →
      (∀ x ∈ xs, region x.pa ≠ 4) →
      storesOf (.vsts hd d a b t) (xs.zipIdx.map (fun (x, k) => [(x.pa, w, BitVec.ofNat 64 (lane (laneW t) (s.vval d) k))]))) ∧
    (s.clear hd [.x a, .v d] [.v d] → s.me.inTrap = false → base.toNat % n ≠ 0 → ∀ i ∈ ([.vld hd d a, .vst hd d a] : List Instr),
      ∃ r : State, exec i s = .next r ∧ r.me.csr.tcause = 0x04 ∧ r.me.csr.tval = base ∧ r.mem = s.mem)

/-! ### Engine commands, leases, templates and tapes (R142, R185, R289 to R291, R322, R328, R343, R360, R361, R363 to R368, R440) -/

/-- R142, R185, R280, R290, R328, R343, R440: every engine command with its registers clear, a lease where it is a matrix command, its token
below 255 and room in its queue, stands last in that queue with the values of its registers; a command with RR leaves rd PENDING. -/
def Sys2Proof.Claims.engineCommands : Prop :=
  ∀ (hd : Head) (d a b : Reg) (tk : BitVec 3) (wait : BitVec 8) (s : State),
    let vals (c : Cmd) : Prop := c.wait = wait ∧ c.va = s.rx a ∧ c.vb = s.rx b ∧ c.vd = s.rx d
    let valA (c : Cmd) : Prop := c.wait = wait ∧ c.va = s.rx a
    let valDB (c : Cmd) : Prop := c.wait = wait ∧ c.vd = s.rx d ∧ c.vb = s.rx b
    let one : Prop := s.clear hd [.x a] []
    let all : Prop := s.clear hd [.x a, .x b, .x d] []
    let leased : Prop := s.me.lease.isSome = true
    let pends (i : Instr) (rr : BitVec 1) : Prop := ∃ r : State, exec i s = .next r ∧ (∀ q, q ≠ d → r.me.stx q = s.me.stx q) ∧
      (rr = 1 → d ≠ 0 → r.me.stx d = .pending) ∧ (rr = 0 → r.me.stx d = s.me.stx d)
    (∀ dst fmt rows sc frow, one → leased → room 0 tk s →
      enters (.tld hd a tk wait dst fmt rows sc frow) hd 0 tk (fun c => valA c ∧ c.slot = s.me.lease) s) ∧
    (∀ fmt rows sc frow, all → leased → room 0 tk s →
      enters (.tldP hd d a b tk wait fmt rows sc frow) hd 0 tk (fun c => vals c ∧ c.slot = s.me.lease) s) ∧
    (∀ src fmt sc frow, all → leased → room 0 tk s →
      enters (.wload hd d a b tk wait src fmt sc frow) hd 0 tk (fun c => vals c ∧ c.slot = s.me.lease) s) ∧
    (∀ row0 rows ofmt satf, leased → room 1 tk s →
      (one → enters (.tst hd a tk wait row0 rows ofmt satf) hd 1 tk (fun c => valA c ∧ c.slot = s.me.lease) s) ∧
      (s.clear hd [.x b, .x d] [] → enters (.ast hd d b tk wait row0 rows ofmt satf) hd 1 tk (fun c => valDB c ∧ c.slot = s.me.lease) s)) ∧
    (∀ asrc fmt rows lt sat ftz wreg, leased → room 1 tk s →
      (asrc ≠ 3 → s.clear hd [.x b, .x d] [] →
        enters (.mma hd d b tk wait asrc fmt rows lt sat ftz wreg) hd 1 tk (fun c => valDB c ∧ c.slot = s.me.lease) s) ∧
      (asrc = 3 → s.long = true → (s.cluster (clusterOf s.myCore)).lvuNow = some s.cur →
        let n := (rows.toNat + 1) * (elemBits fmt.toNat * 16) + (if fmt ∈ ([2, 3, 10, 13] : List (BitVec 4)) then (4 * (rows.toNat + 1) + 63) / 64 * 64 else 0)
        let rs : List Reg := (List.range ((n + 2047) / 2048)).map (fun k => BitVec.ofNat 5 (wreg.toNat + k))
        (∀ r ∈ rs, r.toNat < 8) → s.clear hd (rs.map RegRef.v) [] →
        enters (.mma hd d b tk wait asrc fmt rows lt sat ftz wreg) hd 1 tk (fun c => c.slot = s.me.lease ∧
          ∀ k, k < n → c.wdata.read k = BitVec.ofNat 8 ((s.vval (rs.getD (k / 2048) 0)) / 2 ^ (8 * (k % 2048)) % 256)) s)) ∧
    (s.clear hd [] [] → leased → room 1 tk s →
      enters (.aswap hd tk wait) hd 1 tk (fun c => c.wait = wait ∧ c.slot = s.me.lease) s ∧
      (∀ cf, enters (.aclr hd tk wait cf) hd 1 tk (fun c => c.wait = wait ∧ c.slot = s.me.lease) s) ∧
      (s.long = true → ∀ row0 rows wreg, enters (.ard hd tk wait row0 rows wreg) hd 1 tk (fun c => c.wait = wait ∧ c.slot = s.me.lease) s)) ∧
    (s.clear hd [.x a, .x b] [] → room 2 tk s → ∀ tmpl,
      enters (.copy hd a b tk wait tmpl) hd 2 tk (fun c => c.wait = wait ∧ c.va = s.rx a ∧ c.vb = s.rx b) s) ∧
    (all → room 2 tk s → ∀ tmpl, enters (.copyMc hd d a b tk wait tmpl) hd 2 tk vals s) ∧
    (∀ hidx rr ord, s.clear hd (.x a :: argRefs) (if rr = 1 then [.x d] else []) → room 3 tk s →
      enters (.rcall hd d a tk wait hidx rr ord) hd 3 tk (fun c => valA c ∧ c.args = s.me.args) s ∧ pends (.rcall hd d a tk wait hidx rr ord) rr) ∧
    (∀ rr flt, s.clear hd [.x a, .x b] (if rr = 1 then [.x d] else []) → room 4 tk s → ∀ i ∈ ([.vpipe hd d a b tk wait rr flt,
        .selq hd d a b tk wait rr flt] : List Instr),
      enters i hd 4 tk (fun c => valA c ∧ c.vb = s.rx b) s ∧ pends i rr) ∧
    (one → room 6 tk s → ∀ id, ∀ i ∈ ([.tapePlay hd a tk wait id, .tapeSave hd a tk wait id, .tapeLoad hd a tk wait id] : List Instr),
      enters i hd 6 tk valA s)

/-- An engine command with its queue, its token, the registers that it reads and writes, and whether the thread may issue it as it is (R440). -/
structure Sys2Proof.Claims.EForm where
  ins : Instr
  q : Nat
  tk : BitVec 3
  srcs : List RegRef
  dsts : List RegRef
  legal : Prop

/-- The w registers that hold the rows of an MMA from registers (R331). -/
def Sys2Proof.Claims.rowRegs (fmt : BitVec 4) (rows : BitVec 7) (wreg : BitVec 3) : List Reg :=
  let n := (rows.toNat + 1) * (elemBits fmt.toNat * 16) + (if fmt ∈ ([2, 3, 10, 13] : List (BitVec 4)) then (4 * (rows.toNat + 1) + 63) / 64 * 64 else 0)
  (List.range ((n + 2047) / 2048)).map (fun k => BitVec.ofNat 5 (wreg.toNat + k))

/-- Every matrix command (R328), with whether its mode and its registers are its own. -/
def Sys2Proof.Claims.matrixForms (hd : Head) (d a b : Reg) (tk : BitVec 3) (wait : BitVec 8) (fmt : BitVec 4) (rows row : BitVec 7) (sel : BitVec 2)
    (x y z : BitVec 1) (wreg : BitVec 3) (s : State) : List EForm :=
  let own : Prop := s.long = true ∧ s.me.recording = none
  let rs := rowRegs fmt rows wreg
  [⟨.tld hd a tk wait sel fmt rows x row, 0, tk, [.x a], [], True⟩, ⟨.tldP hd d a b tk wait fmt rows x row, 0, tk, [.x a, .x b, .x d], [], True⟩,
   ⟨.wload hd d a b tk wait y fmt x row, 0, tk, [.x a, .x b, .x d], [], True⟩, ⟨.tst hd a tk wait row rows sel x, 1, tk, [.x a], [], True⟩,
   ⟨.mma hd d b tk wait sel fmt rows x y z wreg, 1, tk, [.x b, .x d], [], sel ≠ 3⟩,
   ⟨.mma hd d b tk wait 3 fmt rows x y z wreg, 1, tk, rs.map RegRef.v, [],
    own ∧ (∀ r ∈ rs, r.toNat < 8) ∧ (s.cluster (clusterOf s.myCore)).lvuNow = some s.cur⟩,
   ⟨.aswap hd tk wait, 1, tk, [], [], True⟩, ⟨.aclr hd tk wait x, 1, tk, [], [], True⟩, ⟨.ard hd tk wait row rows wreg, 1, tk, [], [], own⟩,
   ⟨.ast hd d b tk wait row rows sel x, 1, tk, [.x b, .x d], [], True⟩]

/-- Every other engine command (R275, R276, R280, R285, R290, R343, R363, R368); the engine forms of vault and mailbox instructions have
their token in the control value. -/
def Sys2Proof.Claims.otherForms (hd : Head) (d a b : Reg) (tk : BitVec 3) (wait : BitVec 8) (tmpl : BitVec 4) (hidx : BitVec 6) (ord : BitVec 2)
    (x y : BitVec 1) (id : BitVec 3) (s : State) : List EForm :=
  let dst : List RegRef := if x = 1 then [.x d] else []
  let k := (s.rx d).extractLsb' 0 3
  let own : Prop := s.me.recording = none
  [⟨.copy hd a b tk wait tmpl, 2, tk, [.x a, .x b], [], True⟩, ⟨.copyMc hd d a b tk wait tmpl, 2, tk, [.x a, .x b, .x d], [], True⟩,
   ⟨.rcall hd d a tk wait hidx x ord, 3, tk, .x a :: argRefs, dst, x = 1 → own⟩, ⟨.vpipe hd d a b tk wait x y, 4, tk, [.x a, .x b], dst, x = 1 → own⟩,
   ⟨.selq hd d a b tk wait x y, 4, tk, [.x a, .x b], dst, x = 1 → own⟩,
   ⟨.actEngine hd d a, 5, k, [.x d, .x a], [], (s.rx d).toNat < 2 ^ 11⟩, ⟨.preEngine hd d a, 5, k, [.x d, .x a], [], (s.rx d).toNat < 2 ^ 11⟩,
   ⟨.mbxAddEngine hd d a b, 3, k, [.x d, .x a, .x b], [], (s.rx d).toNat < 2 ^ 11 ∧ (s.counterName (s.rx a)).isSome = true⟩,
   ⟨.tapePlay hd a tk wait id, 6, tk, [.x a], [], own⟩, ⟨.tapeSave hd a tk wait id, 6, tk, [.x a], [], own⟩,
   ⟨.tapeLoad hd a tk wait id, 6, tk, [.x a], [], own⟩]

/-- R185, R328, R440: every engine command of a thread, its registers clear, waits at itself while its token counts 255 or its queue holds 32
commands; every matrix command without a lease raises cause 0x0F, whatever its registers hold. -/
def Sys2Proof.Claims.engineCommandsTurnedAway : Prop :=
  ∀ (hd : Head) (d a b : Reg) (tk : BitVec 3) (wait : BitVec 8) (fmt : BitVec 4) (rows row : BitVec 7) (sel : BitVec 2) (x y z : BitVec 1)
    (k : BitVec 3) (hidx : BitVec 6) (s : State), s.cur.isCtx = false →
    let waits (e : EForm) : Prop := e.legal → s.clear hd e.srcs e.dsts → (s.me.tok e.tk).count = 255 ∨ 32 ≤ (s.me.queue e.q).length →
      ∃ t : State, exec e.ins s = .next t ∧ t.me.wait = some .stall ∧ t.me.pc = s.me.pc ∧ t.me.busy.queues = s.me.busy.queues ∧
        t.me.busy.tokens = s.me.busy.tokens ∧ t.me.x = s.me.x ∧ t.me.xSt = s.me.xSt ∧ t.mem = s.mem
    (∀ e ∈ otherForms hd d a b tk wait fmt hidx sel x y k s, waits e) ∧
    ∀ e ∈ matrixForms hd d a b tk wait fmt rows row sel x y z k s,
      (s.me.lease.isSome = true → waits e) ∧
      (s.me.lease = none → e.legal → (hd.s && hd.mask.getLsbD 27) = false → s.me.inTrap = false →
        ∃ t : State, exec e.ins s = .next t ∧ t.me.csr.tcause = 0x0F ∧ t.me.csr.tepc.toNat = s.me.pc.toNat % 2 ^ 48 ∧ t.me.busy.queues = s.me.busy.queues)

/-- R142, R185, R275, R276, R280, R285, R290, R328, R343, R440: every engine command enters its queue, and what turns one away. -/
def Obligations.EngineCommands : Prop := Sys2Proof.Claims.engineForms ∧ Sys2Proof.Claims.engineCommands ∧ Sys2Proof.Claims.engineCommandsTurnedAway

/-- R289, R321 to R323: LEASE gives the slot that the thread holds, or takes the lowest free one, reset, and gives its number; with none
free LEASE with TRY gives all ones and one without TRY waits once in the queue of the cluster; RELEASE leaves the slot draining and
does nothing without one; TMPL loads the 64 bytes of its block into its slot of the core, and raises cause 0x02 on a bad one. The model's choices: of two free slots LEASE
takes the lowest (log 133); in a cluster whose matrix engine is retired it takes none (log 67). -/
def Obligations.LeasesAndTemplates : Prop :=
  ∀ (hd : Head) (d a : Reg) (try1 : BitVec 1) (s : State), s.freeThread →
    let cl := clusterOf s.myCore
    let c := s.cluster cl
    (s.clear hd [] [.x d] →
      (∀ n, s.me.lease = some n → gives (.lease hd d try1) hd d (BitVec.ofNat 64 n) s) ∧
      (s.me.lease = none → c.engRetired = false → (∀ h ∈ c.leaseQ, (s.hart h).wait ≠ some .lease) →
        (∀ n, (n = 0 ∧ (c.slot 0).st = .free) ∨ (n = 1 ∧ (c.slot 0).st ≠ .free ∧ (c.slot 1).st = .free) →
          ∃ t : State, exec (.lease hd d try1) s = .next t ∧ (d ≠ 0 → t.me.rx d = BitVec.ofNat 64 n) ∧ t.me.lease = some n ∧
            ((t.cluster cl).slot n).st = .held ∧ ((t.cluster cl).slot n).holder = some s.cur ∧ ((t.cluster cl).slot n).flags = 0 ∧
            (∀ m, m ≠ n → (t.cluster cl).slot m = c.slot m) ∧ (∀ r, r ≠ d → t.me.rx r = s.me.rx r) ∧ t.mem = s.mem ∧
            t.me.pc = (finish (codeOf (.lease hd d try1)) hd s).me.pc)) ∧
      (s.me.lease = none → (c.slot 0).st ≠ .free → (c.slot 1).st ≠ .free →
        gives (.lease hd d 1) hd d (BitVec.ofNat 64 (2 ^ 64 - 1)) s ∧
        (s.me.wait ≠ some .lease → ∃ t : State, exec (.lease hd d 0) s = .next t ∧ t.me.wait = some .lease ∧ t.me.pc = s.me.pc ∧
          (t.cluster cl).leaseQ = c.leaseQ.filter (· != s.cur) ++ [s.cur]))) ∧
    (s.clear hd [] [] →
      (s.me.lease = none → completes (.release hd) hd s s) ∧
      (∀ n, s.me.lease = some n → ∃ t : State, exec (.release hd) s = .next t ∧ t.me.lease = none ∧ ((t.cluster cl).slot n).st = .draining ∧
        (∀ m, m ≠ n → (t.cluster cl).slot m = c.slot m) ∧ t.me.x = s.me.x ∧ t.mem = s.mem ∧
        t.me.pc = (finish (codeOf (.release hd)) hd s).me.pc)) ∧
    (∀ (n : BitVec 4) (u : State) (blk : List Byte), s.clear hd [.x a] [] → s.me.acqWait = false → s.me.busy.loads = [] → (s.rx a).toNat % 64 = 0 →
      s.copyQueued s.myCore n.toNat = false → s.blockRead (.instr s.cur) true (s.rx a) 8 = (u, .ok blk) →
      (tmplBad blk = false → ∃ t : State, exec (.tmpl hd a n) s = .next t ∧ (t.core s.myCore).template n.toNat = blk ∧
        (∀ m, m ≠ n.toNat → (t.core s.myCore).template m = (s.core s.myCore).template m) ∧ t.me.x = s.me.x ∧ t.mem = s.mem ∧
        t.me.pc = (finish (codeTmpl hd a n) hd u).me.pc) ∧
      (tmplBad blk = true → s.me.inTrap = false → ∃ t : State, exec (.tmpl hd a n) s = .next t ∧ t.me.csr.tcause = 0x02))

/-- R352, R353, R360, R361, R364 to R367: TAPE.REC of an empty ID starts a recording in a free run of slots and gives 0, gives 1 where no run is
free and 2 where the ID records or loads; a command that issues while the thread records adds its record; TAPE.END closes the recording
with the first status that applies, and with 0 leaves the tape VALID with its header written (the recording's run lies in its core's buffer, as
TAPE.REC leaves it); TAPE.PATCH sets a window; TAPE.INV empties a
VALID tape that does not play. -/
def Obligations.Tapes : Prop :=
  ∀ (hd : Head) (d a b : Reg) (id : BitVec 3) (lim : BitVec 10) (n : BitVec 4) (s : State), s.freeThread →
    let tape (u : State) : TapeEnt := (u.core s.myCore).tape id.toNat
    (s.clear hd [] [.x d] → s.me.busy.recording = none →
      ((tape s).st = .recording ∨ (tape s).st = .loading → gives (.tapeRec hd d id lim) hd d 2 s) ∧
      ((tape s).st = .empty →
        ((∀ base, ((s.clearTape s.myCore id.toNat).core s.myCore).runFree base (2 + lim.toNat) = false) →
          ∃ t : State, exec (.tapeRec hd d id lim) s = .next t ∧ (d ≠ 0 → t.me.rx d = 1) ∧ t.me.busy.recording = none) ∧
        (∀ base, ((s.clearTape s.myCore id.toNat).core s.myCore).findRun (2 + lim.toNat) = some base →
          ∃ (t : State) (r : Recording), exec (.tapeRec hd d id lim) s = .next t ∧ (d ≠ 0 → t.me.rx d = 0) ∧ t.me.busy.recording = some r ∧ r.n = 0 ∧
            r.max = lim.toNat ∧ r.id = id.toNat ∧ r.base = base ∧ r.full = false ∧ r.asid = s.me.asid ∧ r.core = s.myCore ∧ r.long = s.long ∧
            tape t = ⟨.recording, base, 2 + lim.toNat⟩ ∧ base + 2 + lim.toNat ≤ 1024 ∧
            (∀ e ∈ (s.core s.myCore).tapes, e.1 ≠ id.toNat → e.2.st ≠ .empty → base + 2 + lim.toNat ≤ e.2.base ∨ e.2.base + e.2.len ≤ base) ∧
            t.mem = s.mem ∧ t.me.pc = (finish (codeOf (.tapeRec hd d id lim)) hd s).me.pc))) ∧
    (∀ r : Recording, s.me.busy.recording = some r → r.abandoned = false → r.core < 2 ^ 11 → r.base + 2 + r.max ≤ 1024 →
      (s.clear hd [] [.x d] →
        let ends (v : Word) : Prop := ∃ t : State, exec (.tapeEnd hd d) s = .next t ∧ (d ≠ 0 → t.me.rx d = v) ∧ t.me.busy.recording = none ∧
          t.me.pc = (finish (codeOf (.tapeEnd hd d)) hd s).me.pc ∧
          (v = 0 → (t.core r.core).tape r.id = ⟨.valid, r.base, 2 + r.n⟩ ∧
            ∀ k, k < 64 → t.mem.read (tapePa r.core (r.base * 32) + k) = r.header.getD k 0) ∧
          (v ≠ 0 → ((t.core r.core).tape r.id).st = .empty ∧ t.mem = s.mem)
        let same : Prop := r.asgen = s.dev.asgen.get r.asid.toNat 0 ∧ r.vaultgen = (s.vault r.core).gen ∧ r.long = (s.core r.core).long
        (r.full = true → ends 1) ∧ (r.full = false → ¬same → ends 2) ∧ (r.full = false → same → r.n = 0 → ends 3) ∧
        (r.full = false → same → r.n ≠ 0 → ends 0)) ∧
      (∀ tk wait, s.clear hd [.x a, .x b] [] → s.me.inTrap = false → r.full = false → r.n < r.max → (s.me.tok tk).count < 255 → (s.me.queue 2).length < 32 →
        (∀ k, k < 16 → s.me.csr.plen.get k 0 = 0) →
        ∃ (t : State) (q : Recording), exec (.copy hd a b tk wait n) s = .next t ∧ t.me.busy.recording = some q ∧ q.n = r.n + 1 ∧
          q.pmask = r.pmask ∧
          (∃ rec : TapeRec, rec.word = (codeOf (.copy hd a b tk wait n)).w &&& 0xFFFFFFF3 ∧ rec.ctl = (codeOf (.copy hd a b tk wait n)).c ∧
            rec.opa = s.rx a ∧ rec.opb = s.rx b ∧ rec.pa = none ∧ rec.pb = none ∧
            ∀ k, k < 32 → t.mem.read (r.slotPa r.n + k) = (rec.bytes r.n).getD k 0) ∧
          (∀ p, p < r.slotPa r.n ∨ r.slotPa r.n + 32 ≤ p → t.mem.read p = s.mem.read p))) ∧
    (s.clear hd [.x a, .x b] [] → (s.rx a).toNat < 2 ^ 48 → (s.rx b).toNat ≤ 65535 * 4096 →
      ∃ t : State, exec (.tapePatch hd a b n) s = .next t ∧ t.me.csr.pbase.get n.toNat 0 = s.rx a ∧
        (t.me.csr.plen.get n.toNat 0).toNat = ((s.rx b).toNat + 4095) / 4096 ∧
        (∀ k, k ≠ n.toNat → t.me.csr.pbase.get k 0 = s.me.csr.pbase.get k 0 ∧ t.me.csr.plen.get k 0 = s.me.csr.plen.get k 0) ∧
        t.me.x = s.me.x ∧ t.mem = s.mem ∧ t.me.pc = (finish (codeOf (.tapePatch hd a b n)) hd s).me.pc) ∧
    (s.clear hd [] [] →
      ((tape s).st = .empty → exec (.tapeInv hd id) s = .next (finish (codeTapeInv hd id) hd s)) ∧
      ((tape s).st = .valid → s.tapeBusy s.myCore id.toNat = false →
        ∃ t : State, exec (.tapeInv hd id) s = .next t ∧ (tape t).st = .empty ∧ (∀ k, k ≠ id.toNat → (t.core s.myCore).tape k = (s.core s.myCore).tape k) ∧
          t.me.x = s.me.x ∧ t.mem = s.mem ∧ t.me.pc = (finish (codeTapeInv hd id) hd s).me.pc) ∧
      ((tape s).st = .valid → s.tapeBusy s.myCore id.toNat = true →
        ∃ t : State, exec (.tapeInv hd id) s = .next t ∧ t.me.wait = some .stall ∧ t.me.pc = s.me.pc))

/-! ### Events of memory: loads, stores, locks, walks (R23, R32 to R34, R79, R84, R95, R135, R152, R268) -/

/-- R95, R98, R134, R135, R140, R141, R268: the oldest load of a hart, served by the banks of its home, completes with the bytes there, or with
those that were bound for it before; the oldest store becomes visible in exactly its own bytes, once the loads before it are done and, for a
release, the messages before it, where no read of its line waits before it and its pool bank grants its port; with an STU the lock goes to the
waiter with the most retries, or is free; a hart that waits for a pool lock takes it over when it is free or has been granted to it, and otherwise
counts a retry and waits 4 clk more. -/
def Sys2Proof.Claims.loadsAndStoresComplete : Prop :=
  ∀ (h : HartId) (s : State), (∀ e, (s.hart h).wait ≠ some (.ending e)) →
    (∀ (l : LoadEnt) (rest : List LoadEnt) (d : Reg) (sx : Bool) (pa n : Nat), (s.hart h).busy.loads = l :: rest → l.parts = [(pa, n)] →
      l.dst = .x d sx → 0 < n → n ≤ 8 → region pa ≠ 2 → region pa ≠ 4 →
      let done (v : Word) : Prop := ∃ t : State, exec (.loadComplete h) s = .next t ∧ (d ≠ 0 → (t.hart h).rx d = v ∧ (t.hart h).stx d = .full) ∧
        (t.hart h).busy.loads = rest ∧ (∀ r, r ≠ d → (t.hart h).rx r = (s.hart h).rx r) ∧ (∀ b, t.readByte b = s.readByte b) ∧
        (t.hart h).pc = (s.hart h).pc ∧ ∀ g, g ≠ h → t.hart g = s.hart g
      (l.got = [] → (region pa = 1 → l.pool = 0) → s.readReady (.load h l.num) [(pa, n)] = true → s.heldAt pa n = false →
        done (loaded (s.readNum pa n) n sx)) ∧
      (∀ v : Nat, l.got = (List.range n).map (fun k => (pa + k, BitVec.ofNat 8 (v / 2 ^ (8 * k)))) → done (loaded v n sx))) ∧
    (∀ (e : SbEnt) (rest : List SbEnt) (pa n : Nat) (v : Word), (s.hart h).busy.sb = e :: rest → e.parts = [(pa, n, v)] → e.rep = none →
      (∀ l ∈ (s.hart h).busy.loads, e.afterLoads ≤ l.num) → (∀ p ∈ (s.hart h).busy.posted, p.id ∉ e.afterIds) →
      (∀ m, e.afterMsg = some m → (∀ p ∈ (s.hart h).busy.posted, p.epoch = (s.hart h).epoch → m ≤ p.id) ∧ ∀ p ∈ (s.hart h).busy.acq, m ≤ p) →
      0 < n → n ≤ 8 → proper pa → pa % 64 + n ≤ 64 → region pa ≠ 2 → region pa ≠ 4 →
      (region pa = 0 → s.heldAt pa n = false ∧ s.lineRead (paCore pa) (paOff pa / 64) = false ∧ s.bufRoom (paCore pa) = true ∧ s.dev.ckptEn = false) →
      (s.poolTurns e.port [pa / 64]).isSome = true →
      ∃ t : State, exec (.storeVisible h) s = .next t ∧ (t.hart h).busy.sb = rest ∧
        (∀ k, k < n → t.readByte (pa + k) = BitVec.ofNat 8 (v.toNat / 2 ^ (8 * k))) ∧
        (∀ b, proper b → apart b pa n → t.readByte b = s.readByte b) ∧
        (∀ k, e.unlock = some k →
          ((∀ g ∈ s.harts, g.1 = h ∨ g.2.lockTries k = none) → (t.plock k).holder = none) ∧
          ∀ g ∈ s.harts, ∀ m, g.1 ≠ h → g.2.lockTries k = some m →
            ∃ f ∈ s.harts, ∃ j, f.1 ≠ h ∧ f.2.lockTries k = some j ∧ m ≤ j ∧ (t.plock k).holder = some f.1) ∧
        (t.hart h).x = (s.hart h).x ∧ (t.hart h).pc = (s.hart h).pc) ∧
    (∀ c b k n next, (s.hart h).wait = some (.lock c b k n next) → next ≤ s.clk →
      ((s.plock (c, b, k)).holder = none ∨ (s.plock (c, b, k)).holder = some h →
        ∃ t : State, exec (.ldlRetry h) s = .next t ∧ (t.plock (c, b, k)).holder = some h ∧ (t.hart h).wait = some (.locked c b k) ∧
          wbits (t.hart h).csr.plockstat 0 16 = min n 65535) ∧
      (∀ g, g ≠ h → (s.plock (c, b, k)).holder = some g →
        ∃ t : State, exec (.ldlRetry h) s = .next t ∧ (t.hart h).wait = some (.lock c b k (n + 1) (next + 4)) ∧
          (t.plock (c, b, k)) = s.plock (c, b, k) ∧
          wbits (t.hart h).csr.plockstat 32 32 = (wbits (s.hart h).csr.plockstat 32 32 + 1) % 2 ^ 32))

/-- R51, R79, R80, R83, R84: a write-buffer entry that may be drained asks its bank for its row, and one whose row the bank has served, or serves
at once, leaves the buffer and its bytes stand in memory, every visible byte being as it was; a pool bank grants one request that it holds,
which leaves the queue and counts for its load, and what the load reads of the line is bound in that one access. -/
def Sys2Proof.Claims.buffersAndPoolBanks : Prop :=
  (∀ (core n : Nat) (l : WLine) (s : State), (s.vault core).wbuf[n]? = some l → core < 2048 → l.line < 2 ^ 22 →
    (∀ m k, m ≠ n → (s.vault core).wbuf[m]? = some k → k.line ≠ l.line) → (l.bytes.map (·.1)).Nodup → (∀ b ∈ l.bytes, b.1 < 64) →
    let me : Reader := .drain l.line
    let written (t : State) : Prop := (t.vault core).wbuf = (s.vault core).wbuf.eraseIdx n ∧ (∀ b ∈ l.bytes, t.mem.read (vaultPa core (l.line * 64 + b.1)) = b.2) ∧
      (s.dev.closing = some [(core, l.line)] → t.dev.ckptNum = s.dev.ckptNum + 1 ∧ t.dev.closing = none)
    let step (p : State → Prop) : Prop := ∃ t : State, exec (.writeBufferDrain core n) s = .next t ∧ p t ∧ (∀ a, proper a → t.readByte a = s.readByte a) ∧
      ∀ h, t.hart h = s.hart h
    ((s.vault core).reads me = true → (s.vault core).turnAt me l.line = true → s.lineHeld core l.line = false → step written) ∧
    ((s.vault core).reads me = false → s.drainable core n = true →
      step (fun t => written t ∨ ((t.vault core).wbuf = (s.vault core).wbuf ∧ (t.vault core).reads me = true ∧ t.mem = s.mem)))) ∧
  (∀ (cl bank : Nat) (q : PReq) (s : State), s.poolGrant cl bank = some q →
    ∃ (t : State) (f : LoadEnt → List Host.Cell), exec (.poolBankAccess cl bank) s = .next t ∧ q ∈ (s.cluster cl).pq ∧ q.bank = bank ∧
      (t.cluster cl).pq = (s.cluster cl).pq.erase q ∧ (t.cluster cl).ports.get bank shadowPort = q.port ∧
      (t.hart q.h).busy.loads = (s.hart q.h).busy.loads.map (fun l => if l.num = q.num then { l with pool := l.pool - 1, got := l.got ++ f l } else l) ∧
      (∀ (l : LoadEnt) (a : Nat), l ∈ (s.hart q.h).busy.loads → l.num = q.num → a / 64 = q.line → (∃ p ∈ l.parts, p.1 ≤ a ∧ a < p.1 + p.2) →
        (a, s.readByte a) ∈ f l) ∧
      t.mem = s.mem ∧ ∀ h, h ≠ q.h → t.hart h = s.hart h) ∧
  (∀ (cl bank : Nat) (q : PReq) (s : State), (s.cluster cl).pq = [q] → q.bank = bank →
    (∀ l ∈ (s.hart q.h).busy.loads, q.num ≤ l.num) → s.poolGrant cl bank = some q)

/-- R51, R79, R80, R83, R84, R95, R98, R135, R141, R268: loads complete, stores become visible, locks are retried, write buffers drain and pool banks serve. -/
def Obligations.MemoryEvents : Prop := Sys2Proof.Claims.loadsAndStoresComplete ∧ Sys2Proof.Claims.buffersAndPoolBanks

/-- R23, R32 to R35, R81: the walker pool takes the miss that stands alone in the queues of the clusters: it joins the walk of its page or
starts one from the level-3 table; a walk whose read the bank has served takes its entry, or none where no code corrects it; a well-formed
pointer takes it one level down; anything that is no page, and a table that lies where none may, ends it with the cause for its waiter; the leaf of a
4 KB page ends it and stands in the TLBs of the asker that waited. -/
def Sys2Proof.Claims.walks : Prop :=
  ∀ (k n cl : Nat) (m : Miss) (s : State), k < 4 →
    let ws := (s.stk k).walks
    let page (w : Walk) : Prop := w.stale = false ∧ w.asid = m.asid ∧ w.va = m.va
    (64 * k ≤ cl → cl < 64 * k + 64 → m.va % 4096 = 0 → m.va < 2 ^ 48 → (∀ c, (s.cluster c).misses = if c = cl then [m] else []) →
      ((∀ w ∈ ws, ¬page w) → ws.length < 256 → (s.stk k).wcache = [] →
        ∃ (t : State) (w : Walk), exec (.tlbMiss m.who.hart (BitVec.ofNat 64 m.va)) s = .next t ∧ (t.stk k).walks = ws ++ [w] ∧ w.level = 3 ∧
          w.table = wbits m.ptroot 16 36 * 4096 ∧ w.va = m.va ∧ w.asid = m.asid ∧ w.repset = m.repset ∧ w.waiters = [m] ∧ w.stale = false ∧
          w.got = [] ∧ (t.cluster cl).misses = [] ∧ t.mem = s.mem) ∧
      (∀ w, ws = [w] → page w → w.waiters.length < 64 →
        ∃ t : State, exec (.tlbMiss m.who.hart (BitVec.ofNat 64 m.va)) s = .next t ∧ (t.stk k).walks = [{ w with waiters := w.waiters ++ [m] }] ∧
          (t.cluster cl).misses = [])) ∧
    (∀ w, ws[n]? = some w →
      let pa := w.table + w.va / 2 ^ (12 + 9 * w.level) % 512 * 8
      let ends (c : BitVec 8) : Prop := ∃ t : State, exec (.walkStep k n) s = .next t ∧ (t.stk k).walks = ws.eraseIdx n ∧ t.cores = s.cores ∧
        t.clusters = s.clusters ∧ t.mem = s.mem ∧
        (w.waiters = [m] → m.who.cmd = none → (s.hart m.who.hart).wait ≠ none →
          (t.hart m.who.hart).busy.walked = (s.hart m.who.hart).busy.walked ++ [⟨none, m.va, m.ptroot, m.repset, none, c, w.stale⟩])
      (region w.table ≠ 0 ∨ s.malformed w.table = true → ends 0x06) ∧
      (region w.table = 0 → s.malformed w.table = false →
        (w.got = [] → served (.walk k w.id) [(pa, 8)] s →
          ∃ t : State, exec (.ptread k n) s = .next t ∧ t.mem = s.mem ∧ (t.stk k).walks[n]? =
            some { w with got := [(pa, if (s.badWord pa 8).isSome then none else some (s.readNum pa 8))] }) ∧
        (w.got = [(pa, none)] → ends 0x0B) ∧
        (∀ p : Word, w.got = [(pa, some p.toNat)] →
          (s.ptePointer w.level p = true →
            ∃ t : State, exec (.walkStep k n) s = .next t ∧
              (t.stk k).walks[n]? = some { w with level := w.level - 1, table := wbits p 16 36 * 4096, got := [] } ∧ t.mem = s.mem) ∧
          (wbit p 0 = false → ends 0x06) ∧
          (w.level = 0 → m.who.hart.kind ≠ .mgmt → w.stale = false → w.waiters = [m] → s.leafFields w.repset 0 p = true → wbits p 6 3 = 0 → wbit p 9 = false →
            (∀ c, (s.cluster c).misses = []) →
            ∃ t : State, exec (.walkStep k n) s = .next t ∧ (t.stk k).walks = ws.eraseIdx n ∧
              ∃ e ∈ (t.cluster (clusterOf m.who.home)).tlb, e.asid = w.asid ∧ e.va = w.va / 4096 * 4096 ∧ e.size = 4096 ∧
                e.pa = wbits p 16 36 * 4096 ∧ e.r = wbit p 1 ∧ e.w = wbit p 2 ∧ e.x = wbit p 3 ∧ e ∈ t.l1 m.who.place))))

/-- R23, R32 to R34, R40 to R42: TLBINV, and the misses and walks that fill the TLBs. -/
def Obligations.Translation : Prop := Sys2Proof.Claims.translationInvalidation ∧ Sys2Proof.Claims.walks

/-! ### Events of a vault's banks (R46 to R66, R69 to R77) -/

/-- R45, R46, R49 to R51, R55, R56, R63, R65, R77, R412: a bank of a layer that is up serves the request that stands alone in its queue, opening its row and counting the
activation; a read of an open row is transferred once tRCD has passed and the bus is free; the refresh of bank n mod 32 starts at its slot, after
a segment's transfer, and takes the open row into the shadow, which stays open while it is copied; it ends after tRFC with the bank closed and
the counters of its rows zero; a slot that is past by the time of a refresh only moves the pointer on (log 134, the model's reading); a hold closes the bank and ends after tRFM with the counters of the aggressor's neighbours zero and one ALERT
record in the log. -/
def Sys2Proof.Claims.bankService : Prop :=
  ∀ (core b : Nat) (s : State),
    let bk := s.bank core b
    let v := s.vault core
    let idle : Prop := bk.hold = none ∧ bk.holdPend = none ∧ bk.refresh = none ∧ bk.repair = none
    let same (t : State) : Prop := t.mem = s.mem ∧ ∀ c, c ≠ b → t.bank core c = s.bank core c
    let up : Prop := s.layerUp core (b / 4) = true
    let slot : Nat := max ((s.stk (stackOf core)).resetClk + v.slotClk) bk.segEnd
    (∀ q, up → bk.q = [q] → q.kind = .act → bk.hold = none → bk.holdPend = none → bk.refresh = none → bk.repair = none → bk.opened = none →
      ∃ t : State, exec (.bankRequest core b) s = .next t ∧ (t.bank core b).q = [] ∧ (t.bank core b).opened = some (bk.place q.row) ∧
        (t.bank core b).counts.get ((bk.place q.row).spare, (bk.place q.row).row) 0 = bk.counts.get ((bk.place q.row).spare, (bk.place q.row).row) 0 + 1 ∧
        (∃ a, (t.bank core b).actClk = some a ∧ s.clk ≤ a) ∧ same t) ∧
    (∀ q, up → bk.q = [q] → q.kind = .pre → bk.hold = none → bk.holdPend = none → bk.refresh = none → bk.repair = none →
      ∃ t : State, exec (.bankRequest core b) s = .next t ∧ (t.bank core b).q = [] ∧ (t.bank core b).opened = none ∧ same t) ∧
    (∀ q who, up → bk.q = [q] → q.kind = .read who → q.buffered v = false → idle →
      (bk.isOpen q.row = false → ∃ (t : State) (p : VReq), exec (.bankRequest core b) s = .next t ∧ (t.bank core b).opened = some (bk.place q.row) ∧
        (t.bank core b).q = [p] ∧ p.kind = q.kind ∧ p.line = q.line ∧ p.opened = true ∧
        (t.bank core b).counts.get ((bk.place q.row).spare, (bk.place q.row).row) 0 = bk.counts.get ((bk.place q.row).spare, (bk.place q.row).row) 0 + 1 ∧
        same t) ∧
      (bk.isOpen q.row = true → after bk.actClk Config.tRCD ≤ s.clk → v.busHalf ≤ 2 * s.clk → (∀ e ∈ v.banks, e.1 = b ∨ e.2.q = []) →
        (∀ h n, who ≠ .cmd h n) → ∃ (t : State) (g : Grant), exec (.bankRequest core b) s = .next t ∧ (t.bank core b).q = [] ∧
          (t.vault core).served = v.served ++ [g] ∧ g.who = who ∧ g.line = q.line ∧ s.clk ≤ g.stop ∧ (t.bank core b).opened = bk.opened ∧
          same t)) ∧
    (slot ≤ s.clk → (∀ e ∈ v.banks, e.2.refresh = none) → b = v.slotN % 32 →
      (s.clk < slot + Config.tRFC → after bk.actClk 0 ≤ slot → bk.hold = none → bk.holdPend = none → (∀ r, bk.repair = some r → r.copy = none) →
        ∃ t : State, exec (.refreshSlot core) s = .next t ∧ (t.bank core b).refresh = some (slot, bk.opened) ∧
          (∀ x, x < slot + Config.tShadow → (t.bank core b).live x = bk.opened) ∧ (∀ x, slot + Config.tShadow ≤ x → (t.bank core b).live x = none) ∧
          (t.vault core).slotN = v.slotN + 1 ∧ ((∀ k < 8, s.band core k = 0) → (t.vault core).slotClk = v.slotClk + Config.tSlot) ∧ same t) ∧
      (slot + Config.tRFC ≤ s.clk →
        ∃ t : State, exec (.refreshSlot core) s = .next t ∧ (t.bank core b).refresh = none ∧ (t.bank core b).opened = bk.opened ∧
          (t.bank core b).refPtr = (bk.refPtr + 1) % 520 ∧ (t.vault core).slotN = v.slotN + 1 ∧ same t)) ∧
    (∀ c sh, bk.refresh = some (c, sh) → max c (if sh.isSome then bk.preClk.getD 0 else 0) + Config.tRFC ≤ s.clk →
      ∃ t : State, exec (.refreshEnd core b) s = .next t ∧ (t.bank core b).refresh = none ∧ (t.bank core b).opened = none ∧
        (t.bank core b).refPtr = (bk.refPtr + 1) % 520 ∧
        (∀ e ∈ (t.bank core b).counts, e ∈ bk.counts ∧ (bk.refPtr < 512 → e.1.1 = false → e.1.2 / 8 ≠ bk.refPtr)) ∧ same t) ∧
    (∀ r, bk.holdPend = some r → bk.hold = none → bk.refresh = none → (∀ q ∈ bk.q, q.ahead = false) → max (after bk.actClk Config.tRAS) bk.xferEnd ≤ s.clk →
      ∃ (t : State) (c : Nat), exec (.holdStart core b) s = .next t ∧ (t.bank core b).hold = some (r, c) ∧ c ≤ s.clk ∧ (t.bank core b).holdPend = none ∧
        (t.bank core b).opened = none ∧ same t) ∧
    (∀ r c, bk.hold = some (r, c) → c + Config.tRFM ≤ s.clk → bk.refPending = false → v.log.length < 32 →
      ∃ (t : State) (x : BitVec 128), exec (.holdEnd core b) s = .next t ∧ (t.bank core b).hold = none ∧ (t.bank core b).opened = none ∧
        (∀ e ∈ (t.bank core b).counts, ¬(e.1.1 = r.spare ∧ r.row ≤ e.1.2 + 2 ∧ e.1.2 ≤ r.row + 2)) ∧
        (t.vault core).log = v.log ++ [x] ∧ x.toNat % 2 ^ 8 = 1 ∧ same t)

/-- R58 to R62, R69, R74, R77: a repair request for a row that is not under repair waits in the bank; where no spare is free it fails and is logged;
a started repair takes the lowest free spare (log 136, the model's reading of R429); its copy closes the row; the switch maps the row to the spare, raises VAULTGEN and logs REPAIR_DONE; a
thermal sample, taken every 10,000 clk, moves each band one step at most; a log read through MMIO takes the oldest record out. -/
def Sys2Proof.Claims.repairAndThermal : Prop :=
  ∀ (core b : Nat) (s : State),
    let bk := s.bank core b
    let v := s.vault core
    (∀ row, row < 4096 → bk.repair = none →
      (bk.freeSpares ≠ [] → ∃ t : State, exec (.rowRepairRequest core b row) s = .next t ∧ (t.bank core b).repairReq = bk.repairReq ++ [row] ∧ t.mem = s.mem) ∧
      (bk.freeSpares = [] → v.log.length < 32 → ∃ (t : State) (x : BitVec 128), exec (.rowRepairRequest core b row) s = .next t ∧
        (t.bank core b).repairReq = bk.repairReq ∧ (UnitId.row core b row ∈ s.dev.lasting → (t.vault core).degraded = true) ∧ (t.vault core).log = v.log ++ [x] ∧ x.toNat % 2 ^ 8 = 3)) ∧
    (∀ row rest, bk.repairReq = row :: rest → bk.repair = none → bk.hold = none → bk.holdPend = none → bk.refresh = none → bk.refPending = false →
      bk.freeSpares ≠ [] →
      ∃ (t : State) (r : Repair), exec (.repairStart core b) s = .next t ∧ (t.bank core b).repairReq = rest ∧ (t.bank core b).repair = some r ∧ r.row = row ∧
        r.spare ∈ bk.freeSpares ∧ (∀ n ∈ bk.freeSpares, r.spare ≤ n) ∧ r.copy = none ∧ t.mem = s.mem) ∧
    (∀ r, bk.repair = some r → r.copy = none → bk.hold = none → bk.holdPend = none → bk.refresh = none → bk.opened = none →
      ∃ t : State, exec (.repairCopy core b) s = .next t ∧ (t.bank core b).repair = some { r with copy := some s.clk } ∧ (t.bank core b).opened = none ∧
        ∃ a, (t.bank core b).actClk = some (a + 48) ∧ (t.bank core b).preClk = some (a + 94) ∧ s.clk ≤ a) ∧
    (∀ r, bk.repair = some r → r.copy.isSome = true → after bk.preClk Config.tRP ≤ s.clk → bk.refPending = false → v.log.length < 32 →
      ∃ (t : State) (x : BitVec 128), exec (.repairSwitch core b) s = .next t ∧ (t.bank core b).place r.row = ⟨r.spare, true⟩ ∧ (t.bank core b).repair = none ∧
        (∀ row, row ≠ r.row → (t.bank core b).place row = bk.place row) ∧ (t.vault core).gen = v.gen + 1 ∧ (t.vault core).log = v.log ++ [x] ∧
        x.toNat % 2 ^ 8 = 2 ∧ t.mem = s.mem) ∧
    (∀ k (temps : BitVec 64), (s.stk k).resetClk + (s.stk k).sampleClk ≤ s.clk → ∃ t : State, exec (.thermalSample k temps) s = .next t ∧
      t.mem = s.mem ∧ (t.stk k).sampleClk = (s.stk k).sampleClk + 10000 ∧ ∀ l, l < 8 →
      let c := (temps.toNat / 2 ^ (8 * l)) % 256
      let old := (s.stk k).bands.get l 0
      (t.stk k).temps.get l 0 = c ∧
      (old = 0 → (t.stk k).bands.get l 0 = if 85 ≤ c then 1 else 0) ∧
      (old = 1 → (t.stk k).bands.get l 0 = if 95 ≤ c then 2 else if c < 83 then 0 else 1) ∧
      (old = 2 → (t.stk k).bands.get l 0 = if 105 < c then 3 else if c < 93 then 1 else 2) ∧
      (old = 3 → (t.stk k).bands.get l 0 = if c < 100 then 2 else 3)) ∧
    (∃ t : State, exec (.vaultLogMmioRead core) s = .next t ∧ (t.vault core).log = v.log.tail ∧ t.mem = s.mem ∧ ∀ c, t.bank core c = s.bank core c)

/-- R49 to R51, R55, R56, R58 to R63, R65, R69, R74, R77: the service of a bank's requests, refreshes and holds, and repairs and thermal samples. -/
def Obligations.BankService : Prop := Sys2Proof.Claims.bankService ∧ Sys2Proof.Claims.repairAndThermal

/-! ### Events of messages (R102 to R118, R120 to R124, R129, R136, R138, R140, R149 to R155) -/

/-- A message of a hart of this device, or of a commit that the device sends for one (R150). -/
def Sys2Proof.Claims.fromHere (m : Msg) : Prop := m.org = .own ∨ m.org = .protocol

/-- One arrival stands alone at a core, and nothing of its sender is under way there (R105, R112). -/
def Sys2Proof.Claims.alone (core : Nat) (m : Msg) (s : State) : Prop :=
  (s.core core).ondie = [m] ∧ (s.core core).ring = [] ∧ (s.core core).serving = [] ∧ m.since = none ∧ fromHere m ∧
  ∀ h ∈ ctxsOf core, (s.hart h).ctx.arrival = none

/-- The service path of a core has taken one arrival, whose read the bank of its address has served (R51, R105). -/
def Sys2Proof.Claims.inService (core : Nat) (m : Msg) (s : State) : Prop :=
  (s.core core).ondie = [] ∧ (s.core core).ring = [] ∧ (s.core core).serving = [m] ∧ fromHere m ∧
  served (.msg m.id) [(m.addr.toNat, m.size)] s

/-- An event answers an arrival: the core is done with it, and one answer of a kind goes to its sender (R115, R118). -/
def Sys2Proof.Claims.answers (i : Instr) (core : Nat) (m : Msg) (k : ReplyKind) (p : Reply → Prop) (q : State → Prop) (s : State) : Prop :=
  ∃ (t : State) (r : Reply), exec i s = .next t ∧ (t.core core).ondie = [] ∧ (t.core core).serving = [] ∧ t.dev.replies = s.dev.replies ++ [r] ∧
    r.kind = k ∧ r.msg = m.id ∧ r.dst = m.src ∧ r.epoch = m.epoch ∧ r.reg = (if m.rr then some m.rreg else none) ∧ p r ∧ q t

/-- A message is refused with a cause: its sender, or the sender of each buffer-free notice that it combines (log 120), gets a NACK (R115, R129). -/
def Sys2Proof.Claims.refusedWith (m : Msg) (cause : BitVec 8) (s t : State) : Prop :=
  ∃ rs : List Reply, t.dev.replies = s.dev.replies ++ rs ∧
    rs.map (fun r => (r.dst, r.msg)) = (if m.acks = [] then [(m.src, m.id)] else m.acks.map (fun a => (a.dst, a.msg))) ∧
    ∀ r ∈ rs, r.kind = .nack ∧ r.cause = cause ∧ r.value = allOnes

/-- The address of an arrival is one of its own vault that it may use now (R114, R152): aligned, of this core, held by no commit. -/
def Sys2Proof.Claims.atHome (core : Nat) (m : Msg) (s : State) : Prop :=
  0 < m.size ∧ m.size ≤ 8 ∧ m.addr.toNat % m.size = 0 ∧ region m.addr.toNat = 0 ∧ s.malformed m.addr.toNat = false ∧ paCore m.addr.toNat = core ∧
  s.heldAt m.addr.toNat m.size = false ∧ m.addr.toNat % 64 + m.size ≤ 64

/-- R129: a buffer-free notice that stands at a router without an entry for it goes on as a plain increment; at one with an entry it is
counted for its child, and one notice goes on to the next router, or to the counter, when the least count over the children rises. -/
def Sys2Proof.Claims.combines (m : Msg) (s : State) : Prop :=
  ∀ cl child, s.dev.net = [m] → m.kind = .mbxadd → m.router = some (cl, child) → s.sendDue m = true →
    ((s.cluster cl).combine = [] → ∃ t : State, exec (.bfreeCombine cl 0) s = .next t ∧ t.dev.net = [{ m with router := none }] ∧ t.mem = s.mem) ∧
    (∀ (up : Option Nat) (other : Nat) (x y : List (List Ack)) (tiles : Nat), child ≠ other → 0 < tiles →
      let entry (x y : List (List Ack)) (n : Nat) : Combine := ⟨m.core, wbits m.addr 2 6, up, [(child, x), (other, y)], n⟩
      (s.cluster cl).combine = [entry x y tiles] →
      (y = [] → ∃ t : State, exec (.bfreeCombine cl 0) s = .next t ∧ t.dev.net = [] ∧ (t.cluster cl).combine = [entry (x ++ [m.acks]) [] tiles]) ∧
      (∀ p ys, x = [] → y = p :: ys → ∃ t : State, exec (.bfreeCombine cl 0) s = .next t ∧
        t.dev.net = [{ m with router := up.map (fun u => (u, 2048 + cl)), acks := m.acks ++ p }] ∧
        (t.cluster cl).combine = (if tiles = 1 then [] else [entry [] ys (tiles - 1)])))

/-- R105, R106, R114, R116, R122 to R124, R129, R130: a message arrives in the queue of its core, or is refused by a retired core (0x05) or a full queue
without a ring (0x0E); RLOAD, once its read is served, answers with the bytes, RSTORE writes exactly its own, RAMO, once its read is served, writes
the result and answers with the old value, a misaligned one is refused with 0x04; MBXADD adds to its counter; a watch answers at once, is kept, is told to retry, or is withdrawn; an
expired watch goes; a buffer-free notice is combined at its routers. The model's choices: a message of this device already under way to a core
that has been retired is refused (log 26), RSTORE and MBXADD send their acceptance when they are executed (log 25), the record of a watch names its
counter in DATA (log 103), a refused combined notice answers every sender it combines (log 120). -/
def Obligations.RemoteRequests : Prop :=
  ∀ (core : Nat) (m : Msg) (s : State),
    let pa := m.addr.toNat
    let idx := wbits m.addr 2 6
    let watched := wbits m.data 32 6
    (s.dev.net = [m] → m.router = none → m.org = .own → s.sendDue m = true → s.ownDev m.dev = true → m.core = core →
      ((s.core core).retired = true → ∃ t : State, exec (.messageArrival 0) s = .next t ∧ t.dev.net = [] ∧ refusedWith m 0x05 s t ∧
        (t.core core).ondie = (s.core core).ondie) ∧
      ((s.core core).retired = false → (s.core core).ring = [] → (s.core core).onDie + m.entries ≤ 16 →
        ∃ t : State, exec (.messageArrival 0) s = .next t ∧ t.dev.net = [] ∧ (t.core core).ondie = (s.core core).ondie ++ [m] ∧ t.mem = s.mem) ∧
      ((s.core core).retired = false → (s.core core).ring = [] → 16 < (s.core core).onDie + m.entries → (s.core core).spillQuota = 0 →
        ∃ t : State, exec (.messageArrival 0) s = .next t ∧ t.dev.net = [] ∧ refusedWith m 0x0E s t ∧
          (t.core core).ondie = (s.core core).ondie ∧ (t.core core).breach = min ((s.core core).breach + 1) 255)) ∧
    (atHome core m s →
      (inService core m s → m.kind = .rload → s.badWord pa m.size = none →
        answers (.rloadRequest core) core m .fill (fun r => r.value = BitVec.ofNat 64 (s.readNum pa m.size)) (fun t => ∀ b, t.readByte b = s.readByte b) s) ∧
      (alone core m s → m.kind = .rstore → accepts core s → s.lineRead core (paOff pa / 64) = false →
        answers (.rstoreRequest core) core m .accept (fun _ => True) (fun t => (∀ k, k < m.size → t.readByte (pa + k) = BitVec.ofNat 8 (m.data.toNat / 2 ^ (8 * k))) ∧
          ∀ b, proper b → b < pa ∨ pa + m.size ≤ b → t.readByte b = s.readByte b) s) ∧
      (inService core m s → m.kind = .ramo → accepts core s → s.badWord pa m.size = none → (m.size = 4 ∨ m.size = 8) → m.op < 10 →
        let old := s.readNum pa m.size
        answers (.ramoRequest core) core m .fill (fun r => r.value = BitVec.ofInt 64 (signedLow m.size old))
          (fun t => t.readNum pa m.size = (amoWrites m.op m.size old m.data.toNat m.cmp.toNat).getD old ∧
            ∀ b, proper b → b < pa ∨ pa + m.size ≤ b → t.readByte b = s.readByte b) s)) ∧
    (alone core m s → m.kind = .rload → pa % max m.size 1 ≠ 0 → answers (.rloadRequest core) core m .nack (fun r => r.cause = 0x04) (fun t => t.mem = s.mem) s) ∧
    (alone core m s → m.kind = .mbxadd → m.acks = [] → m.org = .own → (s.core core).watches = [] →
      answers (.mbxadd core) core m .accept (fun _ => True) (fun t => (t.core core).counter idx = (s.core core).counter idx + m.data.setWidth 32 ∧
        ∀ k, k ≠ idx → (t.core core).counter k = (s.core core).counter k) s) ∧
    (alone core m s → m.kind = .mbxwatch →
      let c := (s.core core).counter watched
      let far : Bool := (c - m.data.setWidth 32).msb
      (m.sub = 0 ∨ (m.sub = 1 ∧ far = false) → answers (.mbxwatch core) core m .fill (fun r => r.value = c.setWidth 64) (fun t => t.mem = s.mem) s) ∧
      (m.sub = 1 → far = true → (s.core core).watches.length < 32 → ∃ (t : State) (w : Watch), exec (.mbxwatch core) s = .next t ∧ (t.core core).ondie = [] ∧
        (t.core core).watches = (s.core core).watches ++ [w] ∧ w.src = m.src ∧ w.counter = watched ∧ w.target = m.data.setWidth 32 ∧ w.expiry = m.cmp ∧
        t.dev.replies = s.dev.replies) ∧
      (m.sub = 1 → far = true → 32 ≤ (s.core core).watches.length →
        answers (.mbxwatch core) core m .watchRetry (fun r => r.status = 2) (fun t => (t.core core).watches = (s.core core).watches) s) ∧
      (∀ w, m.sub = 2 → (s.core core).watches = [w] → w.src = m.src → w.epoch = m.epoch → w.counter = watched → w.org = m.org →
        ∃ t : State, exec (.mbxwatch core) s = .next t ∧ (t.core core).ondie = [] ∧ (t.core core).watches = [] ∧ t.dev.replies = s.dev.replies)) ∧
    (∀ n w, (s.core core).watches[n]? = some w → w.expiry.toNat ≤ s.time.toNat →
      ∃ t : State, exec (.watchExpiry core n) s = .next t ∧ (t.core core).watches = (s.core core).watches.eraseIdx n ∧ t.dev.replies = s.dev.replies) ∧
    combines m s

/-- R102, R103, R110 to R113, R120: a call or a traveller for a VALID entry starts the lowest idle context at its PC with the argument entry in x8 to
x15, and is refused at an empty entry (0x0C), at a system index (0x03) or for another address space (0x07); one that has waited 10,500 clk
on a BUSY entry is refused with 0x0C; a context that has run for 2,100,000 clk ends with 0x19; the write of an entry puts its image into
the vault, makes the entry VALID or EMPTY and lets the writing instruction go on. That the lowest of the idle contexts is the one started is the
model's choice (log 131). -/
def Obligations.Calls : Prop :=
  ∀ (core : Nat) (m : Msg) (s : State),
    let e := (s.core core).entry m.hidx
    let i : Instr := if m.kind = .travel then .travel core else .rcallRequest core
    let refused (c : BitVec 8) : Prop := answers i core m .nack (fun r => r.cause = c) (fun t => t.mem = s.mem) s
    (∀ h, (m.kind = .rcall ∨ m.kind = .travel) → alone core m s → (ctxsOf core).find? (fun g => (s.hart g).st == .idle) = some h →
      (e.st = .valid → 16 ≤ m.hidx → (e.anyas = true ∨ m.asid = e.ptroot.extractLsb' 4 12) → m.args.length = 8 →
        ∃ t : State, exec i s = .next t ∧ (t.core core).ondie = [] ∧ (t.hart h).st = .running ∧ (t.hart h).pc = e.pc ∧
          (t.hart h).csr.ptroot = e.ptroot &&& 0x000FFFFFFFFFFFF1 ∧
          (t.hart h).priv = (if e.priv then 1 else 0) ∧ (t.hart h).ctx.arrival = some m ∧ (t.hart h).ctx.start = s.clk ∧
          (∀ k, k < 8 → some ((t.hart h).rx (BitVec.ofNat 5 (8 + k))) = m.args[k]?) ∧ (t.hart h).rx 5 = m.data ∧
          (∀ r : Reg, 16 ≤ r.toNat → (t.hart h).rx r = 0) ∧ (∀ r, (t.hart h).stx r = .full) ∧ (∀ g, g ≠ h → t.hart g = s.hart g) ∧ t.mem = s.mem) ∧
      (e.st = .empty → refused 0x0C) ∧
      (e.st = .valid → m.hidx < 16 → refused 0x03) ∧
      (e.st = .valid → 16 ≤ m.hidx → e.anyas = false → m.asid ≠ e.ptroot.extractLsb' 4 12 → refused 0x07)) ∧
    (∀ c, (s.core core).ondie = [m] → (s.core core).ring = [] → (s.core core).serving = [] → fromHere m → (m.kind = .rcall ∨ m.kind = .travel) →
      e.st = .busy → m.since = some c →
      c + 10500 ≤ s.clk → answers (.busyTimeout core 0) core m .nack (fun r => r.cause = 0x0C ∧ r.status = 1) (fun t => t.mem = s.mem) s) ∧
    (∀ (h : HartId) (o : Msg), h.isCtx = true → (s.hart h).st = .running → (s.hart h).ctx.start + 2100000 ≤ s.clk → (s.hart h).ctx.arrival = some o →
      fromHere o → (s.hart h).ctx.copyFault = none → (s.hart h).copiesOut = false → (s.hart h).busy.sb = [] → (s.hart h).busy.loads = [] →
      ∃ (t : State) (r : Reply), exec (.handlerWatchdog h) s = .next t ∧ (t.hart h).st = .idle ∧ t.dev.replies = s.dev.replies ++ [r] ∧ r.kind = .nack ∧
        r.cause = 0x19 ∧ r.msg = o.id ∧ r.dst = o.src ∧ (t.stk (stackOf h.core)).snap = true) ∧
    (∀ (n : Nat) (who : HartId) (d : Option (Word × Word × Bool × Bool)), n < 64 →
      let x := (s.core core).entry n
      let pa := (s.core core).htbase.toNat + 16 * n
      x.st = .busy → x.next = some (who, d) → region pa = 0 → pa < 2 ^ 39 → pa % 16 = 0 → s.heldAt pa 16 = false → accepts (paCore pa) s →
      s.lineRead (paCore pa) (paOff pa / 64) = false →
      ∃ t : State, exec (.handlerEntryWritten core n) s = .next t ∧ (t.core core).htgen = (s.core core).htgen + 1 ∧
        (match d with
         | some (root, pc, priv, anyas) => (t.core core).entry n = ⟨root, pc, .valid, priv, anyas, none⟩
         | none => (t.core core).entry n = HEntry.empty) ∧
        (∀ k, k < 16 → t.readByte (pa + k) = ((t.core core).entry n).image.getD k 0) ∧
        (∀ b, proper b → b < pa ∨ pa + 16 ≤ b → t.readByte b = s.readByte b) ∧
        ((s.hart who).wait = some (.entry n) → (t.hart who).wait = some (.entryDone n)) ∧
        ∀ k, k ≠ n → (t.core core).entry k = (s.core core).entry k)

/-- R104, R115, R116, R121, R123, R124, R138, R140, R286: an answer for the thread that asked fills its PENDING register with its value, or a refusal with
all ones and the cause in MSGERR, and the message is performed; the end of a traveller takes it off the count; an acceptance performs the
message; a watch that was told to retry is sent again after its time; an MBX.WAIT that has waited 1,050,000,000 clk ends with the error
value and withdraws its watch; an answer for an earlier epoch changes no register. -/
def Obligations.Answers : Prop :=
  ∀ (r : Reply) (d : Reg) (s : State),
    let h := s.hart r.dst
    let one : Prop := s.dev.replies = [r] ∧ r.cmd = none ∧ r.mkind ≠ .repcommit ∧ r.mkind ≠ .xact ∧ (∀ e, h.wait ≠ some (.ending e)) ∧ h.busy.mbx = []
    let here : Prop := h.st = .running ∧ h.epoch = r.epoch ∧ r.reg = some d ∧ d ≠ 0 ∧ h.stx d = .pending ∧ r.mkind ≠ .mbxwatch
    let fills (i : Instr) (v : Word) (p : State → Prop) : Prop := ∃ t : State, exec i s = .next t ∧ t.dev.replies = [] ∧ (t.hart r.dst).rx d = v ∧
      (t.hart r.dst).stx d = .full ∧ (∀ q, q ≠ d → (t.hart r.dst).rx q = h.rx q ∧ (t.hart r.dst).stx q = h.stx q) ∧
      (t.hart r.dst).pc = h.pc ∧ t.mem = s.mem ∧ (∀ g, g ≠ r.dst → t.hart g = s.hart g) ∧ p t
    let performed (t : State) : Prop := (t.hart r.dst).busy.posted = h.busy.posted.filter (fun p => p.id != r.msg) ∧
      (t.hart r.dst).busy.acq = h.busy.acq.filter (fun n => n != r.msg)
    (one → r.kind = .fill → r.vst = none → here → fills (.replyFill 0) r.value performed) ∧
    (one → r.kind = .nack → r.trav = none → here → wbits h.csr.msgerr 48 16 = 0 → fills (.nack 0) allOnes (fun t => performed t ∧
      wbits (t.hart r.dst).csr.msgerr 0 8 = r.cause.toNat ∧ wbits (t.hart r.dst).csr.msgerr 48 16 = 1)) ∧
    (∀ c, one → r.kind = .endNotice → r.trav = some c → here → fills (.travellerEndNotice 0) r.value (fun t =>
      (t.core c).inflight = (s.core c).inflight - 1)) ∧
    (one → r.kind = .accept → ∃ t : State, exec (.acceptanceNotice 0) s = .next t ∧ t.dev.replies = [] ∧ performed t ∧ (t.hart r.dst).x = h.x) ∧
    (one → r.kind = .fill → r.dst.kind ≠ .mgmt → h.epoch ≠ r.epoch → ∃ t : State, exec (.replyFill 0) s = .next t ∧ t.dev.replies = [] ∧ (t.hart r.dst).x = h.x ∧
      (t.hart r.dst).xSt = h.xSt) ∧
    (∀ (g : HartId) (w : MbxWait), (s.hart g).st = .running → (s.hart g).busy.mbx = [w] → w.own = false → s.reachable (w.name.extractLsb' 28 16) = true →
      (∀ c, w.resend = some c → c ≤ s.clk → ∃ (t : State) (m : Msg), exec (.watchRetry g 0) s = .next t ∧ t.dev.net = s.dev.net ++ [m] ∧ m.kind = .mbxwatch ∧ m.sub = 1 ∧
        m.core = wbits w.name 8 11 ∧ m.data.toNat % 2 ^ 32 = w.target.toNat ∧ (t.hart g).busy.mbx = [{ w with msg := m.id, resend := none }]) ∧
      (w.issued + 1050000000 ≤ s.clk → w.reg = some d → d ≠ 0 → (s.hart g).stx d = .pending →
        ∃ (t : State) (m : Msg), exec (.mbxWaitTimeout g 0) s = .next t ∧ (t.hart g).rx d = allOnes ∧ (t.hart g).stx d = .full ∧ (t.hart g).busy.mbx = [] ∧
          t.dev.net = s.dev.net ++ [m] ∧ m.kind = .mbxwatch ∧ m.sub = 2 ∧ m.core = wbits w.name 8 11 ∧ t.mem = s.mem))

/-- R149 to R152, R155: a LOCK is granted for lines that are free, waits behind another commit and is told to come back by a table without room;
the data of a commit is written and frees its line; a due store to a replicated page sends LOCK to its lowest replica first, then to the others,
then the data; a refused LOCK goes again 64 clk later; a line on which an access has waited for 21,000 clk is reported; a transaction's lock takes
every line or none, its data is written, its unlock frees; the last vote sends the data. -/
def Obligations.CommitProtocols : Prop :=
  ∀ (core : Nat) (m : Msg) (s : State),
    let v := s.vault core
    let ls := (m.bytes.map (fun b => paOff b.1 / 64)).eraseDups
    let written (t : State) : Prop := ∀ c ∈ m.bytes, t.readByte c.1 = c.2
    let cells (line : Nat) : Prop := (m.bytes.map (·.1)).Nodup ∧ m.bytes ≠ [] ∧ core < 2048 ∧ line < 2 ^ 22 ∧
      ∀ c ∈ m.bytes, vaultPa core (line * 64) ≤ c.1 ∧ c.1 < vaultPa core (line * 64) + 64
    (alone core m s → m.kind = .repcommit → m.sub = 0 →
      (v.locks = [] → ls.length ≤ 64 → answers (.repcommitLock core) core m .repGrant (fun _ => True) (fun t =>
        (t.vault core).locks = ls.map (fun l => ⟨l, m.src, false, [], none, false, false⟩)) s) ∧
      (∀ l, v.locks = [l] → l.line ∈ ls → ∃ t : State, exec (.repcommitLock core) s = .next t ∧ (t.core core).ondie = [] ∧
        (t.vault core).locks = [{ l with queue := l.queue ++ [m] }] ∧ t.dev.replies = s.dev.replies) ∧
      (64 < v.locks.length + ls.length → (∀ l ∈ v.locks, l.line ∉ ls) →
        answers (.repcommitLock core) core m .repFull (fun _ => True) (fun t => (t.vault core).locks = v.locks) s)) ∧
    (∀ l, alone core m s → m.kind = .repcommit → m.sub = 1 → v.locks = [l] → l.owner = m.src → l.xact = false → l.queue = [] → accepts core s →
      cells l.line → answers (.repcommitData core) core m .repAck (fun _ => True) (fun t => (t.vault core).locks = [] ∧ written t) s) ∧
    (∀ (h : HartId) (e : SbEnt) (mask : BitVec 256) (home : Nat) (others : List Nat), (s.hart h).busy.commit = none → (s.hart h).busy.sb = [e] → e.rep = some mask →
      (s.hart h).storeDue e = true → (List.range 2048).filter (fun c => mask.getLsbD (clusterOf c)) = home :: others →
      ∃ (t : State) (x : Msg) (c : Commit), exec (.repcommitStart h) s = .next t ∧ (t.hart h).busy.commit = some c ∧ c.home = home ∧ c.others = others ∧
        c.waiting = [home] ∧ c.stage = 1 ∧ t.dev.net = s.dev.net ++ [x] ∧ x.kind = .repcommit ∧ x.sub = 0 ∧ x.core = home ∧ t.mem = s.mem) ∧
    (∀ (r : Reply) (c : Commit), s.dev.replies = [r] → (s.hart r.dst).busy.commit = some c → (∀ e, (s.hart r.dst).wait ≠ some (.ending e)) →
      (r.kind = .repGrant → c.stage = 1 → c.waiting = [r.core] →
        ∃ (t : State) (ms : List Msg), exec (.repcommitGrant 0) s = .next t ∧ t.dev.replies = [] ∧ t.dev.net = s.dev.net ++ ms ∧
          (c.others ≠ [] → ms.map (·.core) = c.others ∧ ∀ x ∈ ms, x.kind = .repcommit ∧ x.sub = 0) ∧
          (c.others = [] → ms.map (·.core) = [c.home] ∧ ∀ x ∈ ms, x.kind = .repcommit ∧ x.sub = 1)) ∧
      (r.kind = .repFull → ∃ t : State, exec (.repcommitGrant 0) s = .next t ∧ t.dev.net = s.dev.net ∧
        (t.hart r.dst).busy.commit = some { c with retry := c.retry.set r.core (s.clk + 64) }) ∧
      (∀ e : SbEnt, r.kind = .repAck → c.stage = 4 → c.waiting = [r.core] → c.num = 1 → (s.hart r.dst).busy.sb = [e] → (∀ p ∈ e.parts, paOff p.1 / 64 ∈ c.lines) →
        ∃ t : State, exec (.repcommitAck 0) s = .next t ∧ (t.hart r.dst).busy.commit = none ∧ (t.hart r.dst).busy.sb = [])) ∧
    (∀ (h : HartId) (c : Commit) (k at_ : Nat), (s.hart h).busy.commit = some c → c.retry = [(k, at_)] → at_ ≤ s.clk →
      ∃ (t : State) (x : Msg), exec (.repcommitRetry h k) s = .next t ∧ t.dev.net = s.dev.net ++ [x] ∧ x.kind = .repcommit ∧ x.sub = 0 ∧ x.core = k ∧
        (t.hart h).busy.commit = some { c with retry := [] }) ∧
    (∀ (n : Nat) (l : LineLock) (c : Nat), v.locks = [l] → l.line = n → l.checked = false → l.since = some c → c + 21000 ≤ s.clk →
      s.lineWaited core n = true →
      ∃ t : State, exec (.lineLockTimeout core n) s = .next t ∧ (t.stk (stackOf core)).notices = (s.stk (stackOf core)).notices ++ [.lineCheck core n l.owner] ∧
        (t.vault core).locks = [{ l with checked := true }] ∧ t.mem = s.mem) ∧
    (alone core m s → m.kind = .xact →
      (m.sub = 0 → v.locks = [] → ls.length ≤ 64 → answers (.xactLock core) core m .vote (fun r => r.ok = true) (fun t =>
        (t.vault core).locks = ls.map (fun l => ⟨l, m.src, true, [], none, false, false⟩)) s) ∧
      (m.sub = 0 → (∃ l ∈ ls, ∃ x ∈ v.locks, x.line = l) → answers (.xactLock core) core m .vote (fun r => r.ok = false) (fun t => (t.vault core).locks = v.locks) s) ∧
      (∀ l, m.sub = 1 → v.locks = [l] → l.queue = [] → accepts core s → cells l.line →
        answers (.xactData core) core m .ack (fun _ => True) (fun t => (t.vault core).locks = [] ∧ written t) s) ∧
      (∀ l, m.sub = 2 → v.locks = [l] → l.line ∈ ls → l.xact = true → l.owner = m.src → l.queue = [] →
        ∃ t : State, exec (.xactUnlock core) s = .next t ∧ (t.core core).ondie = [] ∧ (t.vault core).locks = [] ∧ t.mem = s.mem)) ∧
    (∀ (r : Reply) (x : Xact), s.dev.replies = [r] → (s.hart r.dst).busy.xact = some x → x.committing = true →
      (r.kind = .vote → r.ok = true → x.granted.length + 1 = x.asked.length → x.refused = [] →
        ∃ (t : State) (ms : List Msg), exec (.xcommitVote 0) s = .next t ∧ t.dev.replies = [] ∧ t.dev.net = s.dev.net ++ ms ∧ ms.map (·.core) = x.asked ∧
          (∀ y ∈ ms, y.kind = .xact ∧ y.sub = 1 ∧ y.src = r.dst) ∧ (t.hart r.dst).busy.xact = some { x with granted := x.granted ++ [r.core] }) ∧
      (r.kind = .ack → ∃ t : State, exec (.xcommitAck 0) s = .next t ∧ t.dev.replies = [] ∧ (t.hart r.dst).busy.xact = some { x with acked := x.acked ++ [r.core] }))

/-! ### Events of engines, copies, jobs, leases and tapes (R53, R60, R81, R125 to R127, R175, R185, R187, R280, R322 to R324, R332, R338, R348, R369 to R373) -/

/-- The only engine command of a thread stands at the head of its queue, and every access before it is performed (R142, R187). -/
def Sys2Proof.Claims.headOf (h : HartId) (q : Nat) (c : Cmd) (s : State) : Prop :=
  h.isCtx = false ∧ (s.hart h).queue q = [c] ∧ (∀ j, j ≠ q → (s.hart h).queue j = []) ∧ (s.hart h).busy.flights = [] ∧ (s.hart h).busy.loads = [] ∧
  (s.hart h).busy.sb = [] ∧ (s.hart h).busy.posted = []

/-- The only command of a thread has left its queue (R185). -/
def Sys2Proof.Claims.flying (h : HartId) (f : Flight) (s : State) : Prop :=
  h.isCtx = false ∧ (s.hart h).busy.flights = [f] ∧ (∀ j, (s.hart h).queue j = []) ∧ ∀ e, (s.hart h).wait ≠ some (.ending e)

/-- R53, R60, R142, R175, R185, R187, R280, R322 to R324, R332, R338: a call leaves its queue and sends its message; a command waits while an earlier
one under its mask has not signalled, and is faulted with 0x09 by one that faulted; a finished command counts its token down and a
faulted one leaves its record; ASWAP exchanges the accumulators at its signal; the preparation of a tile load's segment asks the bank of its row, or is
stopped at a row under repair or a layer in band STOP, which ends the load with cause 0x0A, and a transferred segment is moved;
the long vector unit, a free lease slot and a drained slot go on; at a boundary a spent turn goes to the other slot where that has an MMA
ready and starts its counts again. The model's choices: of two free slots the lowest is granted (log 133); a cluster whose matrix engine is
retired grants none (log 67). -/
def Sys2Proof.Claims.engineEvents : Prop :=
  ∀ (h : HartId) (q : Nat) (c : Cmd) (f : Flight) (s : State),
    let cl := clusterOf f.cmd.home
    let tok (t : State) : Token := (t.hart h).tok f.cmd.tk
    (∀ hd d a tk wait hidx rr ord dev core, headOf h 3 c s → c.ins = .rcall hd d a tk wait hidx rr ord → (s.hart h).busy.faults = [] →
      coreId c.va = some (dev, core) → s.retiredHere dev core = false → s.reachable dev = true →
      ∃ (t : State) (m : Msg) (g : Flight), exec (.engineQueueLeave h 3) s = .next t ∧ (t.hart h).queue 3 = [] ∧ (t.hart h).busy.flights = [g] ∧ g.cmd = c ∧
        g.remote = true ∧ g.fault = none ∧ t.dev.net = s.dev.net ++ [m] ∧ m.kind = .rcall ∧ m.core = core ∧ m.dev = dev ∧ m.hidx = hidx.toNat ∧
        m.args = c.args ∧ m.rreg = d ∧ m.rr = (rr == 1) ∧ m.cmd = some c.seq ∧ m.src = h ∧ t.mem = s.mem) ∧
    (∀ x : FaultRec, headOf h q c s → (s.hart h).busy.faults = [x] → x.discharged = none → x.seq < c.seq → c.wait.getLsbD x.tok.toNat = true →
      ∃ (t : State) (g : Flight), exec (.engineQueueLeave h q) s = .next t ∧ (t.hart h).queue q = [] ∧ (t.hart h).busy.flights = [g] ∧ g.cmd = c ∧
        g.fault = some (0x09, 0, 0)) ∧
    ((s.hart h).queue q = [c] → q < 7 → (s.hart h).busy.flights = [f] → f.cmd.seq < c.seq → c.wait.getLsbD f.cmd.tk.toNat = true →
      exec (.engineQueueLeave h q) s = .next s) ∧
    (flying h f s → f.remote = false → f.segs = [] → f.written = false → f.cmd.slot = none → (∀ hd a tk w id, f.cmd.ins ≠ .tapeSave hd a tk w id ∧ f.cmd.ins ≠ .tapeLoad hd a tk w id) →
      (f.fault = none → ∃ t : State, exec (.tokenSignal h f.cmd.seq) s = .next t ∧ (t.hart h).busy.flights = [] ∧ (tok t).count = (tok s).count - 1 ∧
        (tok t).fault = (tok s).fault ∧ (∀ k, k ≠ f.cmd.tk → (t.hart h).tok k = (s.hart h).tok k) ∧ t.mem = s.mem ∧ (t.hart h).x = (s.hart h).x) ∧
      (∀ (cause : BitVec 8) (st : BitVec 4) (v : BitVec 48), f.fault = some (cause, st, v) →
        ∃ t : State, exec (.tokenSignal h f.cmd.seq) s = .next t ∧ (t.hart h).busy.flights = [] ∧ (tok t).count = (tok s).count - 1 ∧ (tok t).fault = true ∧
          ((tok s).fault = false → wbits (tok t).record 0 8 = cause.toNat ∧ wbits (tok t).record 8 4 = st.toNat ∧ wbits (tok t).record 16 48 = v.toNat) ∧
          ((tok s).fault = true → (tok t).record = (tok s).record ∧ (tok t).more = true))) ∧
    (∀ hd tk wait n, flying h f s → f.cmd.ins = .aswap hd tk wait → f.cmd.slot = some n → f.remote = false → f.fault = none → f.segs = [] → f.written = false →
      ((s.cluster cl).slot n).badInput f.cmd.ins = false →
      ∃ t : State, exec (.tokenSignal h f.cmd.seq) s = .next t ∧ (t.hart h).busy.flights = [] ∧ ((t.cluster cl).slot n).working = ((s.cluster cl).slot n).visible ∧
        ((t.cluster cl).slot n).visible = ((s.cluster cl).slot n).working ∧ (tok t).count = (tok s).count - 1 ∧ ∀ m, m ≠ n → (t.cluster cl).slot m = (s.cluster cl).slot m) ∧
    (∀ hd a tk wait fmt rows sc frow n g rest pa key len row, flying h f s → f.cmd.ins = .tld hd a tk wait 0 fmt rows sc frow → f.cmd.slot = some n →
      f.segs = g :: rest → f.fault = none → g.moves = [(pa, key, len, row)] → g.done = [] → region pa = 0 → s.dev.early = [] →
      (f.asked ≠ f.moved.length → s.segMoved h f.cmd.seq g = true → s.badWord pa len = none →
        ∃ t : State, exec (.tileLoadSegment h f.cmd.seq) s = .next t ∧ (∀ k, k < len → ((t.cluster cl).slot n).ob0.read (key + k) = s.readByte (pa + k)) ∧
          (∀ k, k < key ∨ key + len ≤ k → ((t.cluster cl).slot n).ob0.read k = ((s.cluster cl).slot n).ob0.read k) ∧
          (∃ z : Flight, (t.hart h).busy.flights = [z] ∧ z.segs = rest ∧ z.moved = f.moved ++ [g] ∧ z.cmd = f.cmd ∧ z.fault = none) ∧ t.mem = s.mem) ∧
      (f.asked = 0 → f.moved = [] → f.stopped = none →
        (s.segStop g = none → ∃ (t : State) (z : Flight) (r : VReq), exec (.tileLoadSegment h f.cmd.seq) s = .next t ∧ (t.hart h).busy.flights = [z] ∧
          z.asked = 1 ∧ z.segs = f.segs ∧ (t.bank (paCore pa) (bankOf (paOff pa))).q = (s.bank (paCore pa) (bankOf (paOff pa))).q ++ [r] ∧
          r.kind = .read (.cmd h f.cmd.seq) ∧ r.row = rowOf (paOff pa) ∧ t.mem = s.mem) ∧
        (∀ w, s.segStop g = some w → ∃ (t : State) (z : Flight), exec (.tileLoadSegment h f.cmd.seq) s = .next t ∧ (t.hart h).busy.flights = [z] ∧
          z.stopped = some (w, s.clk) ∧ z.segs = f.segs ∧ t.mem = s.mem)) ∧
      (∀ w, f.asked = f.moved.length → f.stopped = some w →
        ∃ (t : State) (z : Flight), exec (.tileLoadSegment h f.cmd.seq) s = .next t ∧ (t.hart h).busy.flights = [z] ∧ z.segs = [] ∧
          ∃ v, z.fault = some (0x0A, 0, v) ∧ v.toNat = rowsDone (tileRows f.cmd.ins) f.segs % 2 ^ 48)) ∧
    (∀ k, (s.cluster k).lvuNow = none → (s.cluster k).lvuQ = [h] → (s.hart h).wait = some .lvu →
      ∃ t : State, exec (.lvuTake k) s = .next t ∧ (t.cluster k).lvuNow = some h ∧ (t.cluster k).lvuQ = [] ∧ t.mem = s.mem) ∧
    (∀ n, let cl := clusterOf h.home
      (s.cluster cl).leaseQ = [h] → (s.hart h).wait = some .lease → (s.cluster cl).engRetired = false →
      ((n = 0 ∧ ((s.cluster cl).slot 0).st = .free) ∨ (n = 1 ∧ ((s.cluster cl).slot 0).st ≠ .free ∧ ((s.cluster cl).slot 1).st = .free)) →
      ∃ t : State, exec (.leaseGrant cl) s = .next t ∧ (t.hart h).lease = some n ∧ (t.hart h).wait = some (.leased n) ∧ ((t.cluster cl).slot n).st = .held ∧
        ((t.cluster cl).slot n).holder = some h ∧ (t.cluster cl).leaseQ = [] ∧ ∀ m, m ≠ n → (t.cluster cl).slot m = (s.cluster cl).slot m) ∧
    (∀ k n, ((s.cluster k).slot n).st = .draining → (∀ e ∈ s.harts, e.2.lease ≠ some n ∧ ∀ c ∈ e.2.busy.commands, c.onSlot k n = false) →
      ∃ t : State, exec (.slotDrained k n) s = .next t ∧ ((t.cluster k).slot n).st = .free ∧ ((t.cluster k).slot n).holder = none ∧ (t.cluster k).turn ≠ some n) ∧
    (∀ k n, (s.cluster k).turn = some n → ((s.cluster k).budCmds ≤ (s.cluster k).turnCmds ∨ (s.cluster k).turnClk + (s.cluster k).budTclk ≤ s.clk) →
      ∃ t : State, exec (.turnExpiry k) s = .next t ∧ (t.cluster k).turn = some (if s.slotReady k (1 - n) then 1 - n else n) ∧
        (t.cluster k).turnCmds = 0 ∧ (t.cluster k).turnClk = s.clk ∧ t.mem = s.mem)

/-- The service path of a core, or its pipeline, has taken one arrival and holds no other (R105). -/
def Sys2Proof.Claims.held (core : Nat) (m : Msg) (s : State) : Prop :=
  (s.core core).ondie = [] ∧ (s.core core).ring = [] ∧ (s.core core).serving = [m] ∧ fromHere m

/-- R126, R127, R348: a copy leaves the queue for the service path, and an element of it, none before it written over its source, is
read from the vault of its agent, once that has been served, and written
at its destination, an uncorrectable word refuses the copy with 0x0B; a piece of a copy from another stack is written and accepted; a job
is taken by the pipeline, and one that is not resident, or whose bytes have been served and are readable, is run; its end writes its results, fills its
register and lets its command signal. The model's choices: the arrival of a job has ended once the job is run, its result traffic still to come
(log 114); a job that is not resident passes through the pipeline as any other (log 46); units of 8 bytes of one element may go one by one
(log 118). -/
def Obligations.CopiesAndJobs : Prop :=
  ∀ (core : Nat) (m : Msg) (s : State),
    (alone core m s → m.kind = .copyreq → ∃ t : State, exec (.copyreq core) s = .next t ∧ (t.core core).ondie = [] ∧ ∀ x ∈ (t.core core).serving, x.id = m.id) ∧
    (∀ a b n, held core m s → m.kind = .copyreq → m.elems = [(a, b, n)] → (∀ c ∈ m.bytes, c.1 < a ∨ a + n ≤ c.1) → 0 < n → n ≤ 8 → region a = 0 → a % 64 + n ≤ 64 →
      s.malformed a = false → paCore a = core → region b = 0 → b < 2 ^ 39 → b % 64 + n ≤ 64 → (s.core (paCore b)).retired = false →
      stackOf (paCore b) = stackOf core → served (.msg m.id) [(a, n)] s → s.onlyReads core (.msg m.id) (linesOf [(a, n)]) = s →
      (s.badWord a n = none → s.heldAt b n = false → accepts (paCore b) s → (s.dropReads core (.msg m.id)).lineRead (paCore b) (paOff b / 64) = false →
        ∃ t : State, exec (.copyreq core) s = .next t ∧ (t.core core).serving = [] ∧ (∀ k, k < n → t.readByte (b + k) = s.readByte (a + k)) ∧
          ∀ p, proper p → p < b ∨ b + n ≤ p → t.readByte p = s.readByte p) ∧
      (∀ w, s.badWord a n = some w → region (8 * w) = 0 → answers (.copyreq core) core m .nack (fun r => r.cause = 0x0B) (fun t => t.mem = s.mem) s)) ∧
    (let pa := m.addr.toNat
     alone core m s → m.kind = .chunk → region pa = 0 → s.malformed pa = false → paCore pa = core → pa % 64 + m.bytes.length ≤ 64 → m.bytes ≠ [] →
      (∀ k, k < m.bytes.length → (m.bytes[k]?).map (·.1) = some (pa + k)) → s.heldAt pa m.bytes.length = false → accepts core s → s.lineRead core (paOff pa / 64) = false →
      answers (.chunk core) core m .accept (fun _ => True) (fun t => (∀ k, k < m.bytes.length → some (t.readByte (pa + k)) = (m.bytes[k]?).map (·.2)) ∧
        ∀ p, proper p → p < pa ∨ pa + m.bytes.length ≤ p → t.readByte p = s.readByte p) s) ∧
    (alone core m s → m.kind = .vpjob → ∃ t : State, exec (.vpjob core) s = .next t ∧ (t.core core).ondie = [] ∧ (t.core core).serving = [m] ∧ t.mem = s.mem) ∧
    (∀ job : Job, held core m s → m.kind = .vpjob → m.job = some job → served (.msg m.id) job.parts s → (∀ p ∈ job.parts, s.badWord p.1 p.2 = none) →
      ∃ (t : State) (r : JobRun), exec (.vpjob core) s = .next t ∧ (t.core core).serving = [] ∧ (t.vault core).jobs = (s.vault core).jobs ++ [r] ∧ r.msg = m ∧
        r.fault = none ∧ (job.resident = false → r.fill.toNat / 2 ^ 32 = 1) ∧ t.mem = s.mem) ∧
    (∀ (j : JobRun) (pa : Nat) (bs : List Byte), (s.vault core).jobs = [j] → (j.writes = [] ∨ j.writes = [(pa, bs)]) → region pa = 0 → pa < 2 ^ 39 → pa % 64 + bs.length ≤ 64 →
      bs ≠ [] → s.heldAt pa bs.length = false → accepts (paCore pa) s → s.lineRead (paCore pa) (paOff pa / 64) = false → j.msg.src.kind = .thread →
      (s.hart j.msg.src).st = .running → (s.hart j.msg.src).epoch = j.msg.epoch →
      ∃ t : State, exec (.vpjobComplete core) s = .next t ∧ (t.vault core).jobs = [] ∧
        (j.msg.rr = true → j.msg.rreg ≠ 0 → (s.hart j.msg.src).stx j.msg.rreg = .pending → (t.hart j.msg.src).rx j.msg.rreg = j.fill) ∧
        (j.writes = [(pa, bs)] → ∀ k, k < bs.length → some (t.readByte (pa + k)) = bs[k]?) ∧
        (∀ p, proper p → p < pa ∨ pa + bs.length ≤ p → t.readByte p = s.readByte p) ∧
        (∀ f g, (s.hart j.msg.src).busy.flights = [f] → j.msg.cmd = some f.cmd.seq → (t.hart j.msg.src).busy.flights = [g] → g.remote = false))

/-- R369 to R373: a TAPE.PLAY of a tape that is not VALID stops with reason 1, one that another start condition fails for with that one's reason, and one
whose conditions hold takes the sequencer, or stops with reason 13 where its thread has been taken or has resumed on another core; a record
enters its queue as the command that it stands for, and a failed check stops the replay with its reason; a barrier waits for the tokens of its
mask and stops with reason 12 at a fault; a replay that has ended signals its token, with cause 0x12 when it stopped. -/
def Sys2Proof.Claims.tapeEvents : Prop :=
  ∀ (h : HartId) (p : Play) (s : State),
    let b := (s.hart h).busy
    (b.play = none → b.plays = [p] → p.stopped = none →
      let elsewhere : Prop := (s.hart h).isTaken = true ∨ h.kept = true ∨ s.playHome h p.seq ≠ h.home
      let starts (x : Play) : Prop := ∃ t : State, exec (.tapePlayStart h) s = .next t ∧ (t.hart h).busy.plays = [] ∧ (t.hart h).busy.play = some x ∧ t.mem = s.mem
      ((s.playTape h p).st ≠ .valid → starts { p with stopped := some (1, p.next) }) ∧
      (∀ n, s.startReason h p = some n → starts { p with stopped := some (BitVec.ofNat 4 n, p.next) }) ∧
      (s.startReason h p = none → (elsewhere → starts { p with stopped := some (13, p.next) }) ∧ (¬elsewhere → starts p))) ∧
    (b.play = some p → p.stopped = none → p.next < s.playCount h p →
      (∀ n, s.boundary h p = .error n → n < 16 → ∃ t : State, exec (.tapeRecordIssue h) s = .next t ∧
        (t.hart h).busy.play = some { p with stopped := some (BitVec.ofNat 4 n, p.next) }) ∧
      (∀ g i q, s.boundary h p = .ok g → g.kind = .command i → engineQueue i = some q → h.isCtx = false → ((s.hart h).queue q).length < 32 →
        (∀ k, ((s.hart h).tok k).count < 255) →
        ∃ (t : State) (c : Cmd), exec (.tapeRecordIssue h) s = .next t ∧ (t.hart h).queue q = (s.hart h).queue q ++ [c] ∧ c.ins = i ∧ c.tape = true ∧ c.seq = b.nextSeq ∧
          ((t.hart h).tok c.tk).count = ((s.hart h).tok c.tk).count + 1 ∧
          (t.hart h).busy.play = some { p with next := p.next + g.recs.length, issued := p.issued ++ [c.seq] } ∧ t.mem = s.mem) ∧
      (∀ g (m : BitVec 8), s.boundary h p = .ok g → g.kind = .barrier m → (∀ k : BitVec 3, m.getLsbD k.toNat = true → ((s.hart h).tok k).count = 0) →
        ((∀ k : BitVec 3, m.getLsbD k.toNat = true → ((s.hart h).tok k).fault = false) →
          ∃ t : State, exec (.tapeBarrier h) s = .next t ∧ (t.hart h).busy.play = some { p with next := p.next + 1 }) ∧
        (∀ k : BitVec 3, m.getLsbD k.toNat = true → ((s.hart h).tok k).fault = true →
          ∃ t : State, exec (.tapeBarrier h) s = .next t ∧ (t.hart h).busy.play = some { p with stopped := some (12, p.next) } ∧
            ∀ j, (t.hart h).tok j = (s.hart h).tok j))) ∧
    (∀ f : Flight, flying h f s → b.play = some p → p.seq = f.cmd.seq → f.cmd.slot = none → p.issued = [] →
      let tok (t : State) : Token := (t.hart h).tok f.cmd.tk
      (p.stopped = none → s.playCount h p ≤ p.next → ∃ t : State, exec (.tapePlayEnd h) s = .next t ∧ (t.hart h).busy.play = none ∧ (t.hart h).busy.flights = [] ∧
        (tok t).count = (tok s).count - 1 ∧ (tok t).fault = (tok s).fault) ∧
      (∀ r n, p.stopped = some (r, n) → r ≠ 0 → ∃ t : State, exec (.tapePlayEnd h) s = .next t ∧ (t.hart h).busy.play = none ∧ (t.hart h).busy.flights = [] ∧
        (tok t).count = (tok s).count - 1 ∧ (tok t).fault = true ∧ ((tok s).fault = false → wbits (tok t).record 0 8 = 0x12 ∧ wbits (tok t).record 8 4 = r.toNat)))

/-- R53, R60, R142, R175, R185, R187, R280, R322 to R324, R332, R338, R369 to R373: what engine commands, leases, turns and replays do after issue. -/
def Obligations.EngineEvents : Prop := Sys2Proof.Claims.engineEvents ∧ Sys2Proof.Claims.tapeEvents

/-! ### Events of the scheduler and of pre-emption (R99, R160 to R170, R180 to R182, R256, R378 to R389, R394 to R399) -/

/-- A launch that waits with all its units from the next on, the only one of the device (R386). -/
def Sys2Proof.Claims.onlyLaunch (k l : Nat) (s : State) : Prop :=
  let x := s.launchOf k l
  s.launches = [(k, l, x)] ∧ x.waiting = true ∧ x.sent = []

/-- A slot holds a unit as its dispatch leaves it (R169, R383). -/
def Sys2Proof.Claims.dispatched (k l u : Nat) (h : HartId) (s t : State) : Prop :=
  let x := s.launchOf k l
  let r := x.record
  (t.hart h).st = .running ∧ (t.hart h).unit = some (k, l, u) ∧ (t.hart h).pc = BitVec.ofNat 64 (recEntry r) ∧ (t.hart h).epoch = (s.hart h).epoch + 1 ∧
  (∀ n, n < 8 → (t.hart h).rx (BitVec.ofNat 5 (8 + n)) = BitVec.ofNat 64 (field r (64 + 8 * n) 8)) ∧
  (t.hart h).rx 2 = (if recStklog r = 0 then 0 else BitVec.ofNat 64 (recStkbase r + (h.core * 4 + h.idx + 1) * 2 ^ recStklog r)) ∧
  (∀ n : Reg, n ≠ 2 → (n.toNat < 8 ∨ 16 ≤ n.toNat) → (t.hart h).rx n = 0) ∧ (∀ n, (t.hart h).stx n = .full) ∧
  (∀ j, (t.hart h).tok j = Token.zero) ∧ (t.hart h).csr.unitid = BitVec.ofNat 64 u ∧ (t.hart h).csr.ptroot = x.ptroot ∧ (t.hart h).csr.tstatus = 0 ∧
  (t.hart h).loops = [] ∧ (t.hart h).lease = none

/-- R160 to R170, R256, R380 to R389: the scheduler accepts the record at the head of an ACTIVE queue, creating its launch, or stops the queue with
cause 2 and flushes it; a queue in ERROR flushes record by record; a launch is ready, or is cancelled by its dependences; it
ages, and one of no unit completes at the head of the order; a unit and a gang are bound to free slots, and one that cannot be placed ends with ERROR and its cause; a unit that ends counts down in its launch,
with its cause; the release of a job that is DONE reclaims every entry beneath it. -/
def Obligations.Scheduling : Prop :=
  ∀ (q k l : Nat) (s : State),
    let x := s.launchOf k l
    let hq := s.hq q
    let item (t : State) : Item := t.item k 0 l
    (∀ r, hq.st = 1 → hq.head ≠ hq.tail → s.ringHeld q = false → s.ringRead q = .ok r →
      (recBad r = true → s.freeLaunch (q / 16) ≠ none → ∃ t : State, exec (.launchRecordAccept q) s = .next t ∧ (t.hq q).st = 2 ∧ (t.hq q).ecause = 2 ∧
        (t.hq q).flushed = 1 ∧ (t.hq q).head = hq.head + 1) ∧
      (∀ n, s.freeLaunch (q / 16) = some n → recBad r = false → s.recRefused (q / 16) hq.context r = false → recUnits r ≠ 0 →
        (∀ tb, 1 ≤ tb → tb ≤ 3 → (s.recItem (q / 16) r tb).used = true ∧ (s.recItem (q / 16) r tb).st = .opened) →
        (∀ d ∈ recDeps r, (s.depOf (q / 16) r d).isSome = true) →
        ∃ t : State, exec (.launchRecordAccept q) s = .next t ∧ (t.hq q).head = hq.head + 1 ∧ (t.hq q).st = 1 ∧
          (t.launchOf (q / 16) n).record = r ∧ (t.launchOf (q / 16) n).item.used = true ∧ (t.launchOf (q / 16) n).item.st = .sealed ∧
          (t.launchOf (q / 16) n).item.live = recUnits r ∧ (t.launchOf (q / 16) n).item.parent = recId r 1 ∧ (t.launchOf (q / 16) n).hq = q ∧
          (t.launchOf (q / 16) n).ptroot = hq.root ∧ (t.recItem (q / 16) r 1).live = (s.recItem (q / 16) r 1).live + 1 ∧ t.mem = s.mem)) ∧
    (hq.st = 2 → hq.head ≠ hq.tail → s.ringHeld q = false → ∃ t : State, exec (.recordFlush q) s = .next t ∧ (t.hq q).head = hq.head + 1 ∧ (t.hq q).st = 2 ∧
      (t.hq q).flushed = (if hq.flushed = 0xFFFFFF then hq.flushed else hq.flushed + 1) ∧ t.mem = s.mem) ∧
    (x.item.used = true → x.item.st = .sealed → x.ready = none → (∀ d ∈ x.deps, (s.item k d.1 d.2).st = .done) →
      ((recFlag x.record 6 = true ∨ ∀ d ∈ x.deps, (s.item k d.1 d.2).status = 0) →
        ∃ t : State, exec (.launchReady k l) s = .next t ∧ t.launchOf k l = { x with ready := some s.clk, since := s.clk, boost := 0 }) ∧
      (recFlag x.record 6 = false → (∃ d ∈ x.deps, (s.item k d.1 d.2).status ≠ 0) → x.item.live = recUnits x.record → x.next = 0 → x.sent = [] →
        ∃ t : State, exec (.launchReady k l) s = .next t ∧ (item t).st = .done ∧ (item t).status = 1)) ∧
    (x.item.used = true → x.item.st = .sealed → x.ready.isSome = true → recUnits x.record = 0 → s.atHead k l = true → x.item.live = 0 →
      ∃ t : State, exec (.launchReady k l) s = .next t ∧ (item t).st = .done ∧ (item t).status = (if s.cancelledUp k 3 l then 1 else x.item.status)) ∧
    (x.waiting = true → x.effective < 3 → x.since + (x.boost + 1) * 52500 ≤ s.clk →
      ∃ t : State, exec (.priorityAging k l) s = .next t ∧ t.launchOf k l = { x with boost := x.boost + 1 }) ∧
    (onlyLaunch k l s →
      (x.gang = false →
        (∀ c slot, s.placeOf x x.next = .ok (.core c) → slot < 4 → s.slotFree ⟨.thread, c, slot⟩ = true → s.savedFor c = [] →
          ∃ t : State, exec (.unitDispatch k l x.next slot) s = .next t ∧ dispatched k l x.next ⟨.thread, c, slot⟩ s t ∧ (t.launchOf k l).next = x.next + 1 ∧
            t.mem = s.mem ∧ ∀ g, g ≠ ⟨.thread, c, slot⟩ → t.hart g = s.hart g) ∧
        (∀ c slot, s.placeOf x x.next = .error (some c) → x.item.status ≠ 2 → s.cancelledUp k 3 l = false →
          ∃ t : State, exec (.unitDispatch k l x.next slot) s = .next t ∧ (item t).status = 2 ∧ (item t).errcause = c ∧
            (item t).errunit = BitVec.ofNat 32 x.next ∧ (item t).live = x.item.live - 1 ∧ (x.item.live = 1 → (item t).st = .done) ∧
            ∀ g, t.hart g = s.hart g)) ∧
      (x.gang = true → x.next = 0 → x.item.live = recUnits x.record →
        (∀ ts p, recUnits x.record ≤ 8192 → s.gangPlaces x (recUnits x.record) 0 = .ok ts → s.gangTooBig ts = false → s.gangPlan (k, l, x) [] ts = some p →
          (∀ h ∈ p, s.savedFor h.core = []) →
          ∃ t : State, exec (.gangBind k l) s = .next t ∧ (∀ u h, p[u]? = some h → dispatched k l u h s t) ∧ (t.launchOf k l).next = recUnits x.record ∧
            t.mem = s.mem) ∧
        (8192 < recUnits x.record → s.cancelledUp k 3 l = false → ∃ t : State, exec (.gangBind k l) s = .next t ∧ (item t).st = .done ∧ (item t).status = 2 ∧
          ∀ g, t.hart g = s.hart g))) ∧
    (∀ (h : HartId) (u : Nat), (s.hart h).unit = some (k, l, u) → x.item.used = true → x.item.st = .sealed → x.item.status = 0 →
      s.cancelledUp k 3 l = false → s.released h = true →
      let ends (status : Nat) (cause : BitVec 8) : Prop := ∃ t : State, exec (.unitEnd h) s = .next t ∧ (t.hart h).st = .idle ∧ (t.hart h).unit = none ∧
        (t.hart h).wait = none ∧ (t.hart h).lease = none ∧ (item t).live = x.item.live - 1 ∧ (item t).status = status ∧
        (status = 2 → (item t).errcause = cause ∧ (item t).errunit = BitVec.ofNat 32 u) ∧ (x.item.live = 1 → (item t).st = .done) ∧ t.mem = s.mem
      ((s.hart h).wait = some .exit → (s.hart h).drained = true → (s.hart h).busy.loads = [] →
        ((s.hart h).inTrap = false → (∀ j, ((s.hart h).tok j).fault = false) → ends 0 0) ∧
        ((s.hart h).inTrap = true → ends 2 ((s.hart h).csr.tcause.extractLsb' 0 8)) ∧
        (∀ j : BitVec 3, (s.hart h).inTrap = false → ((s.hart h).tok j).fault = true → (∀ i : BitVec 3, i.toNat < j.toNat → ((s.hart h).tok i).fault = false) →
          ends 2 (((s.hart h).tok j).record.extractLsb' 0 8))) ∧
      (∀ c, (s.hart h).wait = some (.killed c) → (s.hart h).killDone = true → ends 2 c)) ∧
    (∀ j, (s.item k 3 j).used = true → (s.item k 3 j).st = .done →
      ∃ t : State, exec (.jobRelease k j) s = .next t ∧ t.mem = s.mem ∧ ∀ tb i, tb < 4 →
        t.item k tb i = (if (s.item k tb i).used = true ∧ s.beneath k tb i 3 j = true then { Item.unused with gen := (s.item k tb i).gen + 1 } else s.item k tb i))

/-- R99, R100, R163, R181, R182, R396 to R399: a thread at a safe point is killed, or taken under its live mask; a cluster whose one
unit is taken and quiet, and not to be killed, saves what the mask lists and zero elsewhere, the thread being kept beside the slot, memory but its shadow
storage being as before, and the slot is then free; one that is to be killed is not saved; a saved unit resumes
in a free slot that is its by rank and that no gang holds, with its registers, its pc and the next epoch; a request that is late lowers the clock by one step, and one that is overdue kills the unit, stops its queue and takes a snapshot. The model's
choices: a thread that is kept keeps TSCRATCH (log 55); a resumed unit has its slot's next epoch (log 56). -/
def Obligations.Preemption : Prop :=
  ∀ (h : HartId) (cl : Nat) (s : State), h.kind = .thread →
    let me := s.hart h
    let new (t : State) : Hart := t.hart h
    (me.safe.isSome = true → me.wait = none → me.lock = none → me.inTrap = false → me.busy.xact = none → (me.st = .running ∨ me.st = .halted) →
      (wbit me.csr.preempt 1 = true → ∃ t : State, exec (.safePointTake h) s = .next t ∧ (new t).wait = some (.killed 0) ∧ (new t).epoch = me.epoch + 1 ∧
        (∀ q, (new t).queue q = []) ∧ (new t).lease = none ∧ t.mem = s.mem) ∧
      (wbit me.csr.preempt 1 = false → wbit me.csr.preempt 0 = true →
        ∃ t : State, exec (.safePointTake h) s = .next t ∧ (new t).wait = some (.taken me.saveMask) ∧ wbits (new t).csr.preempt 0 2 = 0 ∧
          (new t).x = me.x ∧ (new t).pc = me.pc ∧ (new t).epoch = me.epoch ∧ (t.cluster (clusterOf h.core)).saving = (s.cluster (clusterOf h.core)).saving ++ [h] ∧
          t.mem = s.mem)) ∧
    (∀ m, s.occupiedIn cl = [h] → me.wait = some (.taken m) → me.quiet = true → wbit me.csr.preempt 1 = false → cl < 256 → s.gangOf h = [] → m.toNat < 2 ^ 28 →
      ∃ (t : State) (v : Saved), exec (.clusterSave cl) s = .next t ∧ v ∈ (t.cluster cl).saves ∧ v.owner = h ∧ v.mask = m ∧ v.spilled = false ∧ v.st = me.st ∧
        v.who.kept = true ∧
        (let kept := t.hart v.who
         kept.st = .saved ∧ kept.wait = none ∧ kept.pc = me.pc ∧ kept.unit = me.unit ∧ kept.epoch = me.epoch ∧ kept.csr.tscratch = me.csr.tscratch ∧
         ∀ r : Reg, (m.getLsbD (r.toNat / 2) = true → kept.rx r = me.rx r) ∧
          (m.getLsbD (r.toNat / 2) = false → me.stx r ≠ .pending → kept.rx r = 0 ∧ kept.stx r = .full)) ∧
        (new t).st = .saved ∧ (new t).unit = none ∧ ((s.cluster cl).saves = [] → (s.core h.core).long = false →
          ∀ a, apart a (shadowPa cl 0) shadowImage → t.readByte a = s.readByte a)) ∧
    (me.isTaken = true → wbit me.csr.preempt 1 = true → s.occupiedIn cl = [h] → exec (.clusterSave cl) s = .next s ∧
      ∃ t : State, exec (.safePointTake h) s = .next t ∧ (new t).wait = some (.killed 0) ∧ (new t).epoch = me.epoch + 1 ∧ t.mem = s.mem) ∧
    ((s.cluster cl).saving = [h] → me.st = .saved → ∃ t : State, exec (.saveComplete cl) s = .next t ∧ (t.cluster cl).saving = [] ∧
      wbits (new t).csr.preempt 2 2 = 2 ∧ (∀ g, g ≠ h → t.hart g = s.hart g) ∧ t.mem = s.mem) ∧
    (∀ (old : HartId) (v : Saved) (k l u : Nat), s.allSaves = [(cl, v)] → v.owner = old → (s.cluster cl).saving = [] → v.long = false → (s.core h.core).long = false →
      v.acc = none → v.ranges = [] → v.who.kept = true → h.kept = false → s.savedUnit v = some (k, l, u) → (s.launchOf k l).gang = false → s.slotFree h = true →
      s.mayResume v h.core = true → s.unitFirst k l u h.core = true → (∀ y ∈ s.launches, s.holds y.2.2 h.core = false) →
      let kept := s.hart v.who
      ∃ t : State, exec (.unitResume old h) s = .next t ∧ (new t).pc = kept.pc ∧ (new t).unit = kept.unit ∧ (new t).x = kept.x ∧ (new t).xSt = kept.xSt ∧
        (new t).v = kept.v ∧ (new t).loops = kept.loops ∧ (new t).st = v.st ∧ (new t).epoch = me.epoch + 1 ∧ (new t).csr.preempt = 0 ∧
        t.allSaves = [] ∧ t.hart v.who = Hart.reset ∧ t.mem = s.mem) ∧
    (let c := clusterOf h.core
     wbit me.csr.preempt 0 = true → me.late = false → me.isTaken = false → me.reqClk + 105000 ≤ s.clk → (s.cluster c).step ≤ 16 →
      ∃ t : State, exec (.migrationDeadline h) s = .next t ∧ (new t).late = true ∧
        (t.cluster c).step = (if 8 < (s.cluster c).step then (s.cluster c).step - 1 else (s.cluster c).step) ∧ (new t).x = me.x ∧ t.mem = s.mem) ∧
    (∀ k l u, wbits me.csr.preempt 0 2 ≠ 0 → me.occupied = true → (∀ c, me.wait ≠ some (.killed c)) → me.reqClk + 2100000 ≤ s.clk →
      me.unit = some (k, l, u) →
      let q := (s.launchOf k l).hq
      ∃ t : State, exec (.safepointWatchdog h) s = .next t ∧ (new t).wait = some (.killed 0x19) ∧ (new t).epoch = me.epoch + 1 ∧
        ((s.hq q).st = 1 → (t.hq q).st = 2 ∧ (t.hq q).ecause = 0x19) ∧ (t.stk (stackOf h.core)).snap = true ∧ t.mem = s.mem)

/-! ### Registers, checkpoints, snapshots and notices (R75, R107, R110, R116, R118, R262, R378 to R380, R394, R396, R403 to R405, R413) -/

/-- R75, R107, R110, R116, R118, R262, R378 to R380, R394, R396, R403 to R405, R413: a doorbell sets the tail, and more records than the ring holds stop an ACTIVE
queue with cause 2; HQCTL starts and stops a queue, its LOG clamped and fixed while EN is 1; CLR leaves ERROR with nothing pending; REQ and KILL of a slot that holds a unit are set, those of an empty one read 0, a halted slot restarts;
the other registers take what their fields give them; an address without a register is a fault; an interval that closes begins a new one,
NUM going up once the lines buffered at its boundary are committed, at once where there are none; a snapshot, which latches the blocks of its stack, is taken
unless one has not been read; the oldest notice is delivered. The model's choices: a base outside the core's own vault is kept as written
(log 102); an address at which no register stands is a fault (log 15). -/
def Obligations.RegisterEvents : Prop :=
  ∀ (q core cl k : Nat) (h : HartId) (v : Word) (s : State),
    let hq := s.hq q
    let fits (n : Nat) : Prop := (v.setWidth 32 - hq.head).toNat ≤ n
    (q < 64 →
      (∃ t : State, exec (.hqtail q v) s = .next t ∧ (t.hq q).tail = v.setWidth 32 ∧ (t.hq q).head = hq.head ∧ (t.hq q).ctl = hq.ctl ∧
        (hq.st ≠ 1 ∨ fits (2 ^ wbits hq.ctl 4 4) → (t.hq q).st = hq.st) ∧
        (hq.st = 1 → ¬fits (2 ^ wbits hq.ctl 4 4) → (t.hq q).st = 2 ∧ (t.hq q).ecause = 2) ∧ (∀ p, p ≠ q → t.hq p = s.hq p) ∧ t.mem = s.mem) ∧
      (wbit v 0 = true → ∃ t : State, exec (.hqEnable q v) s = .next t ∧ wbit (t.hq q).ctl 0 = true ∧ (t.hq q).head = hq.head ∧ (t.hq q).tail = hq.tail ∧
        wbits (t.hq q).ctl 4 4 = (if wbit hq.ctl 0 then wbits hq.ctl 4 4 else min (max (wbits v 4 4) 2) 14) ∧ wbits (t.hq q).ctl 8 11 = wbits v 8 11 ∧
        (hq.st = 2 → (t.hq q).st = 2) ∧ (hq.st ≠ 2 → hq.tail = hq.head → (t.hq q).st = 1) ∧ (∀ p, p ≠ q → t.hq p = s.hq p)) ∧
      (wbit v 0 = false → ∃ t : State, exec (.hqDisable q v) s = .next t ∧ wbit (t.hq q).ctl 0 = false ∧ (t.hq q).head = hq.head ∧
        (hq.st = 2 → (t.hq q).st = 2) ∧ (hq.st ≠ 2 → (t.hq q).st = 0) ∧ ∀ p, p ≠ q → t.hq p = s.hq p) ∧
      (hq.st = 2 → ∃ t : State, exec (.hqstatClr q) s = .next t ∧ (t.hq q).st = 0 ∧ (t.hq q).head = hq.tail ∧ (t.hq q).flushed = 0 ∧ ∀ p, p ≠ q → t.hq p = s.hq p)) ∧
    ((h.kind = .thread → (s.hart h).occupied = true) → ∃ t : State, exec (.preemptReq h) s = .next t ∧ wbit (t.hart h).csr.preempt 0 = true ∧ wbit (t.hart h).csr.preempt 1 = wbit (s.hart h).csr.preempt 1 ∧
      (wbits (s.hart h).csr.preempt 0 2 = 0 → (t.hart h).reqClk = s.clk) ∧ (t.hart h).x = (s.hart h).x ∧
      ((s.core h.core).long = false → ∀ g, g ≠ h → t.hart g = s.hart g)) ∧
    (h.kind = .thread → (s.hart h).occupied = false → exec (.preemptReq h) s = .next s ∧ exec (.preemptKill h) s = .next s) ∧
    ((h.kind = .thread → (s.hart h).occupied = true) → wbit (s.hart h).csr.preempt 0 = false → ∃ t : State, exec (.preemptKill h) s = .next t ∧ wbit (t.hart h).csr.preempt 1 = true ∧
      wbit (t.hart h).csr.preempt 0 = false ∧ (t.hart h).x = (s.hart h).x ∧ ∀ g, g ≠ h → t.hart g = s.hart g) ∧
    ((s.hart h).st = .halted → ∃ t : State, exec (.slotctlRestart h) s = .next t ∧ (t.hart h).st = .running ∧ (t.hart h).pc = (s.hart h).pc ∧ (t.hart h).x = (s.hart h).x) ∧
    (let base := wbits v 10 38 * 1024
     base = 0 ∨ region base ≠ 0 ∨ paCore base ≠ core ∨ ((s.vault core).wbuf = [] ∧ s.dev.ckptEn = false ∧ s.heldAt base 1024 = false ∧
        ∀ l, s.lineRead core l = false) →
      ∃ t : State, exec (.htbaseWrite core v) s = .next t ∧ (t.core core).htbase = BitVec.ofNat 64 base ∧ (t.core core).ht = (s.core core).ht) ∧
    (∃ t : State, exec (.msgerrWrite h) s = .next t ∧ (t.hart h).csr.msgerr = 0 ∧ (t.hart h).x = (s.hart h).x ∧ ∀ g, g ≠ h → t.hart g = s.hart g) ∧
    (∃ t : State, exec (.vaultevtWrite core v) s = .next t ∧ (t.vault core).lost = 0 ∧ (t.vault core).ie = wbit v 32 ∧ (t.vault core).log = (s.vault core).log) ∧
    (∃ t : State, exec (.aqstatWrite core v) s = .next t ∧ (t.core core).hfault = ((s.core core).hfault && wbit v 7) ∧ (t.core core).breach = 0 ∧
      (t.core core).hwm = (s.core core).spilled ∧ (t.core core).ring = (s.core core).ring) ∧
    ((s.core core).spillNext = none →
      ((s.core core).ring = [] →
        (∃ t : State, exec (.spillConfigWrite core true v) s = .next t ∧ (t.core core).spillBase = (s.core core).spillBase ∧
          (t.core core).spillQuota = min (wbits v 0 16) (2 ^ 22 - (s.core core).spillBase)) ∧
        (∃ t : State, exec (.spillConfigWrite core false v) s = .next t ∧ (t.core core).spillBase = wbits v 6 22 ∧
          (t.core core).spillQuota = min (s.core core).spillQuota (2 ^ 22 - wbits v 6 22))) ∧
      ((s.core core).ring ≠ [] → ∃ t : State, exec (.spillConfigWrite core true v) s = .next t ∧ (t.core core).spillQuota = (s.core core).spillQuota ∧
        (t.core core).spillNext = some ((s.core core).spillBase, wbits v 0 16))) ∧
    (∃ t : State, exec (.clkstepWrite cl v) s = .next t ∧ (t.cluster cl).step = (if 8 ≤ wbits v 0 5 ∧ wbits v 0 5 ≤ 16 then wbits v 0 5 else 16) ∧
      (∀ c, c ≠ cl → t.cluster c = s.cluster c) ∧ t.mem = s.mem) ∧
    (∀ pa, (region pa ≠ 4 ∨ pa % 8 ≠ 0 ∨ mmioReg pa = none) → exec (.registerWrite pa v) s = .fault (.noSuchRegister pa)) ∧
    (∀ pa, region pa = 4 → pa % 8 = 0 → mmioReg pa = some (.clkstep cl) → ∃ t : State, exec (.registerWrite pa v) s = .next t ∧
      (t.cluster cl).step = (if 8 ≤ wbits v 0 5 ∧ wbits v 0 5 ≤ 16 then wbits v 0 5 else 16) ∧ t.mem = s.mem) ∧
    (wbit v 21 = false → ∃ t : State, exec (.ckptEnable v) s = .next t ∧ t.dev.ckptEn = wbit v 0 ∧ t.dev.ckptUs = max (wbits v 1 20) 1 ∧ t.dev.ckptNum = s.dev.ckptNum ∧
      (wbit v 0 = true → s.dev.ckptEn = false → t.dev.ckptClk = s.clk ∧ ∀ c, (t.vault c).ckpt = []) ∧ t.mem = s.mem) ∧
    (let next := (s.dev.ckptNum + 1).toNat
     let closed (t : State) : Prop := t.dev.ckptClk = s.clk ∧ (∀ c, (t.vault c).ckptLines = [] ∧ (t.vault c).wbuf = (s.vault c).wbuf) ∧ t.mem = s.mem ∧
      ((∀ e ∈ s.vaults, e.2.wbuf = []) → t.dev.ckptNum = s.dev.ckptNum + 1 ∧ t.dev.closing = none ∧
        ∀ c, (t.vault c).ckpt = (s.vault c).ckpt.filter (fun e => e.num == next)) ∧
      ((∃ e ∈ s.vaults, e.2.wbuf ≠ []) → t.dev.ckptNum = s.dev.ckptNum ∧ (∀ c, (t.vault c).ckpt = (s.vault c).ckpt) ∧
        ∃ ls, t.dev.closing = some ls ∧ ∀ c n, (c, n) ∈ ls ↔ ∃ e ∈ s.vaults, e.1 = c ∧ ∃ w ∈ e.2.wbuf, w.line = n)
     s.dev.ckptEn = true → (s.dev.closing.isSome = true → exec .ckptClose s = .next s) ∧ (s.dev.closing = none → (∃ t : State, exec .ckptClose s = .next t ∧ closed t) ∧
      (s.dev.ckptClk + s.dev.ckptUs * 1050 ≤ s.clk → ∃ t : State, exec .intervalTimer s = .next t ∧ closed t) ∧
      (7 * s.dev.ckptLen * 65536 ≤ 8 * 128 * (s.vault core).ckpt.length → ∃ t : State, exec (.logThreshold core) s = .next t ∧ closed t))) ∧
    ((s.stk k).snap = false → ∃ t : State, exec (.snapWrite k) s = .next t ∧ (t.stk k).snap = true ∧ (t.stk k).snapDone = true ∧ (t.stk k).snapHeld = some (s.latch k)) ∧
    ((s.stk k).snap = true → ∃ t : State, exec (.snapWrite k) s = .next t ∧ (t.stk k).snap = true ∧ (t.stk k).snapDone = false ∧ (t.stk k).snapHeld = (s.stk k).snapHeld) ∧
    (∀ n r, (s.stk k).notices = n :: r → ∃ t : State, exec (.supervisorNotice k) s = .next t ∧ (t.stk k).notices = r ∧ (t.stk k).delivered = (s.stk k).delivered ++ [n])

/-! ### Reliability, the host link and power (R83, R86, R148, R400 to R413) -/

/-- R400 to R402, R404, R408: an error counts against its unit, and the THRESH-th within WIN makes the fault lasting; a unit with a lasting fault is retired when it is
idle; a rollback of a context that is to be rolled back kills its unit, writes a line logged for one of its address spaces back and notifies; where
a compared commit of a leader and its trailer differs both clusters halt, a machine check goes to management and the contexts under lockstep there are
to be rolled back; a link counts its retries, goes down, trains again without a lane that has a lasting fault, and comes up, at reduced width without a
lane. The model's choices: an event WIN seconds old still counts (log 64); the trailer's commits are compared as data of the model (log 65); the
rollback is one event, once what its units have under way is done (log 66). -/
def Obligations.ReliabilityEvents : Prop :=
  ∀ (u : UnitId) (core cl p : Nat) (s : State),
    (let ts := (s.dev.errors.get u [] ++ [s.clk]).filter (fun t => decide (s.clk ≤ t + s.dev.cfg.win * 1050000000))
     ∃ t : State, exec (.errorEvent u) s = .next t ∧ t.dev.errors.get u [] = ts ∧ (u ∈ t.dev.lasting ↔ u ∈ s.dev.lasting ∨ s.dev.cfg.thresh ≤ ts.length) ∧
      (∀ w, w ≠ u → (w ∈ t.dev.lasting ↔ w ∈ s.dev.lasting)) ∧ t.mem = s.mem) ∧
    (.core core ∈ s.dev.lasting → s.coreIdle core = true → ∃ t : State, exec (.unitRetire (.core core)) s = .next t ∧ (t.core core).retired = true ∧ t.mem = s.mem) ∧
    (.engine cl ∈ s.dev.lasting → s.engineIdle cl = true → ∃ t : State, exec (.unitRetire (.engine cl)) s = .next t ∧ (t.cluster cl).engRetired = true ∧ t.cores = s.cores) ∧
    (∀ (ccb : Nat) (why : RollCause) (v : Vault) (e : CkptEnt) (h : HartId), (ccb, why) ∈ s.dev.rolls → s.dev.closing = none → s.vaults = [(core, v)] → v.ckpt = [e] →
      e.asid ∈ s.rollAsids ccb → core < 2048 → paCore e.pa = core →
      region e.pa = 0 → e.pa < 2 ^ 39 → e.pa % 64 = 0 → e.old.length = 64 →
      (s.bank core (bankOf (paOff e.pa))).underRepair (rowOf (paOff e.pa)) = false → s.contextHarts ccb = [h] → (s.hart h).writesDone = true →
      ∃ t : State, exec (.rollback ccb why) s = .next t ∧ (∀ w, (ccb, w) ∉ t.dev.rolls) ∧ (∀ n, n < 64 → some (t.readByte (e.pa + n)) = e.old[n]?) ∧ (t.hart h).wait = some (.killed 0) ∧
        (∀ k, k < 4 → s.contextLaunches k ccb ≠ [] → .rollback s.dev.ckptNum.toNat ∈ (t.stk k).notices)) ∧
    (∀ ccb why, (ccb, why) ∉ s.dev.rolls → exec (.rollback ccb why) s = .next s) ∧
    (cl < 256 → cl % 2 = 0 → (∃ x ∈ (s.cluster cl).trail, x.due ≤ s.clk ∧ x.lead ≠ x.trail) →
      ∃ t : State, exec (.lockstepMismatch cl) s = .next t ∧ (t.cluster cl).halted = true ∧ (t.cluster (cl + 1)).halted = true ∧
        .machineCheck (8 * cl) 0 ∈ (t.stk (stackOf (8 * cl))).notices ∧ (∀ ccb ∈ s.lockstepIn cl, ∃ why, (ccb, why) ∈ t.dev.rolls) ∧ t.mem = s.mem) ∧
    ((∀ x ∈ (s.cluster cl).trail, s.clk < x.due ∨ x.lead = x.trail) → exec (.lockstepMismatch cl) s = .next s) ∧
    (let port (t : State) : Port := t.dev.ports.get p Port.reset
     (∃ t : State, exec (.linkRetry p) s = .next t ∧ port t = { port s with retry := (port s).retry + 1 } ∧ t.mem = s.mem) ∧
     (∃ t : State, exec (.linkDown p) s = .next t ∧ port t = { port s with st := 0, peer := 0xFFFF } ∧ (∀ m ∈ t.dev.net, t.reachable m.dev = true) ∧ t.mem = s.mem) ∧
     (∀ n, .lane p n ∈ s.dev.lasting → 2 ≤ (port s).st.toNat → ∃ t : State, exec (.linkRetrain p) s = .next t ∧ port t = { port s with st := 1, narrow := true } ∧ t.mem = s.mem) ∧
     (∀ peer, (port s).st = 1 → ∃ t : State, exec (.portUp p peer) s = .next t ∧ port t = { port s with st := if (port s).narrow then 3 else 2, peer := peer } ∧ t.mem = s.mem) ∧
     (∀ peer, (port s).st ≠ 1 → exec (.portUp p peer) s = .next s))

/-- R148, R407, R409 to R411: a posted write of a function that none of its increments is before lands in host memory, in a pool whose banks grant it
or in a vault; a read, served where it is of a vault, returns the bytes and an AtomicOp the old value,
with what it makes of it stored; a management request is answered over the interface on which it came, in recovery only one of firmware update; an image
that verifies goes to the slot that does not run, and a configuration record that verifies is in force; others change nothing. The model's choices: an
answer is recorded, and what measurements, certificates and readings hold is free (log 70); a request is of one packet, within 4 KB (log 71); a
function's accesses to a pool go through the port of the first core's agent (log 132). -/
def Obligations.HostEvents : Prop :=
  ∀ (src pa n : Nat) (bs : List Byte) (s : State),
    (pa < 2 ^ 48 → pa % 4096 + bs.length ≤ 4096 → s.malformed pa = false → s.hostBehind src pa = false →
      (8 ≤ region pa ∨ (region pa = 1 ∧ (s.poolTurns (agentPort 0) (linesOf [(pa, bs.length)])).isSome = true) →
        ∃ t : State, exec (.hostWrite src pa bs) s = .next t ∧ (∀ k, k < bs.length → some (t.readByte (pa + k)) = bs[k]?) ∧
          (∀ a, apart a pa bs.length → t.readByte a = s.readByte a) ∧ t.harts = s.harts) ∧
      (region pa = 0 → pa % 64 + bs.length ≤ 64 → pa < 2 ^ 39 → accepts (paCore pa) s → s.heldAt pa bs.length = false →
        s.lineRead (paCore pa) (paOff pa / 64) = false →
        ∃ t : State, exec (.hostWrite src pa bs) s = .next t ∧ (∀ k, k < bs.length → some (t.readByte (pa + k)) = bs[k]?) ∧
          (∀ a, proper a → apart a pa bs.length → t.readByte a = s.readByte a) ∧ t.harts = s.harts)) ∧
    (pa < 2 ^ 48 → pa % 4096 + n ≤ 4096 → s.malformed pa = false → s.hostPosted src = false → s.badWord pa n = none → s.dev.early = [] →
      (8 ≤ region pa ∨ (region pa = 1 ∧ (s.poolTurns (agentPort 0) (linesOf [(pa, n)])).isSome = true) ∨
        (region pa = 0 ∧ served (.host src pa) [(pa, n)] s)) →
      ∃ t : State, exec (.hostRead src pa n) s = .next t ∧ t.dev.hostReads = s.dev.hostReads ++ [(src, pa, s.readBytes pa n)] ∧ t.mem = s.mem) ∧
    (∀ (op : BitVec 2) (w : BitVec 1) (v cmp : Word), op.toNat < 3 → 12 ≤ region pa → pa < 2 ^ 48 →
      let m := if w = 1 then 8 else 4
      let old := s.readNum pa m
      pa % m = 0 → ∃ t : State, exec (.hostAtomicop src op w pa v cmp) s = .next t ∧ t.dev.hostReads = s.dev.hostReads ++ [(src, pa, bytesOf m old)] ∧
        t.readNum pa m = (if op = 0 then (old + v.toNat) % 2 ^ (8 * m) else if op = 1 then v.toNat % 2 ^ (8 * m)
          else if old = cmp.toNat % 2 ^ (8 * m) then v.toNat % 2 ^ (8 * m) else old) ∧
        ∀ a, apart a pa m → t.readByte a = s.readByte a) ∧
    (∀ (i3c : Bool) (r : MctpReq), (s.dev.recovery = false ∨ r = .pldmUpdate → (∀ c, r = .spdmCert c → c < 8) →
        ∃ (t : State) (a : MctpAnswer), exec (.mctpRequest ⟨i3c, r⟩) s = .next t ∧ t.dev.mctp = s.dev.mctp ++ [a] ∧ a.i3c = i3c ∧ a.req = r ∧
          (r = .pldmMonitor → a.failed = s.dev.layerFail) ∧ (∀ c, r = .spdmCert c → a.body = Config.certificate c) ∧ t.mem = s.mem) ∧
      (s.dev.recovery = true → r ≠ .pldmUpdate → exec (.mctpRequest ⟨i3c, r⟩) s = .next s)) ∧
    (∀ f : FwImage, (f.rsaOk = true → f.slhOk = true → s.dev.fwMin ≤ f.version → ∃ t : State, exec (.firmwareUpdate f) s = .next t ∧
        (s.dev.fwActive = some false → t.dev.fwB = some f.version ∧ t.dev.fwA = s.dev.fwA) ∧
        (s.dev.fwActive ≠ some false → t.dev.fwA = some f.version ∧ t.dev.fwB = s.dev.fwB) ∧ t.dev.fwActive = s.dev.fwActive) ∧
      (f.rsaOk = false ∨ f.slhOk = false ∨ f.version < s.dev.fwMin → exec (.firmwareUpdate f) s = .next s)) ∧
    (∀ c : ConfigRec, (c.rsaOk = true → c.slhOk = true → ∃ t : State, exec (.configRecord c) s = .next t ∧ t.dev.cfg = c ∧ t.mem = s.mem) ∧
      (c.rsaOk = false ∨ c.slhOk = false → exec (.configRecord c) s = .next s))

/-- R80, R81, R83, R84, R86, R95, R121, R122, R175, R410 to R412: the reset of a stack leaves its pools reading zero, its slots, locks, leases and counters at reset and
its DRAM and the other stacks' harts as they were; the reset of the device boots the newest firmware slot, or enters recovery; a power-up loses DRAM and brings the layers of
every stack up one at a time, layer 0 first, one that fails leaving the device in recovery and being reported; a gated layer keeps what is committed and
loses what its vaults still buffer, a gated cluster loses its pool; power comes back. The model's choices: contents that are lost read 0 (log 3);
what each reset keeps (log 42); what a layer keeps and loses as its power goes (log 68); the order of the stacks' layers (log 137). -/
def Obligations.PowerEvents : Prop :=
  ∀ (k layer cl : Nat) (s : State), k < 4 →
    (∃ t : State, exec (.stackReset k) s = .next t ∧
      (∀ a, region a = 1 → paCluster a / 64 = k → t.mem.read a = 0) ∧ (∀ a, region a = 0 ∨ 8 ≤ region a → t.mem.read a = s.mem.read a) ∧
      (∀ h, h.kind ≠ .mgmt → stackOf h.home = k → t.hart h = Hart.reset) ∧ (∀ h, stackOf h.home ≠ k → t.hart h = s.hart h) ∧
      (∀ c, c / 512 = k → (t.core c).mbx = [] ∧ (t.core c).ht = resetTable ∧ (t.core c).long = false ∧ (t.core c).travMax = s.dev.cfg.travmax.toNat ∧ (t.vault c).wbuf = [] ∧
        (t.vault c).mat = s.dev.cfg.mat.toNat ∧ (t.vault c).gen = (s.vault c).gen) ∧
      (∀ c, c / 64 = k → (t.cluster c).locks = [] ∧ (t.cluster c).slots = [] ∧ (t.cluster c).step = 16)) ∧
    (∃ t : State, exec .deviceReset s = .next t ∧ (∀ h, h.kind ≠ .mgmt → stackOf h.home < 4 → t.hart h = Hart.reset) ∧ t.dev.cfg = s.dev.cfg ∧
      (s.dev.fwA = none → s.dev.fwB = none → t.dev.fwActive = none ∧ t.dev.recovery = true) ∧
      ((s.dev.fwA.isSome = true ∨ s.dev.fwB.isSome = true) → t.dev.recovery = s.dev.layerFail.isSome) ∧
      (∀ a b, s.dev.fwA = some a → s.dev.fwB = some b → (b < a → t.dev.fwActive = some false) ∧ (a < b → t.dev.fwActive = some true)) ∧
      (∀ a, region a = 0 → t.mem.read a = s.mem.read a) ∧ t.dev.ckptEn = false ∧ t.dev.devnum = 0xFFFF) ∧
    (∀ fail : Option Nat, (∀ n, fail = some n → n < 32) →
      ∃ t : State, exec (.powerUp fail) s = .next t ∧ (∀ a, region a < 8 → t.mem.read a = 0) ∧ (∀ a, 8 ≤ region a → t.mem.read a = s.mem.read a) ∧
        (t.stk k).ready = [] ∧ (t.stk k).gated = [] ∧ (t.dev.bringUp.filter (fun n => n / 8 == k)).map (· % 8) = [0, 1, 2, 3, 4, 5, 6, 7] ∧
        t.dev.layerFail = fail ∧ ((s.dev.fwA.isSome = true ∨ s.dev.fwB.isSome = true) → t.dev.recovery = false)) ∧
    (∀ n r, s.dev.bringUp = n :: r → n / 8 = k →
      (s.dev.layerFail ≠ some n → ∃ t : State, step s = noted (.next t) ∧ t.dev.bringUp = r ∧ (t.stk k).ready = (s.stk k).ready ++ [n % 8] ∧
        t.dev.recovery = s.dev.recovery ∧ t.mem = s.mem ∧ t.harts = s.harts) ∧
      (s.dev.layerFail = some n → ∃ (t : State) (a : MctpAnswer), step s = noted (.next t) ∧ t.dev.bringUp = [] ∧ (t.stk k).ready = (s.stk k).ready ∧
        t.dev.recovery = true ∧ t.dev.mctp = s.dev.mctp ++ [a] ∧ a.req = .pldmMonitor ∧ a.failed = some n ∧ t.mem = s.mem ∧ t.harts = s.harts)) ∧
    (layer < 8 → layer ∉ (s.stk k).gated → ∃ t : State, exec (.layerPowerGate k layer) s = .next t ∧ layer ∈ (t.stk k).gated ∧ t.mem = s.mem ∧
      (∀ c, stackOf c = k → ∀ l, l ∈ (t.vault c).wbuf ↔ l ∈ (s.vault c).wbuf ∧ bankOf (l.line * 64) / 4 ≠ layer) ∧
      (s.dev.closing = none → ∀ c, stackOf c ≠ k → t.vault c = s.vault c) ∧ t.harts = s.harts) ∧
    ((s.cluster cl).gated = false → (∀ c ∈ coresOf cl, s.coreIdle c = true) → s.engineIdle cl = true → (s.cluster cl).saving = [] →
      ∃ t : State, exec (.clusterPowerGate cl) s = .next t ∧ (t.cluster cl).gated = true ∧ (∀ a, region a = 1 → paCluster a = cl → t.mem.read a = 0) ∧
        (∀ a, ¬(region a = 1 ∧ paCluster a = cl) → t.mem.read a = s.mem.read a) ∧ t.harts = s.harts) ∧
    (∃ t : State, exec (.powerUngate (.layer k layer)) s = .next t ∧ layer ∉ (t.stk k).gated ∧ (∀ l, l ≠ layer → (l ∈ (t.stk k).gated ↔ l ∈ (s.stk k).gated)) ∧ t.mem = s.mem) ∧
    (∃ t : State, exec (.powerUngate (.cluster cl)) s = .next t ∧ (t.cluster cl).gated = false ∧ t.mem = s.mem)

/-! ### The machine as a whole (R42, R64, R107, R110, R121, R131, R172, R180, R216 to R229, R240, R391, R401, R403, R413) -/

/-- Bytes decode to an instruction and nothing is left of them: n bytes of a number, the first word lowest (R132, R216). -/
def Sys2Proof.Claims.reads (n w : Nat) (i : Instr) : Prop := decode (bytesOf n w) = .ok (i, [])

/-- R216, R218 to R229: words written out from the encodings of the spec decode to the instructions for which they stand, one of every family at
least. -/
def Obligations.DecodeWords : Prop :=
  reads 4 0x02731413 (.sub Head.plain 5 6 7) ∧ reads 4 0x00329463 (.slli Head.plain 5 5 3) ∧ reads 4 0x091A1493 (.lhi Head.plain 5 0x1234) ∧
  reads 4 0x12C5A8C3 (.clmul Head.plain 10 11 12) ∧ reads 4 0x007314D3 (.faddS Head.plain 5 6 7) ∧ reads 4 0x107314E3 (.fmaddS Head.plain 5 6 7 8) ∧
  reads 4 0xFFC31503 (.beq Head.plain 5 6 0xFFC) ∧ reads 4 0x00400563 (.jal Head.plain 1 0x80) ∧ reads 4 0x00C00D93 (.loopi Head.plain 3 0x0C) ∧
  reads 4 0xFC2131B3 (.st Head.plain 12 2 2 0x7E) ∧ reads 4 0x013599A3 (.ldl Head.plain 6 11 3 0 0) ∧ reads 4 0xE09521C3 (.amoadd Head.plain 8 10 9 1 3) ∧
  reads 4 0x320001D3 (.fenceV Head.plain 1) ∧ reads 4 0x00755213 (.rload Head.plain 20 10 3 1) ∧ reads 4 0x02B55223 (.mbxWait Head.plain 20 10 11) ∧
  reads 4 0x00600243 (.waittk Head.plain 6) ∧ reads 4 0x18B50263 (.tlbinv Head.plain 10 11) ∧ reads 4 0x00201683 (.csrbis Head.plain 5 0 2) ∧
  reads 4 0x40208EE3 (.vmergeHi Head.plain 3 1 2 0) ∧ reads 8 (0x000503F3 + 0x01FE4009 * 2 ^ 32) (.tld Head.plain 10 1 1 0 2 127 1 0) ∧
  reads 8 (0x18B553F3 + 0x00000801 * 2 ^ 32) (.selq Head.plain 20 10 11 1 0 1 0) ∧ reads 8 (0x1AB503F3 + 0x0000180A * 2 ^ 32) (.copy Head.plain 10 11 2 1 3) ∧
  reads 8 (0x220017F3 + 0x00000081 * 2 ^ 32) (.tapeRec Head.plain 5 1 16) ∧ reads 2 0xFCA1 (.cAddi 5 0x3F)

/-- R180, R216 to R229: decoding the bytes that encode a well-formed instruction gives that instruction back, with every operand at every value, and leaves what
follows; bytes that decode are those of the instruction, so no two instructions share an encoding; nothing encodes an event. -/
def Obligations.DecodeEncode : Prop :=
  (∀ (i : Instr) (k : Code), i.wellFormed = true → encode i = some k →
    decodeCode k = .ok i ∧ ∀ rest, decode (k.bytes ++ rest) = .ok (i, rest)) ∧
  (∀ (bs rest : List Byte) (i : Instr), decode bs = .ok (i, rest) → i.wellFormed = true ∧ ∃ k : Code, encode i = some k ∧ bs = k.bytes ++ rest)

/-- What an outcome of an issue is as a step: an instruction that does not wait has issued, past the rivals that were ready (R172), and the waits
whose length the device measures are noted (R113, R152). -/
def Sys2Proof.Claims.issued (h : HartId) (s : State) (o : Host.Outcome State Fault Refusal) : Host.Outcome State Fault Refusal :=
  noted (match o with
    | .next t => .next (if waitsAt h (.next t) then t else (t.noteIssue h (s.rivals h)).noteCommit h)
    | o => o)

/-- R172, R180, R216, R222, R260, R391, R410 and the model's agenda (log 5, the model's choice): a step is what is due before the next turn (log 135, the
model's choice), where something is; otherwise it takes the first turn of the agenda, at its time or now if that has passed. Where it
is the turn of a hart that can issue and that no ready thread of its core precedes, and the bytes at its pc decode to a well-formed instruction, the step is exec of that
instruction with its words fetched, noted as issued; a bad selector raises cause 0x01, a bad field cause 0x02, a fetch that fails its check that check's cause; a hart
that cannot issue passes, and so does one with a ready rival that was passed over in the core's last four issues (log 117, the model's reading)
where it was not, or, neither having been, has the higher PRIO; a
device event runs; in recovery no hart issues and only resets, power-ups and firmware update act; a parcel is the two bytes at the physical address of its address. -/
def Obligations.StepRunsDecoded : Prop :=
  ∀ (c : Nat) (r : List Turn) (h : HartId) (s : State),
    let s0 : State := { s with agenda := r, clk := max s.clk c }
    let s1 : State := { s0 with cur := h }
    let runs : Prop := s.beforeTurn = none ∧ s.dev.recovery = false
    (runs → s.agenda = ⟨c, .issue h⟩ :: r → s0.canIssue h = true → s0.first h (s0.rivals h) = true →
      (∀ (s2 : State) (k : Code) (i : Instr), s1.fetchBase h s1.me.pc = (s2, .ok k) → k.mask = none → decodeCode k = .ok i →
        step s = issued h s0 (exec i s2.fetchedAll)) ∧
      (∀ (s2 s3 : State) (k m : Code) (i : Instr), s1.fetchBase h s1.me.pc = (s2, .ok k) → k.mask.isSome = true → (∃ j, decodeCode k = .ok j) →
        s2.fetchMask s2.cur s2.me.pc k = (s3, .ok m) → decodeCode m = .ok i → step s = issued h s0 (exec i s3.fetchedAll)) ∧
      (∀ (s2 : State) (k : Code), s1.fetchBase h s1.me.pc = (s2, .ok k) →
        (decodeCode k = .error .illegal → step s = issued h s0 (.next (trapInstr 0x01 k s2.fetchedAll))) ∧
        (decodeCode k = .error .reserved → step s = issued h s0 (.next (trapInstr 0x02 k s2.fetchedAll)))) ∧
      (∀ (s2 : State) (cause : BitVec 8) (va : Word), s1.fetchBase h s1.me.pc = (s2, .error (.fault cause va)) →
        step s = issued h s0 (.next (trapVal cause va s2)))) ∧
    (runs → s.agenda = ⟨c, .issue h⟩ :: r →
      (s0.canIssue h = false → step s = .next s0.noteTurn) ∧
      (∀ g, h.kind = .thread → g ∈ threadsOf h.core → g ≠ h → s0.ready g = true →
        let missed (x : HartId) : Nat := (s0.core h.core).passed.get x.idx 0
        ((4 ≤ missed g ∧ missed h < 4) ∨ (missed g < 4 ∧ missed h < 4 ∧ (s0.hart h).prio < (s0.hart g).prio)) → step s = .next s0.noteTurn)) ∧
    (∀ e : Instr, s.beforeTurn = none → s.agenda = ⟨c, .event e⟩ :: r →
      (s.dev.recovery = false ∨ e = .deviceReset ∨ (∃ x, e = .powerUp x) ∨ (∃ x, e = .firmwareUpdate x) → encode e = none → e.wellFormed = true →
        step s = noted (exec e s0)) ∧
      (s.dev.recovery = true → e ≠ .deviceReset → (∀ x, e ≠ .powerUp x) → (∀ x, e ≠ .firmwareUpdate x) → (∀ x, e ≠ .mctpRequest x) →
        step s = .next s0.noteTurn)) ∧
    (s.beforeTurn = none → s.dev.recovery = true → s.agenda = ⟨c, .issue h⟩ :: r → step s = .next s0.noteTurn) ∧
    (∀ t, s.beforeTurn = some t → step s = .next t.noteTurn) ∧
    (∀ (va : Word) (u : State) (x : Xlat), (s.hart h).fetched = [] → s.check (.instr h) .fetch va = (u, .ok x) → u.heldAt x.pa 2 = false → u.badWord x.pa 2 = none →
      (u.fetchHome h x.pa).2 = true →
      (s.fetchParcel h va).2 = .ok [u.readByte x.pa, u.readByte (x.pa + 1)] ∧ (s.fetchParcel h va).1.mem = u.mem)

/-- The invariant of memory that every step keeps (R132; its canonical form is the model's): addresses strictly rising and no entry of the
value that an unlisted address reads as. -/
def Obligations.StepKeepsMemory : Prop :=
  ∀ s t : State, s.memOk → step s = .next t → t.memOk

/-- R42, R64, R81, R107, R110, R121, R175, R325, R401, R403, R413: what reset leaves, in values that the spec gives, memory in its canonical form, and every slot idle. -/
def Obligations.ResetValues : Prop :=
  State.reset.memOk ∧
  (∀ c, (State.reset.core c).travMax = 256 ∧ (State.reset.core c).spillQuota = 4096 ∧ (State.reset.core c).htbase = 0 ∧ (State.reset.core c).long = false ∧
    (∀ n, n < 11 → ((State.reset.core c).entry n).st = .valid) ∧ (∀ n, 11 ≤ n → ((State.reset.core c).entry n).st = .empty) ∧
    (State.reset.vault c).mat = 2048 ∧ (State.reset.vault c).gen = 0 ∧ (State.reset.vault c).ie = false ∧ (State.reset.vault c).wbuf = []) ∧
  (∀ c, (State.reset.cluster c).budCmds = 64 ∧ (State.reset.cluster c).budTclk = 16384 ∧ (State.reset.cluster c).step = 16 ∧ (State.reset.cluster c).lvuLast = 7 ∧
    (∀ k, ((State.reset.cluster c).slot k).st = .free)) ∧
  (∀ n, State.reset.dev.asgen.get n 0 = 0) ∧ State.reset.dev.devnum = 0xFFFF ∧ State.reset.dev.ckptEn = false ∧ State.reset.dev.cfg.thresh = 3 ∧
  State.reset.dev.cfg.win = 10 ∧ (∀ p, (State.reset.dev.ports.get p Port.reset).peer = 0xFFFF) ∧
  (∀ h, h.kind = .thread → (State.reset.hart h).st = .idle ∧ (State.reset.hart h).loops = [] ∧ (State.reset.hart h).lock = none ∧ (State.reset.hart h).lease = none)

/-- The destination of an instruction that works on x registers alone (R225, R240 to R251, R301 to R303); x0 where it has none. -/
def Sys2Proof.Claims.scalarDest (i : Instr) : Option Reg :=
  match i with
  | .add _ d _ _ | .sub _ d _ _ | .and _ d _ _ | .or _ d _ _ | .xor _ d _ _ | .sll _ d _ _ | .srl _ d _ _ | .sra _ d _ _ | .rol _ d _ _ | .ror _ d _ _
  | .slt _ d _ _ | .sltu _ d _ _ | .min _ d _ _ | .max _ d _ _ | .minu _ d _ _ | .maxu _ d _ _ | .addw _ d _ _ | .subw _ d _ _ | .andn _ d _ _
  | .orn _ d _ _ | .addsat _ d _ _ | .subsat _ d _ _ | .mul _ d _ _ | .mulh _ d _ _ | .mulhu _ d _ _ | .mulhsu _ d _ _ | .mulw _ d _ _ | .div _ d _ _
  | .divu _ d _ _ | .rem _ d _ _ | .remu _ d _ _ | .clmul _ d _ _ | .clmulh _ d _ _ | .clmulr _ d _ _ | .bfx _ d _ _ | .bfi _ d _ _ => some d
  | .addi _ d _ _ | .andi _ d _ _ | .ori _ d _ _ | .xori _ d _ _ | .slti _ d _ _ | .sltiu _ d _ _ => some d
  | .slli _ d _ _ | .srli _ d _ _ | .srai _ d _ _ | .rori _ d _ _ => some d
  | .lhi _ d _ | .addpc _ d _ | .li32 _ d _ _ | .jal _ d _ | .jalr _ d _ _ => some d
  | .clz _ d _ | .ctz _ d _ | .popc _ d _ | .brev _ d _ | .bswap _ d _ | .sextb _ d _ | .sexth _ d _ | .sextw _ d _ | .zextw _ d _ => some d
  | .faddS _ d _ _ | .fsubS _ d _ _ | .fmulS _ d _ _ | .fdivS _ d _ _ | .fminS _ d _ _ | .fmaxS _ d _ _ | .feqS _ d _ _ | .fltS _ d _ _ | .fleS _ d _ _
  | .fsgnjS _ d _ _ | .fsgnjnS _ d _ _ | .fsgnjxS _ d _ _ => some d
  | .fsqrtS _ d _ | .fclassS _ d _ | .fcvtSL _ d _ | .fcvtSLu _ d _ | .fcvtLS _ d _ | .fcvtLuS _ d _ => some d
  | .fmaddS _ d _ _ _ | .fmsubS _ d _ _ _ | .fnmaddS _ d _ _ _ | .fnmsubS _ d _ _ _ => some d
  | .beq _ _ _ _ | .bne _ _ _ _ | .blt _ _ _ _ | .bge _ _ _ _ | .bltu _ _ _ _ | .bgeu _ _ _ _ | .loop _ _ _ | .loopi _ _ _ => some 0
  | .cAddisp e _ | .cSrli e _ | .cSrai e _ | .cAndi e _ | .cSub e _ | .cXor e _ | .cOr e _ | .cAnd e _ => some (prime e)
  | .cAddi d _ | .cLi d _ | .cSlli d _ | .cMv d _ | .cAdd d _ => some d
  | .cJ _ | .cBeqz _ _ | .cBnez _ _ | .cJr _ => some 0
  | .cJalr _ => some 1
  | _ => none

/-- The CSRs of a hart with those that a trap (R389) or a float instruction (R204) writes left out. -/
def Sys2Proof.Claims.otherCsrs (c : HartCsrs) : HartCsrs :=
  { c with fcsr := 0, tstatus := 0, tepc := 0, tcause := 0, tval := 0, lstart := [], lend := [], lcount := [], ldepth := 0 }

/-- R204, R240, R301, R389: the frame of every scalar instruction in a thread, whether it completes, waits or traps, once what the instruction before it had asked for is used: no byte of memory and nothing of another hart, core, vault, cluster or of
the device changes; of its own hart only its destination, pc, loop stack, wait, safe point, what was fetched ahead, its open transaction, FCSR, and the CSRs that a trap writes. -/
def Obligations.ScalarFrame : Prop :=
  ∀ (i : Instr) (d : Reg) (s t : State), scalarDest i = some d → s.cur.isCtx = false → s.fresh → exec i s = .next t →
    t.mem = s.mem ∧ (∀ a, t.readByte a = s.readByte a) ∧ (∀ h, h ≠ s.cur → t.hart h = s.hart h) ∧ t.cores = s.cores ∧ t.vaults = s.vaults ∧
    t.clusters = s.clusters ∧ t.dev = s.dev ∧ t.clk = s.clk ∧ t.cur = s.cur ∧ t.agenda = s.agenda ∧
    (∀ r, r ≠ d → t.me.rx r = s.me.rx r ∧ t.me.stx r = s.me.stx r) ∧ t.me.rx 0 = 0 ∧ t.me.v = s.me.v ∧ t.me.vSt = s.me.vSt ∧
    otherCsrs t.me.csr = otherCsrs s.me.csr ∧ t.me.busy.tokens = s.me.busy.tokens ∧ t.me.busy.queues = s.me.busy.queues ∧ t.me.busy.sb = s.me.busy.sb ∧
    t.me.busy.loads = s.me.busy.loads ∧ t.me.lease = s.me.lease ∧ t.me.lock = s.me.lock ∧ t.me.epoch = s.me.epoch ∧ t.me.unit = s.me.unit ∧
    (t.me.inTrap = s.me.inTrap → t.me.st = s.me.st → t.me.csr.tepc = s.me.csr.tepc ∧ t.me.csr.tstatus = s.me.csr.tstatus)

/-- R131, R230: the registers, the pc, the loop stack, the tokens and the trap state of a hart are its own: no instruction of another hart changes them while it stands in a slot or
a context (a saved thread is killed by a cancel). -/
def Obligations.Isolation : Prop :=
  ∀ (i : Instr) (s t : State), (encode i).isSome = true → exec i s = .next t → ∀ h, h ≠ s.cur → h.kept = false →
    (t.hart h).x = (s.hart h).x ∧ (t.hart h).xSt = (s.hart h).xSt ∧ (t.hart h).v = (s.hart h).v ∧ (t.hart h).vSt = (s.hart h).vSt ∧
    (t.hart h).pc = (s.hart h).pc ∧ (t.hart h).loops = (s.hart h).loops ∧ (t.hart h).busy.tokens = (s.hart h).busy.tokens ∧
    (t.hart h).csr.tstatus = (s.hart h).csr.tstatus ∧ (t.hart h).csr.tepc = (s.hart h).csr.tepc ∧ (t.hart h).csr.ptroot = (s.hart h).csr.ptroot
end

