-- ==== Sys2Proof/Laws/State.lean ====
section
/-! SUPPORT. Sys2Proof/Laws/State.lean: what each update of the state, of a hart and of a core leaves as it was, field by field,
and what a table reads after a write. -/

namespace Sys2Proof

/-! ### Tables -/

@[simp] theorem Table.get_set_same {κ α : Type} [DecidableEq κ] (t : Table κ α) (k : κ) (v d : α) : (t.set k v).get k d = v := by
  induction t with
  | nil => simp [Table.set, Table.get]
  | cons p r ih => by_cases h : p.1 = k <;> simp [Table.set, Table.get, h, ih]

theorem Table.get_set_other {κ α : Type} [DecidableEq κ] (t : Table κ α) (k j : κ) (v d : α) (h : k ≠ j) :
    (t.set k v).get j d = t.get j d := by
  induction t with
  | nil => simp [Table.set, Table.get, h]
  | cons p r ih =>
    by_cases e : p.1 = k
    · simp [Table.set, Table.get, e, h]
    · by_cases e' : p.1 = j
      · simp [Table.set, Table.get, e', Ne.symm h]
      · simp [Table.set, Table.get, e, e', ih]

@[simp] theorem Table.get_nil {κ α : Type} [DecidableEq κ] (k : κ) (d : α) : Table.get ([] : Table κ α) k d = d := rfl

namespace Machine

/-! ### The state -/

@[simp] theorem State.setHart_clk (s : State) (i : HartId) (x : Hart) : (s.setHart i x).clk = s.clk := rfl
@[simp] theorem State.setHart_cur (s : State) (i : HartId) (x : Hart) : (s.setHart i x).cur = s.cur := rfl
@[simp] theorem State.setHart_agenda (s : State) (i : HartId) (x : Hart) : (s.setHart i x).agenda = s.agenda := rfl
@[simp] theorem State.setHart_freeCtr (s : State) (i : HartId) (x : Hart) : (s.setHart i x).freeCtr = s.freeCtr := rfl
@[simp] theorem State.setHart_mem (s : State) (i : HartId) (x : Hart) : (s.setHart i x).mem = s.mem := rfl
@[simp] theorem State.setHart_bad (s : State) (i : HartId) (x : Hart) : (s.setHart i x).bad = s.bad := rfl
@[simp] theorem State.setHart_cores (s : State) (i : HartId) (x : Hart) : (s.setHart i x).cores = s.cores := rfl
@[simp] theorem State.setHart_vaults (s : State) (i : HartId) (x : Hart) : (s.setHart i x).vaults = s.vaults := rfl
@[simp] theorem State.setHart_clusters (s : State) (i : HartId) (x : Hart) : (s.setHart i x).clusters = s.clusters := rfl
@[simp] theorem State.setHart_stks (s : State) (i : HartId) (x : Hart) : (s.setHart i x).stks = s.stks := rfl
@[simp] theorem State.setHart_dev (s : State) (i : HartId) (x : Hart) : (s.setHart i x).dev = s.dev := rfl
@[simp] theorem State.setHart_core (s : State) (i : HartId) (x : Hart) (n : Nat) : (s.setHart i x).core n = s.core n := rfl
@[simp] theorem State.setHart_vault (s : State) (i : HartId) (x : Hart) (n : Nat) : (s.setHart i x).vault n = s.vault n := rfl
@[simp] theorem State.setHart_cluster (s : State) (i : HartId) (x : Hart) (n : Nat) : (s.setHart i x).cluster n = s.cluster n := rfl
@[simp] theorem State.setHart_stk (s : State) (i : HartId) (x : Hart) (n : Nat) : (s.setHart i x).stk n = s.stk n := rfl
@[simp] theorem State.setHart_myCore (s : State) (i : HartId) (x : Hart) : (s.setHart i x).myCore = s.myCore := rfl
@[simp] theorem State.modHart_clk (s : State) (i : HartId) (f : Hart → Hart) : (s.modHart i f).clk = s.clk := rfl
@[simp] theorem State.modHart_cur (s : State) (i : HartId) (f : Hart → Hart) : (s.modHart i f).cur = s.cur := rfl
@[simp] theorem State.modHart_agenda (s : State) (i : HartId) (f : Hart → Hart) : (s.modHart i f).agenda = s.agenda := rfl
@[simp] theorem State.modHart_freeCtr (s : State) (i : HartId) (f : Hart → Hart) : (s.modHart i f).freeCtr = s.freeCtr := rfl
@[simp] theorem State.modHart_mem (s : State) (i : HartId) (f : Hart → Hart) : (s.modHart i f).mem = s.mem := rfl
@[simp] theorem State.modHart_bad (s : State) (i : HartId) (f : Hart → Hart) : (s.modHart i f).bad = s.bad := rfl
@[simp] theorem State.modHart_cores (s : State) (i : HartId) (f : Hart → Hart) : (s.modHart i f).cores = s.cores := rfl
@[simp] theorem State.modHart_vaults (s : State) (i : HartId) (f : Hart → Hart) : (s.modHart i f).vaults = s.vaults := rfl
@[simp] theorem State.modHart_clusters (s : State) (i : HartId) (f : Hart → Hart) : (s.modHart i f).clusters = s.clusters := rfl
@[simp] theorem State.modHart_stks (s : State) (i : HartId) (f : Hart → Hart) : (s.modHart i f).stks = s.stks := rfl
@[simp] theorem State.modHart_dev (s : State) (i : HartId) (f : Hart → Hart) : (s.modHart i f).dev = s.dev := rfl
@[simp] theorem State.modHart_core (s : State) (i : HartId) (f : Hart → Hart) (n : Nat) : (s.modHart i f).core n = s.core n := rfl
@[simp] theorem State.modHart_vault (s : State) (i : HartId) (f : Hart → Hart) (n : Nat) : (s.modHart i f).vault n = s.vault n := rfl
@[simp] theorem State.modHart_cluster (s : State) (i : HartId) (f : Hart → Hart) (n : Nat) : (s.modHart i f).cluster n = s.cluster n := rfl
@[simp] theorem State.modHart_stk (s : State) (i : HartId) (f : Hart → Hart) (n : Nat) : (s.modHart i f).stk n = s.stk n := rfl
@[simp] theorem State.modHart_myCore (s : State) (i : HartId) (f : Hart → Hart) : (s.modHart i f).myCore = s.myCore := rfl
@[simp] theorem State.modMe_clk (s : State) (f : Hart → Hart) : (s.modMe f).clk = s.clk := rfl
@[simp] theorem State.modMe_cur (s : State) (f : Hart → Hart) : (s.modMe f).cur = s.cur := rfl
@[simp] theorem State.modMe_agenda (s : State) (f : Hart → Hart) : (s.modMe f).agenda = s.agenda := rfl
@[simp] theorem State.modMe_freeCtr (s : State) (f : Hart → Hart) : (s.modMe f).freeCtr = s.freeCtr := rfl
@[simp] theorem State.modMe_mem (s : State) (f : Hart → Hart) : (s.modMe f).mem = s.mem := rfl
@[simp] theorem State.modMe_bad (s : State) (f : Hart → Hart) : (s.modMe f).bad = s.bad := rfl
@[simp] theorem State.modMe_cores (s : State) (f : Hart → Hart) : (s.modMe f).cores = s.cores := rfl
@[simp] theorem State.modMe_vaults (s : State) (f : Hart → Hart) : (s.modMe f).vaults = s.vaults := rfl
@[simp] theorem State.modMe_clusters (s : State) (f : Hart → Hart) : (s.modMe f).clusters = s.clusters := rfl
@[simp] theorem State.modMe_stks (s : State) (f : Hart → Hart) : (s.modMe f).stks = s.stks := rfl
@[simp] theorem State.modMe_dev (s : State) (f : Hart → Hart) : (s.modMe f).dev = s.dev := rfl
@[simp] theorem State.modMe_core (s : State) (f : Hart → Hart) (n : Nat) : (s.modMe f).core n = s.core n := rfl
@[simp] theorem State.modMe_vault (s : State) (f : Hart → Hart) (n : Nat) : (s.modMe f).vault n = s.vault n := rfl
@[simp] theorem State.modMe_cluster (s : State) (f : Hart → Hart) (n : Nat) : (s.modMe f).cluster n = s.cluster n := rfl
@[simp] theorem State.modMe_stk (s : State) (f : Hart → Hart) (n : Nat) : (s.modMe f).stk n = s.stk n := rfl
@[simp] theorem State.modMe_myCore (s : State) (f : Hart → Hart) : (s.modMe f).myCore = s.myCore := rfl
@[simp] theorem State.modCore_clk (s : State) (i : Nat) (f : Core → Core) : (s.modCore i f).clk = s.clk := rfl
@[simp] theorem State.modCore_cur (s : State) (i : Nat) (f : Core → Core) : (s.modCore i f).cur = s.cur := rfl
@[simp] theorem State.modCore_agenda (s : State) (i : Nat) (f : Core → Core) : (s.modCore i f).agenda = s.agenda := rfl
@[simp] theorem State.modCore_freeCtr (s : State) (i : Nat) (f : Core → Core) : (s.modCore i f).freeCtr = s.freeCtr := rfl
@[simp] theorem State.modCore_mem (s : State) (i : Nat) (f : Core → Core) : (s.modCore i f).mem = s.mem := rfl
@[simp] theorem State.modCore_bad (s : State) (i : Nat) (f : Core → Core) : (s.modCore i f).bad = s.bad := rfl
@[simp] theorem State.modCore_harts (s : State) (i : Nat) (f : Core → Core) : (s.modCore i f).harts = s.harts := rfl
@[simp] theorem State.modCore_vaults (s : State) (i : Nat) (f : Core → Core) : (s.modCore i f).vaults = s.vaults := rfl
@[simp] theorem State.modCore_clusters (s : State) (i : Nat) (f : Core → Core) : (s.modCore i f).clusters = s.clusters := rfl
@[simp] theorem State.modCore_stks (s : State) (i : Nat) (f : Core → Core) : (s.modCore i f).stks = s.stks := rfl
@[simp] theorem State.modCore_dev (s : State) (i : Nat) (f : Core → Core) : (s.modCore i f).dev = s.dev := rfl
@[simp] theorem State.modCore_hart (s : State) (i : Nat) (f : Core → Core) (n : HartId) : (s.modCore i f).hart n = s.hart n := rfl
@[simp] theorem State.modCore_vault (s : State) (i : Nat) (f : Core → Core) (n : Nat) : (s.modCore i f).vault n = s.vault n := rfl
@[simp] theorem State.modCore_cluster (s : State) (i : Nat) (f : Core → Core) (n : Nat) : (s.modCore i f).cluster n = s.cluster n := rfl
@[simp] theorem State.modCore_stk (s : State) (i : Nat) (f : Core → Core) (n : Nat) : (s.modCore i f).stk n = s.stk n := rfl
@[simp] theorem State.modCore_me (s : State) (i : Nat) (f : Core → Core) : (s.modCore i f).me = s.me := rfl
@[simp] theorem State.modCore_myCore (s : State) (i : Nat) (f : Core → Core) : (s.modCore i f).myCore = s.myCore := rfl
@[simp] theorem State.modVault_clk (s : State) (i : Nat) (f : Vault → Vault) : (s.modVault i f).clk = s.clk := rfl
@[simp] theorem State.modVault_cur (s : State) (i : Nat) (f : Vault → Vault) : (s.modVault i f).cur = s.cur := rfl
@[simp] theorem State.modVault_agenda (s : State) (i : Nat) (f : Vault → Vault) : (s.modVault i f).agenda = s.agenda := rfl
@[simp] theorem State.modVault_freeCtr (s : State) (i : Nat) (f : Vault → Vault) : (s.modVault i f).freeCtr = s.freeCtr := rfl
@[simp] theorem State.modVault_mem (s : State) (i : Nat) (f : Vault → Vault) : (s.modVault i f).mem = s.mem := rfl
@[simp] theorem State.modVault_bad (s : State) (i : Nat) (f : Vault → Vault) : (s.modVault i f).bad = s.bad := rfl
@[simp] theorem State.modVault_harts (s : State) (i : Nat) (f : Vault → Vault) : (s.modVault i f).harts = s.harts := rfl
@[simp] theorem State.modVault_cores (s : State) (i : Nat) (f : Vault → Vault) : (s.modVault i f).cores = s.cores := rfl
@[simp] theorem State.modVault_clusters (s : State) (i : Nat) (f : Vault → Vault) : (s.modVault i f).clusters = s.clusters := rfl
@[simp] theorem State.modVault_stks (s : State) (i : Nat) (f : Vault → Vault) : (s.modVault i f).stks = s.stks := rfl
@[simp] theorem State.modVault_dev (s : State) (i : Nat) (f : Vault → Vault) : (s.modVault i f).dev = s.dev := rfl
@[simp] theorem State.modVault_hart (s : State) (i : Nat) (f : Vault → Vault) (n : HartId) : (s.modVault i f).hart n = s.hart n := rfl
@[simp] theorem State.modVault_core (s : State) (i : Nat) (f : Vault → Vault) (n : Nat) : (s.modVault i f).core n = s.core n := rfl
@[simp] theorem State.modVault_cluster (s : State) (i : Nat) (f : Vault → Vault) (n : Nat) : (s.modVault i f).cluster n = s.cluster n := rfl
@[simp] theorem State.modVault_stk (s : State) (i : Nat) (f : Vault → Vault) (n : Nat) : (s.modVault i f).stk n = s.stk n := rfl
@[simp] theorem State.modVault_me (s : State) (i : Nat) (f : Vault → Vault) : (s.modVault i f).me = s.me := rfl
@[simp] theorem State.modVault_myCore (s : State) (i : Nat) (f : Vault → Vault) : (s.modVault i f).myCore = s.myCore := rfl
@[simp] theorem State.modCluster_clk (s : State) (i : Nat) (f : Cluster → Cluster) : (s.modCluster i f).clk = s.clk := rfl
@[simp] theorem State.modCluster_cur (s : State) (i : Nat) (f : Cluster → Cluster) : (s.modCluster i f).cur = s.cur := rfl
@[simp] theorem State.modCluster_agenda (s : State) (i : Nat) (f : Cluster → Cluster) : (s.modCluster i f).agenda = s.agenda := rfl
@[simp] theorem State.modCluster_freeCtr (s : State) (i : Nat) (f : Cluster → Cluster) : (s.modCluster i f).freeCtr = s.freeCtr := rfl
@[simp] theorem State.modCluster_mem (s : State) (i : Nat) (f : Cluster → Cluster) : (s.modCluster i f).mem = s.mem := rfl
@[simp] theorem State.modCluster_bad (s : State) (i : Nat) (f : Cluster → Cluster) : (s.modCluster i f).bad = s.bad := rfl
@[simp] theorem State.modCluster_harts (s : State) (i : Nat) (f : Cluster → Cluster) : (s.modCluster i f).harts = s.harts := rfl
@[simp] theorem State.modCluster_cores (s : State) (i : Nat) (f : Cluster → Cluster) : (s.modCluster i f).cores = s.cores := rfl
@[simp] theorem State.modCluster_vaults (s : State) (i : Nat) (f : Cluster → Cluster) : (s.modCluster i f).vaults = s.vaults := rfl
@[simp] theorem State.modCluster_stks (s : State) (i : Nat) (f : Cluster → Cluster) : (s.modCluster i f).stks = s.stks := rfl
@[simp] theorem State.modCluster_dev (s : State) (i : Nat) (f : Cluster → Cluster) : (s.modCluster i f).dev = s.dev := rfl
@[simp] theorem State.modCluster_hart (s : State) (i : Nat) (f : Cluster → Cluster) (n : HartId) : (s.modCluster i f).hart n = s.hart n := rfl
@[simp] theorem State.modCluster_core (s : State) (i : Nat) (f : Cluster → Cluster) (n : Nat) : (s.modCluster i f).core n = s.core n := rfl
@[simp] theorem State.modCluster_vault (s : State) (i : Nat) (f : Cluster → Cluster) (n : Nat) : (s.modCluster i f).vault n = s.vault n := rfl
@[simp] theorem State.modCluster_stk (s : State) (i : Nat) (f : Cluster → Cluster) (n : Nat) : (s.modCluster i f).stk n = s.stk n := rfl
@[simp] theorem State.modCluster_me (s : State) (i : Nat) (f : Cluster → Cluster) : (s.modCluster i f).me = s.me := rfl
@[simp] theorem State.modCluster_myCore (s : State) (i : Nat) (f : Cluster → Cluster) : (s.modCluster i f).myCore = s.myCore := rfl
@[simp] theorem State.modStk_clk (s : State) (i : Nat) (f : Stack → Stack) : (s.modStk i f).clk = s.clk := rfl
@[simp] theorem State.modStk_cur (s : State) (i : Nat) (f : Stack → Stack) : (s.modStk i f).cur = s.cur := rfl
@[simp] theorem State.modStk_agenda (s : State) (i : Nat) (f : Stack → Stack) : (s.modStk i f).agenda = s.agenda := rfl
@[simp] theorem State.modStk_freeCtr (s : State) (i : Nat) (f : Stack → Stack) : (s.modStk i f).freeCtr = s.freeCtr := rfl
@[simp] theorem State.modStk_mem (s : State) (i : Nat) (f : Stack → Stack) : (s.modStk i f).mem = s.mem := rfl
@[simp] theorem State.modStk_bad (s : State) (i : Nat) (f : Stack → Stack) : (s.modStk i f).bad = s.bad := rfl
@[simp] theorem State.modStk_harts (s : State) (i : Nat) (f : Stack → Stack) : (s.modStk i f).harts = s.harts := rfl
@[simp] theorem State.modStk_cores (s : State) (i : Nat) (f : Stack → Stack) : (s.modStk i f).cores = s.cores := rfl
@[simp] theorem State.modStk_vaults (s : State) (i : Nat) (f : Stack → Stack) : (s.modStk i f).vaults = s.vaults := rfl
@[simp] theorem State.modStk_clusters (s : State) (i : Nat) (f : Stack → Stack) : (s.modStk i f).clusters = s.clusters := rfl
@[simp] theorem State.modStk_dev (s : State) (i : Nat) (f : Stack → Stack) : (s.modStk i f).dev = s.dev := rfl
@[simp] theorem State.modStk_hart (s : State) (i : Nat) (f : Stack → Stack) (n : HartId) : (s.modStk i f).hart n = s.hart n := rfl
@[simp] theorem State.modStk_core (s : State) (i : Nat) (f : Stack → Stack) (n : Nat) : (s.modStk i f).core n = s.core n := rfl
@[simp] theorem State.modStk_vault (s : State) (i : Nat) (f : Stack → Stack) (n : Nat) : (s.modStk i f).vault n = s.vault n := rfl
@[simp] theorem State.modStk_cluster (s : State) (i : Nat) (f : Stack → Stack) (n : Nat) : (s.modStk i f).cluster n = s.cluster n := rfl
@[simp] theorem State.modStk_me (s : State) (i : Nat) (f : Stack → Stack) : (s.modStk i f).me = s.me := rfl
@[simp] theorem State.modStk_myCore (s : State) (i : Nat) (f : Stack → Stack) : (s.modStk i f).myCore = s.myCore := rfl
@[simp] theorem State.modDev_clk (s : State) (f : Device → Device) : (s.modDev f).clk = s.clk := rfl
@[simp] theorem State.modDev_cur (s : State) (f : Device → Device) : (s.modDev f).cur = s.cur := rfl
@[simp] theorem State.modDev_agenda (s : State) (f : Device → Device) : (s.modDev f).agenda = s.agenda := rfl
@[simp] theorem State.modDev_freeCtr (s : State) (f : Device → Device) : (s.modDev f).freeCtr = s.freeCtr := rfl
@[simp] theorem State.modDev_mem (s : State) (f : Device → Device) : (s.modDev f).mem = s.mem := rfl
@[simp] theorem State.modDev_bad (s : State) (f : Device → Device) : (s.modDev f).bad = s.bad := rfl
@[simp] theorem State.modDev_harts (s : State) (f : Device → Device) : (s.modDev f).harts = s.harts := rfl
@[simp] theorem State.modDev_cores (s : State) (f : Device → Device) : (s.modDev f).cores = s.cores := rfl
@[simp] theorem State.modDev_vaults (s : State) (f : Device → Device) : (s.modDev f).vaults = s.vaults := rfl
@[simp] theorem State.modDev_clusters (s : State) (f : Device → Device) : (s.modDev f).clusters = s.clusters := rfl
@[simp] theorem State.modDev_stks (s : State) (f : Device → Device) : (s.modDev f).stks = s.stks := rfl
@[simp] theorem State.modDev_hart (s : State) (f : Device → Device) (n : HartId) : (s.modDev f).hart n = s.hart n := rfl
@[simp] theorem State.modDev_core (s : State) (f : Device → Device) (n : Nat) : (s.modDev f).core n = s.core n := rfl
@[simp] theorem State.modDev_vault (s : State) (f : Device → Device) (n : Nat) : (s.modDev f).vault n = s.vault n := rfl
@[simp] theorem State.modDev_cluster (s : State) (f : Device → Device) (n : Nat) : (s.modDev f).cluster n = s.cluster n := rfl
@[simp] theorem State.modDev_stk (s : State) (f : Device → Device) (n : Nat) : (s.modDev f).stk n = s.stk n := rfl
@[simp] theorem State.modDev_me (s : State) (f : Device → Device) : (s.modDev f).me = s.me := rfl
@[simp] theorem State.modDev_myCore (s : State) (f : Device → Device) : (s.modDev f).myCore = s.myCore := rfl
@[simp] theorem State.writeMem_clk (s : State) (i : Nat) (b : List Byte) : (s.writeMem i b).clk = s.clk := rfl
@[simp] theorem State.writeMem_cur (s : State) (i : Nat) (b : List Byte) : (s.writeMem i b).cur = s.cur := rfl
@[simp] theorem State.writeMem_agenda (s : State) (i : Nat) (b : List Byte) : (s.writeMem i b).agenda = s.agenda := rfl
@[simp] theorem State.writeMem_freeCtr (s : State) (i : Nat) (b : List Byte) : (s.writeMem i b).freeCtr = s.freeCtr := rfl
@[simp] theorem State.writeMem_harts (s : State) (i : Nat) (b : List Byte) : (s.writeMem i b).harts = s.harts := rfl
@[simp] theorem State.writeMem_cores (s : State) (i : Nat) (b : List Byte) : (s.writeMem i b).cores = s.cores := rfl
@[simp] theorem State.writeMem_vaults (s : State) (i : Nat) (b : List Byte) : (s.writeMem i b).vaults = s.vaults := rfl
@[simp] theorem State.writeMem_clusters (s : State) (i : Nat) (b : List Byte) : (s.writeMem i b).clusters = s.clusters := rfl
@[simp] theorem State.writeMem_stks (s : State) (i : Nat) (b : List Byte) : (s.writeMem i b).stks = s.stks := rfl
@[simp] theorem State.writeMem_dev (s : State) (i : Nat) (b : List Byte) : (s.writeMem i b).dev = s.dev := rfl
@[simp] theorem State.writeMem_hart (s : State) (i : Nat) (b : List Byte) (n : HartId) : (s.writeMem i b).hart n = s.hart n := rfl
@[simp] theorem State.writeMem_core (s : State) (i : Nat) (b : List Byte) (n : Nat) : (s.writeMem i b).core n = s.core n := rfl
@[simp] theorem State.writeMem_vault (s : State) (i : Nat) (b : List Byte) (n : Nat) : (s.writeMem i b).vault n = s.vault n := rfl
@[simp] theorem State.writeMem_cluster (s : State) (i : Nat) (b : List Byte) (n : Nat) : (s.writeMem i b).cluster n = s.cluster n := rfl
@[simp] theorem State.writeMem_stk (s : State) (i : Nat) (b : List Byte) (n : Nat) : (s.writeMem i b).stk n = s.stk n := rfl
@[simp] theorem State.writeMem_me (s : State) (i : Nat) (b : List Byte) : (s.writeMem i b).me = s.me := rfl
@[simp] theorem State.writeMem_myCore (s : State) (i : Nat) (b : List Byte) : (s.writeMem i b).myCore = s.myCore := rfl

@[simp] theorem State.modDev_dev (s : State) (f : Device → Device) : (s.modDev f).dev = f s.dev := rfl
@[simp] theorem State.writeMem_mem (s : State) (i : Nat) (b : List Byte) : (s.writeMem i b).mem = s.mem.write (homePa i) b := rfl

@[simp] theorem State.setHart_hart_same (s : State) (i : HartId) (x : Hart) : (s.setHart i x).hart i = x := by
  simp [State.setHart, State.hart]

@[simp] theorem State.modHart_hart_same (s : State) (i : HartId) (f : Hart → Hart) : (s.modHart i f).hart i = f (s.hart i) := by
  simp [State.modHart]

@[simp] theorem State.modMe_me (s : State) (f : Hart → Hart) : (s.modMe f).me = f s.me := by
  simp [State.modMe, State.me]

theorem State.setHart_hart_other (s : State) (i j : HartId) (x : Hart) (h : i ≠ j) : (s.setHart i x).hart j = s.hart j := by
  simp [State.setHart, State.hart, Table.get_set_other, h]

theorem State.modHart_hart_other (s : State) (i j : HartId) (f : Hart → Hart) (h : i ≠ j) : (s.modHart i f).hart j = s.hart j :=
  State.setHart_hart_other s i j _ h

theorem State.modMe_hart_other (s : State) (j : HartId) (f : Hart → Hart) (h : s.cur ≠ j) : (s.modMe f).hart j = s.hart j :=
  State.setHart_hart_other s s.cur j _ h

@[simp] theorem State.modCore_core_same (s : State) (i : Nat) (f : Core → Core) : (s.modCore i f).core i = f (s.core i) := by
  simp [State.modCore, State.core]

theorem State.modCore_core_other (s : State) (i j : Nat) (f : Core → Core) (h : i ≠ j) : (s.modCore i f).core j = s.core j := by
  simp [State.modCore, State.core, Table.get_set_other, h]

@[simp] theorem State.modVault_vault_same (s : State) (i : Nat) (f : Vault → Vault) : (s.modVault i f).vault i = f (s.vault i) := by
  simp [State.modVault, State.vault]

theorem State.modVault_vault_other (s : State) (i j : Nat) (f : Vault → Vault) (h : i ≠ j) : (s.modVault i f).vault j = s.vault j := by
  simp [State.modVault, State.vault, Table.get_set_other, h]

@[simp] theorem State.modCluster_cluster_same (s : State) (i : Nat) (f : Cluster → Cluster) : (s.modCluster i f).cluster i = f (s.cluster i) := by
  simp [State.modCluster, State.cluster]

theorem State.modCluster_cluster_other (s : State) (i j : Nat) (f : Cluster → Cluster) (h : i ≠ j) : (s.modCluster i f).cluster j = s.cluster j := by
  simp [State.modCluster, State.cluster, Table.get_set_other, h]

@[simp] theorem State.modStk_stk_same (s : State) (i : Nat) (f : Stack → Stack) : (s.modStk i f).stk i = f (s.stk i) := by
  simp [State.modStk, State.stk]

theorem State.modStk_stk_other (s : State) (i j : Nat) (f : Stack → Stack) (h : i ≠ j) : (s.modStk i f).stk j = s.stk j := by
  simp [State.modStk, State.stk, Table.get_set_other, h]

/-! ### A hart -/

@[simp] theorem Hart.wx_v (h : Hart) (r : Reg) (w : Word) : (h.wx r w).v = h.v := by
  unfold Hart.wx; split <;> rfl
@[simp] theorem Hart.wx_vSt (h : Hart) (r : Reg) (w : Word) : (h.wx r w).vSt = h.vSt := by
  unfold Hart.wx; split <;> rfl
@[simp] theorem Hart.wx_pc (h : Hart) (r : Reg) (w : Word) : (h.wx r w).pc = h.pc := by
  unfold Hart.wx; split <;> rfl
@[simp] theorem Hart.wx_csr (h : Hart) (r : Reg) (w : Word) : (h.wx r w).csr = h.csr := by
  unfold Hart.wx; split <;> rfl
@[simp] theorem Hart.wx_loops (h : Hart) (r : Reg) (w : Word) : (h.wx r w).loops = h.loops := by
  unfold Hart.wx; split <;> rfl
@[simp] theorem Hart.wx_st (h : Hart) (r : Reg) (w : Word) : (h.wx r w).st = h.st := by
  unfold Hart.wx; split <;> rfl
@[simp] theorem Hart.wx_wait (h : Hart) (r : Reg) (w : Word) : (h.wx r w).wait = h.wait := by
  unfold Hart.wx; split <;> rfl
@[simp] theorem Hart.wx_safe (h : Hart) (r : Reg) (w : Word) : (h.wx r w).safe = h.safe := by
  unfold Hart.wx; split <;> rfl
@[simp] theorem Hart.wx_epoch (h : Hart) (r : Reg) (w : Word) : (h.wx r w).epoch = h.epoch := by
  unfold Hart.wx; split <;> rfl
@[simp] theorem Hart.wx_lease (h : Hart) (r : Reg) (w : Word) : (h.wx r w).lease = h.lease := by
  unfold Hart.wx; split <;> rfl
@[simp] theorem Hart.wx_lock (h : Hart) (r : Reg) (w : Word) : (h.wx r w).lock = h.lock := by
  unfold Hart.wx; split <;> rfl
@[simp] theorem Hart.wx_pauseTo (h : Hart) (r : Reg) (w : Word) : (h.wx r w).pauseTo = h.pauseTo := by
  unfold Hart.wx; split <;> rfl
@[simp] theorem Hart.wx_reqClk (h : Hart) (r : Reg) (w : Word) : (h.wx r w).reqClk = h.reqClk := by
  unfold Hart.wx; split <;> rfl
@[simp] theorem Hart.wx_late (h : Hart) (r : Reg) (w : Word) : (h.wx r w).late = h.late := by
  unfold Hart.wx; split <;> rfl
@[simp] theorem Hart.wx_fetched (h : Hart) (r : Reg) (w : Word) : (h.wx r w).fetched = h.fetched := by
  unfold Hart.wx; split <;> rfl
@[simp] theorem Hart.wx_busy (h : Hart) (r : Reg) (w : Word) : (h.wx r w).busy = h.busy := by
  unfold Hart.wx; split <;> rfl
@[simp] theorem Hart.wx_ctx (h : Hart) (r : Reg) (w : Word) : (h.wx r w).ctx = h.ctx := by
  unfold Hart.wx; split <;> rfl
@[simp] theorem Hart.wx_unit (h : Hart) (r : Reg) (w : Word) : (h.wx r w).unit = h.unit := by
  unfold Hart.wx; split <;> rfl
@[simp] theorem Hart.markX_x (h : Hart) (r : Reg) (q : RegSt) : (h.markX r q).x = h.x := by
  unfold Hart.markX; split <;> rfl
@[simp] theorem Hart.markX_v (h : Hart) (r : Reg) (q : RegSt) : (h.markX r q).v = h.v := by
  unfold Hart.markX; split <;> rfl
@[simp] theorem Hart.markX_vSt (h : Hart) (r : Reg) (q : RegSt) : (h.markX r q).vSt = h.vSt := by
  unfold Hart.markX; split <;> rfl
@[simp] theorem Hart.markX_pc (h : Hart) (r : Reg) (q : RegSt) : (h.markX r q).pc = h.pc := by
  unfold Hart.markX; split <;> rfl
@[simp] theorem Hart.markX_csr (h : Hart) (r : Reg) (q : RegSt) : (h.markX r q).csr = h.csr := by
  unfold Hart.markX; split <;> rfl
@[simp] theorem Hart.markX_loops (h : Hart) (r : Reg) (q : RegSt) : (h.markX r q).loops = h.loops := by
  unfold Hart.markX; split <;> rfl
@[simp] theorem Hart.markX_st (h : Hart) (r : Reg) (q : RegSt) : (h.markX r q).st = h.st := by
  unfold Hart.markX; split <;> rfl
@[simp] theorem Hart.markX_wait (h : Hart) (r : Reg) (q : RegSt) : (h.markX r q).wait = h.wait := by
  unfold Hart.markX; split <;> rfl
@[simp] theorem Hart.markX_safe (h : Hart) (r : Reg) (q : RegSt) : (h.markX r q).safe = h.safe := by
  unfold Hart.markX; split <;> rfl
@[simp] theorem Hart.markX_epoch (h : Hart) (r : Reg) (q : RegSt) : (h.markX r q).epoch = h.epoch := by
  unfold Hart.markX; split <;> rfl
@[simp] theorem Hart.markX_lease (h : Hart) (r : Reg) (q : RegSt) : (h.markX r q).lease = h.lease := by
  unfold Hart.markX; split <;> rfl
@[simp] theorem Hart.markX_lock (h : Hart) (r : Reg) (q : RegSt) : (h.markX r q).lock = h.lock := by
  unfold Hart.markX; split <;> rfl
@[simp] theorem Hart.markX_pauseTo (h : Hart) (r : Reg) (q : RegSt) : (h.markX r q).pauseTo = h.pauseTo := by
  unfold Hart.markX; split <;> rfl
@[simp] theorem Hart.markX_reqClk (h : Hart) (r : Reg) (q : RegSt) : (h.markX r q).reqClk = h.reqClk := by
  unfold Hart.markX; split <;> rfl
@[simp] theorem Hart.markX_late (h : Hart) (r : Reg) (q : RegSt) : (h.markX r q).late = h.late := by
  unfold Hart.markX; split <;> rfl
@[simp] theorem Hart.markX_fetched (h : Hart) (r : Reg) (q : RegSt) : (h.markX r q).fetched = h.fetched := by
  unfold Hart.markX; split <;> rfl
@[simp] theorem Hart.markX_busy (h : Hart) (r : Reg) (q : RegSt) : (h.markX r q).busy = h.busy := by
  unfold Hart.markX; split <;> rfl
@[simp] theorem Hart.markX_ctx (h : Hart) (r : Reg) (q : RegSt) : (h.markX r q).ctx = h.ctx := by
  unfold Hart.markX; split <;> rfl
@[simp] theorem Hart.markX_unit (h : Hart) (r : Reg) (q : RegSt) : (h.markX r q).unit = h.unit := by
  unfold Hart.markX; split <;> rfl
@[simp] theorem Hart.wv_x (h : Hart) (r : Reg) (w : BitVec 256) : (h.wv r w).x = h.x := rfl
@[simp] theorem Hart.wv_xSt (h : Hart) (r : Reg) (w : BitVec 256) : (h.wv r w).xSt = h.xSt := rfl
@[simp] theorem Hart.wv_pc (h : Hart) (r : Reg) (w : BitVec 256) : (h.wv r w).pc = h.pc := rfl
@[simp] theorem Hart.wv_csr (h : Hart) (r : Reg) (w : BitVec 256) : (h.wv r w).csr = h.csr := rfl
@[simp] theorem Hart.wv_loops (h : Hart) (r : Reg) (w : BitVec 256) : (h.wv r w).loops = h.loops := rfl
@[simp] theorem Hart.wv_st (h : Hart) (r : Reg) (w : BitVec 256) : (h.wv r w).st = h.st := rfl
@[simp] theorem Hart.wv_wait (h : Hart) (r : Reg) (w : BitVec 256) : (h.wv r w).wait = h.wait := rfl
@[simp] theorem Hart.wv_safe (h : Hart) (r : Reg) (w : BitVec 256) : (h.wv r w).safe = h.safe := rfl
@[simp] theorem Hart.wv_epoch (h : Hart) (r : Reg) (w : BitVec 256) : (h.wv r w).epoch = h.epoch := rfl
@[simp] theorem Hart.wv_lease (h : Hart) (r : Reg) (w : BitVec 256) : (h.wv r w).lease = h.lease := rfl
@[simp] theorem Hart.wv_lock (h : Hart) (r : Reg) (w : BitVec 256) : (h.wv r w).lock = h.lock := rfl
@[simp] theorem Hart.wv_pauseTo (h : Hart) (r : Reg) (w : BitVec 256) : (h.wv r w).pauseTo = h.pauseTo := rfl
@[simp] theorem Hart.wv_reqClk (h : Hart) (r : Reg) (w : BitVec 256) : (h.wv r w).reqClk = h.reqClk := rfl
@[simp] theorem Hart.wv_late (h : Hart) (r : Reg) (w : BitVec 256) : (h.wv r w).late = h.late := rfl
@[simp] theorem Hart.wv_fetched (h : Hart) (r : Reg) (w : BitVec 256) : (h.wv r w).fetched = h.fetched := rfl
@[simp] theorem Hart.wv_busy (h : Hart) (r : Reg) (w : BitVec 256) : (h.wv r w).busy = h.busy := rfl
@[simp] theorem Hart.wv_ctx (h : Hart) (r : Reg) (w : BitVec 256) : (h.wv r w).ctx = h.ctx := rfl
@[simp] theorem Hart.wv_unit (h : Hart) (r : Reg) (w : BitVec 256) : (h.wv r w).unit = h.unit := rfl
@[simp] theorem Hart.modBusy_x (h : Hart) (f : HartBusy → HartBusy) : (h.modBusy f).x = h.x := rfl
@[simp] theorem Hart.modBusy_xSt (h : Hart) (f : HartBusy → HartBusy) : (h.modBusy f).xSt = h.xSt := rfl
@[simp] theorem Hart.modBusy_v (h : Hart) (f : HartBusy → HartBusy) : (h.modBusy f).v = h.v := rfl
@[simp] theorem Hart.modBusy_vSt (h : Hart) (f : HartBusy → HartBusy) : (h.modBusy f).vSt = h.vSt := rfl
@[simp] theorem Hart.modBusy_pc (h : Hart) (f : HartBusy → HartBusy) : (h.modBusy f).pc = h.pc := rfl
@[simp] theorem Hart.modBusy_csr (h : Hart) (f : HartBusy → HartBusy) : (h.modBusy f).csr = h.csr := rfl
@[simp] theorem Hart.modBusy_loops (h : Hart) (f : HartBusy → HartBusy) : (h.modBusy f).loops = h.loops := rfl
@[simp] theorem Hart.modBusy_st (h : Hart) (f : HartBusy → HartBusy) : (h.modBusy f).st = h.st := rfl
@[simp] theorem Hart.modBusy_wait (h : Hart) (f : HartBusy → HartBusy) : (h.modBusy f).wait = h.wait := rfl
@[simp] theorem Hart.modBusy_safe (h : Hart) (f : HartBusy → HartBusy) : (h.modBusy f).safe = h.safe := rfl
@[simp] theorem Hart.modBusy_epoch (h : Hart) (f : HartBusy → HartBusy) : (h.modBusy f).epoch = h.epoch := rfl
@[simp] theorem Hart.modBusy_lease (h : Hart) (f : HartBusy → HartBusy) : (h.modBusy f).lease = h.lease := rfl
@[simp] theorem Hart.modBusy_lock (h : Hart) (f : HartBusy → HartBusy) : (h.modBusy f).lock = h.lock := rfl
@[simp] theorem Hart.modBusy_pauseTo (h : Hart) (f : HartBusy → HartBusy) : (h.modBusy f).pauseTo = h.pauseTo := rfl
@[simp] theorem Hart.modBusy_reqClk (h : Hart) (f : HartBusy → HartBusy) : (h.modBusy f).reqClk = h.reqClk := rfl
@[simp] theorem Hart.modBusy_late (h : Hart) (f : HartBusy → HartBusy) : (h.modBusy f).late = h.late := rfl
@[simp] theorem Hart.modBusy_fetched (h : Hart) (f : HartBusy → HartBusy) : (h.modBusy f).fetched = h.fetched := rfl
@[simp] theorem Hart.modBusy_ctx (h : Hart) (f : HartBusy → HartBusy) : (h.modBusy f).ctx = h.ctx := rfl
@[simp] theorem Hart.modBusy_unit (h : Hart) (f : HartBusy → HartBusy) : (h.modBusy f).unit = h.unit := rfl
@[simp] theorem Hart.modCsr_x (h : Hart) (f : HartCsrs → HartCsrs) : (h.modCsr f).x = h.x := rfl
@[simp] theorem Hart.modCsr_xSt (h : Hart) (f : HartCsrs → HartCsrs) : (h.modCsr f).xSt = h.xSt := rfl
@[simp] theorem Hart.modCsr_v (h : Hart) (f : HartCsrs → HartCsrs) : (h.modCsr f).v = h.v := rfl
@[simp] theorem Hart.modCsr_vSt (h : Hart) (f : HartCsrs → HartCsrs) : (h.modCsr f).vSt = h.vSt := rfl
@[simp] theorem Hart.modCsr_pc (h : Hart) (f : HartCsrs → HartCsrs) : (h.modCsr f).pc = h.pc := rfl
@[simp] theorem Hart.modCsr_loops (h : Hart) (f : HartCsrs → HartCsrs) : (h.modCsr f).loops = h.loops := rfl
@[simp] theorem Hart.modCsr_st (h : Hart) (f : HartCsrs → HartCsrs) : (h.modCsr f).st = h.st := rfl
@[simp] theorem Hart.modCsr_wait (h : Hart) (f : HartCsrs → HartCsrs) : (h.modCsr f).wait = h.wait := rfl
@[simp] theorem Hart.modCsr_safe (h : Hart) (f : HartCsrs → HartCsrs) : (h.modCsr f).safe = h.safe := rfl
@[simp] theorem Hart.modCsr_epoch (h : Hart) (f : HartCsrs → HartCsrs) : (h.modCsr f).epoch = h.epoch := rfl
@[simp] theorem Hart.modCsr_lease (h : Hart) (f : HartCsrs → HartCsrs) : (h.modCsr f).lease = h.lease := rfl
@[simp] theorem Hart.modCsr_lock (h : Hart) (f : HartCsrs → HartCsrs) : (h.modCsr f).lock = h.lock := rfl
@[simp] theorem Hart.modCsr_pauseTo (h : Hart) (f : HartCsrs → HartCsrs) : (h.modCsr f).pauseTo = h.pauseTo := rfl
@[simp] theorem Hart.modCsr_reqClk (h : Hart) (f : HartCsrs → HartCsrs) : (h.modCsr f).reqClk = h.reqClk := rfl
@[simp] theorem Hart.modCsr_late (h : Hart) (f : HartCsrs → HartCsrs) : (h.modCsr f).late = h.late := rfl
@[simp] theorem Hart.modCsr_fetched (h : Hart) (f : HartCsrs → HartCsrs) : (h.modCsr f).fetched = h.fetched := rfl
@[simp] theorem Hart.modCsr_busy (h : Hart) (f : HartCsrs → HartCsrs) : (h.modCsr f).busy = h.busy := rfl
@[simp] theorem Hart.modCsr_ctx (h : Hart) (f : HartCsrs → HartCsrs) : (h.modCsr f).ctx = h.ctx := rfl
@[simp] theorem Hart.modCsr_unit (h : Hart) (f : HartCsrs → HartCsrs) : (h.modCsr f).unit = h.unit := rfl
@[simp] theorem Hart.modBusy_busy (h : Hart) (f : HartBusy → HartBusy) : (h.modBusy f).busy = f h.busy := rfl
@[simp] theorem Hart.modCsr_csr (h : Hart) (f : HartCsrs → HartCsrs) : (h.modCsr f).csr = f h.csr := rfl
@[simp] theorem Hart.wx_zero (h : Hart) (w : Word) : h.wx 0#5 w = h := rfl
@[simp] theorem Hart.rx_zero (h : Hart) : h.rx 0#5 = 0#64 := rfl

theorem Hart.rx_wx_same (h : Hart) (r : Reg) (w : Word) (hr : r ≠ 0) : (h.wx r w).rx r = w := by
  unfold Hart.wx Hart.rx
  rw [if_neg hr, if_neg hr, Table.get_set_same]

theorem Hart.rx_wx_other (h : Hart) (r q : Reg) (w : Word) (hq : r ≠ q) : (h.wx r w).rx q = h.rx q := by
  unfold Hart.wx Hart.rx
  by_cases h0 : r = 0
  · rw [if_pos h0]
  · rw [if_neg h0, Table.get_set_other _ _ _ _ _ hq]

@[simp] theorem Hart.rv_wv_same (h : Hart) (r : Reg) (w : BitVec 256) : (h.wv r w).rv r = w := by simp [Hart.wv, Hart.rv]

theorem Hart.rv_wv_other (h : Hart) (r q : Reg) (w : BitVec 256) (hq : r ≠ q) : (h.wv r w).rv q = h.rv q := by
  simp [Hart.wv, Hart.rv, Table.get_set_other, hq]

/-! ### A core -/

@[simp] theorem Core.ww_long (c : Core) (r : Reg) (w : BitVec 16384) : (c.ww r w).long = c.long := rfl
@[simp] theorem Core.ww_tlb (c : Core) (r : Reg) (w : BitVec 16384) : (c.ww r w).tlb = c.tlb := rfl
@[simp] theorem Core.ww_agentTlb (c : Core) (r : Reg) (w : BitVec 16384) : (c.ww r w).agentTlb = c.agentTlb := rfl
@[simp] theorem Core.ww_tmpl (c : Core) (r : Reg) (w : BitVec 16384) : (c.ww r w).tmpl = c.tmpl := rfl
@[simp] theorem Core.ww_mbx (c : Core) (r : Reg) (w : BitVec 16384) : (c.ww r w).mbx = c.mbx := rfl
@[simp] theorem Core.ww_watches (c : Core) (r : Reg) (w : BitVec 16384) : (c.ww r w).watches = c.watches := rfl
@[simp] theorem Core.ww_ht (c : Core) (r : Reg) (w : BitVec 16384) : (c.ww r w).ht = c.ht := rfl
@[simp] theorem Core.ww_htbase (c : Core) (r : Reg) (w : BitVec 16384) : (c.ww r w).htbase = c.htbase := rfl
@[simp] theorem Core.ww_htgen (c : Core) (r : Reg) (w : BitVec 16384) : (c.ww r w).htgen = c.htgen := rfl
@[simp] theorem Core.ww_spillBase (c : Core) (r : Reg) (w : BitVec 16384) : (c.ww r w).spillBase = c.spillBase := rfl
@[simp] theorem Core.ww_spillQuota (c : Core) (r : Reg) (w : BitVec 16384) : (c.ww r w).spillQuota = c.spillQuota := rfl
@[simp] theorem Core.ww_spillNext (c : Core) (r : Reg) (w : BitVec 16384) : (c.ww r w).spillNext = c.spillNext := rfl
@[simp] theorem Core.ww_travMax (c : Core) (r : Reg) (w : BitVec 16384) : (c.ww r w).travMax = c.travMax := rfl
@[simp] theorem Core.ww_inflight (c : Core) (r : Reg) (w : BitVec 16384) : (c.ww r w).inflight = c.inflight := rfl
@[simp] theorem Core.ww_hfault (c : Core) (r : Reg) (w : BitVec 16384) : (c.ww r w).hfault = c.hfault := rfl
@[simp] theorem Core.ww_hwm (c : Core) (r : Reg) (w : BitVec 16384) : (c.ww r w).hwm = c.hwm := rfl
@[simp] theorem Core.ww_breach (c : Core) (r : Reg) (w : BitVec 16384) : (c.ww r w).breach = c.breach := rfl
@[simp] theorem Core.ww_breachEp (c : Core) (r : Reg) (w : BitVec 16384) : (c.ww r w).breachEp = c.breachEp := rfl
@[simp] theorem Core.ww_rhead (c : Core) (r : Reg) (w : BitVec 16384) : (c.ww r w).rhead = c.rhead := rfl
@[simp] theorem Core.ww_ondie (c : Core) (r : Reg) (w : BitVec 16384) : (c.ww r w).ondie = c.ondie := rfl
@[simp] theorem Core.ww_ring (c : Core) (r : Reg) (w : BitVec 16384) : (c.ww r w).ring = c.ring := rfl
@[simp] theorem Core.ww_tapes (c : Core) (r : Reg) (w : BitVec 16384) : (c.ww r w).tapes = c.tapes := rfl
@[simp] theorem Core.ww_order (c : Core) (r : Reg) (w : BitVec 16384) : (c.ww r w).order = c.order := rfl
@[simp] theorem Core.ww_retired (c : Core) (r : Reg) (w : BitVec 16384) : (c.ww r w).retired = c.retired := rfl
@[simp] theorem Core.ww_reserved (c : Core) (r : Reg) (w : BitVec 16384) : (c.ww r w).reserved = c.reserved := rfl
@[simp] theorem Core.ww_cycOff (c : Core) (r : Reg) (w : BitVec 16384) : (c.ww r w).cycOff = c.cycOff := rfl
@[simp] theorem Core.rw_ww_same (c : Core) (r : Reg) (w : BitVec 16384) : (c.ww r w).rw r = w := by simp [Core.ww, Core.rw]

end Machine

end Sys2Proof
end

