-- ==== Sys2Proof/Laws/Issue.lean ====
section
/-! SUPPORT. Sys2Proof/Laws/Issue.lean: what the gate of every instruction does (R222, R184): it passes where the registers are clear;
and everything that it can do otherwise. -/

namespace Sys2Proof.Machine

theorem gate1_source (s : State) (e : Bool) (r : RegRef) (h : s.regSt r = .full ∧ s.loading r = false) :
    s.gate1 e true r = .go := by
  simp [State.gate1, h.1, h.2]

theorem gate1_destination (s : State) (e : Bool) (r : RegRef)
    (h : (s.regSt r = .void ∨ s.regSt r = .full) ∧ s.loading r = false) : s.gate1 e false r = .go := by
  rcases h.1 with g | g <;> simp [State.gate1, g, h.2]

theorem gateAll_go (s : State) (e src : Bool) (rs : List RegRef) (h : ∀ r ∈ rs, s.gate1 e src r = .go) :
    s.gateAll e src rs = .go := by
  induction rs with
  | nil => rfl
  | cons r t ih =>
    simp only [State.gateAll, h r (by simp)]
    exact ih (fun q hq => h q (by simp [hq]))

theorem gate_clear (s : State) (hd : Head) (srcs dsts : List RegRef) (h : s.clear hd srcs dsts) : s.gate hd srcs dsts = .go := by
  obtain ⟨_, hs, hD⟩ := h
  simp only [State.gate, gateAll_go s hd.e true srcs (fun r hr => gate1_source s hd.e r (hs r hr))]
  exact gateAll_go s hd.e false dsts (fun r hr => gate1_destination s hd.e r (hD r hr))

/-- Past its level, its class and its registers an instruction has its effect. -/
theorem issueOwn_clear (ik : Code) (hd : Head) (level : Nat) (legal : Bool) (own : Option (BitVec 8)) (srcs dsts : List RegRef)
    (k : State → State) (s : State) (hp : level ≤ s.me.priv) (hl : legal = true) (ho : own = none) (h : s.clear hd srcs dsts) :
    issueOwn ik hd level legal own srcs dsts k s = k s := by
  unfold issueOwn
  rw [if_neg (Nat.not_lt.mpr hp), hl, if_neg (by simp), if_neg (by rw [h.1]; simp), ho]
  simp only [gate_clear s hd srcs dsts h]

theorem issue_clear (ik : Code) (hd : Head) (level : Nat) (legal : Bool) (srcs dsts : List RegRef) (k : State → State) (s : State)
    (hp : level ≤ s.me.priv) (hl : legal = true) (h : s.clear hd srcs dsts) : issue ik hd level legal srcs dsts k s = k s :=
  issueOwn_clear ik hd level legal none srcs dsts k s hp hl rfl h

/-- Everything that the gate can do: a trap of cause 0x03, 0x01, 0x02, of the class or of an empty register; a wait; or the effect. -/
theorem issueOwn_cases (ik : Code) (hd : Head) (level : Nat) (legal : Bool) (own : Option (BitVec 8)) (srcs dsts : List RegRef)
    (k : State → State) (s : State) :
    (s.me.priv < level ∧ issueOwn ik hd level legal own srcs dsts k s = trapInstr 0x03 ik s) ∨
    (level ≤ s.me.priv ∧ legal = false ∧ issueOwn ik hd level legal own srcs dsts k s = trapInstr 0x01 ik s) ∨
    (issueOwn ik hd level legal own srcs dsts k s = trapInstr 0x02 ik s) ∨
    (∃ c, own = some c ∧ issueOwn ik hd level legal own srcs dsts k s = trapInstr c ik s) ∨
    (∃ v, s.gate hd srcs dsts = .empty v ∧ issueOwn ik hd level legal own srcs dsts k s = trapVal 0x08 v s) ∨
    (∃ t, s.gate hd srcs dsts = .wait t ∧ issueOwn ik hd level legal own srcs dsts k s = stallAt hd .stall t s) ∨
    (s.gate hd srcs dsts = .go ∧ issueOwn ik hd level legal own srcs dsts k s = k s) := by
  by_cases hp : s.me.priv < level
  · exact .inl ⟨hp, by simp [issueOwn, hp]⟩
  · by_cases hl : legal = false
    · exact .inr (.inl ⟨Nat.le_of_not_lt hp, hl, by simp [issueOwn, hp, hl]⟩)
    · simp only [Bool.not_eq_false] at hl
      by_cases hm : (hd.s && hd.mask.getLsbD 27) = true
      · exact .inr (.inr (.inl (by unfold issueOwn; rw [if_neg hp, hl, if_neg (by simp), if_pos hm])))
      · unfold issueOwn
        rw [if_neg hp, hl, if_neg (by simp), if_neg hm]
        cases own with
        | some c => exact .inr (.inr (.inr (.inl ⟨c, rfl, rfl⟩)))
        | none =>
          cases s.gate hd srcs dsts with
          | empty v => exact .inr (.inr (.inr (.inr (.inl ⟨v, rfl, rfl⟩))))
          | wait t => exact .inr (.inr (.inr (.inr (.inr (.inl ⟨t, rfl, rfl⟩)))))
          | go => exact .inr (.inr (.inr (.inr (.inr (.inr ⟨rfl, rfl⟩)))))

end Sys2Proof.Machine
end

