-- ==== Sys2Proof/Laws/Memory.lean ====
section
/-! SUPPORT. Sys2Proof/Laws/Memory.lean: the canonical form of memory, which every operation on it keeps, and what a read gives after a write
(R132). -/

namespace Sys2Proof.Machine

/-- The canonical form, without recursion: addresses strictly rising and no zero byte. -/
theorem wf_iff (m : Memory) : m.wf = true ↔ m.Pairwise (fun a b => a.1 < b.1) ∧ ∀ c ∈ m, c.2 ≠ 0 := by
  induction m with
  | nil => simp [Memory.wf]
  | cons c r ih =>
    obtain ⟨a, b⟩ := c
    cases r with
    | nil => simp [Memory.wf]
    | cons d t =>
      obtain ⟨x, y⟩ := d
      simp only [Memory.wf, Bool.and_eq_true, bne_iff_ne, ne_eq, decide_eq_true_eq] at ih ⊢
      rw [ih, List.pairwise_cons (a := (a, b)), List.forall_mem_cons (a := (a, b))]
      constructor
      · rintro ⟨⟨hb, hx⟩, hp, hn⟩
        refine ⟨⟨?_, hp⟩, hb, hn⟩
        intro e he
        rcases List.mem_cons.mp he with rfl | he
        · exact hx
        · exact Nat.lt_trans hx ((List.pairwise_cons.mp hp).1 e he)
      · rintro ⟨⟨hx, hp⟩, hb, hn⟩
        exact ⟨⟨hb, hx (x, y) (by simp)⟩, hp, hn⟩

/-- Memory with some entries left out keeps its form. -/
theorem wf_filter (m : Memory) (p : Host.Cell → Bool) (h : m.wf = true) : Memory.wf (m.filter p) = true := by
  rw [wf_iff] at h ⊢
  exact ⟨h.1.filter p, fun c hc => h.2 c (List.mem_filter.mp hc).1⟩

/-- The entries of a run of bytes lie in it and are not zero. -/
theorem mem_cells (bs : List Byte) (a : Nat) (c : Host.Cell) (h : c ∈ Memory.cells a bs) : a ≤ c.1 ∧ c.1 < a + bs.length ∧ c.2 ≠ 0 := by
  induction bs generalizing a with
  | nil => simp [Memory.cells] at h
  | cons b r ih =>
    simp only [Memory.cells] at h
    simp only [List.length_cons]
    split at h
    · obtain ⟨h1, h2, h3⟩ := ih (a + 1) h
      exact ⟨by omega, by omega, h3⟩
    · next hb =>
      rcases List.mem_cons.mp h with rfl | h
      · exact ⟨Nat.le_refl _, by simp only; omega, hb⟩
      · obtain ⟨h1, h2, h3⟩ := ih (a + 1) h
        exact ⟨by omega, by omega, h3⟩

theorem cells_sorted (bs : List Byte) (a : Nat) : (Memory.cells a bs).Pairwise (fun x y => x.1 < y.1) := by
  induction bs generalizing a with
  | nil => simp [Memory.cells]
  | cons b r ih =>
    simp only [Memory.cells]
    split
    · exact ih (a + 1)
    · refine List.pairwise_cons.mpr ⟨fun c hc => ?_, ih (a + 1)⟩
      have := (mem_cells r (a + 1) c hc).1
      simp only
      omega

/-- A write keeps the canonical form. -/
theorem wf_write (m : Memory) (a : Nat) (bs : List Byte) (h : m.wf = true) : (m.write a bs).wf = true := by
  rw [wf_iff] at h ⊢
  have lo (c : Host.Cell) (hc : c ∈ m.filter (fun c => decide (c.1 < a))) : c.1 < a := by simpa using (List.mem_filter.mp hc).2
  have hi (c : Host.Cell) (hc : c ∈ m.filter (fun c => decide (a + bs.length ≤ c.1))) : a + bs.length ≤ c.1 := by
    simpa using (List.mem_filter.mp hc).2
  constructor
  · simp only [Memory.write, List.pairwise_append]
    refine ⟨⟨h.1.filter _, cells_sorted bs a, fun x hx y hy => ?_⟩, h.1.filter _, fun x hx y hy => ?_⟩
    · have := lo x hx
      have := (mem_cells bs a y hy).1
      omega
    · have hy := hi y hy
      rcases List.mem_append.mp hx with hx | hx
      · have := lo x hx
        omega
      · have := (mem_cells bs a x hx).2.1
        omega
  · intro c hc
    simp only [Memory.write, List.mem_append] at hc
    rcases hc with (hc | hc) | hc
    · exact h.2 c (List.mem_filter.mp hc).1
    · exact (mem_cells bs a c hc).2.2
    · exact h.2 c (List.mem_filter.mp hc).1

theorem wf_writeCells (m : Memory) (cs : List Host.Cell) (h : m.wf = true) : (m.writeCells cs).wf = true := by
  unfold Memory.writeCells
  induction cs generalizing m with
  | nil => exact h
  | cons c r ih => exact ih _ (wf_write m c.1 [c.2] h)

theorem reset_memOk : State.reset.memOk := rfl

theorem writeMem_memOk (s : State) (pa : Nat) (bs : List Byte) (h : s.memOk) : (s.writeMem pa bs).memOk := wf_write s.mem (homePa pa) bs h

/-! ### Reads -/

theorem read_append (m n : Memory) (a : Nat) : Memory.read (m ++ n) a = if m.any (fun c => c.1 == a) then m.read a else n.read a := by
  unfold Memory.read
  rw [List.find?_append]
  cases h : m.find? (fun c => c.1 == a) with
  | none =>
    have : m.any (fun c => c.1 == a) = false := by
      rw [List.any_eq_false]
      intro x hx
      exact List.find?_eq_none.mp h x hx
    simp [this]
  | some c =>
    have hc : m.any (fun c => c.1 == a) = true := List.any_eq_true.mpr ⟨c, List.mem_of_find?_eq_some h, (List.find?_eq_some_iff_append.mp h).1⟩
    rw [hc]
    rfl

theorem read_cells_out (bs : List Byte) (a x : Nat) (h : x < a ∨ a + bs.length ≤ x) : Memory.read (Memory.cells a bs) x = 0 := by
  have : (Memory.cells a bs).find? (fun c => c.1 == x) = none := by
    rw [List.find?_eq_none]
    intro c hc e
    have hm := mem_cells bs a c hc
    have : c.1 = x := by simpa using e
    omega
  simp [Memory.read, this]

theorem read_cells (bs : List Byte) (a k : Nat) (h : k < bs.length) : Memory.read (Memory.cells a bs) (a + k) = bs[k] := by
  induction bs generalizing a k with
  | nil => simp at h
  | cons b r ih =>
    simp only [Memory.cells]
    cases k with
    | zero =>
      split
      · next hb => rw [read_cells_out r (a + 1) (a + 0) (by omega)]; exact hb.symm
      · simp [Memory.read]
    | succ j =>
      have e : a + (j + 1) = a + 1 + j := by omega
      have hr := ih (a + 1) j (by simpa using h)
      split
      · rw [e, hr]; rfl
      · rw [e]
        have hne : (a == a + 1 + j) = false := by simp; omega
        simp only [Memory.read, List.find?_cons, hne] at hr ⊢
        exact hr

theorem read_filter (m : Memory) (p : Host.Cell → Bool) (x : Nat) (h : ∀ b, p (x, b) = true) : Memory.read (m.filter p) x = m.read x := by
  unfold Memory.read
  induction m with
  | nil => rfl
  | cons c r ih =>
    obtain ⟨a, b⟩ := c
    by_cases e : a = x
    · subst e
      simp [h b]
    · have hx : (a == x) = false := by simpa using e
      by_cases hp : p (a, b) = true
      · simp only [List.filter_cons, hp, if_true, List.find?_cons, hx]
        exact ih
      · simp only [List.filter_cons, hp, List.find?_cons, hx]
        exact ih

theorem read_filter_out (m : Memory) (p : Host.Cell → Bool) (x : Nat) (h : ∀ b, p (x, b) = false) : Memory.read (m.filter p) x = 0 := by
  have : (m.filter p).find? (fun c => c.1 == x) = none := by
    rw [List.find?_eq_none]
    intro c hc e
    have hm := (List.mem_filter.mp hc).2
    have hx : c.1 = x := by simpa using e
    rw [show c = (x, c.2) by rw [← hx], h] at hm
    exact absurd hm (by simp)
  simp [Memory.read, this]

theorem any_false_of (m : Memory) (x : Nat) (h : ∀ c ∈ m, c.1 ≠ x) : m.any (fun c => c.1 == x) = false := by
  rw [List.any_eq_false]
  intro c hc
  simpa using h c hc

/-- A read outside the bytes of a write gives what it gave before. -/
theorem read_write_other (m : Memory) (a x : Nat) (bs : List Byte) (h : x < a ∨ a + bs.length ≤ x) : (m.write a bs).read x = m.read x := by
  unfold Memory.write
  have hcells : (Memory.cells a bs).any (fun c => c.1 == x) = false := any_false_of _ _ (fun c hc => by
    have := mem_cells bs a c hc
    omega)
  rcases h with h | h
  · rw [read_append, read_append]
    have hlo : Memory.read (m.filter (fun c => decide (c.1 < a))) x = m.read x := read_filter m _ x (by simp [h])
    have hhi : Memory.read (m.filter (fun c => decide (a + bs.length ≤ c.1))) x = 0 := read_filter_out m _ x (by intro b; simp; omega)
    rw [List.any_append, hcells, Bool.or_false]
    split
    · exact hlo
    · next hy =>
      rw [hhi, ← hlo]
      unfold Memory.read
      rw [show (m.filter (fun c => decide (c.1 < a))).find? (fun c => c.1 == x) = none from List.find?_eq_none.mpr (fun c hc e => hy (List.any_eq_true.mpr ⟨c, hc, e⟩))]
  · have hlo : (m.filter (fun c => decide (c.1 < a))).any (fun c => c.1 == x) = false := any_false_of _ _ (fun c hc => by
      have : c.1 < a := by simpa using (List.mem_filter.mp hc).2
      omega)
    rw [read_append, List.any_append, hlo, hcells]
    simp only [Bool.or_self, Bool.false_eq_true, if_false]
    exact read_filter m _ x (by simp [h])

/-- A read of a byte of a write gives that byte. -/
theorem read_write_same (m : Memory) (a k : Nat) (bs : List Byte) (h : k < bs.length) : (m.write a bs).read (a + k) = bs[k] := by
  unfold Memory.write
  have hlo : (m.filter (fun c => decide (c.1 < a))).any (fun c => c.1 == a + k) = false := any_false_of _ _ (fun c hc => by
    have : c.1 < a := by simpa using (List.mem_filter.mp hc).2
    omega)
  have hhi : Memory.read (m.filter (fun c => decide (a + bs.length ≤ c.1))) (a + k) = 0 := read_filter_out m _ _ (by intro b; simp; omega)
  rw [read_append, List.any_append, hlo, Bool.false_or, read_append, hlo]
  simp only [Bool.false_eq_true, if_false]
  split
  · exact read_cells bs a k h
  · next hy =>
    rw [hhi, ← read_cells bs a k h]
    unfold Memory.read
    rw [show (Memory.cells a bs).find? (fun c => c.1 == a + k) = none from List.find?_eq_none.mpr (fun c hc e => hy (List.any_eq_true.mpr ⟨c, hc, e⟩))]

end Sys2Proof.Machine
end

