-- ==== Sys2Proof/Laws/Effect.lean ====
section
/-! SUPPORT. Sys2Proof/Laws/Effect.lean: what the shared operations of instructions do: updates of one hart in a row are one update, an instruction
whose registers are clear has its effect, what taking a trap does in each of its cases (R389), and what a turn of the agenda runs. -/

namespace Sys2Proof

/-- Two writes under one key are the last one. -/
@[simp] theorem Table.set_set {κ α : Type} [DecidableEq κ] (t : Table κ α) (k : κ) (v w : α) : (t.set k v).set k w = t.set k w := by
  induction t with
  | nil => simp [Table.set]
  | cons p r ih => by_cases h : p.1 = k <;> simp [Table.set, h, ih]

namespace Machine

@[simp] theorem State.setHart_setHart (s : State) (h : HartId) (x y : Hart) : (s.setHart h x).setHart h y = s.setHart h y := by
  simp [State.setHart]

@[simp] theorem State.modHart_modHart (s : State) (h : HartId) (f g : Hart → Hart) :
    (s.modHart h f).modHart h g = s.modHart h (fun x => g (f x)) := by
  simp only [State.modHart, State.setHart_setHart, State.setHart_hart_same]

@[simp] theorem State.modMe_modMe (s : State) (f g : Hart → Hart) : (s.modMe f).modMe g = s.modMe (fun x => g (f x)) := by
  unfold State.modMe
  rw [State.modHart_cur, State.modHart_modHart]

/-! ### Instructions on registers -/

theorem regReg_clear (ik : Code) (hd : Head) (d a b : Reg) (f : Word → Word → Word) (s : State) (h : s.clear hd [.x a, .x b] [.x d]) :
    regReg ik hd d a b f s = writeRd ik hd d (f (s.rx a) (s.rx b)) s :=
  issue_clear ik hd 0 true _ _ _ s (Nat.zero_le _) rfl h

theorem regOne_clear (ik : Code) (hd : Head) (d a : Reg) (f : Word → Word) (s : State) (h : s.clear hd [.x a] [.x d]) :
    regOne ik hd d a f s = writeRd ik hd d (f (s.rx a)) s :=
  issue_clear ik hd 0 true _ _ _ s (Nat.zero_le _) rfl h

theorem regNone_clear (ik : Code) (hd : Head) (d : Reg) (f : Word → Word) (s : State) (h : s.clear hd [] [.x d]) :
    regNone ik hd d f s = writeRd ik hd d (f s.me.pc) s :=
  issue_clear ik hd 0 true _ _ _ s (Nat.zero_le _) rfl h

theorem regRegRd_clear (ik : Code) (hd : Head) (d a b : Reg) (f : Word → Word → Word → Word) (s : State)
    (h : s.clear hd [.x a, .x b, .x d] [.x d]) : regRegRd ik hd d a b f s = writeRd ik hd d (f (s.rx a) (s.rx b) (s.rx d)) s :=
  issue_clear ik hd 0 true _ _ _ s (Nat.zero_le _) rfl h

/-- Fewer registers are clear where more are. -/
theorem clear_mono (s : State) (hd : Head) (a a' b b' : List RegRef) (h : s.clear hd a b) (ha : a' ⊆ a) (hb : b' ⊆ b) : s.clear hd a' b' :=
  ⟨h.1, fun r hr => h.2.1 r (ha hr), fun r hr => h.2.2 r (hb hr)⟩

/-! ### Traps (R389) -/

/-- A machine check tells management and latches a snapshot: memory and every hart stay (R389, R405). -/
@[simp] theorem State.machineCheck_mem (s : State) (core : Nat) (v : Word) : (s.machineCheck core v).mem = s.mem := by
  unfold State.machineCheck State.notify State.snapshot
  split <;> rfl

@[simp] theorem State.machineCheck_hart (s : State) (core : Nat) (v : Word) (h : HartId) : (s.machineCheck core v).hart h = s.hart h := by
  unfold State.machineCheck State.notify State.snapshot
  split <;> rfl

@[simp] theorem State.machineCheck_me (s : State) (core : Nat) (v : Word) : (s.machineCheck core v).me = s.me := by
  unfold State.machineCheck State.notify State.snapshot
  split <;> rfl

theorem ungrant_fresh (s : State) (id : HartId) (h : s.lockHeld id = (s.hart id).lock) : s.ungrant id = s := by
  unfold State.ungrant State.clearLock
  cases hl : (s.hart id).lock with
  | some k => simp
  | none => simp [h, hl]

/-- An instruction that has asked for nothing has nothing to give up. -/
theorem giveUp_fresh (s : State) (h : s.fresh) : s.giveUp = s := by
  unfold State.giveUp State.dropReads State.forgetEarly
  simp only [h.2.2, h.1, Bool.false_eq_true, if_false]
  exact ungrant_fresh s s.cur h.2.1

/-- A trap of a thread that handles none enters its handler. -/
theorem takeTrap_enters (cause status : BitVec 8) (val epc : Word) (s : State) (hf : s.fresh) (hc : s.cur.isCtx = false)
    (ht : s.me.inTrap = false) :
    takeTrap cause status val epc s = s.modMe (fun h =>
      { h.forgetWalks with
        pc := setBits (setBits h.csr.tvec 0 1 0) 48 16 0, loops := [], wait := none, safe := none, busy := h.forgetWalks.busy.trapXact
        csr := { (h.csr.saveLoops h.loops) with
                 tstatus := tstatusOf (max h.priv 1) h.priv true, tepc := setBits epc 48 16 0, tcause := tcauseOf cause status, tval := val } }) := by
  simp only [takeTrap, giveUp_fresh s hf, hc, ht]
  rfl

/-- A trap of a thread that handles one freezes it and tells management. -/
theorem takeTrap_freezes (cause status : BitVec 8) (val epc : Word) (s : State) (hf : s.fresh) (hc : s.cur.isCtx = false)
    (ht : s.me.inTrap = true) :
    takeTrap cause status val epc s = (s.modMe (fun h => { h.forgetWalks with st := .frozen })).machineCheck s.myCore 0 := by
  simp only [takeTrap, giveUp_fresh s hf, hc, ht]
  rfl

/-- A trap of a thread leaves memory and every other hart as they were. -/
theorem takeTrap_frame (cause status : BitVec 8) (val epc : Word) (s : State) (hf : s.fresh) (hc : s.cur.isCtx = false) :
    (takeTrap cause status val epc s).mem = s.mem ∧ (∀ h, h ≠ s.cur → (takeTrap cause status val epc s).hart h = s.hart h) ∧
    (takeTrap cause status val epc s).me.x = s.me.x ∧ (takeTrap cause status val epc s).me.xSt = s.me.xSt := by
  by_cases ht : s.me.inTrap = true
  · rw [takeTrap_freezes cause status val epc s hf hc ht]
    refine ⟨by simp, fun h hh => ?_, ?_, ?_⟩
    · rw [State.machineCheck_hart]
      exact State.modMe_hart_other s _ _ (Ne.symm hh)
    · simp [Hart.forgetWalks, Hart.modBusy]
    · simp [Hart.forgetWalks, Hart.modBusy]
  · rw [takeTrap_enters cause status val epc s hf hc (by simpa using ht)]
    refine ⟨by simp, fun h hh => ?_, by simp [Hart.forgetWalks, Hart.modBusy], by simp [Hart.forgetWalks, Hart.modBusy]⟩
    exact State.modMe_hart_other s _ _ (Ne.symm hh)

/-! ### Turns -/

theorem step_turn (s : State) (t : Turn) (r : List Turn) (hb : s.beforeTurn = none) (h : s.agenda = t :: r) :
    step s = noted (runAct t.act { s with agenda := r, clk := max s.clk t.clk }) := by
  simp [step, hb, h]

theorem step_idle (s : State) (hb : s.beforeTurn = none) (h : s.agenda = []) : step s = noted (runNext { s with clk := s.clk + 1 }) := by
  simp [step, hb, h]

/-- A turn at the present clk comes next when no layer of a power-up is still to come up. -/
theorem beforeTurn_now (s : State) (t : Turn) (r : List Turn) (h : s.agenda = t :: r) (hc : t.clk ≤ s.clk) (hb : s.dev.bringUp = []) :
    s.beforeTurn = none := by
  simp [State.beforeTurn, State.nextClk, h, hb, hc]

end Machine

end Sys2Proof
end

