-- ==== Sys2Proof/Laws/PerInstr.lean ====
section
/-! SUPPORT. Sys2Proof/Laws/PerInstr.lean: the family Shape, one lemma per instruction: what the encoder gives has the length and the mask word that its
first parcel announces (R180, R216), and nothing where the format has no such bits. An event has no encoding. -/

namespace Sys2Proof

/-- The first parcel announces the length and the mask word, and what the format lacks is zero (R180, R216). -/
def Code.Shaped (k : Code) : Prop :=
  parcelLen (k.w.setWidth 16) = k.len ∧ maskLen (k.w.setWidth 16) = (if k.mask.isSome then 4 else 0) ∧
  (k.len ≠ 8 → k.c = 0) ∧ (k.len = 2 → k.w.toNat < 2 ^ 16)

/-- The low ten bits of a first word that ends in wLow. -/
theorem low_append {n : Nat} (x : BitVec n) (y : BitVec 10) : (x ++ y).extractLsb' 0 10 = y := by
  ext i hi
  simp [BitVec.getLsbD_append, hi, BitVec.getLsbD_eq_getElem]

/-- The fields of wLow (R218). -/
theorem low_fields : ∀ (mj : BitVec 6) (e t : Bool), (mj ++ bit1 e ++ bit1 t ++ 0b11#2).extractLsb' 0 2 = 3 ∧
    (mj ++ bit1 e ++ bit1 t ++ 0b11#2).extractLsb' 4 6 = mj ∧ (mj ++ bit1 e ++ bit1 t ++ 0b11#2).extractLsb' 2 1 = bit1 t := by decide +kernel

/-- The fields of a first parcel whose word ends in wLow. -/
theorem parcel_low (w : BitVec 32) (mj : BitVec 6) (hd : Head) (h : w.extractLsb' 0 10 = wLow mj hd) :
    (w.setWidth 16).extractLsb' 0 2 = 3 ∧ (w.setWidth 16).extractLsb' 4 6 = mj ∧ (w.setWidth 16).extractLsb' 2 1 = bit1 hd.s := by
  have e (k n : Nat) (hn : k + n ≤ 10) : (w.setWidth 16).extractLsb' k n = (wLow mj hd).extractLsb' k n := by
    rw [← h]
    ext i hi
    simp [show k + i < 16 by omega, show k + i < 10 by omega]
  rw [e 0 2 (by omega), e 4 6 (by omega), e 2 1 (by omega)]
  exact low_fields mj hd.e hd.s

theorem shaped32 (hd : Head) (w : BitVec 32) (mj : BitVec 6) (hm : mj ≠ 0x3F) (h : w.extractLsb' 0 10 = wLow mj hd) : (code32 hd w).Shaped := by
  obtain ⟨h0, h1, h2⟩ := parcel_low w mj hd h
  refine ⟨?_, ?_, fun _ => rfl, fun e => absurd e (by simp [code32])⟩
  · have h3 : mj ≠ 63#6 := hm
    simp [parcelLen, code32, h0, h1, h3]
  · cases hs : hd.s <;> simp [maskLen, code32, h0, h2, hs, bit1]

theorem shaped64 (hd : Head) (w c : BitVec 32) (h : w.extractLsb' 0 10 = wLow 0x3F hd) : (code64 hd w c).Shaped := by
  obtain ⟨h0, h1, h2⟩ := parcel_low w 0x3F hd h
  refine ⟨?_, ?_, fun e => absurd rfl e, fun e => absurd e (by simp [code64])⟩
  · simp [parcelLen, code64, h0, h1]
  · cases hs : hd.s <;> simp [maskLen, code64, h0, h2, hs, bit1]

theorem shaped16 (q : BitVec 2) (op : BitVec 3) (f : BitVec 11) (hq : q ≠ 3) : (code16 (wC q op f)).Shaped := by
  have h : (((wC q op f).setWidth 32).setWidth 16).extractLsb' 0 2 = q := by
    ext i hi
    have hg : ((f ++ op) ++ q).getLsbD i = q[i] := by rw [BitVec.getLsbD_append, if_pos hi, BitVec.getLsbD_eq_getElem hi]
    simp only [BitVec.getElem_extractLsb', BitVec.getLsbD_setWidth, Nat.zero_add, show i < 16 by omega, show i < 32 by omega, decide_true, Bool.true_and]
    exact hg
  refine ⟨?_, ?_, fun _ => rfl, fun _ => ?_⟩
  · simp only [parcelLen, code16, h, bne_iff_ne, ne_eq, hq, not_false_eq_true, if_true]
  · simp only [maskLen, code16, h]
    have h3 : q ≠ 3#2 := hq
    simp [h3]
  · simp only [code16, BitVec.toNat_setWidth]
    exact Nat.lt_of_le_of_lt (Nat.mod_le _ _) (wC q op f).isLt

end Sys2Proof

namespace Sys2Proof.Laws.Shape

/-- Every encoding of an instruction has its shape. -/
def Statement (i : Instr) : Prop := ∀ k, encode i = some k → k.Shaped

theorem add (hd : Head) (d : Reg) (a : Reg) (b : Reg) : Statement (.add hd d a b) := by intro k h; cases h; exact shaped32 _ _ _ (by decide) (low_append _ _)
theorem sub (hd : Head) (d : Reg) (a : Reg) (b : Reg) : Statement (.sub hd d a b) := by intro k h; cases h; exact shaped32 _ _ _ (by decide) (low_append _ _)
theorem and (hd : Head) (d : Reg) (a : Reg) (b : Reg) : Statement (.and hd d a b) := by intro k h; cases h; exact shaped32 _ _ _ (by decide) (low_append _ _)
theorem or (hd : Head) (d : Reg) (a : Reg) (b : Reg) : Statement (.or hd d a b) := by intro k h; cases h; exact shaped32 _ _ _ (by decide) (low_append _ _)
theorem xor (hd : Head) (d : Reg) (a : Reg) (b : Reg) : Statement (.xor hd d a b) := by intro k h; cases h; exact shaped32 _ _ _ (by decide) (low_append _ _)
theorem sll (hd : Head) (d : Reg) (a : Reg) (b : Reg) : Statement (.sll hd d a b) := by intro k h; cases h; exact shaped32 _ _ _ (by decide) (low_append _ _)
theorem srl (hd : Head) (d : Reg) (a : Reg) (b : Reg) : Statement (.srl hd d a b) := by intro k h; cases h; exact shaped32 _ _ _ (by decide) (low_append _ _)
theorem sra (hd : Head) (d : Reg) (a : Reg) (b : Reg) : Statement (.sra hd d a b) := by intro k h; cases h; exact shaped32 _ _ _ (by decide) (low_append _ _)
theorem rol (hd : Head) (d : Reg) (a : Reg) (b : Reg) : Statement (.rol hd d a b) := by intro k h; cases h; exact shaped32 _ _ _ (by decide) (low_append _ _)
theorem ror (hd : Head) (d : Reg) (a : Reg) (b : Reg) : Statement (.ror hd d a b) := by intro k h; cases h; exact shaped32 _ _ _ (by decide) (low_append _ _)
theorem slt (hd : Head) (d : Reg) (a : Reg) (b : Reg) : Statement (.slt hd d a b) := by intro k h; cases h; exact shaped32 _ _ _ (by decide) (low_append _ _)
theorem sltu (hd : Head) (d : Reg) (a : Reg) (b : Reg) : Statement (.sltu hd d a b) := by intro k h; cases h; exact shaped32 _ _ _ (by decide) (low_append _ _)
theorem min (hd : Head) (d : Reg) (a : Reg) (b : Reg) : Statement (.min hd d a b) := by intro k h; cases h; exact shaped32 _ _ _ (by decide) (low_append _ _)
theorem max (hd : Head) (d : Reg) (a : Reg) (b : Reg) : Statement (.max hd d a b) := by intro k h; cases h; exact shaped32 _ _ _ (by decide) (low_append _ _)
theorem minu (hd : Head) (d : Reg) (a : Reg) (b : Reg) : Statement (.minu hd d a b) := by intro k h; cases h; exact shaped32 _ _ _ (by decide) (low_append _ _)
theorem maxu (hd : Head) (d : Reg) (a : Reg) (b : Reg) : Statement (.maxu hd d a b) := by intro k h; cases h; exact shaped32 _ _ _ (by decide) (low_append _ _)
theorem addw (hd : Head) (d : Reg) (a : Reg) (b : Reg) : Statement (.addw hd d a b) := by intro k h; cases h; exact shaped32 _ _ _ (by decide) (low_append _ _)
theorem subw (hd : Head) (d : Reg) (a : Reg) (b : Reg) : Statement (.subw hd d a b) := by intro k h; cases h; exact shaped32 _ _ _ (by decide) (low_append _ _)
theorem andn (hd : Head) (d : Reg) (a : Reg) (b : Reg) : Statement (.andn hd d a b) := by intro k h; cases h; exact shaped32 _ _ _ (by decide) (low_append _ _)
theorem orn (hd : Head) (d : Reg) (a : Reg) (b : Reg) : Statement (.orn hd d a b) := by intro k h; cases h; exact shaped32 _ _ _ (by decide) (low_append _ _)
theorem addsat (hd : Head) (d : Reg) (a : Reg) (b : Reg) : Statement (.addsat hd d a b) := by intro k h; cases h; exact shaped32 _ _ _ (by decide) (low_append _ _)
theorem subsat (hd : Head) (d : Reg) (a : Reg) (b : Reg) : Statement (.subsat hd d a b) := by intro k h; cases h; exact shaped32 _ _ _ (by decide) (low_append _ _)
theorem addi (hd : Head) (d : Reg) (a : Reg) (i : BitVec 12) : Statement (.addi hd d a i) := by intro k h; cases h; exact shaped32 _ _ _ (by decide) (low_append _ _)
theorem andi (hd : Head) (d : Reg) (a : Reg) (i : BitVec 12) : Statement (.andi hd d a i) := by intro k h; cases h; exact shaped32 _ _ _ (by decide) (low_append _ _)
theorem ori (hd : Head) (d : Reg) (a : Reg) (i : BitVec 12) : Statement (.ori hd d a i) := by intro k h; cases h; exact shaped32 _ _ _ (by decide) (low_append _ _)
theorem xori (hd : Head) (d : Reg) (a : Reg) (i : BitVec 12) : Statement (.xori hd d a i) := by intro k h; cases h; exact shaped32 _ _ _ (by decide) (low_append _ _)
theorem slli (hd : Head) (d : Reg) (a : Reg) (n : BitVec 6) : Statement (.slli hd d a n) := by intro k h; cases h; exact shaped32 _ _ _ (by decide) (low_append _ _)
theorem srli (hd : Head) (d : Reg) (a : Reg) (n : BitVec 6) : Statement (.srli hd d a n) := by intro k h; cases h; exact shaped32 _ _ _ (by decide) (low_append _ _)
theorem srai (hd : Head) (d : Reg) (a : Reg) (n : BitVec 6) : Statement (.srai hd d a n) := by intro k h; cases h; exact shaped32 _ _ _ (by decide) (low_append _ _)
theorem rori (hd : Head) (d : Reg) (a : Reg) (n : BitVec 6) : Statement (.rori hd d a n) := by intro k h; cases h; exact shaped32 _ _ _ (by decide) (low_append _ _)
theorem slti (hd : Head) (d : Reg) (a : Reg) (i : BitVec 12) : Statement (.slti hd d a i) := by intro k h; cases h; exact shaped32 _ _ _ (by decide) (low_append _ _)
theorem sltiu (hd : Head) (d : Reg) (a : Reg) (i : BitVec 12) : Statement (.sltiu hd d a i) := by intro k h; cases h; exact shaped32 _ _ _ (by decide) (low_append _ _)
theorem lhi (hd : Head) (d : Reg) (i : BitVec 17) : Statement (.lhi hd d i) := by intro k h; cases h; exact shaped32 _ _ _ (by decide) (low_append _ _)
theorem addpc (hd : Head) (d : Reg) (i : BitVec 17) : Statement (.addpc hd d i) := by intro k h; cases h; exact shaped32 _ _ _ (by decide) (low_append _ _)
theorem mul (hd : Head) (d : Reg) (a : Reg) (b : Reg) : Statement (.mul hd d a b) := by intro k h; cases h; exact shaped32 _ _ _ (by decide) (low_append _ _)
theorem mulh (hd : Head) (d : Reg) (a : Reg) (b : Reg) : Statement (.mulh hd d a b) := by intro k h; cases h; exact shaped32 _ _ _ (by decide) (low_append _ _)
theorem mulhu (hd : Head) (d : Reg) (a : Reg) (b : Reg) : Statement (.mulhu hd d a b) := by intro k h; cases h; exact shaped32 _ _ _ (by decide) (low_append _ _)
theorem mulhsu (hd : Head) (d : Reg) (a : Reg) (b : Reg) : Statement (.mulhsu hd d a b) := by intro k h; cases h; exact shaped32 _ _ _ (by decide) (low_append _ _)
theorem div (hd : Head) (d : Reg) (a : Reg) (b : Reg) : Statement (.div hd d a b) := by intro k h; cases h; exact shaped32 _ _ _ (by decide) (low_append _ _)
theorem divu (hd : Head) (d : Reg) (a : Reg) (b : Reg) : Statement (.divu hd d a b) := by intro k h; cases h; exact shaped32 _ _ _ (by decide) (low_append _ _)
theorem rem (hd : Head) (d : Reg) (a : Reg) (b : Reg) : Statement (.rem hd d a b) := by intro k h; cases h; exact shaped32 _ _ _ (by decide) (low_append _ _)
theorem remu (hd : Head) (d : Reg) (a : Reg) (b : Reg) : Statement (.remu hd d a b) := by intro k h; cases h; exact shaped32 _ _ _ (by decide) (low_append _ _)
theorem mulw (hd : Head) (d : Reg) (a : Reg) (b : Reg) : Statement (.mulw hd d a b) := by intro k h; cases h; exact shaped32 _ _ _ (by decide) (low_append _ _)
theorem clz (hd : Head) (d : Reg) (a : Reg) : Statement (.clz hd d a) := by intro k h; cases h; exact shaped32 _ _ _ (by decide) (low_append _ _)
theorem ctz (hd : Head) (d : Reg) (a : Reg) : Statement (.ctz hd d a) := by intro k h; cases h; exact shaped32 _ _ _ (by decide) (low_append _ _)
theorem popc (hd : Head) (d : Reg) (a : Reg) : Statement (.popc hd d a) := by intro k h; cases h; exact shaped32 _ _ _ (by decide) (low_append _ _)
theorem brev (hd : Head) (d : Reg) (a : Reg) : Statement (.brev hd d a) := by intro k h; cases h; exact shaped32 _ _ _ (by decide) (low_append _ _)
theorem bswap (hd : Head) (d : Reg) (a : Reg) : Statement (.bswap hd d a) := by intro k h; cases h; exact shaped32 _ _ _ (by decide) (low_append _ _)
theorem sextb (hd : Head) (d : Reg) (a : Reg) : Statement (.sextb hd d a) := by intro k h; cases h; exact shaped32 _ _ _ (by decide) (low_append _ _)
theorem sexth (hd : Head) (d : Reg) (a : Reg) : Statement (.sexth hd d a) := by intro k h; cases h; exact shaped32 _ _ _ (by decide) (low_append _ _)
theorem sextw (hd : Head) (d : Reg) (a : Reg) : Statement (.sextw hd d a) := by intro k h; cases h; exact shaped32 _ _ _ (by decide) (low_append _ _)
theorem zextw (hd : Head) (d : Reg) (a : Reg) : Statement (.zextw hd d a) := by intro k h; cases h; exact shaped32 _ _ _ (by decide) (low_append _ _)
theorem clmul (hd : Head) (d : Reg) (a : Reg) (b : Reg) : Statement (.clmul hd d a b) := by intro k h; cases h; exact shaped32 _ _ _ (by decide) (low_append _ _)
theorem clmulh (hd : Head) (d : Reg) (a : Reg) (b : Reg) : Statement (.clmulh hd d a b) := by intro k h; cases h; exact shaped32 _ _ _ (by decide) (low_append _ _)
theorem clmulr (hd : Head) (d : Reg) (a : Reg) (b : Reg) : Statement (.clmulr hd d a b) := by intro k h; cases h; exact shaped32 _ _ _ (by decide) (low_append _ _)
theorem bfx (hd : Head) (d : Reg) (a : Reg) (b : Reg) : Statement (.bfx hd d a b) := by intro k h; cases h; exact shaped32 _ _ _ (by decide) (low_append _ _)
theorem bfi (hd : Head) (d : Reg) (a : Reg) (b : Reg) : Statement (.bfi hd d a b) := by intro k h; cases h; exact shaped32 _ _ _ (by decide) (low_append _ _)
theorem faddS (hd : Head) (d : Reg) (a : Reg) (b : Reg) : Statement (.faddS hd d a b) := by intro k h; cases h; exact shaped32 _ _ _ (by decide) (low_append _ _)
theorem fsubS (hd : Head) (d : Reg) (a : Reg) (b : Reg) : Statement (.fsubS hd d a b) := by intro k h; cases h; exact shaped32 _ _ _ (by decide) (low_append _ _)
theorem fmulS (hd : Head) (d : Reg) (a : Reg) (b : Reg) : Statement (.fmulS hd d a b) := by intro k h; cases h; exact shaped32 _ _ _ (by decide) (low_append _ _)
theorem fdivS (hd : Head) (d : Reg) (a : Reg) (b : Reg) : Statement (.fdivS hd d a b) := by intro k h; cases h; exact shaped32 _ _ _ (by decide) (low_append _ _)
theorem fsqrtS (hd : Head) (d : Reg) (a : Reg) : Statement (.fsqrtS hd d a) := by intro k h; cases h; exact shaped32 _ _ _ (by decide) (low_append _ _)
theorem fminS (hd : Head) (d : Reg) (a : Reg) (b : Reg) : Statement (.fminS hd d a b) := by intro k h; cases h; exact shaped32 _ _ _ (by decide) (low_append _ _)
theorem fmaxS (hd : Head) (d : Reg) (a : Reg) (b : Reg) : Statement (.fmaxS hd d a b) := by intro k h; cases h; exact shaped32 _ _ _ (by decide) (low_append _ _)
theorem feqS (hd : Head) (d : Reg) (a : Reg) (b : Reg) : Statement (.feqS hd d a b) := by intro k h; cases h; exact shaped32 _ _ _ (by decide) (low_append _ _)
theorem fltS (hd : Head) (d : Reg) (a : Reg) (b : Reg) : Statement (.fltS hd d a b) := by intro k h; cases h; exact shaped32 _ _ _ (by decide) (low_append _ _)
theorem fleS (hd : Head) (d : Reg) (a : Reg) (b : Reg) : Statement (.fleS hd d a b) := by intro k h; cases h; exact shaped32 _ _ _ (by decide) (low_append _ _)
theorem fclassS (hd : Head) (d : Reg) (a : Reg) : Statement (.fclassS hd d a) := by intro k h; cases h; exact shaped32 _ _ _ (by decide) (low_append _ _)
theorem fcvtSL (hd : Head) (d : Reg) (a : Reg) : Statement (.fcvtSL hd d a) := by intro k h; cases h; exact shaped32 _ _ _ (by decide) (low_append _ _)
theorem fcvtSLu (hd : Head) (d : Reg) (a : Reg) : Statement (.fcvtSLu hd d a) := by intro k h; cases h; exact shaped32 _ _ _ (by decide) (low_append _ _)
theorem fcvtLS (hd : Head) (d : Reg) (a : Reg) : Statement (.fcvtLS hd d a) := by intro k h; cases h; exact shaped32 _ _ _ (by decide) (low_append _ _)
theorem fcvtLuS (hd : Head) (d : Reg) (a : Reg) : Statement (.fcvtLuS hd d a) := by intro k h; cases h; exact shaped32 _ _ _ (by decide) (low_append _ _)
theorem fsgnjS (hd : Head) (d : Reg) (a : Reg) (b : Reg) : Statement (.fsgnjS hd d a b) := by intro k h; cases h; exact shaped32 _ _ _ (by decide) (low_append _ _)
theorem fsgnjnS (hd : Head) (d : Reg) (a : Reg) (b : Reg) : Statement (.fsgnjnS hd d a b) := by intro k h; cases h; exact shaped32 _ _ _ (by decide) (low_append _ _)
theorem fsgnjxS (hd : Head) (d : Reg) (a : Reg) (b : Reg) : Statement (.fsgnjxS hd d a b) := by intro k h; cases h; exact shaped32 _ _ _ (by decide) (low_append _ _)
theorem fmaddS (hd : Head) (d : Reg) (a : Reg) (b : Reg) (c : Reg) : Statement (.fmaddS hd d a b c) := by intro k h; cases h; exact shaped32 _ _ _ (by decide) (low_append _ _)
theorem fmsubS (hd : Head) (d : Reg) (a : Reg) (b : Reg) (c : Reg) : Statement (.fmsubS hd d a b c) := by intro k h; cases h; exact shaped32 _ _ _ (by decide) (low_append _ _)
theorem fnmaddS (hd : Head) (d : Reg) (a : Reg) (b : Reg) (c : Reg) : Statement (.fnmaddS hd d a b c) := by intro k h; cases h; exact shaped32 _ _ _ (by decide) (low_append _ _)
theorem fnmsubS (hd : Head) (d : Reg) (a : Reg) (b : Reg) (c : Reg) : Statement (.fnmsubS hd d a b c) := by intro k h; cases h; exact shaped32 _ _ _ (by decide) (low_append _ _)
theorem beq (hd : Head) (a : Reg) (b : Reg) (o : BitVec 12) : Statement (.beq hd a b o) := by intro k h; cases h; exact shaped32 _ _ _ (by decide) (low_append _ _)
theorem bne (hd : Head) (a : Reg) (b : Reg) (o : BitVec 12) : Statement (.bne hd a b o) := by intro k h; cases h; exact shaped32 _ _ _ (by decide) (low_append _ _)
theorem blt (hd : Head) (a : Reg) (b : Reg) (o : BitVec 12) : Statement (.blt hd a b o) := by intro k h; cases h; exact shaped32 _ _ _ (by decide) (low_append _ _)
theorem bge (hd : Head) (a : Reg) (b : Reg) (o : BitVec 12) : Statement (.bge hd a b o) := by intro k h; cases h; exact shaped32 _ _ _ (by decide) (low_append _ _)
theorem bltu (hd : Head) (a : Reg) (b : Reg) (o : BitVec 12) : Statement (.bltu hd a b o) := by intro k h; cases h; exact shaped32 _ _ _ (by decide) (low_append _ _)
theorem bgeu (hd : Head) (a : Reg) (b : Reg) (o : BitVec 12) : Statement (.bgeu hd a b o) := by intro k h; cases h; exact shaped32 _ _ _ (by decide) (low_append _ _)
theorem jal (hd : Head) (d : Reg) (i : BitVec 17) : Statement (.jal hd d i) := by intro k h; cases h; exact shaped32 _ _ _ (by decide) (low_append _ _)
theorem jalr (hd : Head) (d : Reg) (a : Reg) (i : BitVec 12) : Statement (.jalr hd d a i) := by intro k h; cases h; exact shaped32 _ _ _ (by decide) (low_append _ _)
theorem loop (hd : Head) (a : Reg) (i : BitVec 12) : Statement (.loop hd a i) := by intro k h; cases h; exact shaped32 _ _ _ (by decide) (low_append _ _)
theorem loopi (hd : Head) (n : BitVec 10) (i : BitVec 12) : Statement (.loopi hd n i) := by intro k h; cases h; exact shaped32 _ _ _ (by decide) (low_append _ _)
theorem ld (hd : Head) (d : Reg) (a : Reg) (w : BitVec 2) (u : BitVec 1) (i : BitVec 7) : Statement (.ld hd d a w u i) := by intro k h; cases h; exact shaped32 _ _ _ (by decide) (low_append _ _)
theorem ldAcq (hd : Head) (d : Reg) (a : Reg) (w : BitVec 2) (u : BitVec 1) (i : BitVec 7) : Statement (.ldAcq hd d a w u i) := by intro k h; cases h; exact shaped32 _ _ _ (by decide) (low_append _ _)
theorem ldl (hd : Head) (d : Reg) (a : Reg) (w : BitVec 2) (u : BitVec 1) (i : BitVec 7) : Statement (.ldl hd d a w u i) := by intro k h; cases h; exact shaped32 _ _ _ (by decide) (low_append _ _)
theorem st (hd : Head) (d : Reg) (a : Reg) (w : BitVec 2) (i : BitVec 7) : Statement (.st hd d a w i) := by intro k h; cases h; exact shaped32 _ _ _ (by decide) (low_append _ _)
theorem stRel (hd : Head) (d : Reg) (a : Reg) (w : BitVec 2) (i : BitVec 7) : Statement (.stRel hd d a w i) := by intro k h; cases h; exact shaped32 _ _ _ (by decide) (low_append _ _)
theorem stu (hd : Head) (d : Reg) (a : Reg) (w : BitVec 2) (i : BitVec 7) : Statement (.stu hd d a w i) := by intro k h; cases h; exact shaped32 _ _ _ (by decide) (low_append _ _)
theorem ldx (hd : Head) (d : Reg) (a : Reg) (b : Reg) (w : BitVec 2) (u : BitVec 1) (q : BitVec 1) : Statement (.ldx hd d a b w u q) := by intro k h; cases h; exact shaped32 _ _ _ (by decide) (low_append _ _)
theorem stx (hd : Head) (d : Reg) (a : Reg) (b : Reg) (w : BitVec 2) (r : BitVec 1) : Statement (.stx hd d a b w r) := by intro k h; cases h; exact shaped32 _ _ _ (by decide) (low_append _ _)
theorem amoadd (hd : Head) (d : Reg) (a : Reg) (b : Reg) (w : BitVec 1) (o : BitVec 2) : Statement (.amoadd hd d a b w o) := by intro k h; cases h; exact shaped32 _ _ _ (by decide) (low_append _ _)
theorem amoand (hd : Head) (d : Reg) (a : Reg) (b : Reg) (w : BitVec 1) (o : BitVec 2) : Statement (.amoand hd d a b w o) := by intro k h; cases h; exact shaped32 _ _ _ (by decide) (low_append _ _)
theorem amoor (hd : Head) (d : Reg) (a : Reg) (b : Reg) (w : BitVec 1) (o : BitVec 2) : Statement (.amoor hd d a b w o) := by intro k h; cases h; exact shaped32 _ _ _ (by decide) (low_append _ _)
theorem amoxor (hd : Head) (d : Reg) (a : Reg) (b : Reg) (w : BitVec 1) (o : BitVec 2) : Statement (.amoxor hd d a b w o) := by intro k h; cases h; exact shaped32 _ _ _ (by decide) (low_append _ _)
theorem amomin (hd : Head) (d : Reg) (a : Reg) (b : Reg) (w : BitVec 1) (o : BitVec 2) : Statement (.amomin hd d a b w o) := by intro k h; cases h; exact shaped32 _ _ _ (by decide) (low_append _ _)
theorem amomax (hd : Head) (d : Reg) (a : Reg) (b : Reg) (w : BitVec 1) (o : BitVec 2) : Statement (.amomax hd d a b w o) := by intro k h; cases h; exact shaped32 _ _ _ (by decide) (low_append _ _)
theorem amominu (hd : Head) (d : Reg) (a : Reg) (b : Reg) (w : BitVec 1) (o : BitVec 2) : Statement (.amominu hd d a b w o) := by intro k h; cases h; exact shaped32 _ _ _ (by decide) (low_append _ _)
theorem amomaxu (hd : Head) (d : Reg) (a : Reg) (b : Reg) (w : BitVec 1) (o : BitVec 2) : Statement (.amomaxu hd d a b w o) := by intro k h; cases h; exact shaped32 _ _ _ (by decide) (low_append _ _)
theorem amoswap (hd : Head) (d : Reg) (a : Reg) (b : Reg) (w : BitVec 1) (o : BitVec 2) : Statement (.amoswap hd d a b w o) := by intro k h; cases h; exact shaped32 _ _ _ (by decide) (low_append _ _)
theorem amocas (hd : Head) (d : Reg) (a : Reg) (b : Reg) (w : BitVec 1) (o : BitVec 2) : Statement (.amocas hd d a b w o) := by intro k h; cases h; exact shaped32 _ _ _ (by decide) (low_append _ _)
theorem fence (hd : Head) (c : BitVec 3) : Statement (.fence hd c) := by intro k h; cases h; exact shaped32 _ _ _ (by decide) (low_append _ _)
theorem fenceAcq (hd : Head) (c : BitVec 3) : Statement (.fenceAcq hd c) := by intro k h; cases h; exact shaped32 _ _ _ (by decide) (low_append _ _)
theorem fenceRel (hd : Head) (c : BitVec 3) : Statement (.fenceRel hd c) := by intro k h; cases h; exact shaped32 _ _ _ (by decide) (low_append _ _)
theorem fenceV (hd : Head) (c : BitVec 3) : Statement (.fenceV hd c) := by intro k h; cases h; exact shaped32 _ _ _ (by decide) (low_append _ _)
theorem act (hd : Head) (a : Reg) : Statement (.act hd a) := by intro k h; cases h; exact shaped32 _ _ _ (by decide) (low_append _ _)
theorem actEngine (hd : Head) (c : Reg) (a : Reg) : Statement (.actEngine hd c a) := by intro k h; cases h; exact shaped32 _ _ _ (by decide) (low_append _ _)
theorem pre (hd : Head) (a : Reg) : Statement (.pre hd a) := by intro k h; cases h; exact shaped32 _ _ _ (by decide) (low_append _ _)
theorem preEngine (hd : Head) (c : Reg) (a : Reg) : Statement (.preEngine hd c a) := by intro k h; cases h; exact shaped32 _ _ _ (by decide) (low_append _ _)
theorem prea (hd : Head) : Statement (.prea hd) := by intro k h; cases h; exact shaped32 _ _ _ (by decide) (low_append _ _)
theorem vstat (hd : Head) (d : Reg) (a : Reg) : Statement (.vstat hd d a) := by intro k h; cases h; exact shaped32 _ _ _ (by decide) (low_append _ _)
theorem vevt (hd : Head) (d : Reg) : Statement (.vevt hd d) := by intro k h; cases h; exact shaped32 _ _ _ (by decide) (low_append _ _)
theorem rload (hd : Head) (d : Reg) (a : Reg) (w : BitVec 2) (o : BitVec 2) : Statement (.rload hd d a w o) := by intro k h; cases h; exact shaped32 _ _ _ (by decide) (low_append _ _)
theorem rstore (hd : Head) (d : Reg) (a : Reg) (w : BitVec 2) (o : BitVec 2) : Statement (.rstore hd d a w o) := by intro k h; cases h; exact shaped32 _ _ _ (by decide) (low_append _ _)
theorem ramoadd (hd : Head) (d : Reg) (a : Reg) (w : BitVec 2) (o : BitVec 2) : Statement (.ramoadd hd d a w o) := by intro k h; cases h; exact shaped32 _ _ _ (by decide) (low_append _ _)
theorem ramoand (hd : Head) (d : Reg) (a : Reg) (w : BitVec 2) (o : BitVec 2) : Statement (.ramoand hd d a w o) := by intro k h; cases h; exact shaped32 _ _ _ (by decide) (low_append _ _)
theorem ramoor (hd : Head) (d : Reg) (a : Reg) (w : BitVec 2) (o : BitVec 2) : Statement (.ramoor hd d a w o) := by intro k h; cases h; exact shaped32 _ _ _ (by decide) (low_append _ _)
theorem ramoxor (hd : Head) (d : Reg) (a : Reg) (w : BitVec 2) (o : BitVec 2) : Statement (.ramoxor hd d a w o) := by intro k h; cases h; exact shaped32 _ _ _ (by decide) (low_append _ _)
theorem ramomin (hd : Head) (d : Reg) (a : Reg) (w : BitVec 2) (o : BitVec 2) : Statement (.ramomin hd d a w o) := by intro k h; cases h; exact shaped32 _ _ _ (by decide) (low_append _ _)
theorem ramomax (hd : Head) (d : Reg) (a : Reg) (w : BitVec 2) (o : BitVec 2) : Statement (.ramomax hd d a w o) := by intro k h; cases h; exact shaped32 _ _ _ (by decide) (low_append _ _)
theorem ramominu (hd : Head) (d : Reg) (a : Reg) (w : BitVec 2) (o : BitVec 2) : Statement (.ramominu hd d a w o) := by intro k h; cases h; exact shaped32 _ _ _ (by decide) (low_append _ _)
theorem ramomaxu (hd : Head) (d : Reg) (a : Reg) (w : BitVec 2) (o : BitVec 2) : Statement (.ramomaxu hd d a w o) := by intro k h; cases h; exact shaped32 _ _ _ (by decide) (low_append _ _)
theorem ramoswap (hd : Head) (d : Reg) (a : Reg) (w : BitVec 2) (o : BitVec 2) : Statement (.ramoswap hd d a w o) := by intro k h; cases h; exact shaped32 _ _ _ (by decide) (low_append _ _)
theorem ramocas (hd : Head) (d : Reg) (a : Reg) (w : BitVec 2) (o : BitVec 2) : Statement (.ramocas hd d a w o) := by intro k h; cases h; exact shaped32 _ _ _ (by decide) (low_append _ _)
theorem migrate (hd : Head) (d : Reg) (a : Reg) (b : Reg) : Statement (.migrate hd d a b) := by intro k h; cases h; exact shaped32 _ _ _ (by decide) (low_append _ _)
theorem reply (hd : Head) (a : Reg) : Statement (.reply hd a) := by intro k h; cases h; exact shaped32 _ _ _ (by decide) (low_append _ _)
theorem hret (hd : Head) : Statement (.hret hd) := by intro k h; cases h; exact shaped32 _ _ _ (by decide) (low_append _ _)
theorem hset (hd : Head) (a : Reg) (b : Reg) : Statement (.hset hd a b) := by intro k h; cases h; exact shaped32 _ _ _ (by decide) (low_append _ _)
theorem hclr (hd : Head) (a : Reg) : Statement (.hclr hd a) := by intro k h; cases h; exact shaped32 _ _ _ (by decide) (low_append _ _)
theorem mbxAdd (hd : Head) (a : Reg) (b : Reg) : Statement (.mbxAdd hd a b) := by intro k h; cases h; exact shaped32 _ _ _ (by decide) (low_append _ _)
theorem mbxAddEngine (hd : Head) (c : Reg) (a : Reg) (b : Reg) : Statement (.mbxAddEngine hd c a b) := by intro k h; cases h; exact shaped32 _ _ _ (by decide) (low_append _ _)
theorem mbxWait (hd : Head) (d : Reg) (a : Reg) (b : Reg) : Statement (.mbxWait hd d a b) := by intro k h; cases h; exact shaped32 _ _ _ (by decide) (low_append _ _)
theorem mbxRead (hd : Head) (d : Reg) (a : Reg) : Statement (.mbxRead hd d a) := by intro k h; cases h; exact shaped32 _ _ _ (by decide) (low_append _ _)
theorem mbxSet (hd : Head) (a : Reg) (b : Reg) : Statement (.mbxSet hd a b) := by intro k h; cases h; exact shaped32 _ _ _ (by decide) (low_append _ _)
theorem bfree (hd : Head) (a : Reg) : Statement (.bfree hd a) := by intro k h; cases h; exact shaped32 _ _ _ (by decide) (low_append _ _)
theorem sete (hd : Head) (d : Reg) (f : BitVec 1) : Statement (.sete hd d f) := by intro k h; cases h; exact shaped32 _ _ _ (by decide) (low_append _ _)
theorem isfull (hd : Head) (d : Reg) (a : Reg) (f : BitVec 1) : Statement (.isfull hd d a f) := by intro k h; cases h; exact shaped32 _ _ _ (by decide) (low_append _ _)
theorem tkq (hd : Head) (d : Reg) (k : BitVec 3) : Statement (.tkq hd d k) := by intro k h; cases h; exact shaped32 _ _ _ (by decide) (low_append _ _)
theorem tkflt (hd : Head) (d : Reg) (k : BitVec 3) : Statement (.tkflt hd d k) := by intro k h; cases h; exact shaped32 _ _ _ (by decide) (low_append _ _)
theorem waittk (hd : Head) (m : BitVec 8) : Statement (.waittk hd m) := by intro k h; cases h; exact shaped32 _ _ _ (by decide) (low_append _ _)
theorem trap (hd : Head) (a : Reg) : Statement (.trap hd a) := by intro k h; cases h; exact shaped32 _ _ _ (by decide) (low_append _ _)
theorem eret (hd : Head) : Statement (.eret hd) := by intro k h; cases h; exact shaped32 _ _ _ (by decide) (low_append _ _)
theorem halt (hd : Head) : Statement (.halt hd) := by intro k h; cases h; exact shaped32 _ _ _ (by decide) (low_append _ _)
theorem yield (hd : Head) : Statement (.yield hd) := by intro k h; cases h; exact shaped32 _ _ _ (by decide) (low_append _ _)
theorem exit (hd : Head) : Statement (.exit hd) := by intro k h; cases h; exact shaped32 _ _ _ (by decide) (low_append _ _)
theorem vmodeL (hd : Head) : Statement (.vmodeL hd) := by intro k h; cases h; exact shaped32 _ _ _ (by decide) (low_append _ _)
theorem vmodeS (hd : Head) : Statement (.vmodeS hd) := by intro k h; cases h; exact shaped32 _ _ _ (by decide) (low_append _ _)
theorem launch (hd : Head) (d : Reg) (a : Reg) : Statement (.launch hd d a) := by intro k h; cases h; exact shaped32 _ _ _ (by decide) (low_append _ _)
theorem cancel (hd : Head) (d : Reg) (a : Reg) : Statement (.cancel hd d a) := by intro k h; cases h; exact shaped32 _ _ _ (by decide) (low_append _ _)
theorem waitctr (hd : Head) (d : Reg) (a : Reg) : Statement (.waitctr hd d a) := by intro k h; cases h; exact shaped32 _ _ _ (by decide) (low_append _ _)
theorem brk (hd : Head) : Statement (.brk hd) := by intro k h; cases h; exact shaped32 _ _ _ (by decide) (low_append _ _)
theorem pause (hd : Head) (a : Reg) : Statement (.pause hd a) := by intro k h; cases h; exact shaped32 _ _ _ (by decide) (low_append _ _)
theorem tlbinv (hd : Head) (a : Reg) (b : Reg) : Statement (.tlbinv hd a b) := by intro k h; cases h; exact shaped32 _ _ _ (by decide) (low_append _ _)
theorem fenceI (hd : Head) : Statement (.fenceI hd) := by intro k h; cases h; exact shaped32 _ _ _ (by decide) (low_append _ _)
theorem xbegin (hd : Head) : Statement (.xbegin hd) := by intro k h; cases h; exact shaped32 _ _ _ (by decide) (low_append _ _)
theorem xcommit (hd : Head) (d : Reg) : Statement (.xcommit hd d) := by intro k h; cases h; exact shaped32 _ _ _ (by decide) (low_append _ _)
theorem xabort (hd : Head) : Statement (.xabort hd) := by intro k h; cases h; exact shaped32 _ _ _ (by decide) (low_append _ _)
theorem csrxch (hd : Head) (d : Reg) (a : Reg) (c : BitVec 12) : Statement (.csrxch hd d a c) := by intro k h; cases h; exact shaped32 _ _ _ (by decide) (low_append _ _)
theorem csrbis (hd : Head) (d : Reg) (a : Reg) (c : BitVec 12) : Statement (.csrbis hd d a c) := by intro k h; cases h; exact shaped32 _ _ _ (by decide) (low_append _ _)
theorem csrbic (hd : Head) (d : Reg) (a : Reg) (c : BitVec 12) : Statement (.csrbic hd d a c) := by intro k h; cases h; exact shaped32 _ _ _ (by decide) (low_append _ _)
theorem vadd (hd : Head) (d : Reg) (a : Reg) (b : Reg) (t : BitVec 3) : Statement (.vadd hd d a b t) := by intro k h; cases h; exact shaped32 _ _ _ (by decide) (low_append _ _)
theorem vsub (hd : Head) (d : Reg) (a : Reg) (b : Reg) (t : BitVec 3) : Statement (.vsub hd d a b t) := by intro k h; cases h; exact shaped32 _ _ _ (by decide) (low_append _ _)
theorem vmul (hd : Head) (d : Reg) (a : Reg) (b : Reg) (t : BitVec 3) : Statement (.vmul hd d a b t) := by intro k h; cases h; exact shaped32 _ _ _ (by decide) (low_append _ _)
theorem vmin (hd : Head) (d : Reg) (a : Reg) (b : Reg) (t : BitVec 3) : Statement (.vmin hd d a b t) := by intro k h; cases h; exact shaped32 _ _ _ (by decide) (low_append _ _)
theorem vmax (hd : Head) (d : Reg) (a : Reg) (b : Reg) (t : BitVec 3) : Statement (.vmax hd d a b t) := by intro k h; cases h; exact shaped32 _ _ _ (by decide) (low_append _ _)
theorem vabsd (hd : Head) (d : Reg) (a : Reg) (b : Reg) (t : BitVec 3) : Statement (.vabsd hd d a b t) := by intro k h; cases h; exact shaped32 _ _ _ (by decide) (low_append _ _)
theorem vand (hd : Head) (d : Reg) (a : Reg) (b : Reg) (t : BitVec 3) : Statement (.vand hd d a b t) := by intro k h; cases h; exact shaped32 _ _ _ (by decide) (low_append _ _)
theorem vor (hd : Head) (d : Reg) (a : Reg) (b : Reg) (t : BitVec 3) : Statement (.vor hd d a b t) := by intro k h; cases h; exact shaped32 _ _ _ (by decide) (low_append _ _)
theorem vxor (hd : Head) (d : Reg) (a : Reg) (b : Reg) (t : BitVec 3) : Statement (.vxor hd d a b t) := by intro k h; cases h; exact shaped32 _ _ _ (by decide) (low_append _ _)
theorem vshl (hd : Head) (d : Reg) (a : Reg) (b : Reg) (t : BitVec 3) : Statement (.vshl hd d a b t) := by intro k h; cases h; exact shaped32 _ _ _ (by decide) (low_append _ _)
theorem vshr (hd : Head) (d : Reg) (a : Reg) (b : Reg) (t : BitVec 3) : Statement (.vshr hd d a b t) := by intro k h; cases h; exact shaped32 _ _ _ (by decide) (low_append _ _)
theorem vsra (hd : Head) (d : Reg) (a : Reg) (b : Reg) (t : BitVec 3) : Statement (.vsra hd d a b t) := by intro k h; cases h; exact shaped32 _ _ _ (by decide) (low_append _ _)
theorem vadds (hd : Head) (d : Reg) (a : Reg) (b : Reg) (t : BitVec 3) : Statement (.vadds hd d a b t) := by intro k h; cases h; exact shaped32 _ _ _ (by decide) (low_append _ _)
theorem vsubs (hd : Head) (d : Reg) (a : Reg) (b : Reg) (t : BitVec 3) : Statement (.vsubs hd d a b t) := by intro k h; cases h; exact shaped32 _ _ _ (by decide) (low_append _ _)
theorem vmulh (hd : Head) (d : Reg) (a : Reg) (b : Reg) (t : BitVec 3) : Statement (.vmulh hd d a b t) := by intro k h; cases h; exact shaped32 _ _ _ (by decide) (low_append _ _)
theorem vavg (hd : Head) (d : Reg) (a : Reg) (b : Reg) (t : BitVec 3) : Statement (.vavg hd d a b t) := by intro k h; cases h; exact shaped32 _ _ _ (by decide) (low_append _ _)
theorem vceq (hd : Head) (d : Reg) (a : Reg) (b : Reg) (t : BitVec 3) : Statement (.vceq hd d a b t) := by intro k h; cases h; exact shaped32 _ _ _ (by decide) (low_append _ _)
theorem vclt (hd : Head) (d : Reg) (a : Reg) (b : Reg) (t : BitVec 3) : Statement (.vclt hd d a b t) := by intro k h; cases h; exact shaped32 _ _ _ (by decide) (low_append _ _)
theorem vcle (hd : Head) (d : Reg) (a : Reg) (b : Reg) (t : BitVec 3) : Statement (.vcle hd d a b t) := by intro k h; cases h; exact shaped32 _ _ _ (by decide) (low_append _ _)
theorem vcltu (hd : Head) (d : Reg) (a : Reg) (b : Reg) (t : BitVec 3) : Statement (.vcltu hd d a b t) := by intro k h; cases h; exact shaped32 _ _ _ (by decide) (low_append _ _)
theorem vsel (hd : Head) (d : Reg) (a : Reg) (b : Reg) (t : BitVec 3) : Statement (.vsel hd d a b t) := by intro k h; cases h; exact shaped32 _ _ _ (by decide) (low_append _ _)
theorem vfma (hd : Head) (d : Reg) (a : Reg) (b : Reg) (t : BitVec 3) : Statement (.vfma hd d a b t) := by intro k h; cases h; exact shaped32 _ _ _ (by decide) (low_append _ _)
theorem vfms (hd : Head) (d : Reg) (a : Reg) (b : Reg) (t : BitVec 3) : Statement (.vfms hd d a b t) := by intro k h; cases h; exact shaped32 _ _ _ (by decide) (low_append _ _)
theorem vdot (hd : Head) (d : Reg) (a : Reg) (b : Reg) (p : BitVec 3) : Statement (.vdot hd d a b p) := by intro k h; cases h; exact shaped32 _ _ _ (by decide) (low_append _ _)
theorem vclmul (hd : Head) (d : Reg) (a : Reg) (b : Reg) (t : BitVec 3) : Statement (.vclmul hd d a b t) := by intro k h; cases h; exact shaped32 _ _ _ (by decide) (low_append _ _)
theorem vclmulh (hd : Head) (d : Reg) (a : Reg) (b : Reg) (t : BitVec 3) : Statement (.vclmulh hd d a b t) := by intro k h; cases h; exact shaped32 _ _ _ (by decide) (low_append _ _)
theorem vrcps (hd : Head) (d : Reg) (a : Reg) (b : Reg) : Statement (.vrcps hd d a b) := by intro k h; cases h; exact shaped32 _ _ _ (by decide) (low_append _ _)
theorem vrsqs (hd : Head) (d : Reg) (a : Reg) (b : Reg) : Statement (.vrsqs hd d a b) := by intro k h; cases h; exact shaped32 _ _ _ (by decide) (low_append _ _)
theorem vrcp (hd : Head) (d : Reg) (a : Reg) : Statement (.vrcp hd d a) := by intro k h; cases h; exact shaped32 _ _ _ (by decide) (low_append _ _)
theorem vrsq (hd : Head) (d : Reg) (a : Reg) : Statement (.vrsq hd d a) := by intro k h; cases h; exact shaped32 _ _ _ (by decide) (low_append _ _)
theorem vexp2 (hd : Head) (d : Reg) (a : Reg) : Statement (.vexp2 hd d a) := by intro k h; cases h; exact shaped32 _ _ _ (by decide) (low_append _ _)
theorem vlog2 (hd : Head) (d : Reg) (a : Reg) : Statement (.vlog2 hd d a) := by intro k h; cases h; exact shaped32 _ _ _ (by decide) (low_append _ _)
theorem vsqrt (hd : Head) (d : Reg) (a : Reg) (t : BitVec 3) : Statement (.vsqrt hd d a t) := by intro k h; cases h; exact shaped32 _ _ _ (by decide) (low_append _ _)
theorem vabs (hd : Head) (d : Reg) (a : Reg) (t : BitVec 3) : Statement (.vabs hd d a t) := by intro k h; cases h; exact shaped32 _ _ _ (by decide) (low_append _ _)
theorem vneg (hd : Head) (d : Reg) (a : Reg) (t : BitVec 3) : Statement (.vneg hd d a t) := by intro k h; cases h; exact shaped32 _ _ _ (by decide) (low_append _ _)
theorem vpopc (hd : Head) (d : Reg) (a : Reg) (t : BitVec 3) : Statement (.vpopc hd d a t) := by intro k h; cases h; exact shaped32 _ _ _ (by decide) (low_append _ _)
theorem vcvt (hd : Head) (d : Reg) (a : Reg) (g : BitVec 3) (t : BitVec 3) : Statement (.vcvt hd d a g t) := by intro k h; cases h; exact shaped32 _ _ _ (by decide) (low_append _ _)
theorem vredadd (hd : Head) (d : Reg) (a : Reg) (t : BitVec 3) : Statement (.vredadd hd d a t) := by intro k h; cases h; exact shaped32 _ _ _ (by decide) (low_append _ _)
theorem vredmax (hd : Head) (d : Reg) (a : Reg) (t : BitVec 3) : Statement (.vredmax hd d a t) := by intro k h; cases h; exact shaped32 _ _ _ (by decide) (low_append _ _)
theorem vredmin (hd : Head) (d : Reg) (a : Reg) (t : BitVec 3) : Statement (.vredmin hd d a t) := by intro k h; cases h; exact shaped32 _ _ _ (by decide) (low_append _ _)
theorem vclz (hd : Head) (d : Reg) (a : Reg) (t : BitVec 3) : Statement (.vclz hd d a t) := by intro k h; cases h; exact shaped32 _ _ _ (by decide) (low_append _ _)
theorem vld (hd : Head) (d : Reg) (a : Reg) : Statement (.vld hd d a) := by intro k h; cases h; exact shaped32 _ _ _ (by decide) (low_append _ _)
theorem vst (hd : Head) (d : Reg) (a : Reg) : Statement (.vst hd d a) := by intro k h; cases h; exact shaped32 _ _ _ (by decide) (low_append _ _)
theorem vlds (hd : Head) (d : Reg) (a : Reg) (b : Reg) (t : BitVec 3) : Statement (.vlds hd d a b t) := by intro k h; cases h; exact shaped32 _ _ _ (by decide) (low_append _ _)
theorem vsts (hd : Head) (d : Reg) (a : Reg) (b : Reg) (t : BitVec 3) : Statement (.vsts hd d a b t) := by intro k h; cases h; exact shaped32 _ _ _ (by decide) (low_append _ _)
theorem vbcast (hd : Head) (d : Reg) (a : Reg) (t : BitVec 3) : Statement (.vbcast hd d a t) := by intro k h; cases h; exact shaped32 _ _ _ (by decide) (low_append _ _)
theorem vins (hd : Head) (d : Reg) (a : Reg) (b : Reg) (t : BitVec 3) : Statement (.vins hd d a b t) := by intro k h; cases h; exact shaped32 _ _ _ (by decide) (low_append _ _)
theorem vext (hd : Head) (d : Reg) (a : Reg) (b : Reg) (t : BitVec 3) : Statement (.vext hd d a b t) := by intro k h; cases h; exact shaped32 _ _ _ (by decide) (low_append _ _)
theorem vldrow (hd : Head) (d : Reg) (a : Reg) : Statement (.vldrow hd d a) := by intro k h; cases h; exact shaped32 _ _ _ (by decide) (low_append _ _)
theorem vperm (hd : Head) (d : Reg) (a : Reg) (b : Reg) (t : BitVec 3) : Statement (.vperm hd d a b t) := by intro k h; cases h; exact shaped32 _ _ _ (by decide) (low_append _ _)
theorem vzip (hd : Head) (d : Reg) (a : Reg) (b : Reg) (t : BitVec 3) : Statement (.vzip hd d a b t) := by intro k h; cases h; exact shaped32 _ _ _ (by decide) (low_append _ _)
theorem vunzip (hd : Head) (d : Reg) (a : Reg) (b : Reg) (t : BitVec 3) : Statement (.vunzip hd d a b t) := by intro k h; cases h; exact shaped32 _ _ _ (by decide) (low_append _ _)
theorem vmergeLo (hd : Head) (d : Reg) (a : Reg) (b : Reg) (t : BitVec 3) : Statement (.vmergeLo hd d a b t) := by intro k h; cases h; exact shaped32 _ _ _ (by decide) (low_append _ _)
theorem vmergeHi (hd : Head) (d : Reg) (a : Reg) (b : Reg) (t : BitVec 3) : Statement (.vmergeHi hd d a b t) := by intro k h; cases h; exact shaped32 _ _ _ (by decide) (low_append _ _)
theorem vsort (hd : Head) (d : Reg) (a : Reg) (t : BitVec 3) : Statement (.vsort hd d a t) := by intro k h; cases h; exact shaped32 _ _ _ (by decide) (low_append _ _)
theorem vslide (hd : Head) (d : Reg) (a : Reg) (b : Reg) (t : BitVec 3) : Statement (.vslide hd d a b t) := by intro k h; cases h; exact shaped32 _ _ _ (by decide) (low_append _ _)
theorem tld (hd : Head) (a : Reg) (tk : BitVec 3) (wait : BitVec 8) (dst : BitVec 2) (fmt : BitVec 4) (rows : BitVec 7) (sc : BitVec 1) (frow : BitVec 7) : Statement (.tld hd a tk wait dst fmt rows sc frow) := by intro k h; cases h; exact shaped64 _ _ _ (low_append _ _)
theorem tldP (hd : Head) (d a b : Reg) (tk : BitVec 3) (wait : BitVec 8) (fmt : BitVec 4) (rows : BitVec 7) (sc : BitVec 1) (frow : BitVec 7) : Statement (.tldP hd d a b tk wait fmt rows sc frow) := by intro k h; cases h; exact shaped64 _ _ _ (low_append _ _)
theorem tst (hd : Head) (a : Reg) (tk : BitVec 3) (wait : BitVec 8) (row0 rows : BitVec 7) (ofmt : BitVec 2) (satf : BitVec 1) : Statement (.tst hd a tk wait row0 rows ofmt satf) := by intro k h; cases h; exact shaped64 _ _ _ (low_append _ _)
theorem wload (hd : Head) (d a b : Reg) (tk : BitVec 3) (wait : BitVec 8) (src : BitVec 1) (fmt : BitVec 4) (sc : BitVec 1) (frow : BitVec 7) : Statement (.wload hd d a b tk wait src fmt sc frow) := by intro k h; cases h; exact shaped64 _ _ _ (low_append _ _)
theorem mma (hd : Head) (d b : Reg) (tk : BitVec 3) (wait : BitVec 8) (asrc : BitVec 2) (fmt : BitVec 4) (rows : BitVec 7) (lt sat ftz : BitVec 1) (wreg : BitVec 3) : Statement (.mma hd d b tk wait asrc fmt rows lt sat ftz wreg) := by intro k h; cases h; exact shaped64 _ _ _ (low_append _ _)
theorem aswap (hd : Head) (tk : BitVec 3) (wait : BitVec 8) : Statement (.aswap hd tk wait) := by intro k h; cases h; exact shaped64 _ _ _ (low_append _ _)
theorem aclr (hd : Head) (tk : BitVec 3) (wait : BitVec 8) (cf : BitVec 1) : Statement (.aclr hd tk wait cf) := by intro k h; cases h; exact shaped64 _ _ _ (low_append _ _)
theorem ard (hd : Head) (tk : BitVec 3) (wait : BitVec 8) (row0 rows : BitVec 7) (wreg : BitVec 3) : Statement (.ard hd tk wait row0 rows wreg) := by intro k h; cases h; exact shaped64 _ _ _ (low_append _ _)
theorem ast (hd : Head) (d b : Reg) (tk : BitVec 3) (wait : BitVec 8) (row0 rows : BitVec 7) (ofmt : BitVec 2) (satf : BitVec 1) : Statement (.ast hd d b tk wait row0 rows ofmt satf) := by intro k h; cases h; exact shaped64 _ _ _ (low_append _ _)
theorem lease (hd : Head) (d : Reg) (try1 : BitVec 1) : Statement (.lease hd d try1) := by intro k h; cases h; exact shaped64 _ _ _ (low_append _ _)
theorem release (hd : Head) : Statement (.release hd) := by intro k h; cases h; exact shaped64 _ _ _ (low_append _ _)
theorem vpipe (hd : Head) (d a b : Reg) (tk : BitVec 3) (wait : BitVec 8) (rr flt : BitVec 1) : Statement (.vpipe hd d a b tk wait rr flt) := by intro k h; cases h; exact shaped64 _ _ _ (low_append _ _)
theorem selq (hd : Head) (d a b : Reg) (tk : BitVec 3) (wait : BitVec 8) (rr flt : BitVec 1) : Statement (.selq hd d a b tk wait rr flt) := by intro k h; cases h; exact shaped64 _ _ _ (low_append _ _)
theorem copy (hd : Head) (a b : Reg) (tk : BitVec 3) (wait : BitVec 8) (tmpl : BitVec 4) : Statement (.copy hd a b tk wait tmpl) := by intro k h; cases h; exact shaped64 _ _ _ (low_append _ _)
theorem copyMc (hd : Head) (d a b : Reg) (tk : BitVec 3) (wait : BitVec 8) (tmpl : BitVec 4) : Statement (.copyMc hd d a b tk wait tmpl) := by intro k h; cases h; exact shaped64 _ _ _ (low_append _ _)
theorem rcall (hd : Head) (d a : Reg) (tk : BitVec 3) (wait : BitVec 8) (hidx : BitVec 6) (rr : BitVec 1) (ord : BitVec 2) : Statement (.rcall hd d a tk wait hidx rr ord) := by intro k h; cases h; exact shaped64 _ _ _ (low_append _ _)
theorem tapeRec (hd : Head) (d : Reg) (id : BitVec 3) (lim : BitVec 10) : Statement (.tapeRec hd d id lim) := by intro k h; cases h; exact shaped64 _ _ _ (low_append _ _)
theorem tapeEnd (hd : Head) (d : Reg) : Statement (.tapeEnd hd d) := by intro k h; cases h; exact shaped64 _ _ _ (low_append _ _)
theorem tapePlay (hd : Head) (a : Reg) (tk : BitVec 3) (wait : BitVec 8) (id : BitVec 3) : Statement (.tapePlay hd a tk wait id) := by intro k h; cases h; exact shaped64 _ _ _ (low_append _ _)
theorem tapePatch (hd : Head) (a b : Reg) (slot : BitVec 4) : Statement (.tapePatch hd a b slot) := by intro k h; cases h; exact shaped64 _ _ _ (low_append _ _)
theorem tapeSave (hd : Head) (a : Reg) (tk : BitVec 3) (wait : BitVec 8) (id : BitVec 3) : Statement (.tapeSave hd a tk wait id) := by intro k h; cases h; exact shaped64 _ _ _ (low_append _ _)
theorem tapeLoad (hd : Head) (a : Reg) (tk : BitVec 3) (wait : BitVec 8) (id : BitVec 3) : Statement (.tapeLoad hd a tk wait id) := by intro k h; cases h; exact shaped64 _ _ _ (low_append _ _)
theorem tapeInv (hd : Head) (id : BitVec 3) : Statement (.tapeInv hd id) := by intro k h; cases h; exact shaped64 _ _ _ (low_append _ _)
theorem li32 (hd : Head) (d a : Reg) (imm : BitVec 32) : Statement (.li32 hd d a imm) := by intro k h; cases h; exact shaped64 _ _ _ (low_append _ _)
theorem xstore (hd : Head) (a b : Reg) (w : BitVec 2) : Statement (.xstore hd a b w) := by intro k h; cases h; exact shaped64 _ _ _ (low_append _ _)
theorem tmpl (hd : Head) (a : Reg) (slot : BitVec 4) : Statement (.tmpl hd a slot) := by intro k h; cases h; exact shaped64 _ _ _ (low_append _ _)
theorem cAddisp (d : BitVec 3) (u : BitVec 8) : Statement (.cAddisp d u) := by intro k h; cases h; exact shaped16 _ _ _ (by decide)
theorem cLd (d : BitVec 3) (a : BitVec 3) (u : BitVec 5) : Statement (.cLd d a u) := by intro k h; cases h; exact shaped16 _ _ _ (by decide)
theorem cSt (d : BitVec 3) (a : BitVec 3) (u : BitVec 5) : Statement (.cSt d a u) := by intro k h; cases h; exact shaped16 _ _ _ (by decide)
theorem cWaittk (m : BitVec 8) : Statement (.cWaittk m) := by intro k h; cases h; exact shaped16 _ _ _ (by decide)
theorem cAddi (d : Reg) (i : BitVec 6) : Statement (.cAddi d i) := by intro k h; cases h; exact shaped16 _ _ _ (by decide)
theorem cLi (d : Reg) (i : BitVec 6) : Statement (.cLi d i) := by intro k h; cases h; exact shaped16 _ _ _ (by decide)
theorem cSrli (d : BitVec 3) (n : BitVec 6) : Statement (.cSrli d n) := by intro k h; cases h; exact shaped16 _ _ _ (by decide)
theorem cSrai (d : BitVec 3) (n : BitVec 6) : Statement (.cSrai d n) := by intro k h; cases h; exact shaped16 _ _ _ (by decide)
theorem cAndi (d : BitVec 3) (i : BitVec 6) : Statement (.cAndi d i) := by intro k h; cases h; exact shaped16 _ _ _ (by decide)
theorem cSub (d : BitVec 3) (b : BitVec 3) : Statement (.cSub d b) := by intro k h; cases h; exact shaped16 _ _ _ (by decide)
theorem cXor (d : BitVec 3) (b : BitVec 3) : Statement (.cXor d b) := by intro k h; cases h; exact shaped16 _ _ _ (by decide)
theorem cOr (d : BitVec 3) (b : BitVec 3) : Statement (.cOr d b) := by intro k h; cases h; exact shaped16 _ _ _ (by decide)
theorem cAnd (d : BitVec 3) (b : BitVec 3) : Statement (.cAnd d b) := by intro k h; cases h; exact shaped16 _ _ _ (by decide)
theorem cJ (o : BitVec 11) : Statement (.cJ o) := by intro k h; cases h; exact shaped16 _ _ _ (by decide)
theorem cBeqz (a : BitVec 3) (o : BitVec 8) : Statement (.cBeqz a o) := by intro k h; cases h; exact shaped16 _ _ _ (by decide)
theorem cBnez (a : BitVec 3) (o : BitVec 8) : Statement (.cBnez a o) := by intro k h; cases h; exact shaped16 _ _ _ (by decide)
theorem cSlli (d : Reg) (n : BitVec 6) : Statement (.cSlli d n) := by intro k h; cases h; exact shaped16 _ _ _ (by decide)
theorem cLdsp (d : Reg) (u : BitVec 6) : Statement (.cLdsp d u) := by intro k h; cases h; exact shaped16 _ _ _ (by decide)
theorem cStsp (d : Reg) (u : BitVec 6) : Statement (.cStsp d u) := by intro k h; cases h; exact shaped16 _ _ _ (by decide)
theorem cJr (a : Reg) : Statement (.cJr a) := by intro k h; cases h; exact shaped16 _ _ _ (by decide)
theorem cMv (d : Reg) (b : Reg) : Statement (.cMv d b) := by intro k h; cases h; exact shaped16 _ _ _ (by decide)
theorem cJalr (a : Reg) : Statement (.cJalr a) := by intro k h; cases h; exact shaped16 _ _ _ (by decide)
theorem cAdd (d : Reg) (b : Reg) : Statement (.cAdd d b) := by intro k h; cases h; exact shaped16 _ _ _ (by decide)
theorem cExit : Statement (.cExit) := by intro k h; cases h; exact shaped16 _ _ _ (by decide)
theorem loadComplete (h : HartId) : Statement (.loadComplete h) := by intro k h; cases h
theorem storeVisible (h : HartId) : Statement (.storeVisible h) := by intro k h; cases h
theorem writeBufferDrain (core n : Nat) : Statement (.writeBufferDrain core n) := by intro k h; cases h
theorem bankRequest (core bank : Nat) : Statement (.bankRequest core bank) := by intro k h; cases h
theorem refreshSlot (core : Nat) : Statement (.refreshSlot core) := by intro k h; cases h
theorem refreshEnd (core bank : Nat) : Statement (.refreshEnd core bank) := by intro k h; cases h
theorem holdStart (core bank : Nat) : Statement (.holdStart core bank) := by intro k h; cases h
theorem holdEnd (core bank : Nat) : Statement (.holdEnd core bank) := by intro k h; cases h
theorem tileLoadSegment (h : HartId) (seq : Nat) : Statement (.tileLoadSegment h seq) := by intro k h; cases h
theorem rowRepairRequest (core bank row : Nat) : Statement (.rowRepairRequest core bank row) := by intro k h; cases h
theorem repairStart (core bank : Nat) : Statement (.repairStart core bank) := by intro k h; cases h
theorem repairCopy (core bank : Nat) : Statement (.repairCopy core bank) := by intro k h; cases h
theorem repairSwitch (core bank : Nat) : Statement (.repairSwitch core bank) := by intro k h; cases h
theorem thermalSample (stack : Nat) (temps : BitVec 64) : Statement (.thermalSample stack temps) := by intro k h; cases h
theorem vaultLogMmioRead (core : Nat) : Statement (.vaultLogMmioRead core) := by intro k h; cases h
theorem poolBankAccess (cluster bank : Nat) : Statement (.poolBankAccess cluster bank) := by intro k h; cases h
theorem ldlRetry (h : HartId) : Statement (.ldlRetry h) := by intro k h; cases h
theorem tlbMiss (h : HartId) (va : Word) : Statement (.tlbMiss h va) := by intro k h; cases h
theorem ptread (stack n : Nat) : Statement (.ptread stack n) := by intro k h; cases h
theorem walkStep (stack n : Nat) : Statement (.walkStep stack n) := by intro k h; cases h
theorem messageArrival (n : Nat) : Statement (.messageArrival n) := by intro k h; cases h
theorem rloadRequest (core : Nat) : Statement (.rloadRequest core) := by intro k h; cases h
theorem rstoreRequest (core : Nat) : Statement (.rstoreRequest core) := by intro k h; cases h
theorem ramoRequest (core : Nat) : Statement (.ramoRequest core) := by intro k h; cases h
theorem rcallRequest (core : Nat) : Statement (.rcallRequest core) := by intro k h; cases h
theorem travel (core : Nat) : Statement (.travel core) := by intro k h; cases h
theorem mbxadd (core : Nat) : Statement (.mbxadd core) := by intro k h; cases h
theorem mbxwatch (core : Nat) : Statement (.mbxwatch core) := by intro k h; cases h
theorem copyreq (core : Nat) : Statement (.copyreq core) := by intro k h; cases h
theorem chunk (core : Nat) : Statement (.chunk core) := by intro k h; cases h
theorem vpjob (core : Nat) : Statement (.vpjob core) := by intro k h; cases h
theorem vpjobComplete (core : Nat) : Statement (.vpjobComplete core) := by intro k h; cases h
theorem repcommitLock (core : Nat) : Statement (.repcommitLock core) := by intro k h; cases h
theorem repcommitData (core : Nat) : Statement (.repcommitData core) := by intro k h; cases h
theorem repcommitStart (h : HartId) : Statement (.repcommitStart h) := by intro k h; cases h
theorem repcommitGrant (n : Nat) : Statement (.repcommitGrant n) := by intro k h; cases h
theorem repcommitAck (n : Nat) : Statement (.repcommitAck n) := by intro k h; cases h
theorem repcommitRetry (h : HartId) (core : Nat) : Statement (.repcommitRetry h core) := by intro k h; cases h
theorem lineLockTimeout (core : Nat) (line : Nat) : Statement (.lineLockTimeout core line) := by intro k h; cases h
theorem xactLock (core : Nat) : Statement (.xactLock core) := by intro k h; cases h
theorem xactData (core : Nat) : Statement (.xactData core) := by intro k h; cases h
theorem xactUnlock (core : Nat) : Statement (.xactUnlock core) := by intro k h; cases h
theorem xcommitVote (n : Nat) : Statement (.xcommitVote n) := by intro k h; cases h
theorem xcommitAck (n : Nat) : Statement (.xcommitAck n) := by intro k h; cases h
theorem replyFill (n : Nat) : Statement (.replyFill n) := by intro k h; cases h
theorem nack (n : Nat) : Statement (.nack n) := by intro k h; cases h
theorem travellerEndNotice (n : Nat) : Statement (.travellerEndNotice n) := by intro k h; cases h
theorem acceptanceNotice (n : Nat) : Statement (.acceptanceNotice n) := by intro k h; cases h
theorem handlerWatchdog (h : HartId) : Statement (.handlerWatchdog h) := by intro k h; cases h
theorem handlerEntryWritten (core entry : Nat) : Statement (.handlerEntryWritten core entry) := by intro k h; cases h
theorem busyTimeout (core n : Nat) : Statement (.busyTimeout core n) := by intro k h; cases h
theorem watchExpiry (core n : Nat) : Statement (.watchExpiry core n) := by intro k h; cases h
theorem watchRetry (h : HartId) (n : Nat) : Statement (.watchRetry h n) := by intro k h; cases h
theorem mbxWaitTimeout (h : HartId) (n : Nat) : Statement (.mbxWaitTimeout h n) := by intro k h; cases h
theorem bfreeCombine (cluster n : Nat) : Statement (.bfreeCombine cluster n) := by intro k h; cases h
theorem engineQueueLeave (h : HartId) (q : Nat) : Statement (.engineQueueLeave h q) := by intro k h; cases h
theorem tokenSignal (h : HartId) (seq : Nat) : Statement (.tokenSignal h seq) := by intro k h; cases h
theorem lvuTake (cluster : Nat) : Statement (.lvuTake cluster) := by intro k h; cases h
theorem leaseGrant (cluster : Nat) : Statement (.leaseGrant cluster) := by intro k h; cases h
theorem slotDrained (cluster slot : Nat) : Statement (.slotDrained cluster slot) := by intro k h; cases h
theorem turnExpiry (cluster : Nat) : Statement (.turnExpiry cluster) := by intro k h; cases h
theorem tapePlayStart (h : HartId) : Statement (.tapePlayStart h) := by intro k h; cases h
theorem tapeRecordIssue (h : HartId) : Statement (.tapeRecordIssue h) := by intro k h; cases h
theorem tapeBarrier (h : HartId) : Statement (.tapeBarrier h) := by intro k h; cases h
theorem tapePlayEnd (h : HartId) : Statement (.tapePlayEnd h) := by intro k h; cases h
theorem hqtail (q : Nat) (v : Word) : Statement (.hqtail q v) := by intro k h; cases h
theorem hqEnable (q : Nat) (v : Word) : Statement (.hqEnable q v) := by intro k h; cases h
theorem hqDisable (q : Nat) (v : Word) : Statement (.hqDisable q v) := by intro k h; cases h
theorem hqstatClr (q : Nat) : Statement (.hqstatClr q) := by intro k h; cases h
theorem launchRecordAccept (q : Nat) : Statement (.launchRecordAccept q) := by intro k h; cases h
theorem recordFlush (q : Nat) : Statement (.recordFlush q) := by intro k h; cases h
theorem launchReady (stack lslot : Nat) : Statement (.launchReady stack lslot) := by intro k h; cases h
theorem unitDispatch (stack lslot unit slot : Nat) : Statement (.unitDispatch stack lslot unit slot) := by intro k h; cases h
theorem gangBind (stack lslot : Nat) : Statement (.gangBind stack lslot) := by intro k h; cases h
theorem priorityAging (stack lslot : Nat) : Statement (.priorityAging stack lslot) := by intro k h; cases h
theorem unitEnd (h : HartId) : Statement (.unitEnd h) := by intro k h; cases h
theorem preemptReq (h : HartId) : Statement (.preemptReq h) := by intro k h; cases h
theorem preemptKill (h : HartId) : Statement (.preemptKill h) := by intro k h; cases h
theorem safePointTake (h : HartId) : Statement (.safePointTake h) := by intro k h; cases h
theorem clusterSave (cluster : Nat) : Statement (.clusterSave cluster) := by intro k h; cases h
theorem saveComplete (cluster : Nat) : Statement (.saveComplete cluster) := by intro k h; cases h
theorem unitResume (saved : HartId) (h : HartId) : Statement (.unitResume saved h) := by intro k h; cases h
theorem migrationDeadline (h : HartId) : Statement (.migrationDeadline h) := by intro k h; cases h
theorem safepointWatchdog (h : HartId) : Statement (.safepointWatchdog h) := by intro k h; cases h
theorem slotctlRestart (h : HartId) : Statement (.slotctlRestart h) := by intro k h; cases h
theorem htbaseWrite (core : Nat) (v : Word) : Statement (.htbaseWrite core v) := by intro k h; cases h
theorem msgerrWrite (h : HartId) : Statement (.msgerrWrite h) := by intro k h; cases h
theorem vaultevtWrite (core : Nat) (v : Word) : Statement (.vaultevtWrite core v) := by intro k h; cases h
theorem aqstatWrite (core : Nat) (v : Word) : Statement (.aqstatWrite core v) := by intro k h; cases h
theorem spillConfigWrite (core : Nat) (quota : Bool) (v : Word) : Statement (.spillConfigWrite core quota v) := by intro k h; cases h
theorem registerWrite (pa : Nat) (v : Word) : Statement (.registerWrite pa v) := by intro k h; cases h
theorem ckptEnable (v : Word) : Statement (.ckptEnable v) := by intro k h; cases h
theorem ckptClose : Statement (.ckptClose) := by intro k h; cases h
theorem intervalTimer : Statement (.intervalTimer) := by intro k h; cases h
theorem logThreshold (core : Nat) : Statement (.logThreshold core) := by intro k h; cases h
theorem rollback (ccb : Nat) (why : RollCause) : Statement (.rollback ccb why) := by intro k h; cases h
theorem lockstepMismatch (cluster : Nat) : Statement (.lockstepMismatch cluster) := by intro k h; cases h
theorem snapWrite (stack : Nat) : Statement (.snapWrite stack) := by intro k h; cases h
theorem errorEvent (u : UnitId) : Statement (.errorEvent u) := by intro k h; cases h
theorem unitRetire (u : UnitId) : Statement (.unitRetire u) := by intro k h; cases h
theorem linkRetry (port : Nat) : Statement (.linkRetry port) := by intro k h; cases h
theorem linkDown (port : Nat) : Statement (.linkDown port) := by intro k h; cases h
theorem linkRetrain (port : Nat) : Statement (.linkRetrain port) := by intro k h; cases h
theorem hostWrite (src : Nat) (pa : Nat) (bytes : List Byte) : Statement (.hostWrite src pa bytes) := by intro k h; cases h
theorem hostRead (src : Nat) (pa n : Nat) : Statement (.hostRead src pa n) := by intro k h; cases h
theorem hostAtomicop (src : Nat) (op : BitVec 2) (w : BitVec 1) (pa : Nat) (v cmp : Word) : Statement (.hostAtomicop src op w pa v cmp) := by intro k h; cases h
theorem mctpRequest (ask : MctpAsk) : Statement (.mctpRequest ask) := by intro k h; cases h
theorem firmwareUpdate (img : FwImage) : Statement (.firmwareUpdate img) := by intro k h; cases h
theorem deviceReset : Statement (.deviceReset) := by intro k h; cases h
theorem stackReset (stack : Nat) : Statement (.stackReset stack) := by intro k h; cases h
theorem powerUp (fail : Option Nat) : Statement (.powerUp fail) := by intro k h; cases h
theorem layerPowerGate (stack layer : Nat) : Statement (.layerPowerGate stack layer) := by intro k h; cases h
theorem configRecord (cr : ConfigRec) : Statement (.configRecord cr) := by intro k h; cases h
theorem clkstepWrite (cluster : Nat) (v : Word) : Statement (.clkstepWrite cluster v) := by intro k h; cases h
theorem jobRelease (stack job : Nat) : Statement (.jobRelease stack job) := by intro k h; cases h
theorem supervisorNotice (n : Nat) : Statement (.supervisorNotice n) := by intro k h; cases h
theorem portUp (port : Nat) (peer : BitVec 16) : Statement (.portUp port peer) := by intro k h; cases h
theorem clusterPowerGate (cluster : Nat) : Statement (.clusterPowerGate cluster) := by intro k h; cases h
theorem powerUngate (u : UnitId) : Statement (.powerUngate u) := by intro k h; cases h

end Sys2Proof.Laws.Shape
end

