-- ==== Sys2Proof/Tests/Slice0.lean ====
section
/-! SUPPORT. Sys2Proof/Tests/Slice0.lean: words of the spec that decode, terms that well-formedness refuses, single steps with results from the
spec's worked examples, and for every statement states that meet its hypotheses. -/

namespace Sys2Proof.Tests

set_option Elab.async false

open Sys2Proof.Machine Sys2Proof.Claims

/-! ### States -/

/-- Slot 0 of core 0 running, everything else at reset. -/
def w0 : State := State.reset.modHart firstHart (fun h => { h with st := .running })

/-- The same with a change of the running thread. -/
def th (f : Hart → Hart) : State := w0.modMe f

/-- A thread that runs in an address space whose tables map the first 2 MB of the vault of core 0 to themselves. -/
def wm : State := State.reset.loaded []

/-- A message of thread 0 of core 8 to core 0. -/
def m0 : Msg :=
  { w0.newMsg ⟨.thread, 8, 0⟩ .rload 0xFFFF 0 with id := 5, hidx := 16, rr := true, rreg := 9, addr := 0x40, data := 7, args := [0, 0, 0, 0, 0, 0, 0, 0] }

/-- Handler context 0 of core 0 running for a call. -/
def wc : State :=
  { State.reset with cur := ⟨.ctx, 0, 0⟩ }.modMe (fun h => { h with st := .running, ctx := { CtxInfo.none with arrival := some { m0 with kind := .rcall } } })

/-- Core 0 with arrivals. -/
def arrived (ms : List Msg) : State := w0.modCore 0 (fun c => { c with ondie := ms })

/-- The registers of an instruction are clear, as a test. -/
def clearB (s : State) (hd : Head) (srcs dsts : List RegRef) : Bool :=
  !(hd.s && hd.mask.getLsbD 27) && srcs.all (fun r => s.regSt r == .full && !s.loading r) &&
  dsts.all (fun r => (s.regSt r == .void || s.regSt r == .full) && !s.loading r)

theorem clear_of {s : State} {hd : Head} {srcs dsts : List RegRef} (h : clearB s hd srcs dsts = true) : s.clear hd srcs dsts := by
  simp only [clearB, Bool.and_eq_true, Bool.not_eq_true', List.all_eq_true, Bool.or_eq_true, beq_iff_eq] at h
  exact ⟨h.1.1, h.1.2, h.2⟩

/-- A thread or a management core that holds no pool lock, as a test. -/
theorem free_of {s : State} (h : (!s.cur.isCtx && s.me.lock == none) = true) : s.freeThread := by
  simpa [State.freeThread] using h

/-- A hart at a new instruction, as a test. -/
theorem fresh_of {s : State} (h : (!(s.vault s.myCore).reads (.instr s.cur) && s.lockHeld s.cur == s.me.lock &&
    !s.dev.early.any (fun e => e.1 == .instr s.cur)) = true) : s.fresh := by
  simp only [Bool.and_eq_true, Bool.not_eq_true', beq_iff_eq] at h
  exact ⟨h.1.1, h.1.2, h.2⟩

/-! ### Words of the spec (R216 to R229) -/

theorem test_decode_sub : reads 4 0x02731413 (.sub Head.plain 5 6 7) := by unfold reads; decide +kernel
theorem test_decode_slli : reads 4 0x00329463 (.slli Head.plain 5 5 3) := by unfold reads; decide +kernel
theorem test_decode_lhi : reads 4 0x091A1493 (.lhi Head.plain 5 0x1234) := by unfold reads; decide +kernel
theorem test_decode_clmul : reads 4 0x12C5A8C3 (.clmul Head.plain 10 11 12) := by unfold reads; decide +kernel
theorem test_decode_nop : reads 4 0x00000023 (.addi Head.plain 0 0 0) := by unfold reads; decide +kernel
theorem test_decode_fadd : reads 4 0x007314D3 (.faddS Head.plain 5 6 7) := by unfold reads; decide +kernel
theorem test_decode_fmadd : reads 4 0x107314E3 (.fmaddS Head.plain 5 6 7 8) := by unfold reads; decide +kernel
theorem test_decode_beq : reads 4 0xFFC31503 (.beq Head.plain 5 6 0xFFC) := by unfold reads; decide +kernel
theorem test_decode_jal : reads 4 0x00400563 (.jal Head.plain 1 0x80) := by unfold reads; decide +kernel
theorem test_decode_loop : reads 4 0x00A28183 (.loop Head.plain 5 0x0A) := by unfold reads; decide +kernel
theorem test_decode_loopi : reads 4 0x00C00D93 (.loopi Head.plain 3 0x0C) := by unfold reads; decide +kernel
theorem test_decode_st : reads 4 0xFC2131B3 (.st Head.plain 12 2 2 0x7E) := by unfold reads; decide +kernel
theorem test_decode_ld_acq : reads 4 0x00B515A3 (.ldAcq Head.plain 5 10 3 0 0) := by unfold reads; decide +kernel
theorem test_decode_ldl : reads 4 0x013599A3 (.ldl Head.plain 6 11 3 0 0) := by unfold reads; decide +kernel
theorem test_decode_ldx : reads 4 0x06B515E3 (.ldx Head.plain 5 10 11 3 0 0) := by unfold reads; decide +kernel
theorem test_decode_amoadd : reads 4 0xE09521C3 (.amoadd Head.plain 8 10 9 1 3) := by unfold reads; decide +kernel
theorem test_decode_fence : reads 4 0x080001D3 (.fence Head.plain 4) := by unfold reads; decide +kernel
theorem test_decode_fence_v : reads 4 0x320001D3 (.fenceV Head.plain 1) := by unfold reads; decide +kernel
theorem test_decode_act : reads 4 0x00053203 (.actEngine Head.plain 12 10) := by unfold reads; decide +kernel
theorem test_decode_rload : reads 4 0x00755213 (.rload Head.plain 20 10 3 1) := by unfold reads; decide +kernel
theorem test_decode_mbx_add : reads 4 0x00B50223 (.mbxAdd Head.plain 10 11) := by unfold reads; decide +kernel
theorem test_decode_mbx_wait : reads 4 0x02B55223 (.mbxWait Head.plain 20 10 11) := by unfold reads; decide +kernel
theorem test_decode_waittk : reads 4 0x00600243 (.waittk Head.plain 6) := by unfold reads; decide +kernel
theorem test_decode_eret : reads 4 0x02000263 (.eret Head.plain) := by unfold reads; decide +kernel
theorem test_decode_exit : reads 4 0x08000263 (.exit Head.plain) := by unfold reads; decide +kernel
theorem test_decode_tlbinv : reads 4 0x18B50263 (.tlbinv Head.plain 10 11) := by unfold reads; decide +kernel
theorem test_decode_csrbis : reads 4 0x00201683 (.csrbis Head.plain 5 0 2) := by unfold reads; decide +kernel
theorem test_decode_vld : reads 4 0x000512D3 (.vld Head.plain 4 10) := by unfold reads; decide +kernel
theorem test_decode_vcvt : reads 4 0x00808AC3 (.vcvt Head.plain 2 1 0 0) := by unfold reads; decide +kernel
theorem test_decode_vmerge : reads 4 0x40208EE3 (.vmergeHi Head.plain 3 1 2 0) := by unfold reads; decide +kernel
theorem test_decode_tld : reads 8 (0x000503F3 + 0x01FE4009 * 2 ^ 32) (.tld Head.plain 10 1 1 0 2 127 1 0) := by unfold reads; decide +kernel
theorem test_decode_mma : reads 8 (0x080003F3 + 0x01FE4012 * 2 ^ 32) (.mma Head.plain 0 0 2 2 0 2 127 1 0 0 0) := by unfold reads; decide +kernel
theorem test_decode_aswap : reads 8 (0x0A0003F3 + 0x00000023 * 2 ^ 32) (.aswap Head.plain 3 4) := by unfold reads; decide +kernel
theorem test_decode_tst : reads 8 (0x040603F3 + 0x01FC0043 * 2 ^ 32) (.tst Head.plain 12 3 8 0 127 0 0) := by unfold reads; decide +kernel
theorem test_decode_lease : reads 8 (0x120017F3 + 0x00000001 * 2 ^ 32) (.lease Head.plain 5 1) := by unfold reads; decide +kernel
theorem test_decode_copy : reads 8 (0x1AB503F3 + 0x0000180A * 2 ^ 32) (.copy Head.plain 10 11 2 1 3) := by unfold reads; decide +kernel
theorem test_decode_selq : reads 8 (0x18B553F3 + 0x00000801 * 2 ^ 32) (.selq Head.plain 20 10 11 1 0 1 0) := by unfold reads; decide +kernel
theorem test_decode_tape_rec : reads 8 (0x220017F3 + 0x00000081 * 2 ^ 32) (.tapeRec Head.plain 5 1 16) := by unfold reads; decide +kernel
theorem test_decode_tape_play : reads 8 (0x260003F3 + 0x00000800 * 2 ^ 32) (.tapePlay Head.plain 0 0 0 1) := by unfold reads; decide +kernel
theorem test_decode_tape_patch : reads 8 (0x291803F3) (.tapePatch Head.plain 16 17 0) := by unfold reads; decide +kernel
theorem test_decode_li32 : reads 8 (0x300017F3 + 0xDEADBEEF * 2 ^ 32) (.li32 Head.plain 5 0 0xDEADBEEF) := by unfold reads; decide +kernel
theorem test_decode_xstore : reads 8 (0x32B503F3 + 3 * 2 ^ 32) (.xstore Head.plain 10 11 3) := by unfold reads; decide +kernel
theorem test_decode_tmpl : reads 8 (0x1E0503F3 + 3 * 2 ^ 32) (.tmpl Head.plain 10 3) := by unfold reads; decide +kernel
theorem test_decode_tape_inv : reads 8 (0x2E0003F3 + 1 * 2 ^ 32) (.tapeInv Head.plain 1) := by unfold reads; decide +kernel
theorem test_decode_c_addi : reads 2 0xFCA1 (.cAddi 5 0x3F) := by unfold reads; decide +kernel
theorem test_decode_c_exit : reads 2 0x800E .cExit := by unfold reads; decide +kernel
theorem test_decode_c_j : reads 2 0x004D (.cJ 2) := by unfold reads; decide +kernel

/-- A safe point takes its live mask from the word that follows (R180). -/
theorem test_decode_mask : reads 8 (0x00600247 + 0x0000000F * 2 ^ 32) (.waittk ⟨true, false, 0xF⟩ 6) := by unfold reads; decide +kernel

/-- A selector that is not listed is illegal (cause 0x01), a used reserved field is reserved (cause 0x02), too few bytes are short. -/
theorem test_decode_illegal : (decode (bytesOf 4 0xFE731413)).isOk = false := by decide +kernel
theorem test_decode_reserved : (decode (bytesOf 4 0x02100263)).isOk = false := by decide +kernel
theorem test_decode_short : (decode (bytesOf 3 0x02731413)).isOk = false := by decide +kernel

/-! ### Terms that well-formedness refuses, one for each check -/

/-- A live mask on an instruction without the S bit (R180). -/
theorem test_wf_head : (Instr.add ⟨false, false, 1⟩ 1 2 3).wellFormed = false := by decide
/-- A float type on an integer-only vector instruction (R304). -/
theorem test_wf_typeI : (Instr.vshl Head.plain 1 2 3 0).wellFormed = false := by decide
/-- An integer type on VSQRT (R304). -/
theorem test_wf_typeF : (Instr.vsqrt Head.plain 1 2 3).wellFormed = false := by decide
/-- A 32-bit type on VCLMUL (R305). -/
theorem test_wf_type64 : (Instr.vclmul Head.plain 1 2 3 5).wellFormed = false := by decide
/-- A 16-bit key (R316). -/
theorem test_wf_typeKey : (Instr.vsort Head.plain 1 2 4).wellFormed = false := by decide
/-- A conversion between equal integer types (R311). -/
theorem test_wf_typeCvt : (Instr.vcvt Head.plain 1 2 5 5).wellFormed = false := by decide
/-- An unsigned load of width D (R221). -/
theorem test_wf_widthU : (Instr.ld Head.plain 5 6 3 1 0).wellFormed = false := by decide
/-- A remote AMO of width B (R278). -/
theorem test_wf_widthWD : (Instr.ramoadd Head.plain 5 6 0 0).wellFormed = false := by decide
/-- A loop whose END is its START (R251). -/
theorem test_wf_loopEnd : (Instr.loop Head.plain 5 2).wellFormed = false := by decide
/-- A fence of scope 6 (R228). -/
theorem test_wf_scope : (Instr.fence Head.plain 6).wellFormed = false := by decide
/-- A remote load to x0 (R276). -/
theorem test_wf_notX0 : (Instr.rload Head.plain 0 5 3 0).wellFormed = false := by decide
/-- An RAMOCAS to an odd register (R277). -/
theorem test_wf_pair : (Instr.ramocas Head.plain 5 6 3 0).wellFormed = false := by decide
/-- A TLD to the destination code 3 (R329). -/
theorem test_wf_dst : (Instr.tld Head.plain 10 1 1 3 2 127 0 0).wellFormed = false := by decide
/-- FROW beyond the rows of a TLD (R329). -/
theorem test_wf_frow : (Instr.tld Head.plain 10 1 1 0 2 3 0 4).wellFormed = false := by decide
/-- SC = 1 with a format that has no scales (R329). -/
theorem test_wf_scale : (Instr.tld Head.plain 10 1 1 0 0 127 1 0).wellFormed = false := by decide
/-- 128 rows of FP32 do not fit an operand buffer (R331). -/
theorem test_wf_fits : (Instr.tld Head.plain 10 1 1 0 6 127 0 0).wellFormed = false := by decide
/-- An MMA from an operand buffer that names a register of another source (R334). -/
theorem test_wf_mmaSrc : (Instr.mma Head.plain 1 0 2 2 0 2 127 1 0 0 0).wellFormed = false := by decide
/-- Rows beyond row 127 of an AST (R329). -/
theorem test_wf_rows : (Instr.ast Head.plain 10 1 1 0 1 127 0 0).wellFormed = false := by decide
/-- An ARD of 33 rows (R339). -/
theorem test_wf_ard : (Instr.ard Head.plain 1 0 0 32 0).wellFormed = false := by decide
/-- VPIPE with RR = 1 and x0 (R343). -/
theorem test_wf_rr : (Instr.vpipe Head.plain 0 10 11 0 0 1 0).wellFormed = false := by decide
/-- A tape of no records (R363). -/
theorem test_wf_max : (Instr.tapeRec Head.plain 5 1 0).wellFormed = false := by decide
/-- Units that do not exist (R1, R9, R10, R43, R408). -/
theorem test_wf_core : (Instr.refreshSlot 2048).wellFormed = false := by decide
theorem test_wf_bank : (Instr.refreshEnd 0 32).wellFormed = false := by decide
theorem test_wf_cluster : (Instr.lvuTake 256).wellFormed = false := by decide
theorem test_wf_stack : (Instr.snapWrite 4).wellFormed = false := by decide
theorem test_wf_port : (Instr.linkDown 32).wellFormed = false := by decide
theorem test_wf_hart : (Instr.loadComplete ⟨.thread, 0, 4⟩).wellFormed = false := by decide
theorem test_wf_hart_mgmt : (Instr.loadComplete ⟨.mgmt, 4, 0⟩).wellFormed = false := by decide
/-- What does exist passes. -/
theorem test_wf_ok : (Instr.loadComplete ⟨.mgmt, 3, 0⟩).wellFormed = true ∧ (Instr.tld Head.plain 10 1 1 0 2 127 1 0).wellFormed = true ∧
    (Instr.loop Head.plain 5 3).wellFormed = true := by decide

/-! ### Witnesses: states and operands that meet the hypotheses of the statements

Each theorem names the statement; where a statement has several clauses, its parts are the clauses in their order. -/

/-- An access that passes its checks, and a test of the translation and of the state after it. -/
def passes (r : State × Checked) (p : State → Xlat → Bool) : Bool :=
  match r with
  | (t, .ok x) => p t x
  | _ => false

theorem passes_of {r : State × Checked} {p : State → Xlat → Bool} (h : passes r p = true) :
    ∃ t x, r = (t, .ok x) ∧ p t x = true := by
  rcases r with ⟨t, x | c | _⟩
  · exact ⟨t, x, rfl, h⟩
  all_goals simp [passes] at h

/-- A thread that has read two registers, in the identity-mapped space. -/
def wr (f : Hart → Hart) : State := wm.modMe f

theorem wit_AluRegister : w0.clear Head.plain [.x 1, .x 2] [.x 3] := clear_of (by decide +kernel)
theorem wit_AluRegister_sameAndX0 : w0.clear ⟨true, false, 0xF⟩ [.x 0, .x 31] [.x 0] := clear_of (by decide +kernel)
theorem wit_MultiplyDivide : w0.clear Head.plain [.x 1, .x 2] [.x 3] := clear_of (by decide +kernel)
theorem wit_BitManipulation : w0.clear Head.plain [.x 1, .x 2, .x 3] [.x 3] := clear_of (by decide +kernel)
theorem wit_AluImmediate : w0.clear Head.plain [.x 1] [.x 3] := clear_of (by decide +kernel)
theorem wit_AluImmediate_compressed : w0.clear Head.plain [.x 2] [.x (prime 0)] ∧ w0.clear Head.plain [.x 5] [.x 5] ∧
    w0.clear Head.plain [] [.x 5] ∧ w0.clear Head.plain [.x (prime 7)] [.x (prime 7)] ∧
    w0.clear Head.plain [.x (prime 1), .x (prime 2)] [.x (prime 1)] ∧ w0.clear Head.plain [.x 5] [.x 6] ∧ w0.clear Head.plain [.x 6, .x 5] [.x 6] := by
  and_intros <;> decide +kernel
theorem wit_ScalarFloat : w0.clear Head.plain [.x 1, .x 2, .x 3] [.x 3] := clear_of (by decide +kernel)

/-- 1.0 in x1 and x2. -/
def wf : State := th (fun h => (h.wx 1 0x3F800000).wx 2 0x3F800000)

theorem one_fp32 : value32 0x3F800000 = 1 := by norm_num [value32]

theorem wit_FloatValues_sum : wf.clear Head.plain [.x 1, .x 2] [.x 3] ∧ wf.me.csr.fcsr.getLsbD 8 = false ∧ finite32 (fp32 (wf.rx 1)) ∧
    finite32 (fp32 (wf.rx 2)) ∧ finite32 0x40000000 ∧ value32 0x40000000 = value32 (fp32 (wf.rx 1)) + value32 (fp32 (wf.rx 2)) := by
  have h1 : fp32 (wf.rx 1) = 0x3F800000 := by decide +kernel
  have h2 : fp32 (wf.rx 2) = 0x3F800000 := by decide +kernel
  simp only [h1, h2, one_fp32]
  exact ⟨clear_of (by decide +kernel), by decide +kernel, by norm_num [finite32], by norm_num [finite32], by norm_num [finite32], by norm_num [value32]⟩
theorem wit_FloatValues_difference_product : finite32 0 ∧ value32 0 = value32 (fp32 (wf.rx 1)) - value32 (fp32 (wf.rx 2)) ∧
    finite32 0x3F800000 ∧ value32 0x3F800000 = value32 (fp32 (wf.rx 1)) * value32 (fp32 (wf.rx 2)) := by
  have h1 : fp32 (wf.rx 1) = 0x3F800000 := by decide +kernel
  have h2 : fp32 (wf.rx 2) = 0x3F800000 := by decide +kernel
  simp only [h1, h2, one_fp32]
  exact ⟨by norm_num [finite32], by norm_num [value32], by norm_num [finite32], by norm_num⟩
/-- The NaN of the smallest payload. -/
theorem wit_FloatValues_nan : 255 * 2 ^ 23 < fp32 ((th (fun h => h.wx 1 0x7F800001)).rx 1) % 2 ^ 31 := by decide +kernel

theorem wit_Jumps : w0.clear Head.plain [.x 1] [.x 1] ∧ (w0.rx 1 + BitVec.ofInt 64 (0x7FE#12).toInt).toNat < 2 ^ 48 ∧
    (w0.rx 1 + BitVec.ofInt 64 (0x7FE#12).toInt).toNat % 2 = 0 := by
  and_intros <;> decide +kernel
theorem wit_Jumps_traps : w0.clear Head.plain [.x 1] [.x 1] ∧ w0.cur.isCtx = false ∧ w0.me.inTrap = false ∧
    (w0.rx 1 + BitVec.ofInt 64 (1#12).toInt).toNat % 2 = 1 ∧ (w0.rx 1 + BitVec.ofInt 64 (0xFFE#12).toInt).toNat % 2 = 0 ∧
    2 ^ 48 ≤ (w0.rx 1 + BitVec.ofInt 64 (0xFFE#12).toInt).toNat := by
  and_intros <;> decide +kernel

/-- A thread within loops that end at address 4. -/
def wl (l : List LoopEnt) : State := th (fun h => { h with loops := l })

theorem wit_LoopsAndSuccessors_ends : w0.clear Head.plain [.x 0] [.x 0] ∧ w0.me.loops = [] ∧
    (wl [⟨0, 8, 3⟩]).me.loops = [⟨0, 8, 3⟩] ∧ (8 : Word) ≠ w0.me.pc + 4 ∧ (wl [⟨0, 4, 2⟩]).me.loops = [⟨0, 4, 2⟩] ∧ (4 : Word) = w0.me.pc + 4 ∧
    1 < (2 : Word).toNat ∧ (wl [⟨0, 4, 1⟩]).me.loops = [⟨0, 4, 1⟩] ∧ (1 : Word).toNat ≤ 1 ∧
    (wl [⟨0, 4, 1⟩, ⟨0, 4, 2⟩]).me.loops = [⟨0, 4, 1⟩, ⟨0, 4, 2⟩] := by
  and_intros <;> decide +kernel
theorem wit_LoopsAndSuccessors_loop : w0.clear Head.plain [.x 5] [] ∧ (th (fun h => h.wx 5 1)).rx 5 ≠ 0 ∧ w0.rx 5 = 0 ∧
    (wl [⟨0, 4, 1⟩, ⟨0, 4, 2⟩, ⟨0, 4, 2⟩]).me.loops.length < 4 ∧ 4 ≤ (wl [⟨0, 4, 1⟩, ⟨0, 4, 2⟩, ⟨0, 4, 2⟩, ⟨0, 4, 2⟩]).me.loops.length ∧
    w0.me.inTrap = false ∧ w0.cur.isCtx = false := by
  and_intros <;> decide +kernel

theorem wit_Branches : w0.clear Head.plain [.x 1, .x 2] [] ∧ w0.rx 1 = w0.rx 2 ∧
    (let s := th (fun h => h.wx 1 (-1)); s.rx 1 ≠ s.rx 2 ∧ (s.rx 1).toInt < (s.rx 2).toInt ∧ (s.rx 2).toNat ≤ (s.rx 1).toNat) := by
  and_intros <;> decide +kernel
theorem wit_Branches_compressed : w0.clear Head.plain [.x (prime 3)] [] ∧ w0.rx (prime 3) = 0 ∧ (th (fun h => h.wx 11 1)).rx (prime 3) ≠ 0 ∧
    w0.clear Head.plain [.x 5] [.x 1] ∧ (w0.rx 5).toNat < 2 ^ 48 ∧ (w0.rx 5).toNat % 2 = 0 := by
  and_intros <;> decide +kernel

/-- A load and a store of width D at the last eight bytes of the first page of the vault, by registers of its own and of C.LD, C.ST. -/
def wa : State := wr (fun h => (((h.wx 10 0x1FF8).wx 2 0x1F00).wx 8 0x1FF8).wx 11 0x3FF)

theorem wit_LoadsIssue : wa.me.acqWait = false ∧ wa.clear Head.plain [.x 10] [.x 5] ∧ wa.clear Head.plain [.x 10, .x 0] [.x 5] ∧
    wa.clear Head.plain [.x (prime 0)] [.x (prime 1)] ∧ wa.clear Head.plain [.x 2] [.x 5] ∧
    (∃ t x, reaches (.load 8 true) 8 (eaM wa 10 0 3) wa t x ∧
      (mmioHole x.pa == false && t.badWord x.pa 8 == none && forwardAll t.me.busy.sb [(x.pa, 8)] != .part) = true) ∧
    (∃ t x, reaches (.load 8 true) 8 (wa.rx 10 + BitVec.ofNat 64 ((wa.rx 0).toNat * 8)) wa t x ∧ true = true) ∧
    (∃ t x, reaches (.load 8 true) 8 (wa.rx (prime 0) + BitVec.ofNat 64 (8 * (0#5).toNat)) wa t x ∧ true = true) ∧
    (∃ t x, reaches (.load 8 true) 8 (wa.rx 2 + BitVec.ofNat 64 (8 * (31#6).toNat)) wa t x ∧ true = true) := by
  and_intros <;> first | decide +kernel | exact passes_of (by decide +kernel)

theorem wit_StoresIssue : wa.me.acqWait = false ∧ wa.clear Head.plain [.x 5, .x 10] [] ∧ wa.clear Head.plain [.x 5, .x 10, .x 0] [] ∧
    wa.clear Head.plain [.x (prime 1), .x (prime 0)] [] ∧ wa.clear Head.plain [.x 5, .x 2] [] ∧
    (∃ t x, reaches .store 8 (eaM wa 10 0 3) wa t x ∧ (mmioHole x.pa == false) = true) ∧
    (∃ t x, reaches .store 1 (wa.rx 10 + BitVec.ofNat 64 ((wa.rx 0).toNat * 1)) wa t x ∧ true = true) ∧
    (∃ t x, reaches .store 8 (wa.rx (prime 0) + BitVec.ofNat 64 (8 * (0#5).toNat)) wa t x ∧ true = true) ∧
    (∃ t x, reaches .store 8 (wa.rx 2 + BitVec.ofNat 64 (8 * (31#6).toNat)) wa t x ∧ true = true) := by
  and_intros <;> first | decide +kernel | exact passes_of (by decide +kernel)

/-- The page at 0x200000 of the thread mapped to a page of 4 KB, with a change of its entry. -/
def pageAt (pa : Nat) (f : TlbEnt → TlbEnt) : State :=
  wm.modCore 0 (fun c => { c with tlb := [f ⟨0, 0x200000, 0x1000, pa, true, true, true, true, false, 0, none⟩] })

/-- The same with the address in x10. -/
def wp (pa : Nat) (f : TlbEnt → TlbEnt) : State := (pageAt pa f).modMe (fun h => h.wx 10 0x200000)

/-- A translation that gives an entry, and a test of it. -/
def given (c : Checked) (p : Xlat → Bool) : Bool :=
  match c with
  | .ok x => p x
  | _ => false

theorem some_of {c : Checked} {p : Xlat → Bool} (h : given c p = true) : ∃ x, c = .ok x ∧ p x = true := by
  cases c with
  | ok x => exact ⟨x, rfl, h⟩
  | _ => simp [given] at h

/-- The address that every access of these states names, translated. -/
def atX10 (s : State) : Checked := (s.translate (.instr s.cur) (eaM s 10 0 3)).2

/-- What every clause of AccessFaults asks. -/
def plainAcc (s : State) : Bool := clearB s Head.plain [.x 5, .x 10] [.x 5] && s.me.acqWait == false && !s.cur.isCtx && !s.me.inTrap

theorem plainAcc_of {s : State} (h : plainAcc s = true) : s.clear Head.plain [.x 5, .x 10] [.x 5] ∧ s.me.acqWait = false ∧ s.cur.isCtx = false ∧
    s.me.inTrap = false := by
  simp only [plainAcc, Bool.and_eq_true, beq_iff_eq, Bool.not_eq_true'] at h
  exact ⟨clear_of h.1.1.1, h.1.1.2, h.1.2, h.2⟩

/-- A vault of which a bank has served one line for a reader. -/
def servedFor (core : Nat) (who : Reader) (line : Nat) (s : State) : State := s.modVault core (fun v => { v with served := [⟨who, line, 1, 0, 0, 0, true, 0, true⟩] })

theorem wit_AccessFaults_alignment : plainAcc (wr (fun h => h.wx 10 1)) = true ∧ (eaM (wr (fun h => h.wx 10 1)) 10 0 1).toNat % 2 ≠ 0 := by decide +kernel
/-- An address beyond the virtual space, and one whose walk has answered with cause 0x06. -/
theorem wit_AccessFaults_translation : ∀ s ∈ [wr (fun h => h.wx 10 0x1000000000000), wr (fun h =>
      (h.wx 10 0x200000).modBusy (fun b => { b with walked := [⟨none, 0x200000, h.csr.ptroot, h.csr.repset, none, 0x06, false⟩] }))],
    plainAcc s = true ∧ (eaM s 10 0 3).toNat % 8 = 0 ∧ atX10 s = .fault 0x06 := by decide +kernel
theorem wit_AccessFaults_permissions : plainAcc (wp 0x1000 id) = true ∧
    (∃ x, atX10 (wp 0x1000 (fun e => { e with r := false })) = .ok x ∧ (!x.ent.r) = true) ∧
    (∃ x, atX10 (wp 0x1000 (fun e => { e with w := false })) = .ok x ∧ (!x.ent.w) = true) ∧
    (∃ x, atX10 (wp 0x1000 (fun e => { e with u := false })) = .ok x ∧ (!x.ent.u) = true) := by
  and_intros <;> first | decide +kernel | exact some_of (by decide +kernel)
/-- The level of regions 3 and 4, a vault of another core, a pool of another cluster. -/
theorem wit_AccessFaults_reach : plainAcc (wp 0x300000000000 id) = true ∧ wm.me.priv = 0 ∧
    (∃ x, atX10 (wp 0x300000000000 id) = .ok x ∧ (x.ent.r && x.ent.w && x.ent.u && region x.pa == 3) = true) ∧
    (∃ x, atX10 (wp 0x400000000000 id) = .ok x ∧ (x.ent.r && x.ent.w && x.ent.u && region x.pa == 4) = true) ∧
    (∃ x, atX10 (wp 0x10000000 id) = .ok x ∧ (region x.pa == 0 && paCore x.pa != 0) = true) ∧
    (∃ x, atX10 (wp 0x100000200000 id) = .ok x ∧ (region x.pa == 1 && paCluster x.pa != clusterOf 0) = true) := by
  and_intros <;> first | decide +kernel | exact some_of (by decide +kernel)

/-- The thread with the page at 0x200000 in the pool of its cluster. -/
def wpool : State := wp 0x100000000000 id

/-- The same holding the lock of the page's first line. -/
def wpoolHeld : State :=
  (wpool.modMe (fun h => { h with lock := some (lockOf 0x100000000000) })).modCluster 0
    (fun c => { c with locks := c.locks.set (lockOf 0x100000000000).2 ⟨some firstHart, 0⟩ })

/-- The lock of the page's first line held by slot 1. -/
def wpoolTaken : State := wpool.modCluster 0 (fun c => { c with locks := c.locks.set (lockOf 0x100000000000).2 ⟨some ⟨.thread, 0, 1⟩, 0⟩ })

/-- The lock of another line held. -/
def wpoolOther : State := wpool.modMe (fun h => { h with lock := some (lockOf 0x100000000040) })

/-- A lock that its bank has granted to the thread, which waits for it. -/
def wpoolGranted : State :=
  let k := lockOf 0x100000000000
  (wpool.modMe (fun h => { h with wait := some (.locked k.1 k.2.1 k.2.2) })).modCluster 0 (fun c => { c with locks := c.locks.set k.2 ⟨some firstHart, 0⟩ })

/-- What a clause of PoolLocks that has its turn asks of the state after the translation. -/
def atTurn (t : State) (x : Xlat) : Bool := (t.poolTurns (portOf t.cur false) [x.pa / 64]).isSome && t.badWord x.pa 8 == none

theorem wit_PoolLocks_ldl : (∀ s ∈ [wpool, wpoolHeld, wpoolGranted, wpoolTaken, wpoolOther],
      plainAcc s = true ∧ s.me.poolStores = false ∧ s.me.busy.loads = []) ∧
    (∃ t x, reaches .ldl 8 (eaM wpoolHeld 10 0 3) wpoolHeld t x ∧ (atTurn t x && t.me.lock == some (lockOf x.pa)) = true) ∧
    (∃ t x, reaches .ldl 8 (eaM wpool 10 0 3) wpool t x ∧ (atTurn t x && t.me.lock == none && t.me.lockTries (lockOf x.pa) == none &&
      (t.plock (lockOf x.pa)).holder == none) = true) ∧
    (∃ t x, reaches .ldl 8 (eaM wpoolGranted 10 0 3) wpoolGranted t x ∧ (atTurn t x && t.me.lock == none && t.me.lockTries (lockOf x.pa) == none &&
      t.me.wait == some (.locked (lockOf x.pa).1 (lockOf x.pa).2.1 (lockOf x.pa).2.2)) = true) ∧
    (∃ t x, reaches .ldl 8 (eaM wpoolTaken 10 0 3) wpoolTaken t x ∧ (t.me.lock == none && (t.plock (lockOf x.pa)).holder == some ⟨.thread, 0, 1⟩ &&
      t.me.lockTries (lockOf x.pa) == none && t.me.wait == none) = true) ∧
    (∃ t x, reaches .ldl 8 (eaM wpoolOther 10 0 3) wpoolOther t x ∧ (t.me.lock.isSome && t.me.lock != some (lockOf x.pa)) = true) := by
  and_intros <;> first | decide +kernel | exact passes_of (by decide +kernel)
theorem wit_PoolLocks_stu :
    (∃ t x, reaches .stu 8 (eaM wpoolHeld 10 0 3) wpoolHeld t x ∧ (t.me.lock == some (lockOf x.pa)) = true) ∧
    (∃ t x, reaches .stu 8 (eaM wpool 10 0 3) wpool t x ∧ (t.me.lock != some (lockOf x.pa)) = true) := by
  and_intros <;> first | decide +kernel | exact passes_of (by decide +kernel)

theorem wit_PoolAtomics : (amos Head.plain 5 10 6 1 0)[9]? = some (.amocas Head.plain 5 10 6 1 0) ∧ wpool.clear Head.plain [.x 5, .x 10, .x 6] [.x 5] ∧
    (wpool.me.acqWait = false ∧ wpool.me.busy.sb = [] ∧ wpool.me.busy.loads = [] ∧ wpool.me.busy.posted = []) ∧
    (∃ t x, reaches (.amo true) 8 (wpool.rx 10) wpool t x ∧ (region x.pa == 1 && atTurn t x && t.me.lock == none &&
      t.me.lockTries (lockOf x.pa) == none && (t.plock (lockOf x.pa)).holder == none) = true) ∧
    (∃ t x, reaches (.amo true) 8 (wpoolGranted.rx 10) wpoolGranted t x ∧ (atTurn t x && t.me.lock == none && t.me.lockTries (lockOf x.pa) == none &&
      t.me.wait == some (.locked (lockOf x.pa).1 (lockOf x.pa).2.1 (lockOf x.pa).2.2)) = true) ∧
    (∃ t x, reaches (.amo false) 4 (wpoolHeld.rx 10) wpoolHeld t x ∧ (region x.pa == 1 && atTurn t x && t.me.lock == some (lockOf x.pa)) = true) := by
  and_intros <;> first | decide +kernel | rfl | exact passes_of (by decide +kernel)

/-- What a bank, a page of the host and the AMO's own vault ask: the read served, room for the result, none of its lines held. -/
def servedAmo (t : State) (x : Xlat) : Bool :=
  region x.pa == 0 && t.badWord x.pa 8 == none && decide (t.askAll (.instr t.cur) [(x.pa, 8)] = t) && t.readReady (.instr t.cur) [(x.pa, 8)] &&
  !t.heldAt x.pa 8 && t.bufRoom (paCore x.pa) && !t.dev.ckptEn

/-- An AMO on the last word of the own vault's first page, and one on host memory. -/
theorem wit_PoolAtomics_elsewhere : (let s := servedFor 0 (.instr firstHart) (0x1FF8 / 64) (wr (fun h => h.wx 10 0x1FF8))
      clearB s Head.plain [.x 5, .x 10, .x 6] [.x 5] = true ∧ s.me.acqWait = false ∧ s.me.busy.sb = [] ∧ s.me.busy.loads = [] ∧ s.me.busy.posted = [] ∧
        passes (s.access (.instr s.cur) (.amo true) 8 (s.rx 10)) servedAmo = true) ∧
    (let s := wp 0x900000000000 id
     plainAcc s = true ∧ passes (s.access (.instr s.cur) (.amo true) 8 (s.rx 10)) (fun _ x => decide (8 ≤ region x.pa)) = true ∧
       clearB s Head.plain [.x 5, .x 10, .x 6] [.x 5] = true ∧ s.me.busy.sb = [] ∧ s.me.busy.loads = [] ∧ s.me.busy.posted = []) ∧
    (Config.hostAtomics = true ∨ Config.hostAtomics = false) := by
  refine ⟨by decide +kernel, by decide +kernel, ?_⟩
  cases Config.hostAtomics <;> decide

/-- A load in flight. -/
def aLoad : LoadEnt :=
  { num := 0, dst := .x 5 true, parts := [(0x1000, 8)], asks := [], pool := 0, got := [], acq := false, asid := 0 }

/-- A store in the buffer. -/
def aStore : SbEnt := { num := 0, parts := [(0x1000, 8, 1)], afterLoads := 0, afterMsg := none, afterIds := [], port := 0, unlock := none, rep := none, asid := 0 }

/-- The running thread with a change of what it has under way. -/
def bz (f : HartBusy → HartBusy) : State := th (fun h => h.modBusy f)

/-- A fill that the thread awaits from core 0. -/
def aFill (b : HartBusy) : HartBusy := { b with fills := [⟨5, 0, 0xFFFF⟩] }

/-- A read that the thread has sent to core 0. -/
def aSent : Sent := ⟨3, 0, 0xFFFF, true, false, 0⟩

theorem wit_Fences : w0.clear Head.plain [] [] ∧ (w0.me.busy.fills = [] ∧ w0.me.busy.loads = [] ∧ w0.me.busy.sb = [] ∧ w0.me.busy.posted = []) ∧
    (∀ v ∈ w0.vaults, v.2.wbuf = []) ∧ w0.cur.isCtx = false ∧ w0.me.lock = none := by
  and_intros <;> decide +kernel
/-- At device scope: a load, a store and a message of the hart, a fill, a line that it wrote. -/
theorem wit_Fences_waits :
    (∃ l ∈ (bz (fun b => { b with loads := [aLoad] })).me.busy.loads, accessed 4 (l.parts.map (·.1))) ∧
    (∃ e ∈ (bz (fun b => { b with sb := [aStore] })).me.busy.sb, accessed 4 (e.parts.map (·.1))) ∧
    (let s := bz (fun b => { b with posted := [aSent] }); ∃ p ∈ s.me.busy.posted, counted 4 s p ∧ p.read = true) ∧
    (let s := bz aFill; ∃ f ∈ s.me.busy.fills, s.inScope s.cur (4#3).toNat f.core f.dev = true) ∧
    (let s := w0.modVault 0 (fun v => { v with wbuf := [⟨0, [(0, 1)], [], [(firstHart, false)], 0⟩] })
     ∃ v ∈ s.vaults, ∃ l ∈ v.2.wbuf, ∃ w ∈ l.by_, w.1 = s.cur ∧ (w.2 = false ∨ s.inScope s.cur (4#3).toNat v.1 0xFFFF = true)) := by
  unfold accessed counted; decide +kernel
/-- A pending fill in scope under a pool lock. -/
theorem wit_Fences_lock : (let s := (bz aFill).modMe (fun h => { h with lock := some (0, 0, 0) })
    clearB s Head.plain [] [] = true ∧ s.cur.isCtx = false ∧ s.me.lock ≠ none ∧ s.me.inTrap = false ∧
      ∃ f ∈ s.me.busy.fills, s.inScope s.cur (4#3).toNat f.core f.dev = true) := by decide +kernel

theorem wit_FullBitsAndTokens : w0.cur.isCtx = false ∧ w0.clear Head.plain [] [.x 31] ∧ w0.clear Head.plain [] [.x 0] ∧ w0.long = false ∧
    w0.clear Head.plain [] [.v 31] ∧ (w0.modCore 0 (fun c => { c with long := true })).clear Head.plain [] [.v 7] := by
  and_intros <;> decide +kernel

/-- Token 7 at a count, and with a fault. -/
def wk (n : Nat) (f : Bool) : State := bz (fun b => { b with tokens := b.tokens.set 7 ⟨n, f, false, 0x11⟩ })

theorem wit_WaitTokens : w0.cur.isCtx = false ∧ w0.me.lock = none ∧ w0.clear Head.plain [] [] ∧ w0.me.recording = none ∧
    (∀ k : BitVec 3, (0xFF#8).getLsbD k.toNat = true → (w0.me.tok k).count = 0 ∧ (w0.me.tok k).fault = false) := by
  and_intros <;> decide +kernel
theorem wit_WaitTokens_waits : (wk 1 false).cur.isCtx = false ∧ (wk 1 false).me.lock = none ∧ (wk 1 false).clear Head.plain [] [] ∧
    (0x80#8).getLsbD (7#3).toNat = true ∧ ((wk 1 false).me.tok 7).count ≠ 0 := by
  and_intros <;> decide +kernel
theorem wit_WaitTokens_fault : (wk 0 true).clear Head.plain [] [] ∧ (wk 0 true).me.recording = none ∧ (wk 0 true).me.inTrap = false ∧
    (∀ j : BitVec 3, (0xFF#8).getLsbD j.toNat = true → ((wk 0 true).me.tok j).count = 0) ∧ (0xFF#8).getLsbD (7#3).toNat = true ∧
    ((wk 0 true).me.tok 7).fault = true ∧
    (∀ j : BitVec 3, (0xFF#8).getLsbD j.toNat = true → j.toNat < (7#3).toNat → ((wk 0 true).me.tok j).fault = false) := by
  and_intros <;> decide +kernel

/-- A thread with a trap-status register. -/
def wst (v : Word) (f : Hart → Hart) : State := (th f).modMe (fun h => { h with csr := { h.csr with tstatus := v } })

theorem wit_TrapEntry : w0.cur.isCtx = false ∧ w0.me.inTrap = false ∧ w0.me.priv ≤ 2 ∧
    (wl [⟨0, 4, 1⟩, ⟨0, 4, 2⟩, ⟨0, 4, 2⟩, ⟨0, 4, 2⟩]).me.loops.length ≤ 4 ∧ w0.clear Head.plain [.x 5] [] := by
  and_intros <;> decide +kernel
theorem wit_TrapEntry_inTrap : ∃ v, (wst v id).cur.isCtx = false ∧ (wst v id).me.inTrap = true ∧ (wst v id).clear Head.plain [.x 5] [] :=
  ⟨0x11, by decide +kernel, by decide +kernel, clear_of (by decide +kernel)⟩
theorem wit_TrapEntry_context : wc.cur.isCtx = true ∧ wc.clear Head.plain [.x 5] [] ∧ wc.me.ctx.arrival = some { m0 with kind := .rcall } ∧
    wc.me.ctx.copyFault = none ∧ wc.me.copiesOut = false ∧ wc.me.busy.sb = [] ∧ wc.me.busy.loads = [] := by
  and_intros <;> decide +kernel

theorem wit_ReturnFromTrap : (wst 1 id).cur.isCtx = false ∧ (wst 1 id).clear Head.plain [] [] ∧ (wst 1 id).me.priv = 1 ∧
    wbits (wst 1 id).me.csr.tstatus 2 2 ≠ 2 ∧ wbit (wst 1 id).me.csr.tepc 0 = false ∧ (wst 1 id).me.inTrap = false ∧
    wbit ((wst 1 (fun h => { h with csr := { h.csr with tepc := 1 } })).me.csr.tepc) 0 = true ∧ w0.me.priv = 0 ∧ (wst 10 id).me.priv = 2 := by
  and_intros <;> decide +kernel

theorem wit_SystemInstructions : (wst 1 id).cur.isCtx = false ∧ (wst 1 id).clear Head.plain [.x 5] [] ∧ 1 ≤ (wst 1 id).me.priv ∧
    (wst 1 id).me.lock = none ∧ (∀ k, ((wst 1 id).me.tok k).count = 0) ∧ (wst 1 id).me.busy.sb = [] ∧ (wst 1 id).me.busy.commit = none ∧
    w0.me.pauseTo = 0 ∧ w0.rx 5 = 0 ∧ (th (fun h => { h with pauseTo := 1 })).me.pauseTo ≠ 0 ∧ (th (fun h => h.wx 5 65536)).rx 5 ≠ 0 ∧
    (w0.cluster (clusterOf w0.myCore)).step = 16 ∧ w0.vecDone w0.myCore = true ∧
    (w0.modCore 0 (fun c => { c with long := true })).long = true ∧ (w0.modCore 0 (fun c => { c with long := true })).vecDone 0 = true ∧ w0.long = false := by
  and_intros <;> decide +kernel

theorem wit_ContextEndings : wc.cur.isCtx = true ∧ wc.clear Head.plain [.x 5, .x 8] [] ∧ wc.me.ctx.arrival = some { m0 with kind := .rcall } ∧
    wc.me.ctx.copyFault = none ∧ wc.me.copiesOut = false ∧ wc.me.busy.sb = [] ∧ wc.me.busy.loads = [] ∧ wc.clear Head.plain [.x 8] [] := by
  and_intros <;> decide +kernel

/-- A sender that asked for no value, and a traveller. -/
theorem wit_ContextEndings_others : ∀ m ∈ ([{ m0 with kind := .rcall, rr := false }, { m0 with kind := .travel }] : List Msg),
    (wc.modMe (fun h => { h with ctx := { h.ctx with arrival := some m } })).me.ctx.arrival = some m ∧ m.org = .own := by decide +kernel

theorem wit_IssueChecks_empty : w0.cur.isCtx = false ∧ w0.me.inTrap = false ∧ w0.me.lock = none ∧ (Head.plain.s && Head.plain.mask.getLsbD 27) = false ∧
    (th (fun h => h.markX 31 .void)).me.stx 31 = .void ∧ (th (fun h => h.markX 31 .pending)).me.stx 31 = .pending ∧ Head.plain.e = false ∧
    (⟨false, true, 0⟩ : Head).e = true := by decide +kernel
/-- A vector register that is VOID, one that is PENDING in a core in long mode, and the two in a handler context. -/
theorem wit_IssueChecks_forms : (th (fun h => { h with vSt := [(31, .void)] })).regSt (.v 31) = .void ∧ (th (fun h => { h with vSt := [(31, .void)] })).loading (.v 31) = false ∧
    (w0.modCore 0 (fun c => { c with long := true, wSt := [(7, .pending)] })).regSt (.v 7) = .pending ∧
    (∀ r ∈ ([7, 6, 5] : List Reg), r.toNat < 8) ∧
    ∀ st ∈ [RegSt.void, .pending], (let s := wc.modMe (fun h => h.markX 31 st)
      s.me.stx 31 ≠ .full ∧ s.me.ctx.arrival.isSome = true ∧ s.me.copiesOut = false ∧ s.me.busy.sb = [] ∧ s.me.busy.loads = [] ∧ s.me.ctx.copyFault = none) := by
  decide +kernel
theorem wit_IssueChecks_levels : w0.cur.isCtx = false ∧ w0.me.inTrap = false ∧ w0.me.priv = 0 ∧
    (let s := wc.modMe (fun h => { h with csr := { h.csr with tstatus := 1 } })
     s.cur.isCtx = true ∧ 1 ≤ s.me.priv ∧ s.me.ctx.arrival.isSome = true ∧ s.me.copiesOut = false ∧ s.me.busy.sb = [] ∧ s.me.busy.loads = [] ∧
       s.me.ctx.copyFault = none) := by decide +kernel

/-- A block that was read, and a test of its bytes and of the state after it. -/
def blockRead (r : State × Except FetchStop (List Byte)) (p : State → List Byte → Bool) : Bool :=
  match r with
  | (t, .ok b) => p t b
  | _ => false

theorem block_of {r : State × Except FetchStop (List Byte)} {p : State → List Byte → Bool} (h : blockRead r p = true) :
    ∃ t b, r = (t, .ok b) ∧ p t b = true := by
  rcases r with ⟨t, e | x⟩
  · simp [blockRead] at h
  · exact ⟨t, x, rfl, h⟩

theorem wit_VaultInstructions_rows : wa.clear Head.plain [.x 10] [] ∧ wa.clear Head.plain [] [] ∧
    (∃ t x, reaches .vault 1 (wa.rx 10) wa t x ∧ true = true) := by
  and_intros <;> first | decide +kernel | exact passes_of (by decide +kernel)
/-- Bank 31 open at the last row of the format of VSTAT; the first bank number beyond the banks; the registers of VEVT. -/
theorem wit_VaultInstructions_status :
    (let s := (th (fun h => h.wx 1 31)).modVault 0 (fun v => { v with banks := v.banks.set 31 { Bank.reset with opened := some ⟨4095, false⟩ } })
     clearB s Head.plain [.x 1] [.x 5] = true ∧ (s.rx 1).toNat < 32 ∧ (s.bank s.myCore (s.rx 1).toNat).opened = some ⟨4095, false⟩) ∧
    (let s := th (fun h => h.wx 1 32); clearB s Head.plain [.x 1] [.x 5] = true ∧ s.cur.isCtx = false ∧ s.me.inTrap = false ∧ 32 ≤ (s.rx 1).toNat) ∧
    clearB w0 Head.plain [] [.x 30, .x 31] = true := by decide +kernel

theorem wit_RemoteAccesses : wa.me.acqWait = false ∧ wa.clear Head.plain [.x 10] [.x 5] ∧ wa.clear Head.plain [.x 30, .x 10, .x 31] [.x 30] ∧
    (ramos Head.plain 30 10 3 3)[9]? = some (.ramocas Head.plain 30 10 3 3) ∧
    (∃ t x, reaches (.remote true false) 8 (wa.rx 10) wa t x ∧ true = true) ∧ (∃ t x, reaches (.remote false true) 8 (wa.rx 10) wa t x ∧ true = true) ∧
    (∃ t x, reaches (.remote true true) 4 (wa.rx 10) wa t x ∧ true = true) := by
  and_intros <;> first | decide +kernel | rfl | exact passes_of (by decide +kernel)

/-- A traveller context. -/
def wtrav : State := wc.modMe (fun h => { h with ctx := { h.ctx with traveller := true } })

theorem wit_Migrate : (th (fun h => (h.wx 1 0xFFFF07FF).wx 2 63)).clear Head.plain (.x 1 :: .x 2 :: argRefs) [.x 5] ∧
    coreId ((th (fun h => (h.wx 1 0xFFFF07FF).wx 2 63)).rx 1) = some (0xFFFF, 2047) ∧ ((th (fun h => (h.wx 1 0xFFFF07FF).wx 2 63)).rx 2).toNat < 64 ∧
    w0.retiredHere 0xFFFF 2047 = false ∧ w0.reachable 0xFFFF = true ∧ w0.cur.isCtx = false ∧
    (w0.core w0.myCore).inflight < (w0.core w0.myCore).travMax ∧ w0.me.acqWait = false ∧
    wtrav.clear Head.plain (.x 1 :: .x 2 :: argRefs) [.x 0] ∧ coreId (wtrav.rx 1) = some (0, 0) ∧ wtrav.reachable 0xFFFF = true ∧
    (wtrav.cur.isCtx = true ∧ wtrav.me.ctx.traveller = true ∧ wtrav.me.ctx.arrival = some { m0 with kind := .rcall } ∧ wtrav.me.copiesOut = false ∧
      wtrav.me.busy.sb = [] ∧ wtrav.me.busy.loads = [] ∧ wtrav.me.busy.posted = [] ∧ wtrav.me.ctx.copyFault = none) := by
  and_intros <;> decide +kernel
/-- The identifier of a core of this device in the traveller context. -/
theorem wit_Migrate_hop : (let s := wtrav.modMe (fun h => h.wx 1 0xFFFF0001)
    clearB s Head.plain (.x 1 :: .x 2 :: argRefs) [.x 0] = true ∧ coreId (s.rx 1) = some (0xFFFF, 1) ∧ (s.rx 2).toNat < 64 ∧
      s.retiredHere 0xFFFF 1 = false ∧ s.reachable 0xFFFF = true) := by decide +kernel

/-- The thread with x10 and x11, and a block of memory in the pool of its cluster, at the address 0x200000. -/
def wblk (v : Word) (bytes : Nat) (n : Nat) : State :=
  { wpool with mem := wpool.mem.write 0x100000000000 (bytesOf n bytes) }.modMe (fun h => (h.wx 10 v).wx 11 0x200000)

/-- A supervisor whose core has a handler table in memory, with a descriptor at the address in x11. -/
def wht : State :=
  ((wblk 16 (1 + 0x4000 * 2 ^ 64) 16).modMe (fun h => { h with csr := { h.csr with tstatus := 1 } })).modCore 0 (fun c => { c with htbase := 0x8000 })

theorem wit_HandlerTableWrites : wht.clear Head.plain [.x 10, .x 11] [] ∧ 1 ≤ wht.me.priv ∧ (wht.rx 10).toNat < 64 ∧ ¬(wht.rx 10).toNat < 16 ∧
    wht.me.wait = none ∧ (wht.core wht.myCore).htbase ≠ 0 ∧ ((wht.core wht.myCore).entry 16).st ≠ .busy ∧ (wht.rx 11).toNat % 16 = 0 ∧
    wht.me.acqWait = false ∧ wht.me.busy.loads = [] ∧
    (∃ t b, wht.blockRead (.instr wht.cur) true (wht.rx 11) 2 = (t, .ok b) ∧ (hsetFields b t.me.priv).isSome = true) ∧
    (wht.modMe (fun h => { h with wait := some (.entryDone 16) })).clear Head.plain [.x 10, .x 11] [] := by
  and_intros <;> first | decide +kernel | exact block_of (by decide +kernel)
theorem wit_HandlerTableWrites_system : (let s := wht.modMe (fun h => { h.wx 10 15 with csr := { h.csr with tstatus := 2 } })
    clearB s Head.plain [.x 10, .x 11] [] = true ∧ s.me.priv = 2 ∧ (s.rx 10).toNat < 16 ∧ ((s.core s.myCore).entry 15).st ≠ .busy) := by decide +kernel

/-- The last counter of the own core, and of the last core of the device. -/
def wmbx (v : Word) : State := th (fun h => h.wx 1 v)

theorem wit_Mailboxes_own : (let s := wmbx 0x2FFFF00000FC
    clearB s Head.plain [.x 1, .x 2] [.x 5] = true ∧ s.me.acqWait = false ∧ s.counterName (s.rx 1) = some ⟨0xFFFF, 0, 63⟩ ∧ s.reachable 0xFFFF = true ∧
      s.ownDev 0xFFFF = true ∧ stackOf 0 = stackOf s.myCore ∧ s.ownCounter ⟨0xFFFF, 0, 63⟩ s.myCore = true) := by decide +kernel
theorem wit_Mailboxes_remote : (let s := wmbx 0x2FFFF007FF00
    clearB s Head.plain [.x 1, .x 2] [.x 5] = true ∧ s.counterName (s.rx 1) = some ⟨0xFFFF, 2047, 0⟩ ∧ s.ownCounter ⟨0xFFFF, 2047, 0⟩ s.myCore = false ∧
      s.cur.isCtx = false ∧ s.me.lock = none) := by decide +kernel
/-- Waits of the own counter 63: at its count, one short of it, satisfied, and ended by a NACK with cause 0x05; then a malformed name. -/
theorem wit_Mailboxes_waits : (let s := wmbx 0x2FFFF00000FC
    s.me.busy.mbxEnd = none ∧ s.me.busy.mbx = [] ∧ s.me.busy.loads = [] ∧ s.me.busy.sb = [] ∧
      ((s.core 0).counter 63 - (s.rx 2).setWidth 32).toNat < 2 ^ 31 ∧
      (let t := s.modMe (fun h => h.wx 2 1); ¬((t.core 0).counter 63 - (t.rx 2).setWidth 32).toNat < 2 ^ 31) ∧
      ∀ c ∈ ([0, 5] : List (BitVec 8)), let t := s.modMe (fun h => h.modBusy (fun b => { b with mbxEnd := some (c, 0) }))
        clearB t Head.plain [.x 1, .x 2] [.x 0] = true ∧ t.me.busy.mbxEnd = some (c, 0) ∧ t.me.inTrap = false) ∧
    (wmbx 1).counterName ((wmbx 1).rx 1) = none ∧ (wmbx 1).cur.isCtx = false ∧ (wmbx 1).me.inTrap = false := by decide +kernel

/-- Launch 0 of stack 0 with its graph, phase and job, of which the thread runs unit 0; a launch record at the address in x11. -/
def wi (job : ItemSt) : State :=
  ((wblk 0x200000 (2 ^ 32 + 2 ^ 256 + 2 ^ 288 + 2 ^ 320) 48).modMe (fun h => { h with unit := some (0, 0, 0) })).modStk 0 (fun t =>
      { t with launches := [(0, { Launch.unused with item := { Item.unused with used := true, st := .sealed, isSealed := true, live := 1 } })]
               graphs := [(0, { Item.unused with used := true, live := 1 })], phases := [(0, { Item.unused with used := true, live := 1 })]
               jobs := [(0, { Item.unused with used := true, live := 1, st := job })] })

/-- An item that a value names for the issuing thread. -/
def ownsItem (s : State) (v : Word) (p : Nat × Nat × Nat → Bool) : Bool :=
  match s.ownItem v with
  | .ok e => p e
  | .error _ => false

theorem ownsItem_of {s : State} {v : Word} {p : Nat × Nat × Nat → Bool} (h : ownsItem s v p = true) : ∃ e, s.ownItem v = .ok e ∧ p e = true := by
  simp only [ownsItem] at h
  cases e : s.ownItem v <;> simp only [e] at h
  · exact absurd h (by decide)
  · exact ⟨_, rfl, h⟩

/-- Handles of the job, done and open, and a value that is no handle. -/
theorem wit_WorkItems_items : (wi .done).freeThread ∧ (wi .done).me.st = .running ∧ (wi .done).clear Head.plain [.x 1] [.x 5] ∧
    (∃ e, (wi .done).ownItem 4 = .ok e ∧ (e.2.1 == 3 && ((wi .done).item e.1 e.2.1 e.2.2).st == .done) = true) ∧
    (∃ e, (wi .opened).ownItem 4 = .ok e ∧ (e.2.1 == 3 && ((wi .opened).item e.1 e.2.1 e.2.2).st != .done) = true) ∧
    (wi .opened).ownItem (wi .opened).me.pc = .error 0xFF ∧ ((wi .opened).modMe (fun h => h.wx 1 4)).rx 1 = 4 := by
  refine ⟨free_of (by decide +kernel), ?_, clear_of ?_, ownsItem_of (p := fun e => e.2.1 == 3 && ((wi .done).item e.1 e.2.1 e.2.2).st == .done) ?_,
    ownsItem_of (p := fun e => e.2.1 == 3 && ((wi .opened).item e.1 e.2.1 e.2.2).st != .done) ?_, ?_, ?_⟩ <;> decide +kernel
theorem wit_WorkItems_launch : (wi .opened).me.acqWait = false ∧ (wi .opened).me.busy.loads = [] ∧ ((wi .opened).rx 11).toNat % 128 = 0 ∧
    (∃ u r, (wi .opened).blockRead (.instr (wi .opened).cur) true ((wi .opened).rx 11) 16 = (u, .ok r) ∧
      (u.performed u.cur 4 false && u.me.unit == some (0, 0, 0) && u.freeLaunch 0 == some 1 && !recBad r && !u.recRefused 0 0 r &&
        (u.recItem 0 r 1).used && (u.recItem 0 r 1).st == .opened && recId r 3 == u.above 0 0 3 && recUnits r != 0 &&
        (recDeps r).all (fun x => (u.depOf 0 r x).isSome) && !u.cancelledUp 0 2 (recId r 1)) = true) ∧
    (let s := (wi .opened).modStk 0 (fun t => { t with graphs := [] })
     ∃ u r, s.blockRead (.instr s.cur) true (s.rx 11) 16 = (u, .ok r) ∧ (!(u.recItem 0 r 1).used && u.freeLaunch 0 == some 1) = true) := by
  and_intros <;> first | decide +kernel | exact block_of (by decide +kernel)

/-- The thread waits for one holder, itself, which has nothing under way. -/
theorem wit_Translation_tlbinv : (let s := wst 1 (fun h => h.wx 2 0x1FFFF)
    clearB s Head.plain [.x 1, .x 2] [] = true ∧ s.cur.isCtx = false ∧ 1 ≤ s.me.priv ∧ s.me.busy.fills = [] ∧ s.me.wait = none ∧
      wbits (s.rx 2) 17 47 = 0 ∧ s.performed s.cur (wbits (s.rx 2) 15 2 + 1) false = true ∧ s.inScope s.cur 4 2047 0xFFFF = true ∧
      s.inScope s.cur 1 1 0xFFFF = false ∧
      (let t := s.modMe (fun h => { h with wait := some (.inv [(s.cur, 0, 0, 0)] 0) })
       t.me.busy.loads = [] ∧ t.me.busy.sb = [] ∧ t.me.busy.commands = [] ∧ t.me.busy.xact = none ∧ t.onStale t.cur = false ∧ t.messages = [])) ∧
    wbits ((wst 1 (fun h => h.wx 2 0x20000)).rx 2) 17 47 ≠ 0 ∧ (wst 1 id).me.inTrap = false := by decide +kernel

/-- A transaction with entries in some vaults. -/
def wx (x : Xact) : State := wr (fun h => h.modBusy (fun b => { b with xact := some x }))

/-- An empty transaction. -/
def x0 : Xact := ⟨[], false, false, [], [], [], [], false⟩

/-- One entry of a transaction. -/
def xe : XEnt := ⟨0x1000, 8, 1, ⟨0, 0x200000, 0x1000, 0, true, true, true, true, false, 0, none⟩⟩

theorem wit_Transactions_store : (∀ n ∈ [0, 15, 16], (wx { x0 with ents := List.replicate n xe }).cur.isCtx = false ∧
      clearB (wx { x0 with ents := List.replicate n xe }) Head.plain [.x 10, .x 5] [.x 6] = true ∧
      (wx { x0 with ents := List.replicate n xe }).me.acqWait = false) ∧
    (∃ t x, reaches (.remote false true) 8 ((wx { x0 with ents := List.replicate 16 xe }).rx 10) (wx { x0 with ents := List.replicate 16 xe }) t x ∧ true = true) ∧
    w0.me.busy.xact = none ∧ w0.me.inTrap = false := by
  and_intros <;> first | decide +kernel | exact passes_of (by decide +kernel)
theorem wit_Transactions_commit : (wx x0).me.busy.xact = some x0 ∧ (wx { x0 with interrupted := true }).me.busy.xact.isSome = true ∧
    (wx { x0 with overflow := true }).me.busy.xact.isSome = true ∧ (wx x0).performed (wx x0).cur 5 false = true ∧ (wx x0).me.acqWait = false ∧
    ({ x0 with ents := [xe] } : Xact).ents ≠ [] ∧
    (let z : Xact := { x0 with ents := [xe], asked := [0], granted := [0], acked := [0], committing := true }
     (wx z).me.busy.xact = some z ∧ z.refused = [] ∧ z.granted.length = z.asked.length ∧ z.acked.length = z.asked.length) ∧
    (let z : Xact := { x0 with ents := [xe], asked := [0], refused := [(0, false)], committing := true }
     (wx z).me.busy.xact = some z ∧ z.refused = [(0, false)] ∧ z.granted.length + 1 = z.asked.length) ∧
    (let z : Xact := { x0 with ents := [xe], asked := [0, 2047], refused := [(2047, true), (0, false)], committing := true }
     (wx z).me.busy.xact = some z ∧ (0, false) ∈ z.refused ∧ (∀ r ∈ z.refused, 0 ≤ r.1) ∧ z.granted.length + z.refused.length = z.asked.length) := by decide +kernel

theorem wit_CsrInstructions : w0.cur.isCtx = false ∧ clearB w0 Head.plain [.x 1] [.x 5] = true ∧ w0.me.csrBusy 0x008 = false ∧
    csrMask 0x008 = some (2 ^ 64 - 1) ∧ w0.rx 1 = 0 ∧ (th (fun h => h.wx 1 1)).rx 1 ≠ 0 ∧ w0.me.inTrap = false ∧ csrInfo 0x3FF = none ∧ w0.me.priv < 2 := by
  and_intros <;> decide +kernel
/-- A CSR that the thread may read, and one above its level. -/
theorem wit_CsrInstructions_levels : (∃ i, csrInfo 0x008 = some i ∧ i.rd ≤ w0.me.priv) ∧ ∃ i, csrInfo 0x101 = some i ∧ w0.me.priv < i.rd := by
  refine ⟨⟨_, rfl, ?_⟩, ⟨_, rfl, ?_⟩⟩ <;> decide +kernel
/-- A read-only CSR that is no counter (COREID). -/
theorem wit_CsrInstructions_readOnly : ∃ n i, csrInfo n = some i ∧ i.wr = 3 ∧ n ≠ 5 ∧ n ≠ 6 ∧ i.rd ≤ w0.me.priv := ⟨4, _, rfl, by decide +kernel⟩

/-- The thread in long mode, taken by the unit of its cluster. -/
def wlong : State := (w0.modCore 0 (fun c => { c with long := true })).modCluster 0 (fun c => { c with lvuNow := some firstHart })

/-- The thread in long mode, not taken. -/
def wlongWaits : State := w0.modCore 0 (fun c => { c with long := true })

theorem wit_VectorIntegerLanes_short : vready w0 [31, 30, 29] ∧ w0.clear Head.plain [.v 30, .v 29] [.v 31] ∧ 3 ≤ (3#3).toNat := by
  and_intros <;> decide +kernel
theorem wit_VectorIntegerLanes_long : vready wlong [7, 6, 5] ∧ wlong.clear Head.plain [.v 6, .v 5] [.v 7] ∧ 3 ≤ (7#3).toNat := by
  and_intros <;> decide +kernel
theorem wit_VectorIntegerLanes_accumulate : w0.clear Head.plain [.v 31] [] := clear_of (by decide +kernel)
theorem wit_VectorFloatLanes : vready wlong [7, 6, 5] ∧ wlong.clear Head.plain [.v 6, .v 5] [.v 7] ∧ (2#3).toNat < 3 ∧ wlong.clear Head.plain [.v 7] [] ∧
    wlong.me.inTrap = false := by
  and_intros <;> decide +kernel
theorem wit_VectorWhole : vready w0 [31, 28, 24] ∧ w0.clear Head.plain [.v 28, .v 24] [.v 31] ∧ w0.long = false ∧ (28#5).toNat % 4 = 0 ∧ (24#5).toNat % 4 = 0 ∧
    w0.clear Head.plain (.v 31 :: ([28, 28 + 1, 28 + 2, 28 + 3, 24, 24 + 1, 24 + 2, 24 + 3] : List Reg).map RegRef.v) [.v 31] ∧
    w0.me.csr.vcsr.getLsbD 11 = false := by
  and_intros <;> decide +kernel
/-- The float types of VDOT in short mode, plain and block-scaled, and in long mode. -/
theorem wit_VectorWhole_dot : 3 ≤ (3#3).toNat ∧ dotBad false 30 28 24 5 = false ∧ dotBad true 6 5 4 0 = false ∧
    w0.clear Head.plain ((dotGroup false 28 ++ dotGroup false 24 ++ [30, 31]).map RegRef.v) [.v 30] ∧
    vready w0 (dotGroup false 28 ++ dotGroup false 24 ++ [30, 31]) ∧ wlong.clear Head.plain ((dotGroup true 5 ++ dotGroup true 4 ++ [6]).map RegRef.v) [.v 6] ∧
    vready wlong (dotGroup true 5 ++ dotGroup true 4 ++ [6]) := by
  and_intros <;> decide +kernel
theorem wit_VectorLanesAndPairs : vready w0 [31] ∧ w0.clear Head.plain [.x 5] [.v 31] ∧ w0.clear Head.plain [.x 5, .x 6, .v 31] [.v 31] ∧
    w0.clear Head.plain [.x 6, .v 31] [.x 5] ∧ vready w0 [31, 30, 29] ∧ w0.clear Head.plain [.v 30, .v 29] [.v 31] ∧ (0#3 = 0 ∧ 5 ≤ (5#3).toNat) ∧
    (List.range 4).map (fun k => lane 64 (w0.vval 30) k) = [0, 0, 0, 0] := by
  and_intros <;> decide +kernel
theorem wit_VectorLanesAndPairs_ordered : ([0, 0, 0, 0] : List Nat).Pairwise (fun p q => pairPrecedes 0 q p = false) := by decide +kernel
theorem wit_VectorLanesAndPairs_queue : wlongWaits.cur.isCtx = false ∧ wlongWaits.long = true ∧ wlongWaits.clear Head.plain [.v 6, .v 5] [.v 7] ∧
    (∀ r ∈ ([7, 6, 5] : List Reg), r.toNat < 8) ∧ (wlongWaits.cluster (clusterOf wlongWaits.myCore)).lvuNow ≠ some wlongWaits.cur := by
  and_intros <;> decide +kernel

/-- Accesses that all pass, and a test of them. -/
def allPass (r : State × CheckedAll) (p : State → List Xlat → Bool) : Bool :=
  match r with
  | (t, ⟨xs, [], false⟩) => p t xs
  | _ => false

theorem allPass_of {r : State × CheckedAll} {p : State → List Xlat → Bool} (h : allPass r p = true) :
    ∃ t xs, r = (t, ⟨xs, [], false⟩) ∧ p t xs = true := by
  obtain ⟨t, xs, _ | _, _ | _⟩ := r
  · exact ⟨t, xs, rfl, h⟩
  all_goals simp [allPass] at h

/-- The last 32 bytes of a page, lanes 4 bytes apart. -/
def wv : State := wr (fun h => (h.wx 10 0x1FE0).wx 11 4)

/-- What a vector load asks of the state and the translations of its parts of k bytes. -/
def loadsAll (k : Nat) (u : State) (xs : List Xlat) : Bool :=
  xs.all (fun x => region x.pa != 4 && u.badWord x.pa k == none) && forwardAll u.me.busy.sb (xs.map (fun x => (x.pa, k))) != .part

theorem wit_VectorMemory_loads : vready wv [31] ∧ wv.me.acqWait = false ∧ wv.clear Head.plain [.x 10] [.v 31] ∧ (wv.rx 10).toNat % 32 = 0 ∧
    wv.clear Head.plain [.x 10, .x 11] [.v 31] ∧
    (∃ u xs, (granted wv).accessAll (.instr wv.cur) (.load 32 false) 1 ((List.range 1).map (fun k => wv.rx 10 + BitVec.ofNat 64 (32 * k))) = (u, ⟨xs, [], false⟩) ∧
      loadsAll 32 u xs = true) ∧
    (∃ u xs, (granted wv).accessAll (.instr wv.cur) (.load 4 false) 4 ((List.range 8).map (fun k => wv.rx 10 + BitVec.ofNat 64 k * wv.rx 11)) = (u, ⟨xs, [], false⟩) ∧
      loadsAll 4 u xs = true) := by
  and_intros <;> first | decide +kernel | exact allPass_of (by decide +kernel)
theorem wit_VectorMemory_stores : wv.clear Head.plain [.x 10, .v 31] [.v 31] ∧ wv.clear Head.plain [.x 10, .x 11, .v 31] [] ∧
    (∃ u xs, (granted wv).accessAll (.instr wv.cur) .store 1 ((List.range 1).map (fun k => wv.rx 10 + BitVec.ofNat 64 (32 * k))) = (u, ⟨xs, [], false⟩) ∧
      xs.all (fun x => region x.pa != 4 && x.ent.rep == none) = true) ∧
    (∃ u xs, (granted wv).accessAll (.instr wv.cur) .store 4 ((List.range 8).map (fun k => wv.rx 10 + BitVec.ofNat 64 k * wv.rx 11)) = (u, ⟨xs, [], false⟩) ∧
      xs.all (fun x => region x.pa != 4 && x.ent.rep == none) = true) ∧
    wv.me.inTrap = false ∧ ((wr (fun h => h.wx 10 31)).rx 10).toNat % 32 ≠ 0 := by
  and_intros <;> first | decide +kernel | exact allPass_of (by decide +kernel)
/-- The same store to a page that is replicated over every cluster. -/
theorem wit_VectorMemory_replicated : (let s := wp 0x1000 (fun e => { e with rep := some (-1) })
    allPass ((granted s).accessAll (.instr s.cur) .store 1 [s.rx 10]) (fun _ xs => xs.any (fun x => x.ent.rep != none) && xs.all (fun x => region x.pa != 4))) = true := by
  decide +kernel
/-- A vector store of two pages, one of them replicated, in long mode. -/
theorem wit_VectorMemory_mixed : (let s := ((wm.modCore 0 (fun c => { c with long := true, tlb :=
        [⟨0, 0x200000, 0x1000, 0x1000, true, true, true, true, false, 0, none⟩, ⟨0, 0x201000, 0x1000, 0x2000, true, true, true, true, false, 0, some (-1)⟩] })).modCluster 0
        (fun c => { c with lvuNow := some firstHart })).modMe (fun h => h.wx 10 0x200C00)
    clearB s Head.plain [.x 10, .v 7] [] = true ∧ (s.rx 10).toNat % 64 = 0 ∧
      allPass ((granted s).accessAll (.instr s.cur) .store 1 ((List.range 32).map (fun k => s.rx 10 + BitVec.ofNat 64 (64 * k))))
        (fun _ xs => xs.all (fun x => region x.pa != 4) && xs.any (fun x => x.ent.rep != (xs.head?).bind (·.ent.rep))) = true) := by decide +kernel
/-- A row in long mode. -/
theorem wit_VectorMemory_row : (let s := (wv.modCore 0 (fun c => { c with long := true })).modCluster 0 (fun c => { c with lvuNow := some firstHart })
    clearB s Head.plain [.x 10] [.v 7] = true ∧ s.long = true ∧
      passes ((granted s).access (.instr s.cur) .row 1 (s.rx 10)) (fun u x =>
        let row := (List.range 32).map (fun k => (x.pa / 2048 * 2048 + 64 * k, 64))
        row.all (fun p => u.badWord p.1 p.2 == none) && forwardAll u.me.busy.sb row != .part) = true) := by decide +kernel

/-- A command of an instruction. -/
def aCmd (i : Instr) (seq : Nat) : Cmd :=
  { seq := seq, ins := i, tk := 7, wait := 0, vd := 0, va := 0xFFFF0008, vb := 0, args := [0, 0, 0, 0, 0, 0, 0, 0], wdata := [], kickLoads := 0, kickSb := 0, kickMsg := 0,
    slot := none, tape := false, asid := 0, home := 0 }

/-- A thread with lease slot 1. -/
def wlease (s : State) : State := s.modMe (fun h => { h with lease := some 1 })

/-- Token 7 at 254: the last value with room. -/
def w254 : State := bz (fun b => { b with tokens := b.tokens.set 7 ⟨254, false, false, 0⟩ })

theorem wit_EngineCommands_rooms : ∀ q ∈ [0, 1, 2, 3, 4, 5, 6], room q 7 w254 := by unfold room; decide +kernel
theorem wit_EngineCommands_leased : (wlease w254).me.lease.isSome = true ∧ (wlease w254).clear Head.plain [.x 1, .x 2, .x 3] [] ∧
    (wlease w254).clear Head.plain [.x 1] [] ∧ (wlease w254).clear Head.plain [.x 2, .x 3] [] ∧ (wlease w254).clear Head.plain [] [] ∧
    room 0 7 (wlease w254) ∧ room 1 7 (wlease w254) := by
  and_intros <;> decide +kernel
/-- An MMA from w7 of four rows of 128 elements of 4 bytes, in long mode. -/
theorem wit_EngineCommands_mma : (wlease wlong).long = true ∧ ((wlease wlong).cluster (clusterOf (wlease wlong).myCore)).lvuNow = some (wlease wlong).cur ∧
    (let n := ((3#7).toNat + 1) * (elemBits (6#4).toNat * 16)
     n = 2048 ∧ ∀ r ∈ (List.range ((n + 2047) / 2048)).map (fun k => BitVec.ofNat 5 ((7#3).toNat + k)), r.toNat < 8) ∧
    (wlease wlong).clear Head.plain [.v 7] [] ∧ room 1 0 (wlease wlong) ∧ (wlease wlong).me.lease.isSome = true := by
  and_intros <;> decide +kernel
theorem wit_EngineCommands_calls : w254.clear Head.plain (.x 1 :: argRefs) [.x 5] ∧ w254.clear Head.plain [.x 1, .x 2] [.x 5] ∧
    w254.clear Head.plain [.x 1, .x 2] [] := by
  and_intros <;> decide +kernel
/-- The largest control value of an engine form. -/
theorem wit_EngineCommands_forms : (let s := th (fun h => (h.wx 3 0x7FF).wx 1 0x2FFFF00000FC)
    (s.rx 3).toNat < 2 ^ 11 ∧ clearB s Head.plain [.x 3, .x 1] [] = true ∧ clearB s Head.plain [.x 3, .x 1, .x 2] [] = true ∧
      s.me.busy.recording = none ∧ (s.me.tok 7).count < 255 ∧ (s.me.queue 5).length < 32 ∧ (s.me.queue 3).length < 32 ∧ (s.counterName (s.rx 1)).isSome = true) := by decide +kernel
/-- A full queue, and a matrix command of a thread that has a lease. -/
theorem wit_EngineCommands_full : (let s := (bz (fun b => { b with queues := [(2, List.replicate 32 (aCmd (.copy Head.plain 1 2 7 0 0) 0))] }))
      s.cur.isCtx = false ∧ clearB s Head.plain [.x 1, .x 2] [] = true ∧ 32 ≤ (s.me.queue 2).length) ∧
    (let s := wlease (bz (fun b => { b with tokens := b.tokens.set 7 ⟨255, false, false, 0⟩ }))
     s.me.lease.isSome = true ∧ (s.me.tok 7).count = 255 ∧ clearB s Head.plain [.x 1, .x 2, .x 3] [] = true) := by decide +kernel
theorem wit_EngineCommands_turnedAway : (let s := bz (fun b => { b with tokens := b.tokens.set 7 ⟨255, false, false, 0⟩ })
    s.cur.isCtx = false ∧ clearB s Head.plain [.x 1, .x 2] [] = true ∧ (s.me.tok 7).count = 255 ∧ s.me.lease = none ∧ s.me.inTrap = false ∧
      (Head.plain.s && Head.plain.mask.getLsbD 27) = false) := by decide +kernel

theorem wit_Leases_held : (wlease w0).freeThread ∧ (wlease w0).clear Head.plain [] [.x 5] ∧ (wlease w0).clear Head.plain [] [] ∧ (wlease w0).me.lease = some 1 := by
  and_intros <;> decide +kernel
theorem wit_Leases_free : w0.me.lease = none ∧ (w0.cluster 0).engRetired = false ∧ (∀ h ∈ (w0.cluster 0).leaseQ, (w0.hart h).wait ≠ some .lease) ∧
    ((w0.cluster 0).slot 0).st = .free ∧
    (let s := w0.modSlot 0 0 (fun l => { l with st := .held }); ((s.cluster 0).slot 0).st ≠ .free ∧ ((s.cluster 0).slot 1).st = .free) ∧
    (let s := (w0.modSlot 0 0 (fun l => { l with st := .held })).modSlot 0 1 (fun l => { l with st := .draining })
     ((s.cluster 0).slot 0).st ≠ .free ∧ ((s.cluster 0).slot 1).st ≠ .free ∧ s.me.wait ≠ some .lease ∧ s.me.lease = none) := by decide +kernel
/-- A template of zeros, and one with a reserved bit. -/
theorem wit_Templates : (let s := wblk 0 8 64
    let z := wblk 0 0 64
    clearB s Head.plain [.x 11] [] = true ∧ s.me.acqWait = false ∧ s.me.busy.loads = [] ∧ (s.rx 11).toNat % 64 = 0 ∧ s.copyQueued 0 15 = false ∧
      blockRead (z.blockRead (.instr z.cur) true (z.rx 11) 8) (fun _ b => !tmplBad b) = true ∧
      blockRead (s.blockRead (.instr s.cur) true (s.rx 11) 8) (fun _ b => tmplBad b) = true ∧ s.me.inTrap = false) := by decide +kernel

/-- A state of one tape of core 0. -/
def wtape (st : TapeSt) (len : Nat) : State := w0.modCore 0 (fun c => c.setTape 0 ⟨st, 0, len⟩)

theorem wit_Tapes_record : w0.freeThread ∧ w0.clear Head.plain [] [.x 5] ∧ w0.me.busy.recording = none ∧
    ((wtape .recording 3).core 0).tape 0 = ⟨.recording, 0, 3⟩ ∧ ((wtape .loading 3).core 0).tape 0 = ⟨.loading, 0, 3⟩ ∧
    ((w0.core w0.myCore).tape (7#3).toNat).st = .empty ∧
    ((w0.clearTape 0 7).core 0).findRun (2 + (1022#10).toNat) = some 0 := by
  and_intros <;> decide +kernel
theorem wit_Tapes_noRun : ∀ base, (((wtape .valid 1024).clearTape 0 7).core 0).runFree base (2 + (1#10).toNat) = false := by
  intro base
  have h : (((wtape .valid 1024).clearTape 0 7).core 0).tapes = [(0, ⟨.valid, 0, 1024⟩), (7, ⟨.empty, 0, 0⟩)] := by decide +kernel
  simp [Core.runFree, h, tapeSlots]
  omega

/-- A recording of tape 0 with room for one record. -/
def rec0 : Recording := ⟨0, 0, 1, 0, false, false, 0, 0, 0, false, 0, 0, [], false, false, 0, false, false⟩

/-- The thread while it records. -/
def wrec (r : Recording) : State := (wtape .recording 3).modMe (fun h => h.modBusy (fun b => { b with recording := some r }))

theorem wit_Tapes_end : (wrec rec0).freeThread ∧ (wrec rec0).clear Head.plain [] [.x 5] ∧ (wrec rec0).me.busy.recording = some rec0 ∧ rec0.abandoned = false ∧
    rec0.core < 2 ^ 11 ∧ rec0.base + 2 + rec0.max ≤ 1024 ∧
    (rec0.asgen = (wrec rec0).dev.asgen.get rec0.asid.toNat 0 ∧ rec0.vaultgen = ((wrec rec0).vault 0).gen ∧ rec0.long = ((wrec rec0).core 0).long) ∧
    rec0.n = 0 ∧ ({ rec0 with n := 1 } : Recording).n ≠ 0 ∧ ({ rec0 with full := true } : Recording).full = true ∧
    ({ rec0 with asgen := 1 } : Recording).asgen ≠ (wrec rec0).dev.asgen.get 0 0 := by
  and_intros <;> decide +kernel
theorem wit_Tapes_command : (wrec rec0).clear Head.plain [.x 1, .x 2] [] ∧ (wrec rec0).me.inTrap = false ∧ rec0.full = false ∧ rec0.n < rec0.max ∧
    ((wrec rec0).me.tok 7).count < 255 ∧ ((wrec rec0).me.queue 2).length < 32 ∧ (∀ k, k < 16 → (wrec rec0).me.csr.plen.get k 0 = 0) := by
  and_intros <;> decide +kernel
/-- The longest window and the last address of TAPE.PATCH, and TAPE.INV of a tape that is empty, valid, and played. -/
theorem wit_Tapes_patch_invalidate : (let s := th (fun h => (h.wx 1 0xFFFFFFFFFFFF).wx 2 (65535 * 4096))
      clearB s Head.plain [.x 1, .x 2] [] = true ∧ (s.rx 1).toNat < 2 ^ 48 ∧ (s.rx 2).toNat ≤ 65535 * 4096) ∧
    clearB w0 Head.plain [] [] = true ∧ ((wtape .valid 3).core 0).tape 0 = ⟨.valid, 0, 3⟩ ∧ (wtape .valid 3).tapeBusy 0 0 = false ∧
    ((wtape .valid 3).modMe (fun h => h.modBusy (fun b => { b with play := some ⟨0, 0, 0, 0, [], none, 0, 0, 0⟩ }))).tapeBusy 0 0 = true := by decide +kernel

/-- The thread waits for nothing. -/
theorem noEnding {s : State} {h : HartId} {w : Option Wait} (hw : (s.hart h).wait = w) (hn : (match w with | some (.ending _) => false | _ => true) = true) :
    ∀ e, (s.hart h).wait ≠ some (.ending e) := by
  intro e he
  rw [hw] at he
  subst he
  exact Bool.noConfusion hn

/-- A load in flight. -/
def wload : State := bz (fun b => { b with loads := [aLoad] })

theorem wit_MemoryEvents_load : (∀ e, (wload.hart firstHart).wait ≠ some (.ending e)) ∧ (wload.hart firstHart).busy.loads = [aLoad] ∧
    region 0x1000 ≠ 2 ∧ region 0x1000 ≠ 4 ∧ region 0x1000 ≠ 1 ∧ aLoad.got = [] ∧
    (let s := servedFor 0 (.load firstHart 0) 0x40 wload; s.readReady (.load firstHart aLoad.num) [(0x1000, 8)] = true ∧ s.heldAt 0x1000 8 = false) := by
  refine ⟨noEnding (w := none) (by decide +kernel) rfl, ?_⟩
  decide +kernel
/-- The bytes of 1 bound for the load of two bytes. -/
theorem wit_MemoryEvents_bound : ({ aLoad with parts := [(0x1000, 2)], got := [(0x1000, 1), (0x1001, 0)] } : LoadEnt).got =
    (List.range 2).map (fun k => (0x1000 + k, BitVec.ofNat 8 (1 / 2 ^ (8 * k)))) := by decide +kernel
/-- A release store of the last bytes of a line, with a message after it outstanding and one that no FENCE.REL names. -/
theorem wit_MemoryEvents_store :
    (let e := { aStore with parts := [(0x1038, 8, 1)], afterMsg := some 3, afterIds := [2] }
     let s := bz (fun b => { b with sb := [e], posted := [aSent] })
     (s.hart firstHart).wait = none ∧ (s.hart firstHart).busy.sb = [e] ∧ e.rep = none ∧ (∀ l ∈ (s.hart firstHart).busy.loads, e.afterLoads ≤ l.num) ∧
       (∀ p ∈ (s.hart firstHart).busy.posted, p.id ∉ e.afterIds) ∧
       (∀ p ∈ (s.hart firstHart).busy.posted, p.epoch = (s.hart firstHart).epoch → 3 ≤ p.id) ∧ (∀ p ∈ (s.hart firstHart).busy.acq, 3 ≤ p) ∧
       0x1038 % 64 + 8 ≤ 64 ∧ region 0x1038 = 0 ∧ s.heldAt 0x1038 8 = false ∧ s.lineRead (paCore 0x1038) (paOff 0x1038 / 64) = false ∧
       s.bufRoom (paCore 0x1038) = true ∧ s.dev.ckptEn = false ∧ (s.poolTurns e.port [0x1038 / 64]).isSome = true) ∧ proper 0x1038 := by
  refine ⟨?_, fun _ => by decide⟩
  decide +kernel
/-- An STU for whose lock two threads wait, with 3 and with 2 retries. -/
theorem wit_MemoryEvents_unlock :
    (let w (n : Nat) (h : Hart) : Hart := { h with wait := some (.lock 0 0 0 n 0) }
     let s := (wpoolHeld.modHart ⟨.thread, 0, 1⟩ (w 3)).modHart ⟨.thread, 0, 2⟩ (w 2)
     (∃ e ∈ s.harts, e.1 = ⟨.thread, 0, 1⟩ ∧ e.2.lockTries (0, 0, 0) = some 3) ∧ (∃ e ∈ s.harts, e.1 = ⟨.thread, 0, 2⟩ ∧ e.2.lockTries (0, 0, 0) = some 2) ∧
       ∀ e ∈ wpoolHeld.harts, e.1 = firstHart ∨ e.2.lockTries (0, 0, 0) = none) := by decide +kernel
theorem wit_MemoryEvents_lock : (let s := wpool.modMe (fun h => { h with wait := some (.lock 0 0 0 1 0) })
    (s.hart firstHart).wait = some (.lock 0 0 0 1 0) ∧ 0 ≤ s.clk ∧ (s.plock (0, 0, 0)).holder = none ∧
      (let t := s.modCluster 0 (fun c => { c with locks := c.locks.set (0, 0) ⟨some ⟨.thread, 0, 1⟩, 0⟩ })
       (t.plock (0, 0, 0)).holder = some ⟨.thread, 0, 1⟩)) := by decide +kernel

/-- A line of a write buffer with one byte. -/
def aLine : WLine := ⟨2 ^ 22 - 1, [(63, 1)], [], [(firstHart, true)], 0⟩

/-- A vault whose write buffer holds that line. -/
def wbufd : State := w0.modVault 2047 (fun v => { v with wbuf := [aLine] })

theorem wit_MemoryEvents_drain : wbufd.drainable 2047 0 = true ∧ (wbufd.vault 2047).wbuf[0]? = some aLine ∧
    (∀ m k, m ≠ 0 → (wbufd.vault 2047).wbuf[m]? = some k → k.line ≠ aLine.line) ∧ (aLine.bytes.map (·.1)).Nodup ∧ (∀ b ∈ aLine.bytes, b.1 < 64) := by
  refine ⟨by decide +kernel, by decide +kernel, ?_, by decide, by decide⟩
  intro m k hm hk
  have h : (wbufd.vault 2047).wbuf = [aLine] := by decide +kernel
  rcases m with _ | m
  · exact absurd rfl hm
  · rw [h] at hk
    simp at hk
/-- Its row has been served, at the end of an interval that it closes. -/
theorem wit_MemoryEvents_drained : (let s := (servedFor 2047 (.drain aLine.line) aLine.line wbufd).modDev (fun d => { d with closing := some [(2047, aLine.line)] })
    (s.vault 2047).wbuf[0]? = some aLine ∧ (s.vault 2047).reads (.drain aLine.line) = true ∧ (s.vault 2047).turnAt (.drain aLine.line) aLine.line = true ∧
      s.lineHeld 2047 aLine.line = false ∧ s.dev.closing = some [(2047, aLine.line)] ∧ (wbufd.vault 2047).reads (.drain aLine.line) = false) := by decide +kernel
theorem wit_MemoryEvents_pool : (let q : PReq := ⟨7, 31, poolPa 255 0x7C0 / 64, firstHart, 0⟩
    let s := (bz (fun b => { b with loads := [{ aLoad with parts := [(poolPa 255 0x7C0, 8)], pool := 1 }] })).modCluster 255 (fun c => { c with pq := [q] })
    s.poolGrant 255 31 = some q ∧ (s.cluster 255).pq = [q] ∧ ∀ l ∈ (s.hart q.h).busy.loads, q.num ≤ l.num) := by
  decide +kernel

/-- A miss of the thread for the page at 0x1000. -/
def aMiss : Miss := ⟨⟨firstHart, none, 0⟩, wm.me.asid, 0x1000, wm.me.csr.ptroot, 0⟩

/-- That miss in the queue of the last cluster of stack 0, with some walks. -/
def wmiss (ws : List Walk) : State := (wm.modCluster 63 (fun c => { c with misses := [aMiss] })).modStk 0 (fun t => { t with walks := ws })

/-- A walk of the address 0x1000 of the identity-mapped space, at a level of it, with the entry it has read. -/
def aWalk (lvl tbl : Nat) (e : Table Nat (Option Nat)) : Walk := ⟨0, wm.me.asid, 0x1000, lvl, tbl, 0, e, [aMiss], false⟩

/-- The state with that walk, for which the thread waits. -/
def wwalk (lvl tbl : Nat) (e : Table Nat (Option Nat)) : State :=
  (wm.modStk 0 (fun t => { t with walks := [aWalk lvl tbl e] })).modMe (fun h => { h with wait := some .stall })

theorem wit_Translation_miss : stackOf aMiss.who.hart.home = 0 ∧ aMiss.va % 4096 = 0 ∧ aMiss.va < 2 ^ 48 ∧
    (∀ c < 64, ((wmiss []).cluster c).misses = if c = 63 then [aMiss] else []) ∧ ((wmiss []).stk 0).walks = [] ∧ ((wmiss []).stk 0).wcache = [] := by
  decide +kernel
theorem wit_Translation_join : ((wmiss [aWalk 3 0x1FD000 []]).stk 0).walks = [aWalk 3 0x1FD000 []] ∧
    ((aWalk 3 0x1FD000 []).stale = false ∧ (aWalk 3 0x1FD000 []).asid = aMiss.asid ∧ (aWalk 3 0x1FD000 []).va = aMiss.va) ∧
    (aWalk 3 0x1FD000 []).waiters.length < 64 := by decide +kernel
theorem wit_Translation_read : (let s := servedFor 0 (.walk 0 0) (0x1FD000 / 64) (wwalk 3 0x1FD000 [])
    (s.stk 0).walks[0]? = some (aWalk 3 0x1FD000 []) ∧ region 0x1FD000 = 0 ∧ s.malformed 0x1FD000 = false ∧ served (.walk 0 0) [(0x1FD000, 8)] s) := by
  unfold served
  decide +kernel
/-- A pointer, no page, a word that no code corrects, the leaf of a page of 4 KB, and a table outside the vault region. -/
theorem wit_Translation_steps : (let s := wwalk 3 0x1FD000 [(0x1FD000, some 0x1FE0001)]
      (s.stk 0).walks[0]? = some (aWalk 3 0x1FD000 [(0x1FD000, some (0x1FE0001 : Word).toNat)]) ∧ s.ptePointer 3 0x1FE0001 = true) ∧ wbit (0 : Word) 0 = false ∧
    ((wwalk 3 0x1FD000 [(0x1FD000, none)]).stk 0).walks[0]? = some (aWalk 3 0x1FD000 [(0x1FD000, none)]) ∧
    ((wwalk 3 0x1FD000 [(0x1FD000, none)]).hart firstHart).wait ≠ none ∧
    (let p : Word := 0x10000F
     (wwalk 0 0x1FF000 [(0x1FF008, some p.toNat)]).leafFields 0 0 p = true ∧ wbits p 6 3 = 0 ∧ wbit p 9 = false) ∧
    (∀ e ∈ (wwalk 0 0x1FF000 []).clusters, e.2.misses = []) ∧ firstHart.kind ≠ .mgmt ∧ region 0x100000000000 ≠ 0 := by decide +kernel

/-- Bank 31 of the vault of core 0 in some condition. -/
def wb (f : Bank → Bank) : State := w0.modVault 0 (fun v => { v with banks := v.banks.set 31 (f Bank.reset) })

/-- A request of a kind for the last line of row 4,095. -/
def aReq (k : VReqKind) : VReq := ⟨k, 4095, 2 ^ 22 - 1, 0, 64, 0, 0, 0, 0, false, false⟩

theorem wit_BankService_requests : (∀ k ∈ [VReqKind.act, .pre, .read (.load firstHart 0)], (let s := wb (fun b => { b with q := [aReq k] })
    let b := s.bank 0 31
    b.q = [aReq k] ∧ b.hold = none ∧ b.holdPend = none ∧ b.refresh = none ∧ b.repair = none ∧ b.opened = none ∧ b.isOpen 4095 = false ∧
      (aReq k).buffered (s.vault 0) = false ∧ s.layerUp 0 (31 / 4) = true)) := by decide +kernel
/-- The row open for long enough. -/
theorem wit_BankService_transfer : (let s := { wb (fun b => { b with q := [aReq (.read (.load firstHart 0))], opened := some ⟨4095, false⟩, actClk := some 0 }) with clk := Config.tRCD }
    (s.bank 0 31).isOpen 4095 = true ∧ after (s.bank 0 31).actClk Config.tRCD ≤ s.clk ∧ (s.vault 0).busHalf ≤ 2 * s.clk ∧
      ∀ e ∈ (s.vault 0).banks, e.1 = 31 ∨ e.2.q = []) := by decide +kernel
theorem wit_BankService_refresh : (let s := w0.modVault 0 (fun v => { v with slotN := 31 })
      let slot := max ((s.stk (stackOf 0)).resetClk + (s.vault 0).slotClk) (s.bank 0 31).segEnd
      slot ≤ s.clk ∧ s.clk < slot + Config.tRFC ∧ after (s.bank 0 31).actClk 0 ≤ slot ∧ (∀ e ∈ (s.vault 0).banks, e.2.refresh = none) ∧
        31 = (s.vault 0).slotN % 32 ∧ (s.bank 0 31).hold = none ∧ (s.bank 0 31).holdPend = none ∧ (∀ r, (s.bank 0 31).repair = some r → r.copy = none) ∧
        (∀ k < 8, s.band 0 k = 0) ∧ slot + Config.tRFC ≤ ({ s with clk := 1000 } : State).clk) ∧
    (let s := { wb (fun b => { b with refresh := some (0, some ⟨0, false⟩), preClk := some 9 }) with clk := 9 + Config.tRFC }
     (s.bank 0 31).refresh = some (0, some ⟨0, false⟩) ∧ max 0 ((s.bank 0 31).preClk.getD 0) + Config.tRFC ≤ s.clk) := by decide +kernel
theorem wit_BankService_hold : (let b := (wb (fun b => { b with holdPend := some ⟨0, true⟩ })).bank 0 31
      b.holdPend = some ⟨0, true⟩ ∧ b.hold = none ∧ b.refresh = none ∧ (∀ q ∈ b.q, q.ahead = false) ∧ max (after b.actClk Config.tRAS) b.xferEnd ≤ w0.clk) ∧
    (let s := { wb (fun b => { b with hold := some (⟨0, true⟩, 0) }) with clk := Config.tRFM }
     (s.bank 0 31).hold = some (⟨0, true⟩, 0) ∧ 0 + Config.tRFM ≤ s.clk ∧ (s.bank 0 31).refPending = false ∧ (s.vault 0).log.length < 32) := by decide +kernel

/-- Every spare row of a bank used. -/
def noSpares (b : Bank) : Bank := { b with map := (List.range 64).map (fun n => (n, n)) }

theorem wit_BankService_repair : ((wb id).bank 0 31).freeSpares ≠ [] := by decide +kernel
theorem wit_BankService_repairFails : ((wb noSpares).bank 0 31).freeSpares = [] ∧ ((wb noSpares).vault 0).log.length < 32 ∧
    ((wb noSpares).bank 0 31).repair = none := by decide +kernel
theorem wit_BankService_repairSteps : (let b := (wb (fun b => { b with repairReq := [4095] })).bank 0 31
      b.repairReq = [4095] ∧ b.repair = none ∧ b.hold = none ∧ b.holdPend = none ∧ b.refresh = none ∧ b.refPending = false ∧ b.freeSpares ≠ [] ∧ 0 ∈ b.freeSpares) ∧
    (let b := (wb (fun b => { b with repair := some ⟨4095, 0, 0, none⟩ })).bank 0 31
     b.repair = some ⟨4095, 0, 0, none⟩ ∧ b.hold = none ∧ b.holdPend = none ∧ b.refresh = none ∧ b.opened = none) ∧
    (let b := (wb (fun b => { b with repair := some ⟨4095, 0, 0, some 0⟩ })).bank 0 31
     b.repair = some ⟨4095, 0, 0, some 0⟩ ∧ after b.preClk Config.tRP ≤ w0.clk ∧ b.refPending = false) := by decide +kernel
theorem wit_BankService_sample : (w0.stk 7).resetClk + (w0.stk 7).sampleClk ≤ ({ w0 with clk := 10000 } : State).clk := by decide +kernel

theorem wit_RemoteRequests_arrival : (let s := w0.modDev (fun d => { d with net := [m0] })
      s.dev.net = [m0] ∧ m0.router = none ∧ m0.org = .own ∧ s.sendDue m0 = true ∧ s.ownDev m0.dev = true ∧ (s.core m0.core).retired = false ∧
        (s.core m0.core).ring = [] ∧ (s.core m0.core).onDie + m0.entries ≤ 16) ∧
    (let s := (w0.modDev (fun d => { d with net := [m0] })).modCore 0 (fun c => { c with retired := true }); (s.core m0.core).retired = true ∧ s.sendDue m0 = true) ∧
    (let s := (w0.modDev (fun d => { d with net := [m0] })).modCore 0 (fun c => { c with ondie := List.replicate 16 m0, spillQuota := 0 })
     (s.core 0).retired = false ∧ (s.core 0).ring = [] ∧ 16 < (s.core 0).onDie + m0.entries ∧ (s.core 0).spillQuota = 0 ∧ s.sendDue m0 = true) := by decide +kernel

/-- Core 0 with one arrival in service, the read of its line served. -/
def serviced (m : Msg) : State := servedFor 0 (.msg m.id) (m.addr.toNat / 64) (w0.modCore 0 (fun c => { c with serving := [m] }))

/-- A RAMOCAS of 4 bytes. -/
def mRamo : Msg := { m0 with kind := .ramo, op := 9, size := 4 }

theorem wit_RemoteRequests_home : inService 0 m0 (serviced m0) ∧ atHome 0 m0 (serviced m0) ∧ m0.kind = .rload ∧ (serviced m0).badWord 0x40 8 = none ∧
    inService 0 mRamo (serviced mRamo) ∧ atHome 0 mRamo (serviced mRamo) ∧ accepts 0 (serviced mRamo) ∧
    (let m := { m0 with kind := .rstore }; alone 0 m (arrived [m]) ∧ atHome 0 m (arrived [m]) ∧ accepts 0 (arrived [m]) ∧ (arrived [m]).lineRead 0 1 = false) := by
  unfold alone atHome accepts inService fromHere served
  decide +kernel
theorem wit_RemoteRequests_misaligned : alone 0 { m0 with addr := 0x41 } (arrived [{ m0 with addr := 0x41 }]) ∧ 0x41 % max m0.size 1 ≠ 0 := by
  unfold alone fromHere
  decide +kernel
theorem wit_RemoteRequests_counters : alone 0 { m0 with kind := .mbxadd } (arrived [{ m0 with kind := .mbxadd }]) ∧ (w0.core 0).watches = [] ∧ m0.acks = [] ∧
    alone 0 { m0 with kind := .mbxwatch, sub := 1 } (arrived [{ m0 with kind := .mbxwatch, sub := 1 }]) ∧
    ((w0.core 0).counter 0 - (0 : Word).setWidth 32).msb = false ∧ ((w0.core 0).counter 0 - (1 : Word).setWidth 32).msb = true ∧ (w0.core 0).watches.length < 32 := by
  unfold alone fromHere
  decide +kernel

/-- A watch of counter 63 by the sender of m0. -/
def aWatch : Watch := ⟨m0.src, 0, 63, 1, 0, none, 4, .own⟩

theorem wit_RemoteRequests_watches : (let m := { m0 with kind := .mbxwatch, sub := 2, data := 63 * 2 ^ 32 }
      let s := (arrived [m]).modCore 0 (fun c => { c with watches := [aWatch] })
      (s.core 0).watches = [aWatch] ∧ aWatch.src = m.src ∧ aWatch.epoch = m.epoch ∧ aWatch.counter = wbits m.data 32 6 ∧ aWatch.org = m.org ∧
        aWatch.expiry.toNat ≤ s.time.toNat ∧ (s.core 0).watches[0]? = some aWatch) ∧
    32 ≤ ((w0.modCore 0 (fun c => { c with watches := List.replicate 32 aWatch })).core 0).watches.length := by decide +kernel
/-- A notice of child 9 at the router of cluster 1, without an entry there, and with one whose other child is ahead. -/
theorem wit_RemoteRequests_combine : (let m := { m0 with kind := .mbxadd, router := some (1, 9) }
      let s := w0.modDev (fun d => { d with net := [m] })
      s.dev.net = [m] ∧ s.sendDue m = true ∧ (s.cluster 1).combine = [] ∧ ((9 : Nat) ≠ 8 ∧ 0 < 1) ∧
        ∀ y ∈ ([[], [[]]] : List (List (List Ack))), let e : Combine := ⟨m.core, wbits m.addr 2 6, none, [(9, []), (8, y)], 1⟩
          ((s.modCluster 1 (fun c => { c with combine := [e] })).cluster 1).combine = [e]) := by decide +kernel

/-- A call of entry 16 and a state of that entry. -/
def wcall (n : Nat) (e : HEntry) : State := (arrived [{ m0 with kind := .rcall, hidx := n }]).modCore 0 (fun c => { c with ht := c.ht.set n e })

/-- An entry of any address space. -/
def anEntry : HEntry := ⟨1, 0x4000, .valid, false, true, none⟩

theorem wit_Calls_start : alone 0 { m0 with kind := .rcall, hidx := 63 } (wcall 63 anEntry) ∧
    (ctxsOf 0).find? (fun g => ((wcall 63 anEntry).hart g).st == .idle) = some ⟨.ctx, 0, 0⟩ ∧ ((wcall 63 anEntry).core 0).entry 63 = anEntry ∧
    m0.args.length = 8 := by
  unfold alone fromHere
  decide +kernel
theorem wit_Calls_refused : ((wcall 16 HEntry.empty).core 0).entry 16 = HEntry.empty ∧ ((wcall 15 anEntry).core 0).entry 15 = anEntry ∧
    ((wcall 16 { anEntry with ptroot := 0x11, anyas := false }).core 0).entry 16 = { anEntry with ptroot := 0x11, anyas := false } ∧
    m0.asid ≠ (0x11 : Word).extractLsb' 4 12 := by decide +kernel
theorem wit_Calls_timeouts : (let m := { m0 with kind := .rcall, since := some 0 }
      let s := { (arrived [m]).modCore 0 (fun c => { c with ht := c.ht.set 16 { anEntry with st := .busy } }) with clk := 10500 }
      (s.core 0).ondie = [m] ∧ (s.core 0).ring = [] ∧ (s.core 0).serving = [] ∧ ((s.core 0).entry m.hidx).st = .busy ∧ 0 + 10500 ≤ s.clk) ∧
    (let s := { wc with clk := 2100000 }
     wc.cur.isCtx = true ∧ (s.hart wc.cur).st = .running ∧ (s.hart wc.cur).ctx.start + 2100000 ≤ s.clk ∧
       (s.hart wc.cur).ctx.arrival = some { m0 with kind := .rcall } ∧ m0.org = .own ∧
       (s.hart wc.cur).ctx.copyFault = none ∧ (s.hart wc.cur).copiesOut = false ∧ (s.hart wc.cur).busy.sb = [] ∧ (s.hart wc.cur).busy.loads = []) := by decide +kernel
theorem wit_Calls_write : (let s := w0.modCore 0 (fun c => { c with htbase := 0x8000, ht := c.ht.set 63 { anEntry with st := .busy, next := some (firstHart, none) } })
      ((s.core 0).entry 63).st = .busy ∧ ((s.core 0).entry 63).next = some (firstHart, none) ∧ region (0x8000 + 16 * 63) = 0 ∧
        (s.core 0).htbase.toNat + 16 * 63 = 0x8000 + 16 * 63 ∧ (0x8000 + 16 * 63) % 16 = 0 ∧ s.heldAt (0x8000 + 16 * 63) 16 = false ∧
        s.bufRoom (paCore (0x8000 + 16 * 63)) = true ∧ s.dev.ckptEn = false ∧ s.lineRead 0 ((0x8000 + 16 * 63) / 64) = false ∧
        (s.modMe (fun h => { h with wait := some (.entry 63) })).me.wait = some (.entry 63)) := by decide +kernel
/-- An answer of the message of m0's number, for the running thread. -/
def aReply (k : ReplyKind) : Reply :=
  { kind := k, msg := 5, mkind := .rload, dst := firstHart, epoch := 0, reg := some 31, value := 7, cause := 0x0C, status := 0, core := 8, dev := 0xFFFF, vst := none,
    waited := 0, hit := false, cmd := none, trav := none, parts := 0, word := none, ok := true, org := .own }

/-- The thread with a pending register and that answer under way. -/
def wrep (r : Reply) (f : Hart → Hart) : State := (th (fun h => f (h.markX 31 .pending))).modDev (fun d => { d with replies := [r] })

/-- The conditions of Answers, as a test. -/
def oneB (r : Reply) (s : State) : Bool :=
  s.dev.replies == [r] && r.cmd == none && r.mkind != .repcommit && r.mkind != .xact && (s.hart r.dst).wait == none && (s.hart r.dst).busy.mbx == []

theorem wit_Answers : (∀ k ∈ [ReplyKind.fill, .nack, .accept], oneB (aReply k) (wrep (aReply k) id) = true) ∧
    oneB { aReply .endNotice with trav := some 0 } (wrep { aReply .endNotice with trav := some 0 } id) = true ∧
    (∀ e, ((wrep (aReply .fill) id).hart firstHart).wait ≠ some (.ending e)) ∧
    (let h := (wrep (aReply .fill) id).hart firstHart
     h.st = .running ∧ h.epoch = 0 ∧ h.stx 31 = .pending ∧ wbits h.csr.msgerr 48 16 = 0 ∧ firstHart.kind ≠ .mgmt) ∧
    ((wrep (aReply .fill) (fun h => { h with epoch := 1 })).hart firstHart).epoch ≠ (aReply .fill).epoch := by
  refine ⟨?_, ?_, noEnding (w := none) (by decide +kernel) rfl, ?_, ?_⟩ <;> decide +kernel
theorem wit_Answers_waits : (let w : MbxWait := ⟨0x2FFFF0000800, 1, some 31, 0, false, 5, some 0⟩
    let s := { (bz (fun b => { b with mbx := [w] })).modMe (fun h => h.markX 31 .pending) with clk := 1050000000 }
    (s.hart firstHart).st = .running ∧ (s.hart firstHart).busy.mbx = [w] ∧ w.own = false ∧ s.reachable (w.name.extractLsb' 28 16) = true ∧ w.resend = some 0 ∧
      0 ≤ s.clk ∧ w.issued + 1050000000 ≤ s.clk ∧ w.reg = some 31 ∧ (s.hart firstHart).stx 31 = .pending) := by decide +kernel

/-- A commit's message for the line at 0x40 of the vault of core 0. -/
def mrep (sub : Nat) : Msg := { m0 with kind := .repcommit, org := .protocol, sub := sub, bytes := [(0x40, 1), (0x7F, 2)] }

/-- The lock of that line. -/
def aLock (x : Bool) : LineLock := ⟨1, m0.src, x, [], none, false, false⟩

/-- A vault with locks and an arrival. -/
def wlocks (m : Msg) (ls : List LineLock) : State := (arrived [m]).modVault 0 (fun v => { v with locks := ls })

theorem wit_CommitProtocols_lock : alone 0 (mrep 0) (wlocks (mrep 0) []) ∧ ((mrep 0).bytes.map (fun b => paOff b.1 / 64)).eraseDups = [1] ∧
    ((wlocks (mrep 0) []).vault 0).locks = [] ∧ ((wlocks (mrep 0) [aLock false]).vault 0).locks = [aLock false] ∧ (aLock false).line = 1 ∧
    (let ls := List.replicate 64 { aLock false with line := 9 }
     64 < ((wlocks (mrep 0) ls).vault 0).locks.length + 1 ∧ ∀ l ∈ ((wlocks (mrep 0) ls).vault 0).locks, l.line ∉ [1]) := by
  unfold alone fromHere
  decide +kernel
theorem wit_CommitProtocols_data : alone 0 (mrep 1) (wlocks (mrep 1) [aLock false]) ∧ (aLock false).owner = (mrep 1).src ∧ (aLock false).queue = [] ∧
    accepts 0 (wlocks (mrep 1) [aLock false]) ∧ ((mrep 1).bytes.map (·.1)).Nodup ∧ (mrep 1).bytes ≠ [] ∧
    (∀ c ∈ (mrep 1).bytes, vaultPa 0 (1 * 64) ≤ c.1 ∧ c.1 < vaultPa 0 (1 * 64) + 64) := by
  unfold alone accepts fromHere
  decide +kernel
/-- A store to a page that clusters 0 and 1 hold. -/
theorem wit_CommitProtocols_start : (let e := { aStore with rep := some 3 }
    let s := bz (fun b => { b with sb := [e] })
    (s.hart firstHart).busy.commit = none ∧ (s.hart firstHart).busy.sb = [e] ∧ (s.hart firstHart).storeDue e = true ∧
      (List.range 2048).filter (fun c => (3#256).getLsbD (clusterOf c)) = 0 :: (List.range 15).map (· + 1)) := by decide +kernel

/-- A commit under way. -/
def aCommit (stage : Nat) : Commit := ⟨[1], 0, [1], stage, [8], [], 1⟩

/-- The thread with it and an answer. -/
def wcom (c : Commit) (k : ReplyKind) : State :=
  (bz (fun b => { b with commit := some c, sb := [{ aStore with parts := [(0x40, 8, 1)], rep := some 3 }] })).modDev (fun d => { d with replies := [{ aReply k with mkind := .repcommit }] })

theorem wit_CommitProtocols_answers : (∀ e, ((wcom (aCommit 4) .repAck).hart firstHart).wait ≠ some (.ending e)) ∧
    (∀ k ∈ [ReplyKind.repGrant, .repFull, .repAck], (wcom (aCommit 1) k).dev.replies = [{ aReply k with mkind := .repcommit }]) ∧
    ((wcom (aCommit 1) .repGrant).hart firstHart).busy.commit = some (aCommit 1) ∧ (aCommit 1).waiting = [(aReply .repGrant).core] ∧
    (aCommit 4).stage = 4 ∧ (aCommit 4).num = 1 ∧
    (∀ e ∈ ((wcom (aCommit 4) .repAck).hart firstHart).busy.sb, ∀ p ∈ e.parts, paOff p.1 / 64 ∈ (aCommit 4).lines) := by
  refine ⟨noEnding (w := none) (by decide +kernel) rfl, ?_⟩
  decide +kernel
/-- A lock on whose line a read has waited for 21,000 clk. -/
theorem wit_CommitProtocols_times : ((wcom { aCommit 1 with retry := [(8, 0)] } .repFull).hart firstHart).busy.commit = some { aCommit 1 with retry := [(8, 0)] } ∧ 0 ≤ w0.clk ∧
    (let l := { aLock false with since := some 0 }
     let s := { servedFor 0 (.load firstHart 0) 1 (wlocks m0 [l]) with clk := 21000 }
     (s.vault 0).locks = [l] ∧ l.line = 1 ∧ l.checked = false ∧ l.since = some 0 ∧ 0 + 21000 ≤ s.clk ∧ s.lineWaited 0 1 = true) := by
  decide +kernel

/-- A transaction's message of the same lines. -/
def mx (sub : Nat) : Msg := { mrep sub with kind := .xact }

theorem wit_CommitProtocols_xact : alone 0 (mx 0) (wlocks (mx 0) []) ∧ (((mx 0).bytes.map (fun b => paOff b.1 / 64)).eraseDups).length ≤ 64 ∧
    (∃ l ∈ ((mx 0).bytes.map (fun b => paOff b.1 / 64)).eraseDups, ∃ x ∈ ((wlocks (mx 0) [aLock true]).vault 0).locks, x.line = l) ∧
    alone 0 (mx 1) (wlocks (mx 1) [aLock true]) ∧ accepts 0 (wlocks (mx 1) [aLock true]) ∧ alone 0 (mx 2) (wlocks (mx 2) [aLock true]) ∧ (aLock true).xact = true ∧
    (aLock true).owner = (mx 2).src ∧ (aLock true).queue = [] := by
  unfold alone accepts fromHere
  decide +kernel
theorem wit_CommitProtocols_votes : (let x : Xact := { x0 with ents := [xe], asked := [8], committing := true }
    ∀ k ∈ [ReplyKind.vote, .ack], (let s := (wx x).modDev (fun d => { d with replies := [{ aReply k with mkind := .xact }] })
      s.dev.replies = [{ aReply k with mkind := .xact }] ∧ (s.hart firstHart).busy.xact = some x ∧ x.committing = true ∧ (aReply k).ok = true ∧
        x.granted.length + 1 = x.asked.length ∧ x.refused = [])) := by decide +kernel

/-- It in its queue, and in flight. -/
def wq (q : Nat) (c : Cmd) (fs : List FaultRec) : State := bz (fun b => { b with queues := [(q, [c])], faults := fs })
def aFlight (c : Cmd) : Flight := ⟨c, [], [], [], 0, none, false, 0, false, 0, none, false, []⟩
def wfl (f : Flight) : State := wk 1 false |>.modMe (fun h => h.modBusy (fun b => { b with flights := [f] }))

theorem emptyQueues {s : State} {q : Nat} {c : Cmd} (h : (s.hart firstHart).busy.queues = [(q, [c])]) : ∀ j, j ≠ q → (s.hart firstHart).queue j = [] := by
  intro j hj
  have hj' : q ≠ j := fun e => hj e.symm
  simp [Hart.queue, h, Table.get, hj']

theorem noQueues {s : State} (h : (s.hart firstHart).busy.queues = []) : ∀ j, (s.hart firstHart).queue j = [] := by
  intro j
  simp [Hart.queue, h, Table.get]

/-- The head of the only queue with a command. -/
theorem headOf_of {s : State} {q : Nat} {c : Cmd} (h : (s.hart firstHart).busy.queues = [(q, [c])])
    (g : ((s.hart firstHart).busy.flights.isEmpty && (s.hart firstHart).busy.loads.isEmpty && (s.hart firstHart).busy.sb.isEmpty &&
      (s.hart firstHart).busy.posted.isEmpty) = true) : Sys2Proof.Claims.headOf firstHart q c s := by
  simp only [Bool.and_eq_true, List.isEmpty_iff] at g
  exact ⟨rfl, by simp [Hart.queue, h, Table.get], emptyQueues h, g.1.1.1, g.1.1.2, g.1.2, g.2⟩

/-- A call, and a copy under a mask that names its own token. -/
def cCall : Cmd := aCmd (.rcall Head.plain 5 10 7 0 63 1 3) 0
def cCopy : Cmd := { aCmd (.copy Head.plain 1 2 7 0x80 0) 1 with wait := 0x80 }

theorem wit_EngineEvents_call : Sys2Proof.Claims.headOf firstHart 3 cCall (wq 3 cCall []) ∧ ((wq 3 cCall []).hart firstHart).busy.faults = [] ∧
    coreId cCall.va = some (0xFFFF, 8) ∧ w0.retiredHere 0xFFFF 8 = false ∧ w0.reachable 0xFFFF = true := by
  refine ⟨headOf_of rfl (by decide +kernel), ?_⟩
  decide +kernel
theorem wit_EngineEvents_chain : Sys2Proof.Claims.headOf firstHart 2 cCopy (wq 2 cCopy [⟨0, 7, none⟩]) ∧
    ((wq 2 cCopy [⟨0, 7, none⟩]).hart firstHart).busy.faults = [⟨0, 7, none⟩] ∧ 0 < cCopy.seq ∧ cCopy.wait.getLsbD (7#3).toNat = true := by
  refine ⟨headOf_of rfl (by decide +kernel), ?_⟩
  decide +kernel
theorem wit_EngineEvents_waits : (let c := { aCmd (.copy Head.plain 1 2 7 0x80 0) 1 with wait := 0x80 }
    let s := (wq 2 c []).modMe (fun h => h.modBusy (fun b => { b with flights := [aFlight (aCmd (.copy Head.plain 1 2 7 0 0) 0)] }))
    (s.hart firstHart).queue 2 = [c] ∧ (s.hart firstHart).busy.flights = [aFlight (aCmd (.copy Head.plain 1 2 7 0 0) 0)] ∧ 0 < c.seq ∧ c.wait.getLsbD (7#3).toNat = true) := by
  decide +kernel
theorem flying_of (f : Flight) : flying firstHart f (wfl f) := by
  refine ⟨rfl, ?_, noQueues (by rfl), noEnding (w := none) (by rfl) rfl⟩
  rfl
theorem wit_EngineEvents_signal : (let f := aFlight (aCmd (.copy Head.plain 1 2 7 0 0) 0)
    (∀ hd a tk w id, f.cmd.ins ≠ .tapeSave hd a tk w id ∧ f.cmd.ins ≠ .tapeLoad hd a tk w id) ∧
      f.remote = false ∧ f.written = false ∧ f.cmd.slot = none ∧ f.segs = [] ∧ ({ f with fault := some (0x05, 1, 9) } : Flight).fault = some (0x05, 1, 9) ∧ ((wk 1 true).me.tok 7).fault = true) := by
  refine ⟨fun _ _ _ _ _ => ⟨Instr.noConfusion, Instr.noConfusion⟩, ?_⟩
  decide +kernel
theorem wit_EngineEvents_swap : (let f := aFlight { aCmd (.aswap Head.plain 7 0) 0 with slot := some 1 }
    flying firstHart f (wfl f) ∧ f.cmd.ins = .aswap Head.plain 7 0 ∧ f.cmd.slot = some 1 ∧ f.remote = false ∧ f.fault = none ∧ f.segs = [] ∧ f.written = false ∧ clusterOf f.cmd.home = 0 ∧
      (((wfl f).cluster 0).slot 1).badInput f.cmd.ins = false) := by
  refine ⟨flying_of _, ?_⟩
  decide +kernel

/-- A tile load of one segment of one line. -/
def fTile : Flight :=
  { aFlight { aCmd (.tld Head.plain 10 7 0 0 0 0 0 0) 0 with slot := some 1 } with segs := [⟨bankOf 0x1000, rowOf 0x1000, [(0x1000, 0, 64, 0)], []⟩], started := true }

theorem wit_EngineEvents_tile : (∀ f ∈ [fTile, { fTile with asked := 1 }, { fTile with stopped := some (.repair, 0) }], (let s := wfl f
      (s.hart firstHart).busy.flights = [f] ∧ f.fault = none ∧ f.moved = [] ∧ f.cmd.ins = .tld Head.plain 10 7 0 0 0 0 0 0 ∧ f.cmd.slot = some 1 ∧ s.dev.early = [] ∧ ∀ g ∈ f.segs, g.done = [])) ∧
    (let s := servedFor 0 (.cmd firstHart 0) 0x40 (wfl { fTile with asked := 1 })
     ∀ g ∈ fTile.segs, s.segMoved firstHart 0 g = true ∧ s.badWord 0x1000 64 = none ∧ s.segStop g = none ∧
       ((s.modVault 0 (fun v => { v with banks := v.banks.set (bankOf 0x1000) { Bank.reset with repair := some ⟨rowOf 0x1000, 0, 0, some 0⟩ } })).segStop g) = some .repair) := by
  decide +kernel
theorem wit_EngineEvents_units : (let s := (th (fun h => { h with wait := some .lvu })).modCluster 0 (fun c => { c with lvuQ := [firstHart] })
      (s.cluster 0).lvuNow = none ∧ (s.cluster 0).lvuQ = [firstHart] ∧ (s.hart firstHart).wait = some .lvu) ∧
    (let s := (th (fun h => { h with wait := some .lease })).modCluster 0 (fun c => { c with leaseQ := [firstHart] })
     let t := s.modSlot 0 0 (fun l => { l with st := .held })
     (s.cluster 0).leaseQ = [firstHart] ∧ (s.hart firstHart).wait = some .lease ∧ (s.cluster 0).engRetired = false ∧ ((s.cluster 0).slot 0).st = .free ∧
       ((t.cluster 0).slot 0).st ≠ .free ∧ ((t.cluster 0).slot 1).st = .free) ∧
    (let s := w0.modSlot 0 1 (fun l => { l with st := .draining })
     ((s.cluster 0).slot 1).st = .draining ∧ (∀ e ∈ s.harts, e.2.lease ≠ some 1 ∧ ∀ c ∈ e.2.busy.commands, c.onSlot 0 1 = false)) ∧
    (let s := { w0.modCluster 0 (fun c => { c with turn := some 1 }) with clk := 16384 }
     (s.cluster 0).turn = some 1 ∧ (s.cluster 0).turnClk + (s.cluster 0).budTclk ≤ s.clk) := by decide +kernel

/-- The state after an instruction of the running thread. -/
def after1 (i : Instr) (s : State) : State :=
  match exec i s with
  | .next t => t
  | _ => s

/-- Tape 0 with one record, which a thread with an empty command queue then plays. -/
def wplay (i : Instr) : State :=
  (after1 (.tapeEnd Head.plain 5) (after1 i (after1 (.tapeRec Head.plain 5 0 1) w0))).modMe (fun h => h.modBusy (fun b => { b with queues := [], tokens := [], flights := [] }))

/-- A replay of it. -/
def aPlay : Play := ⟨0, 0, 0, 0, [], none, 0, 0, 0⟩

theorem wit_EngineEvents_play : (let s := (wplay (.waittk Head.plain 0xFF)).modMe (fun h => h.modBusy (fun b => { b with plays := [aPlay] }))
      (s.hart firstHart).busy.play = none ∧ (s.hart firstHart).busy.plays = [aPlay] ∧ aPlay.stopped = none ∧ firstHart.kept = false ∧ (s.hart firstHart).isTaken = false ∧ s.startReason firstHart aPlay = none ∧
        s.playHome firstHart aPlay.seq = firstHart.home ∧
        (let t := s.modMe (fun h => { h with wait := some (.taken 0xF) })
         (t.hart firstHart).isTaken = true ∧ t.startReason firstHart aPlay = none ∧ (t.hart firstHart).busy.plays = [aPlay]) ∧
        ((s.modVault 0 (fun v => { v with gen := 1 })).startReason firstHart aPlay = some 6)) ∧
    (w0.playTape firstHart aPlay).st ≠ .valid := by decide +kernel

/-- A boundary at which a replay stops, one with a command, and one with a barrier. -/
def stopsAt (s : State) (n : Nat) : Bool := match s.boundary firstHart aPlay with | .error m => m == n | .ok _ => false
def commandAt (s : State) : Bool :=
  match s.boundary firstHart aPlay with | .ok g => (match g.kind with | .command i => engineQueue i == some 2 | _ => false) | .error _ => false
def barrierAt (s : State) (m : BitVec 8) : Bool :=
  match s.boundary firstHart aPlay with | .ok g => (match g.kind with | .barrier k => k == m | _ => false) | .error _ => false

theorem wit_EngineEvents_records : (let s := wplay (.copy Head.plain 1 2 7 0 0)
      aPlay.next < s.playCount firstHart aPlay ∧ commandAt s = true ∧ stopsAt (s.modVault 0 (fun v => { v with gen := 1 })) 6 = true ∧
        ((s.hart firstHart).queue 2).length < 32 ∧ (∀ k, ((s.hart firstHart).tok k).count < 255)) ∧
    (let s := wplay (.waittk Head.plain 0xFF)
     aPlay.next < s.playCount firstHart aPlay ∧ barrierAt s 0xFF = true ∧
       (∀ k : BitVec 3, (0xFF#8).getLsbD k.toNat = true → ((s.hart firstHart).tok k).count = 0 ∧ ((s.hart firstHart).tok k).fault = false) ∧
       (let t := s.modMe (fun h => h.modBusy (fun b => { b with tokens := [(7, ⟨0, true, false, 0⟩)] })); ((t.hart firstHart).tok 7).fault = true ∧ barrierAt t 0xFF = true)) := by
  decide +kernel
theorem wit_EngineEvents_playEnd : (let f := aFlight (aCmd (.tapePlay Head.plain 10 7 0 0) 0)
    let s := (wfl f).modMe (fun h => h.modBusy (fun b => { b with play := some aPlay }))
    let t := (wfl f).modMe (fun h => h.modBusy (fun b => { b with play := some { aPlay with stopped := some (15, 0) } }))
    (s.hart firstHart).busy.play = some aPlay ∧ aPlay.seq = f.cmd.seq ∧ f.cmd.slot = none ∧ aPlay.issued = [] ∧ s.playCount firstHart aPlay ≤ aPlay.next ∧
      (t.hart firstHart).busy.play = some { aPlay with stopped := some (15, 0) }) := by decide +kernel

/-- A copy of the last 8 bytes of a line of core 0 to a line of core 1. -/
def mcopy : Msg := { m0 with kind := .copyreq, elems := [(0x78, 0x10000078, 8)] }

theorem wit_CopiesAndJobs_copy : alone 0 mcopy (arrived [mcopy]) ∧ (let s := servedFor 0 (.msg mcopy.id) 1 (w0.modCore 0 (fun c => { c with serving := [mcopy] }))
    held 0 mcopy s ∧ mcopy.bytes = [] ∧ region 0x78 = 0 ∧ s.malformed 0x78 = false ∧ paCore 0x78 = 0 ∧
      region 0x10000078 = 0 ∧ 0x10000078 % 64 + 8 ≤ 64 ∧ (s.core (paCore 0x10000078)).retired = false ∧ stackOf (paCore 0x10000078) = stackOf 0 ∧
      served (.msg mcopy.id) [(0x78, 8)] s ∧ s.onlyReads 0 (.msg mcopy.id) (linesOf [(0x78, 8)]) = s ∧
      s.badWord 0x78 8 = none ∧ s.heldAt 0x10000078 8 = false ∧ accepts (paCore 0x10000078) s ∧
      (s.dropReads 0 (.msg mcopy.id)).lineRead (paCore 0x10000078) (paOff 0x10000078 / 64) = false ∧
      ({ s with bad := [15] }).badWord 0x78 8 = some 15 ∧ region (8 * 15) = 0) := by
  unfold alone accepts held served fromHere
  decide +kernel
theorem wit_CopiesAndJobs_chunk : (let m := { m0 with kind := .chunk, addr := 0x40, bytes := (List.range 64).map (fun k => (0x40 + k, 1)) }
    alone 0 m (arrived [m]) ∧ 0x40 % 64 + m.bytes.length ≤ 64 ∧ m.bytes ≠ [] ∧ (arrived [m]).heldAt 0x40 m.bytes.length = false ∧ accepts 0 (arrived [m]) ∧
      (arrived [m]).malformed 0x40 = false ∧ (arrived [m]).lineRead 0 1 = false ∧
      (∀ k, k < m.bytes.length → (m.bytes[k]?).map (·.1) = some (0x40 + k))) := by
  unfold alone accepts fromHere
  decide +kernel

/-- A job that is not resident, and one that reads a byte. -/
def aJob (res : Bool) : Job := ⟨false, [], [[0x40]], [], res, false, true⟩
def mjob (res : Bool) : Msg := { m0 with kind := .vpjob, src := ⟨.thread, 0, 0⟩, rreg := 31, cmd := some 0, job := some (aJob res) }

theorem wit_CopiesAndJobs_job : ∀ res ∈ [false, true], alone 0 (mjob res) (arrived [mjob res]) ∧
    (let s := servedFor 0 (.msg (mjob res).id) 1 (w0.modCore 0 (fun c => { c with serving := [mjob res] }))
     held 0 (mjob res) s ∧ (mjob res).job = some (aJob res) ∧ served (.msg (mjob res).id) (aJob res).parts s ∧ ∀ p ∈ (aJob res).parts, s.badWord p.1 p.2 = none) := by
  unfold alone held served fromHere
  decide +kernel
theorem wit_CopiesAndJobs_end : (let j : JobRun := ⟨mjob true, [(0x40, [1, 2])], 9, none⟩
    let s := ((wfl (aFlight (aCmd (.vpipe Head.plain 31 1 2 7 0 1 0) 0))).modMe (fun h => h.markX 31 .pending)).modVault 0 (fun v => { v with jobs := [j] })
    (s.vault 0).jobs = [j] ∧ j.writes = [(0x40, [1, 2])] ∧ s.heldAt 0x40 2 = false ∧ s.bufRoom (paCore 0x40) = true ∧ s.dev.ckptEn = false ∧
      s.lineRead (paCore 0x40) (paOff 0x40 / 64) = false ∧ j.msg.src.kind = .thread ∧
      (s.hart j.msg.src).st = .running ∧ (s.hart j.msg.src).epoch = j.msg.epoch ∧ j.msg.rr = true ∧ (s.hart j.msg.src).stx j.msg.rreg = .pending ∧
      j.msg.cmd = some 0) := by decide +kernel

/-- A launch record as a number: PLACE 1 (by address), GANG, PLACEARG, a grid of n by 1 by 1, STRIDE 1. -/
def rec1 (gang arg n : Nat) : Nat := 1 + 4 * gang + 2 ^ 32 + arg * 2 ^ 208 + n * 2 ^ 256 + 2 ^ 288 + 2 ^ 320

/-- An open item of the context at 0x9000. -/
def anItem : Item := { Item.unused with used := true, live := 1, ccb := 0x9000 }

/-- The identity-mapped space with queue 0 of stack 0 over a ring at 0x8000, a context at 0x9000 that may use every cluster, and open items. -/
def wsched (st r : Nat) (f : Stack → Stack) : State :=
  { wm with mem := (wm.mem.write 0x8000 (bytesOf 128 r)).write 0x9010 (List.replicate 32 255) }.modStk 0 (fun t =>
    f { t with hqs := [(0, { Hq.reset with ctl := 0x21, ccb := 0x9000, base := 0x8000, tail := 1, st := st, root := 0x1FD0001 })],
               graphs := [(0, anItem)], phases := [(0, anItem)], jobs := [(0, anItem)] })

/-- The record at the head of the ring, and a test of it. -/
def ringTest (s : State) (p : List Byte → Bool) : Bool := match s.ringRead 0 with | .ok r => p r | .error _ => false

theorem wit_Scheduling_accept : (let s := wsched 1 (rec1 0 0x1000 1) id
      (s.hq 0).st = 1 ∧ (s.hq 0).head ≠ (s.hq 0).tail ∧ s.ringHeld 0 = false ∧ s.freeLaunch 0 = some 0 ∧
        ringTest s (fun r => !recBad r && !s.recRefused 0 (s.hq 0).context r && recUnits r == 1 &&
          [1, 2, 3].all (fun tb => (s.recItem 0 r tb).used && (s.recItem 0 r tb).st == .opened) && (recDeps r).isEmpty) = true) ∧
    (let s := wsched 1 (rec1 0 0x1000 1 + 128) id; s.freeLaunch 0 ≠ none ∧ s.ringHeld 0 = false ∧ ringTest s recBad = true) ∧
    (let s := wsched 2 (rec1 0 0x1000 1) id; (s.hq 0).st = 2 ∧ (s.hq 0).head ≠ (s.hq 0).tail ∧ s.ringHeld 0 = false) := by decide +kernel

/-- A launch of that record. -/
def aLaunch (r n : Nat) (f : Launch → Launch) : Launch :=
  f { Launch.unused with item := { anItem with st := .sealed, isSealed := true, live := n }, record := bytesOf 128 r, ptroot := 0x1FD0001, ready := some 0 }

/-- The state with it as launch 0. -/
def wlaunch (r n : Nat) (f : Launch → Launch) : State := wsched 0 0 (fun t => { t with launches := [(0, aLaunch r n f)] })

theorem wit_Scheduling_ready : (let x := (wlaunch (rec1 0 0x1000 1) 1 (fun x => { x with ready := none })).launchOf 0 0
      x.item.used = true ∧ x.item.st = .sealed ∧ x.ready = none ∧ (∀ d ∈ x.deps, False) ∧ recUnits x.record ≠ 0) ∧
    (let x := (wlaunch (rec1 0 0x1000 0) 0 (fun x => { x with ready := none })).launchOf 0 0; recUnits x.record = 0 ∧ x.item.live = 0 ∧ x.ready = none) ∧
    (let s := wlaunch (rec1 0 0x1000 0) 0 id
     (s.launchOf 0 0).ready.isSome = true ∧ recUnits (s.launchOf 0 0).record = 0 ∧ s.atHead 0 0 = true ∧ (s.launchOf 0 0).item.live = 0) ∧
    (let s := (wlaunch (rec1 0 0x1000 1) 1 (fun x => { x with ready := none, deps := [(1, 0)] })).modStk 0 (fun t => { t with graphs := [(0, { anItem with st := .done, status := 1 })] })
     let x := s.launchOf 0 0
     (∀ d ∈ x.deps, (s.item 0 d.1 d.2).st = .done) ∧ recFlag x.record 6 = false ∧ (∃ d ∈ x.deps, (s.item 0 d.1 d.2).status ≠ 0) ∧ x.item.live = recUnits x.record ∧
       x.next = 0 ∧ x.sent = [] ∧ x.item.used = true) ∧
    (let s := { wlaunch (rec1 0 0x1000 1) 1 id with clk := 52500 }
     (s.launchOf 0 0).waiting = true ∧ (s.launchOf 0 0).effective < 3 ∧ (s.launchOf 0 0).since + ((s.launchOf 0 0).boost + 1) * 52500 ≤ s.clk) := by decide +kernel

/-- The placement of a unit as a core, or as the cause of its failure. -/
def placedAt (s : State) (u c : Nat) : Bool := match s.placeOf (s.launchOf 0 0) u with | .ok (.core n) => n == c | _ => false
def unplaced (s : State) (u : Nat) : Bool := match s.placeOf (s.launchOf 0 0) u with | .error (some _) => true | _ => false

theorem wit_Scheduling_dispatch : (let s := wlaunch (rec1 0 0x1000 1) 1 id
      s.launches = [(0, 0, s.launchOf 0 0)] ∧ (s.launchOf 0 0).waiting = true ∧ (s.launchOf 0 0).sent = [] ∧ (s.launchOf 0 0).gang = false ∧
        placedAt s (s.launchOf 0 0).next 0 = true ∧ s.slotFree ⟨.thread, 0, 3⟩ = true ∧ s.savedFor 0 = []) ∧
    (let s := wlaunch (rec1 0 0x400000 1) 1 id
     s.launches = [(0, 0, s.launchOf 0 0)] ∧ (s.launchOf 0 0).waiting = true ∧ (s.launchOf 0 0).gang = false ∧ unplaced s 0 = true ∧ (s.launchOf 0 0).item.status ≠ 2 ∧
       s.cancelledUp 0 3 0 = false) := by
  decide +kernel

/-- The places of a gang of the units of the launch, and a test of the plan. -/
def gangTest (s : State) : Bool :=
  match s.gangPlaces (s.launchOf 0 0) (recUnits (s.launchOf 0 0).record) 0 with
  | .ok ts => !s.gangTooBig ts && (match s.gangPlan (0, 0, s.launchOf 0 0) [] ts with | some p => p.all (fun h => (s.savedFor h.core).isEmpty) | none => false)
  | .error _ => false

theorem wit_Scheduling_gang : (let s := wlaunch (rec1 1 0x1000 2) 2 id
      (s.launchOf 0 0).gang = true ∧ (s.launchOf 0 0).next = 0 ∧ (s.launchOf 0 0).item.live = recUnits (s.launchOf 0 0).record ∧
        s.launches = [(0, 0, s.launchOf 0 0)] ∧ gangTest s = true ∧ recUnits (s.launchOf 0 0).record ≤ 8192) ∧
    (let s := wlaunch (rec1 1 0x1000 8193) 8193 id
     (s.launchOf 0 0).gang = true ∧ (s.launchOf 0 0).item.live = recUnits (s.launchOf 0 0).record ∧ 8192 < recUnits (s.launchOf 0 0).record ∧
       (s.launchOf 0 0).waiting = true ∧ s.cancelledUp 0 3 0 = false) := by decide +kernel
theorem wit_Scheduling_end : (let s := (wlaunch (rec1 0 0x1000 1) 1 id).modMe (fun h => { h with unit := some (0, 0, 0), wait := some .exit })
      s.me.unit = some (0, 0, 0) ∧ (s.launchOf 0 0).item.used = true ∧ (s.launchOf 0 0).item.st = .sealed ∧ (s.launchOf 0 0).item.status = 0 ∧ s.me.wait = some .exit ∧
        s.me.drained = true ∧ s.me.busy.loads = [] ∧ s.released firstHart = true ∧ s.cancelledUp 0 3 0 = false ∧ s.me.inTrap = false ∧ (∀ j, (s.me.tok j).fault = false)) ∧
    (let h := (wk 0 true).me
     h.drained = true ∧ (h.tok 7).fault = true ∧ (∀ i : BitVec 3, i.toNat < (7#3).toNat → (h.tok i).fault = false)) ∧ (wst 0x10 id).me.inTrap = true ∧
    (th (fun h => { h with wait := some (.killed 0x19) })).me.killDone = true ∧ ((wi .done).item 0 3 0).used = true ∧ ((wi .done).item 0 3 0).st = .done := by
  decide +kernel

/-- A thread at a safe point with a request of PREEMPT. -/
def wsafe (p : Word) : State := th (fun h => { h with safe := some 0xF, unit := some (0, 0, 0), csr := { h.csr with preempt := p } })

theorem wit_Preemption_take : (let h := (wsafe 2).hart firstHart
    h.safe.isSome = true ∧ h.wait = none ∧ h.lock = none ∧ h.inTrap = false ∧ h.busy.xact = none ∧ h.st = .running) ∧
    wbit (wsafe 2).me.csr.preempt 1 = true ∧ wbit (wsafe 1).me.csr.preempt 1 = false ∧ wbit (wsafe 1).me.csr.preempt 0 = true ∧ firstHart.kind = .thread := by decide +kernel
theorem wit_Preemption_save : (let s := th (fun h => { h with wait := some (.taken 0xFFFFFFF) })
      s.occupiedIn 0 = [firstHart] ∧ s.me.wait = some (.taken 0xFFFFFFF) ∧ s.me.quiet = true ∧ wbit s.me.csr.preempt 1 = false ∧ s.gangOf firstHart = [] ∧ (0xFFFFFFF : BitVec 32).toNat < 2 ^ 28 ∧
        (s.cluster 0).saves = [] ∧ (s.core 0).long = false) ∧
    (let s := th (fun h => { h with wait := some (.taken 0xF), csr := { h.csr with preempt := 2 } })
     s.me.isTaken = true ∧ wbit s.me.csr.preempt 1 = true ∧ s.occupiedIn 0 = [firstHart]) ∧
    (let s := (th (fun h => { h with st := .saved })).modCluster 0 (fun c => { c with saving := [firstHart] })
     (s.cluster 0).saving = [firstHart] ∧ (s.hart firstHart).st = .saved) := by decide +kernel

/-- A saved unit of launch 0, and the thread kept for it. -/
def aSaved : Saved := ⟨⟨.thread, 0, 4⟩, 0xF, false, [], none, [], [], [], false, firstHart, 0, .running⟩

theorem wit_Preemption_resume : (let s := ((wlaunch (rec1 0 0x1000 1) 1 id).modMe (fun h => { h with st := .saved })).modCluster 0 (fun c => { c with saves := [aSaved] })
    let s := s.modHart aSaved.who (fun h => { h with st := .saved, pc := 0x1000, unit := some (0, 0, 0) })
    s.allSaves = [(0, aSaved)] ∧ (s.cluster 0).saving = [] ∧ aSaved.long = false ∧ (s.core 0).long = false ∧ aSaved.acc = none ∧ aSaved.ranges = [] ∧
      aSaved.who.kept = true ∧ firstHart.kept = false ∧ s.savedUnit aSaved = some (0, 0, 0) ∧ (∀ y ∈ s.launches, s.holds y.2.2 0 = false) ∧
      (s.launchOf 0 0).gang = false ∧ s.slotFree firstHart = true ∧ s.mayResume aSaved 0 = true ∧ s.unitFirst 0 0 0 0 = true) := by decide +kernel
theorem wit_Preemption_deadlines : (let s := { wsafe 1 with clk := 105000 }
      wbit (s.hart firstHart).csr.preempt 0 = true ∧ (s.hart firstHart).late = false ∧ (s.hart firstHart).isTaken = false ∧ (s.hart firstHart).reqClk + 105000 ≤ s.clk ∧
        (s.cluster 0).step ≤ 16) ∧
    (let s := { wsafe 2 with clk := 2100000 }
     wbits (s.hart firstHart).csr.preempt 0 2 ≠ 0 ∧ (s.hart firstHart).occupied = true ∧ (s.hart firstHart).wait = none ∧ (s.hart firstHart).reqClk + 2100000 ≤ s.clk ∧
       (s.hart firstHart).unit = some (0, 0, 0)) := by decide +kernel

/-- Queue 63 in a state. -/
def whq (st : Nat) : State := w0.modHq 63 (fun q => { q with st := st, ctl := 0x21, head := 0xFFFFFFFF, tail := 0xFFFFFFFF })

theorem wit_RegisterEvents_queues : (let q := (whq 1).hq 63
      q.st = 1 ∧ ((3 : Word).setWidth 32 - q.head).toNat ≤ 2 ^ wbits q.ctl 4 4 ∧ ¬((4 : Word).setWidth 32 - q.head).toNat ≤ 2 ^ wbits q.ctl 4 4) ∧
    ((whq 2).hq 63).st = 2 ∧ ((whq 0).hq 63).st ≠ 2 ∧ ((whq 0).hq 63).tail = ((whq 0).hq 63).head ∧ wbit (0x21 : Word) 0 = true ∧ wbit (0x20 : Word) 0 = false := by decide +kernel
theorem wit_RegisterEvents_harts : wbits w0.me.csr.preempt 0 2 = 0 ∧ (w0.core 0).long = false ∧ wbit w0.me.csr.preempt 0 = false ∧
    (th (fun h => { h with st := .halted })).me.st = .halted ∧ (w0.core 0).spillNext = none ∧ (w0.core 0).ring = [] ∧
    (let c := (w0.modCore 0 (fun c => { c with ring := [m0] })).core 0; c.spillNext = none ∧ c.ring ≠ []) ∧
    (let base := wbits (0x8000 : Word) 10 38 * 1024
     base ≠ 0 ∧ region base = 0 ∧ paCore base = 0 ∧ (w0.vault 0).wbuf = [] ∧ w0.dev.ckptEn = false ∧ w0.heldAt base 1024 = false ∧ (∀ e ∈ w0.vaults, e.2.served = [])) := by decide +kernel
/-- An address of region 4 that is not aligned, one of another region, one without a register, and the CLKSTEP register of cluster 63. -/
theorem wit_RegisterEvents_mmio : region 0x400000000004 = 4 ∧ 0x400000000004 % 8 ≠ 0 ∧ region 0x300000000000 ≠ 4 ∧ mmioReg 0x400000000000 = none ∧
    region 0x4003F0000008 = 4 ∧ 0x4003F0000008 % 8 = 0 ∧ mmioReg 0x4003F0000008 = some (.clkstep 63) := by decide +kernel
theorem wit_RegisterEvents_checkpoint : wbit (0x1 : Word) 21 = false ∧ w0.dev.ckptEn = false ∧
    (let s := { w0.modDev (fun d => { d with ckptEn := true, ckptUs := 1 }) with clk := 1050 }
     s.dev.ckptEn = true ∧ s.dev.closing = none ∧ (∀ e ∈ s.vaults, e.2.wbuf = []) ∧ s.dev.ckptClk + s.dev.ckptUs * 1050 ≤ s.clk ∧ 7 * s.dev.ckptLen * 65536 ≤ 8 * 128 * (s.vault 0).ckpt.length) ∧
    (let s := wbufd.modDev (fun d => { d with ckptEn := true })
     s.dev.ckptEn = true ∧ s.dev.closing = none ∧ (∃ e ∈ s.vaults, e.2.wbuf ≠ [])) ∧
    (w0.modDev (fun d => { d with ckptEn := true, closing := some [(0, 1)] })).dev.closing.isSome = true ∧
    (w0.stk 0).snap = false ∧ ((w0.modStk 0 (fun t => { t with snap := true })).stk 0).snap = true ∧
    ((w0.modStk 0 (fun t => { t with notices := [.queueFault 0] })).stk 0).notices = [.queueFault 0] := by decide +kernel

theorem wit_ReliabilityEvents_retire : (let s := w0.modDev (fun d => { d with lasting := [.core 8, .engine 0] })
    .core 8 ∈ s.dev.lasting ∧ s.coreIdle 8 = true ∧ .engine 0 ∈ s.dev.lasting ∧ s.engineIdle 0 = true) := by decide +kernel

/-- A logged line of core 0. -/
def aLogged : CkptEnt := ⟨0x40, List.replicate 64 7, 0, 0⟩

theorem wit_ReliabilityEvents_rollback : (let s := { ((wlaunch (rec1 0 0x1000 1) 1 id).modMe (fun h => { h with unit := some (0, 0, 0) })).modDev
      (fun d => { d with rolls := [(0x9000, .uncorrectable)] }) with vaults := [(0, { Vault.reset with ckpt := [aLogged] })] }
    (0x9000, .uncorrectable) ∈ s.dev.rolls ∧ s.dev.closing = none ∧ s.vaults = [(0, { Vault.reset with ckpt := [aLogged] })] ∧ aLogged.asid ∈ s.rollAsids 0x9000 ∧
      paCore aLogged.pa = 0 ∧ region aLogged.pa = 0 ∧ aLogged.pa % 64 = 0 ∧ aLogged.old.length = 64 ∧
      (s.bank 0 (bankOf (paOff aLogged.pa))).underRepair (rowOf (paOff aLogged.pa)) = false ∧ s.contextHarts 0x9000 = [firstHart] ∧
      (s.hart firstHart).writesDone = true ∧ s.contextLaunches 0 0x9000 ≠ []) ∧ (0x9000, .uncorrectable) ∉ w0.dev.rolls := by decide +kernel

/-- A leader that committed an instruction, and what its trailer had on the same inputs. -/
def trailOf (a b : Hart) : Trail := ⟨firstHart, 2, a, b⟩

/-- A unit of a context under lockstep in cluster 0, whose commit is compared. -/
def wlock (clk : Nat) (t : Trail) : State :=
  { ((({ (wlaunch (rec1 0 0x1000 1) 1 id) with mem := (wlaunch (rec1 0 0x1000 1) 1 id).mem.write 0x9000 [1] }.modMe
      (fun h => { h with unit := some (0, 0, 0) })).modDev (fun d => { d with cfg := { d.cfg with lockstep := true } })).modCluster 0
      (fun c => { c with trail := [t] })) with clk := clk }

theorem wit_ReliabilityEvents_lockstep : (let s := wlock 2 (trailOf Hart.reset (Hart.reset.wx 1 1))
      (∃ x ∈ (s.cluster 0).trail, x.due ≤ s.clk ∧ x.lead ≠ x.trail) ∧ s.lockstepIn 0 = [0x9000]) ∧
    (∀ x ∈ ((wlock 1 (trailOf Hart.reset (Hart.reset.wx 1 1))).cluster 0).trail, (1 : Nat) < x.due) ∧
    (∀ x ∈ ((wlock 2 (trailOf Hart.reset Hart.reset)).cluster 0).trail, x.lead = x.trail) := by
  refine ⟨⟨⟨trailOf Hart.reset (Hart.reset.wx 1 1), ?_, ?_, ?_⟩, ?_⟩, ?_⟩ <;> decide +kernel
theorem wit_ReliabilityEvents_links : (let s := w0.modDev (fun d => { d with ports := [(7, ⟨2, 1, 0, false⟩)], lasting := [.lane 7 3] })
     .lane 7 3 ∈ s.dev.lasting ∧ 2 ≤ (s.dev.ports.get 7 Port.reset).st.toNat ∧ (s.dev.ports.get 7 Port.reset).st ≠ 1) ∧
    (∀ n ∈ [false, true], ((w0.modDev (fun d => { d with ports := [(7, ⟨1, 0xFFFF, 0, n⟩)] })).dev.ports.get 7 Port.reset).st = 1) := by decide +kernel

theorem wit_HostEvents : 0x800000000FC0 % 4096 + (List.replicate 64 (1 : Byte)).length ≤ 4096 ∧ w0.malformed 0x800000000FC0 = false ∧ 8 ≤ region 0x800000000FC0 ∧
    region 0x100000000FC0 = 1 ∧ w0.malformed 0x100000000FC0 = false ∧ region 0xFC0 = 0 ∧ 0xFC0 % 64 + 64 ≤ 64 ∧ w0.bufRoom (paCore 0xFC0) = true ∧ w0.dev.ckptEn = false ∧
    w0.heldAt 0xFC0 64 = false ∧ w0.badWord 0x800000000FC0 64 = none ∧ (2#2).toNat < 3 ∧ 12 ≤ region 0xFFFFFFFFFFF8 ∧ 0xFFFFFFFFFFF8 < 2 ^ 48 ∧ 0xFFFFFFFFFFF8 % 8 = 0 ∧
    (w0.poolTurns (agentPort 0) (linesOf [(0x100000000FC0, 64)])).isSome = true ∧ w0.lineRead 0 (paOff 0xFC0 / 64) = false ∧ w0.hostPosted 7 = false ∧ w0.dev.early = [] ∧
    w0.hostBehind 7 0xFC0 = false ∧ w0.hostBehind 7 0x100000000FC0 = false ∧ w0.hostBehind 7 0x800000000FC0 = false := by
  decide +kernel
/-- A read of a vault that has been served. -/
theorem wit_HostEvents_read : (let s := servedFor 0 (.host 7 0xFC0) (0xFC0 / 64) w0
    served (.host 7 0xFC0) [(0xFC0, 64)] s ∧ s.hostPosted 7 = false ∧ s.badWord 0xFC0 64 = none ∧ s.dev.early = []) := by
  unfold served
  decide +kernel
theorem wit_HostEvents_management : w0.dev.recovery = false ∧ (w0.modDev (fun d => { d with recovery := true })).dev.recovery = true ∧
    MctpReq.pldmMonitor ≠ .pldmUpdate ∧ (∀ c, MctpReq.spdmCert 7 = .spdmCert c → c < 8) ∧ w0.dev.fwMin ≤ (⟨true, true, 0⟩ : FwImage).version ∧
    (w0.modDev (fun d => { d with fwActive := some false })).dev.fwActive = some false ∧ (⟨true, true, 0⟩ : FwImage).rsaOk = true ∧
    (w0.modDev (fun d => { d with fwMin := 1 })).dev.fwMin = 1 := by
  refine ⟨?_, ?_, ?_, fun c h => by cases h; decide, ?_⟩ <;> decide +kernel

theorem wit_PowerEvents : (3 < 4 ∧ 7 < 8) ∧ 7 ∉ (w0.stk 3).gated ∧
    (∀ e ∈ w0.vaults, stackOf e.1 = 3 → ∀ l ∈ e.2.wbuf, bankOf (l.line * 64) / 4 ≠ 7) ∧ (w0.cluster 255).gated = false ∧ (∀ c ∈ coresOf 255, w0.coreIdle c = true) ∧
    w0.engineIdle 255 = true ∧ (w0.cluster 255).saving = [] ∧
    (let d := (w0.modDev (fun d => { d with fwA := none, fwB := none })).dev; d.fwA = none ∧ d.fwB = none) ∧
    (let d := (w0.modDev (fun d => { d with fwA := some 1, fwB := some 2 })).dev; d.fwA = some 1 ∧ d.fwB = some 2) ∧
    (let d := (w0.modDev (fun d => { d with fwA := some 2, fwB := some 1 })).dev; d.fwA = some 2 ∧ d.fwB = some 1) ∧ w0.dev.fwA.isSome = true ∧ w0.dev.closing = none ∧
    (∀ n : Nat, some 31 = some n → n < 32) ∧
    (∀ f ∈ [none, some 7, some 24], ((w0.modDev (fun d => { d with bringUp := [24, 25], layerFail := f })).dev.bringUp = 24 :: [25] ∧ 24 / 8 = 3)) ∧
    (w0.modDev (fun d => { d with layerFail := some 24 })).dev.layerFail = some 24 ∧ (w0.modDev (fun d => { d with layerFail := none })).dev.layerFail ≠ some 24 := by
  and_intros <;> decide +kernel

/-! ### The machine as a whole -/

/-- A program of one instruction word placed for the thread. -/
def prog (w n : Nat) : State := State.reset.loaded (bytesOf n w)

/-- The fetch of the next instruction, and a test of the state after it and of its code. -/
def fetched (s : State) (p : State → Code → Bool) : Bool :=
  match { s with cur := firstHart }.fetchBase firstHart (s.hart firstHart).pc with
  | (t, .ok k) => p t k
  | _ => false

theorem wit_StepRunsDecoded : (prog 0x02731413 4).agenda = [⟨0, .issue firstHart⟩] ∧
    (let s0 : State := { prog 0x02731413 4 with agenda := [] }
     (prog 0x02731413 4).beforeTurn = none ∧ (prog 0x02731413 4).dev.recovery = false ∧ s0.canIssue firstHart = true ∧ s0.first firstHart (s0.rivals firstHart) = true ∧
       fetched s0 (fun _ k => k.mask.isNone && (decodeCode k == .ok (.sub Head.plain 5 6 7))) = true) := by decide +kernel
/-- The program beside the same in slot 3, at a PRIO of its launch, with counts of the issues that have passed each over. -/
def rival (prio : Word) (passed : Table Nat Nat) : State :=
  let s := prog 0x02731413 4
  { (s.modHart ⟨.thread, 0, 3⟩ (fun _ => { s.hart firstHart with csr := { (s.hart firstHart).csr with launchid := prio * 2 ^ 22 } })).modCore 0
      (fun c => { c with passed := passed }) with agenda := [] }

/-- A rival of a higher PRIO, and one that was passed over four times. -/
theorem wit_StepRunsDecoded_rival : (let g : HartId := ⟨.thread, 0, 3⟩
    let missed (s : State) (n : Nat) : Nat := (s.core 0).passed.get n 0
    g ∈ threadsOf 0 ∧ g ≠ firstHart ∧ ((rival 1 []).ready g = true ∧ missed (rival 1 []) 3 < 4 ∧ missed (rival 1 []) 0 < 4 ∧
        ((rival 1 []).hart firstHart).prio < ((rival 1 []).hart g).prio) ∧
      ((rival 0 [(3, 4)]).ready g = true ∧ 4 ≤ missed (rival 0 [(3, 4)]) 3 ∧ missed (rival 0 [(3, 4)]) 0 < 4)) := by decide +kernel
/-- A safe point with its live mask, a selector that is not listed, a reserved field that is used. -/
theorem wit_StepRunsDecoded_forms :
    fetched { prog (0x00600247 + 0xF * 2 ^ 32) 8 with agenda := [] } (fun t k => k.mask.isSome && (decodeCode k).isOk &&
      (match t.fetchMask t.cur t.me.pc k with | (_, .ok m) => decodeCode m == .ok (.waittk ⟨true, false, 0xF⟩ 6) | _ => false)) = true ∧
    fetched { prog 0xFE731413 4 with agenda := [] } (fun _ k => decodeCode k == .error .illegal) = true ∧
    fetched { prog 0x02100263 4 with agenda := [] } (fun _ k => decodeCode k == .error .reserved) = true := by decide +kernel
theorem wit_StepRunsDecoded_fault : (let s := (prog 0 4).modMe (fun h => { h with pc := 0x1000000000000 })
    match { s with cur := firstHart }.fetchBase firstHart (s.hart firstHart).pc with | (_, .error (.fault _ _)) => true | _ => false) = true := by decide +kernel
/-- The line of the last parcel of the mapped space has been served for the fetch. -/
def wmFetched : State := servedFor 0 (.instr firstHart) (0x1FFFFE / 64) wm

theorem wit_StepRunsDecoded_others : (th (fun h => { h with wait := some .exit })).canIssue firstHart = false ∧ encode (.refreshSlot 2047) = none ∧
    (Instr.refreshSlot 2047).wellFormed = true ∧ (wmFetched.hart firstHart).fetched = [] ∧
    (prog 0 4).beforeTurn = none ∧ ((prog 0 4).modDev (fun d => { d with recovery := true })).dev.recovery = true ∧
    ((prog 0 4).modDev (fun d => { d with bringUp := [31] })).beforeTurn.isSome = true ∧
    (∃ u x, wmFetched.check (.instr firstHart) .fetch 0x1FFFFE = (u, .ok x) ∧ (!u.heldAt x.pa 2 && u.badWord x.pa 2 == none && (u.fetchHome firstHart x.pa).2) = true) := by
  and_intros <;> first | decide +kernel | exact passes_of (by decide +kernel)
theorem wit_DecodeEncode : (Instr.sub Head.plain 5 6 7).wellFormed = true ∧ encode (.sub Head.plain 5 6 7) = some ⟨4, 0x02731413, 0, none⟩ := by decide +kernel
theorem wit_DecodeEncode_decode : decode (bytesOf 4 0x02731413 ++ [1]) = .ok (.sub Head.plain 5 6 7, [1]) := by decide +kernel
/-- An outcome that is a next state. -/
def goesOn (o : Host.Outcome State Fault Refusal) : Bool := match o with | .next _ => true | _ => false

theorem goesOn_of {o : Host.Outcome State Fault Refusal} (h : goesOn o = true) : ∃ t, o = .next t := by
  cases o with
  | next t => exact ⟨t, rfl⟩
  | fault r => simp [goesOn] at h
  | refused r => simp [goesOn] at h

theorem wit_StepKeepsMemory : (prog 0x02731413 4).memOk ∧ ∃ t, step (prog 0x02731413 4) = .next t := by
  refine ⟨?_, goesOn_of (by decide +kernel)⟩
  unfold State.memOk
  decide +kernel
theorem wit_ScalarFrame : scalarDest (.add Head.plain 31 1 2) = some 31 ∧ w0.cur.isCtx = false ∧ w0.fresh ∧ ∃ t, exec (.add Head.plain 31 1 2) w0 = .next t := by
  refine ⟨rfl, ?_, fresh_of (by decide +kernel), goesOn_of ?_⟩ <;> decide +kernel
theorem wit_Isolation : (encode (.add Head.plain 31 1 2)).isSome = true ∧ (⟨.thread, 0, 1⟩ : HartId) ≠ w0.cur ∧ (⟨.thread, 0, 1⟩ : HartId).kept = false := by decide +kernel
/-! ### One instruction each, with the results of the spec's worked examples -/

/-- A value of the state after an instruction. -/
def then_ {α : Type} (i : Instr) (s : State) (d : α) (f : State → α) : α :=
  match exec i s with
  | .next t => f t
  | _ => d

/-- A register after an instruction on x1 = a, x2 = b. -/
def out (i : Instr) (a b : Word) (r : Reg) : Word := then_ i (th (fun h => (h.wx 1 a).wx 2 b)) 0 (fun t => t.me.rx r)

/-- R245: −7 and 2; 7 and 0; the most negative number and −1. -/
theorem test_div : out (.div Head.plain 5 1 2) (-7) 2 5 = -3 ∧ out (.div Head.plain 5 1 2) 0x8000000000000000 (-1) 5 = 0x8000000000000000 := by decide +kernel
theorem test_rem : out (.rem Head.plain 5 1 2) (-7) 2 5 = -1 ∧ out (.rem Head.plain 5 1 2) 0x8000000000000000 (-1) 5 = 0 := by decide +kernel
theorem test_divu_zero : out (.divu Head.plain 5 1 2) 7 0 5 = 0xFFFFFFFFFFFFFFFF ∧ out (.remu Head.plain 5 1 2) 7 0 5 = 7 := by decide +kernel
/-- R247: carry-less products. -/
theorem test_clmul : out (.clmul Head.plain 5 1 2) 0x8000000000000003 3 5 = 0x8000000000000005 ∧ out (.clmulh Head.plain 5 1 2) 0x8000000000000003 3 5 = 1 ∧
    out (.clmulr Head.plain 5 1 2) 0x8000000000000003 3 5 = 3 := by decide +kernel
/-- R248: BFX at 8 of 8 bits with its sign; BFI of 4 bits at 4, the source also the destination's neighbour. -/
theorem test_bfx : out (.bfx Head.plain 5 1 2) 0xABCD00 0x11C8 5 = 0xFFFFFFFFFFFFFFCD := by decide +kernel
theorem test_bfi : then_ (.bfi Head.plain 5 1 2) (th (fun h => ((h.wx 1 5).wx 2 (4 + 3 * 64)).wx 5 0xFFFF)) 0 (fun t => t.me.rx 5) = 0xFF5F := by decide +kernel
/-- A destination that is also both sources, and x0, which keeps reading zero (R217). -/
theorem test_same : out (.add Head.plain 1 1 1) 0x8000000000000001 0 1 = 2 ∧ out (.add Head.plain 0 1 1) 1 0 0 = 0 := by decide +kernel

/-- R178: the outer entry counts down at 0x1018 after the ADD at 0x1014. -/
theorem test_loop_end : then_ (.add Head.plain 7 7 7) (th (fun h => { h with pc := 0x1014, loops := [⟨0x1004, 0x1018, 3⟩] })) (0, 0)
    (fun t => (t.me.pc, (t.me.loops.headD ⟨0, 0, 0⟩).count)) = (0x1004, 2) := by decide +kernel
/-- R178: the inner entry pops at 0x1014. -/
theorem test_loop_pop : then_ (.bne Head.plain 6 0 4) (th (fun h => { h with pc := 0x1010, loops := [⟨0x1008, 0x1014, 1⟩, ⟨0x1004, 0x1018, 3⟩] })) (0, 9)
    (fun t => (t.me.pc, t.me.loops.length)) = (0x1014, 1) := by decide +kernel
/-- R178: the break leaves both loops. -/
theorem test_loop_break : then_ (.bne Head.plain 6 0 4) (th (fun h => { h.wx 6 1 with pc := 0x1010, loops := [⟨0x1008, 0x1014, 2⟩, ⟨0x1004, 0x1018, 3⟩] })) (0, 9)
    (fun t => (t.me.pc, t.me.loops.length)) = (0x1018, 0) := by decide +kernel

/-- R13: a vault offset and a counter's name. -/
theorem test_vault_address : vaultPa 0x4EE 0x01234567 = 0x004EE1234567 ∧ bankOf 0x01234567 = 8 ∧ rowOf 0x01234567 = 0x123 := by decide +kernel
theorem test_counter_name : State.reset.counterName 0x2FFFF004EE14 = some ⟨0xFFFF, 0x4EE, 5⟩ := by decide +kernel
/-- R95: two pool offsets that share a lock in bank 17. -/
theorem test_pool_lock : lockOf (0x100000000000 + 0x2440) = lockOf (0x100000000000 + 0x42440) ∧ (lockOf (0x100000000000 + 0x2440)).2 = (17, 8) := by decide +kernel
/-- R123: a counter at 0xFFFFFFFE and three targets. -/
theorem test_done : mbxDone 0xFFFFFFFE 2 = false ∧ mbxDone 2 2 = true ∧ mbxDone 0xFFFFFFFE 0x80000000 = true := by decide +kernel
/-- R180: the mask of x8 to x15, x20, v0 to v3 and the loop stack. -/
theorem test_mask_bits : ((0x010104F0 : BitVec 32).getLsbD 4 && (0x010104F0 : BitVec 32).getLsbD 10 && (0x010104F0 : BitVec 32).getLsbD 16 && (0x010104F0 : BitVec 32).getLsbD 24) = true := by
  decide
/-- R303: FCLASS of −0, a positive subnormal and −Inf. -/
theorem test_fclass : out (.fclassS Head.plain 5 1) 0x80000000 0 5 = 0x8 ∧ out (.fclassS Head.plain 5 1) 1 0 5 = 0x1 ∧ out (.fclassS Head.plain 5 1) 0xFF800000 0 5 = 0xB := by
  decide +kernel
/-- R212: the reciprocal of 3.0. -/
theorem test_vrcp : (vrcp32 (csrEnv 0) 0x40400000).1 = 0x3EAAAB00 := by decide +kernel
/-- R211: 2 to the power of −130, an exact subnormal with no flag. -/
theorem test_vexp2 : vexp2 (csrEnv 0) 0xC3020000 = (0x00080000, 0) := by decide +kernel

/-- Eight lanes of 32 bits, the first lowest. -/
def lanes8 (l : List Nat) : BitVec 256 := BitVec.ofNat 256 (l.foldr (fun x v => v * 2 ^ 32 + x) 0)

/-- R310: eight FP32 lanes to E4M3, and the same saturating. -/
def vsrc : BitVec 256 := lanes8 [0x43EB0000, 0x3F800000, 0xBA6BEDFA, 0x7FC00000, 0x40000000, 0x40400000, 0x43E00000, 0xC3E80000]
theorem test_vcvt : then_ (.vcvt Head.plain 2 1 0 0) (th (fun h => h.wv 1 vsrc)) (0, 0) (fun t => (t.vval 2, t.me.csr.vcsr)) = (0xFE7E44407F80387F, 0x38) := by
  decide +kernel
theorem test_vcvt_saturates : then_ (.vcvt Head.plain 2 1 0 0) (th (fun h => { h.wv 1 vsrc with csr := { h.csr with vcsr := 0x200 } })) (0, 0)
    (fun t => (t.vval 2 % 256, t.me.csr.vcsr)) = (0x7E, 0x238) := by decide +kernel
/-- R318: two top-4 lists merged. -/
def vm1 : BitVec 256 := lanes8 [0x40A00000, 3, 0x40000000, 7, 0x40000000, 9, 0x7FC00000, 1]
def vm2 : BitVec 256 := lanes8 [0x40800000, 0, 0x40000000, 2, 0x80000000, 5, 0xBF800000, 4]
theorem test_vmerge_hi : then_ (.vmergeHi Head.plain 3 1 2 0) (th (fun h => (h.wv 1 vm1).wv 2 vm2)) 0 (fun t => t.me.rv 3) =
    lanes8 [0x40A00000, 3, 0x40800000, 0, 0x40000000, 2, 0x40000000, 7] := by decide +kernel
theorem test_vmerge_lo : then_ (.vmergeLo Head.plain 3 1 2 0) (th (fun h => (h.wv 1 vm1).wv 2 vm2)) 0 (fun t => t.me.rv 3) =
    lanes8 [0x40000000, 9, 0x80000000, 5, 0xBF800000, 4, 0x7FC00000, 1] := by decide +kernel
/-- R203, R307: an exact cancelling block, with its scales in v9. -/
def vdotState : State := th (fun h =>
  let rep (b n : Nat) : Nat := (List.range n).foldl (fun v _ => v * 256 + b) 0
  let h := ((h.wv 0 (BitVec.ofNat 256 (rep 0x80 29 * 2 ^ 24 + 0xFE017E))).wv 1 (BitVec.ofNat 256 (rep 0x80 32))).wv 2 (BitVec.ofNat 256 (rep 0x80 32))
  let h := (h.wv 3 (BitVec.ofNat 256 (rep 0x80 32))).wv 4 (BitVec.ofNat 256 (rep 0x30 29 * 2 ^ 24 + 0x7E017E))
  let h := ((h.wv 5 (BitVec.ofNat 256 (rep 0x30 32))).wv 6 (BitVec.ofNat 256 (rep 0x30 32))).wv 7 (BitVec.ofNat 256 (rep 0x30 32))
  h.wv 9 (lanes8 [0x3F000000, 0, 0, 0, 0x40400000, 0, 0, 0]))
theorem test_vdot : then_ (.vdot Head.plain 8 0 4 4) vdotState (0, 9) (fun t => (t.vval 8, t.me.csr.vcsr)) = (0x36C00000, 0) := by decide +kernel
/-- R307: an odd vd of a scaled type, and a vs1 that is no multiple of 4. -/
theorem test_vdot_registers : then_ (.vdot Head.plain 9 0 4 4) vdotState 0 (fun t => t.me.csr.tcause) = 2 ∧
    then_ (.vdot Head.plain 8 2 4 4) vdotState 0 (fun t => t.me.csr.tcause) = 2 := by decide +kernel

/-- R389: TRAP from kernel level: cause, value, saved pc, level and handler. -/
theorem test_trap : then_ (.trap Head.plain 1) (th (fun h => { h.wx 1 77 with pc := 0x1000, csr := { h.csr with tvec := 0x8000 } })) (0, 0, 0, 0, 0)
    (fun t => (t.me.csr.tcause, t.me.csr.tval, t.me.csr.tepc, t.me.priv, t.me.pc)) = (0x1C, 77, 0x1004, 1, 0x8000) := by decide +kernel
/-- R132: a store of the word 0x11223344 puts 0x44 at the lowest address. -/
theorem test_little_endian : then_ (.storeVisible firstHart) (bz (fun b => { b with sb := [{ aStore with parts := [(0x1000, 4, 0x11223344)] }] })) []
    (fun t => [t.readByte 0x1000, t.readByte 0x1003, t.readByte 0x1004]) = [0x44, 0x11, 0] := by decide +kernel
/-- A halfword load of the bytes 0x00 and 0x80, which its bank has served. -/
def wload16 (sx : Bool) : State :=
  servedFor 0 (.load firstHart 0) 0x40 ({ bz (fun b => { b with loads := [{ aLoad with dst := .x 5 sx, parts := [(0x1000, 2)] }] }) with mem := [(0x1001, 0x80)] })

/-- R270: a halfword load extends its sign, and an unsigned one does not. -/
theorem test_load_extends : then_ (.loadComplete firstHart) (wload16 true) 0 (fun t => t.me.rx 5) = 0xFFFFFFFFFFFF8000 ∧
    then_ (.loadComplete firstHart) (wload16 false) 0 (fun t => t.me.rx 5) = 0x8000 := by decide +kernel
/-- R400: errors of a row at 0, 4 and 12 s, and then at 13 s. -/
def rowErrors (clks : List Nat) (now : Nat) : State :=
  { w0.modDev (fun d => { d with errors := d.errors.set (.row 0 0 0) (clks.map (· * 1050000000)) }) with clk := now * 1050000000 }
theorem test_errors : then_ (.errorEvent (.row 0 0 0)) (rowErrors [0, 4] 12) [.core 0] (fun t => t.dev.lasting) = [] ∧
    then_ (.errorEvent (.row 0 0 0)) (rowErrors [4, 12] 13) [] (fun t => t.dev.lasting) = [.row 0 0 0] := by decide +kernel
/-- The first instruction after a program is placed: SUB x5, x6, x7 of zeros goes on to the next word. -/
theorem test_first_step : (match step (State.reset.withFetchWord 32 0x02731413) with | .next t => t.me.pc | _ => 0) = 0x1004 := by decide +kernel

end Sys2Proof.Tests
end

/-! PROOFS. When an instruction on registers gives a value (R240): its registers are clear and the function that it applies to them
has that value. -/

namespace Sys2Proof.Claims

open Sys2Proof.Machine

variable {i : Instr} {ik : Code} {hd : Head} {d a b : Reg} {v : Word} {s : State}

theorem regReg_writes {f : Word → Word → Word} (hx : exec i s = .next (regReg ik hd d a b f s)) (hc : s.clear hd [.x a, .x b] [.x d])
    (hv : f (s.rx a) (s.rx b) = v) : exec i s = .next (finish ik hd (s.wx d v)) := by
  rw [hx, regReg_clear ik hd d a b f s hc, hv, writeRd]

theorem regOne_writes {f : Word → Word} (hx : exec i s = .next (regOne ik hd d a f s)) (hc : s.clear hd [.x a] [.x d])
    (hv : f (s.rx a) = v) : exec i s = .next (finish ik hd (s.wx d v)) := by
  rw [hx, regOne_clear ik hd d a f s hc, hv, writeRd]

theorem regNone_writes {f : Word → Word} (hx : exec i s = .next (regNone ik hd d f s)) (hc : s.clear hd [] [.x d])
    (hv : f s.me.pc = v) : exec i s = .next (finish ik hd (s.wx d v)) := by
  rw [hx, regNone_clear ik hd d f s hc, hv, writeRd]

theorem regRegRd_writes {f : Word → Word → Word → Word} (hx : exec i s = .next (regRegRd ik hd d a b f s))
    (hc : s.clear hd [.x a, .x b, .x d] [.x d]) (hv : f (s.rx a) (s.rx b) (s.rx d) = v) :
    exec i s = .next (finish ik hd (s.wx d v)) := by
  rw [hx, regRegRd_clear ik hd d a b f s hc, hv, writeRd]

/-- x0 is full and no load writes it, so naming it as a source asks for nothing (R183, R230). -/
theorem clear_x0 {srcs dsts : List RegRef} (hc : s.clear hd srcs dsts) : s.clear hd (.x 0 :: srcs) dsts := by
  obtain ⟨hm, hs, hD⟩ := hc
  refine ⟨hm, fun r hr => ?_, hD⟩
  rcases List.mem_cons.mp hr with rfl | hr
  · exact ⟨rfl, rfl⟩
  · exact hs r hr

end Sys2Proof.Claims

/-! PROOFS. Values (R241 to R245): what the model computes on words is the arithmetic on numbers that the spec writes. -/

namespace Sys2Proof.Machine

open Sys2Proof.Claims

/-! ### Sums, shifts and rotations -/

theorem add_eq_ofNat (a b : Word) : a + b = BitVec.ofNat 64 (a.toNat + b.toNat) := by
  simp [BitVec.ofNat_add]

theorem add_eq_ofInt (a b : Word) : a + b = BitVec.ofInt 64 (a.toInt + b.toInt) := by
  simp [BitVec.ofInt_add]

theorem sub_eq_ofInt (a b : Word) : a - b = BitVec.ofInt 64 (a.toInt - b.toInt) := by
  rw [Int.sub_eq_add_neg, BitVec.ofInt_add, BitVec.ofInt_neg, BitVec.ofInt_toInt, BitVec.ofInt_toInt, BitVec.sub_eq_add_neg]

theorem mul_eq_ofNat (a b : Word) : a * b = BitVec.ofNat 64 (a.toNat * b.toNat) := by
  simp [BitVec.ofNat_mul]

theorem mul_eq_ofInt (a b : Word) : a * b = BitVec.ofInt 64 (a.toInt * b.toInt) := by
  simp [BitVec.ofInt_mul]

theorem amount_eq (b : Word) : amount b = b.toNat % 64 := by
  simp [amount, wbits, bits]

theorem shiftLeft_eq_ofNat (a : Word) (n : Nat) : a <<< n = BitVec.ofNat 64 (a.toNat * 2 ^ n) := by
  apply BitVec.eq_of_toNat_eq
  rw [BitVec.toNat_shiftLeft, BitVec.toNat_ofNat, Nat.shiftLeft_eq]

theorem ushiftRight_eq_ofNat (a : Word) (n : Nat) : a >>> n = BitVec.ofNat 64 (a.toNat / 2 ^ n) := by
  rw [← Nat.shiftRight_eq_div_pow, ← BitVec.toNat_ushiftRight, BitVec.ofNat_toNat, BitVec.setWidth_eq]

theorem sshiftRight_eq_ofInt (a : Word) (n : Nat) : a.sshiftRight n = BitVec.ofInt 64 (a.toInt / 2 ^ n) := by
  rw [BitVec.sshiftRight, Int.shiftRight_eq_div_pow]
  norm_cast

theorem rotateLeft_eq (a : Word) (n : Nat) (hn : n < 64) : a.rotateLeft n = (a <<< n) ||| (a >>> (64 - n)) := by
  rw [BitVec.rotateLeft_def, Nat.mod_eq_of_lt hn]

theorem rotateRight_eq (a : Word) (n : Nat) (hn : n < 64) : a.rotateRight n = (a >>> n) ||| (a <<< (64 - n)) := by
  rw [BitVec.rotateRight_def, Nat.mod_eq_of_lt hn]

/-- An immediate shifted left is a product (R243). -/
theorem ofInt_shiftLeft (z : Int) (n : Nat) : BitVec.ofInt 64 z <<< n = BitVec.ofInt 64 (z * 2 ^ n) := by
  rw [BitVec.ofInt_mul, BitVec.shiftLeft_eq_mul_twoPow]
  congr 1
  apply BitVec.eq_of_toNat_eq
  rw [BitVec.toNat_twoPow, show (2 : Int) ^ n = ((2 ^ n : Nat) : Int) by norm_cast, BitVec.ofInt_natCast, BitVec.toNat_ofNat]

/-! ### Comparisons -/

theorem bool64_slt (a b : Word) : bool64 (a.slt b) = truth (a.toInt < b.toInt) := by
  simp [bool64, truth, BitVec.slt_eq_decide]

theorem bool64_ult (a b : Word) : bool64 (a.ult b) = truth (a.toNat < b.toNat) := by
  simp [bool64, truth, BitVec.ult_eq_decide]

theorem if_slt_eq_min (a b : Word) : (if b.slt a then b else a) = BitVec.ofInt 64 (min a.toInt b.toInt) := by
  by_cases h : b.toInt < a.toInt
  · rw [if_pos (BitVec.slt_iff_toInt_lt.mpr h), min_eq_right h.le, BitVec.ofInt_toInt]
  · rw [if_neg (mt BitVec.slt_iff_toInt_lt.mp h), min_eq_left (not_lt.mp h), BitVec.ofInt_toInt]

theorem if_slt_eq_max (a b : Word) : (if a.slt b then b else a) = BitVec.ofInt 64 (max a.toInt b.toInt) := by
  by_cases h : a.toInt < b.toInt
  · rw [if_pos (BitVec.slt_iff_toInt_lt.mpr h), max_eq_right h.le, BitVec.ofInt_toInt]
  · rw [if_neg (mt BitVec.slt_iff_toInt_lt.mp h), max_eq_left (not_lt.mp h), BitVec.ofInt_toInt]

theorem if_ult_eq_min (a b : Word) : (if b.ult a then b else a) = BitVec.ofNat 64 (min a.toNat b.toNat) := by
  by_cases h : b.toNat < a.toNat
  · rw [if_pos (BitVec.ult_iff_toNat_lt.mpr h), min_eq_right h.le, BitVec.ofNat_toNat, BitVec.setWidth_eq]
  · rw [if_neg (mt BitVec.ult_iff_toNat_lt.mp h), min_eq_left (not_lt.mp h), BitVec.ofNat_toNat, BitVec.setWidth_eq]

theorem if_ult_eq_max (a b : Word) : (if a.ult b then b else a) = BitVec.ofNat 64 (max a.toNat b.toNat) := by
  by_cases h : a.toNat < b.toNat
  · rw [if_pos (BitVec.ult_iff_toNat_lt.mpr h), max_eq_right h.le, BitVec.ofNat_toNat, BitVec.setWidth_eq]
  · rw [if_neg (mt BitVec.ult_iff_toNat_lt.mp h), max_eq_left (not_lt.mp h), BitVec.ofNat_toNat, BitVec.setWidth_eq]

/-! ### Sign extension and saturation -/

/-- The low n bits, sign-extended, are the value's remainder nearest to zero. -/
theorem signExtend_setWidth (a : Word) (n : Nat) (hn : n ≤ 64) : (a.setWidth n).signExtend 64 = BitVec.ofInt 64 (a.toInt.bmod (2 ^ n)) := by
  rw [BitVec.signExtend, BitVec.toInt_setWidth, BitVec.toInt_eq_toNat_bmod, Int.bmod_bmod_of_dvd (Nat.pow_dvd_pow 2 hn)]

theorem sext32_ofInt (z : Int) : sext32 (BitVec.ofInt 64 z) = sign32 z := by
  rw [sext32, signExtend_setWidth _ 32 (by decide), BitVec.toInt_ofInt, Int.bmod_bmod_of_dvd (by decide), sign32]

theorem clamp64_eq (z : Int) : clamp64 z = clamped z := by
  unfold clamp64 clamped
  split
  case isTrue h => rw [min_eq_right (by omega), max_eq_left h.le]; rfl
  case isFalse h =>
    split
    case isTrue g => rw [min_eq_left g.le]; rfl
    case isFalse g => rw [min_eq_right (not_lt.mp g), max_eq_right (not_lt.mp h)]

/-- ZEXTW keeps the low 32 bits. -/
theorem zx_setWidth (a : Word) : zx (a.setWidth 32) = BitVec.ofNat 64 (a.toNat % 2 ^ 32) := by
  rw [← BitVec.toNat_setWidth, BitVec.ofNat_toNat, zx]

/-! ### Multiplication and division (R245) -/

theorem high64_natCast (n : Nat) : high64 n = BitVec.ofNat 64 (n / 2 ^ 64) := by
  rw [high64, show ((n : Int) / 2 ^ 64) = ((n / 2 ^ 64 : Nat) : Int) by norm_cast, BitVec.ofInt_natCast]

/-- The most negative dividend over -1 wraps, so that the model's own case for it is the general one. -/
theorem divVal_eq (a b : Word) :
    divVal a b = if b = 0 then BitVec.ofInt 64 (-1) else BitVec.ofInt 64 (a.toInt.tdiv b.toInt) := by
  unfold divVal
  split
  case isTrue => rfl
  case isFalse =>
    split
    case isTrue h => obtain ⟨rfl, rfl⟩ := h; decide
    case isFalse => rfl

theorem divuVal_eq (a b : Word) :
    divuVal a b = if b = 0 then BitVec.ofInt 64 (-1) else BitVec.ofNat 64 (a.toNat / b.toNat) := rfl

/-- Division by zero leaves the dividend, as a product with zero does; -1 divides everything. -/
theorem remVal_eq (a b : Word) : remVal a b = BitVec.ofInt 64 (a.toInt - b.toInt * a.toInt.tdiv b.toInt) := by
  unfold remVal
  split
  case isTrue h => rw [h]; simp
  case isFalse =>
    split
    case isTrue h => obtain ⟨rfl, rfl⟩ := h; decide
    case isFalse => rfl

theorem remuVal_eq (a b : Word) : remuVal a b = BitVec.ofNat 64 (a.toNat % b.toNat) := by
  unfold remuVal
  split
  case isTrue h => rw [h]; simp
  case isFalse => rfl

/-! ### Immediates (R225, R242 to R244) -/

/-- ADDI adds its immediate as a signed number. -/
theorem add_sx {n : Nat} (a : Word) (i : BitVec n) : a + sx i = BitVec.ofInt 64 (a.toInt + i.toInt) := by
  rw [BitVec.ofInt_add, BitVec.ofInt_toInt, sx, BitVec.signExtend]

theorem sx_shiftLeft {n : Nat} (i : BitVec n) (k : Nat) : sx i <<< k = BitVec.ofInt 64 (i.toInt * 2 ^ k) :=
  ofInt_shiftLeft i.toInt k

theorem toInt_sx {n : Nat} (i : BitVec n) (hn : n ≤ 64) : (sx i).toInt = i.toInt := BitVec.toInt_signExtend_of_le hn

/-- C.ADDISP adds its immediate as a number of eight bytes each. -/
theorem zx_shiftLeft_three {n : Nat} (u : BitVec n) (hn : n ≤ 64) : zx u <<< 3 = BitVec.ofNat 64 (8 * u.toNat) := by
  rw [shiftLeft_eq_ofNat, zx, BitVec.toNat_setWidth_of_le hn, Nat.mul_comm]
  rfl

/-- LI32 puts its immediate below the register's low half. -/
theorem shiftLeft_or_zx (a : Word) (w : BitVec 32) :
    (a <<< 32) ||| zx w = BitVec.ofNat 64 (a.toNat % 2 ^ 32 * 2 ^ 32 + w.toNat) := by
  apply BitVec.eq_of_toNat_eq
  have ha : (a <<< 32).toNat = 2 ^ 32 * (a.toNat % 2 ^ 32) := by
    rw [BitVec.toNat_shiftLeft, Nat.shiftLeft_eq]
    omega
  have hw : (zx w).toNat = w.toNat := BitVec.toNat_setWidth_of_le (by decide)
  rw [BitVec.toNat_or, ha, hw, ← Nat.two_pow_add_eq_or_of_lt w.isLt, BitVec.toNat_ofNat]
  omega

end Sys2Proof.Machine

/-! PROOFS. Bit manipulation (R246 to R248): the bits of what the model's recursions compute. -/

namespace Sys2Proof.Machine

/-! ### Counts -/

theorem clzBits_le (v n : Nat) : clzBits v n ≤ n := by
  induction n with
  | zero => exact Nat.le_refl 0
  | succ n ih => rw [clzBits]; split <;> omega

/-- The bits above the count are zero. -/
theorem testBit_of_lt_clzBits (v n k : Nat) (hk : k < clzBits v n) : v.testBit (n - 1 - k) = false := by
  induction n generalizing k with
  | zero => exact absurd hk (Nat.not_lt_zero k)
  | succ n ih =>
    rw [clzBits] at hk
    split at hk
    case isTrue => omega
    case isFalse h =>
      cases k with
      | zero => simpa using h
      | succ k => rw [show n + 1 - 1 - (k + 1) = n - 1 - k by omega]; exact ih k (by omega)

/-- The bit at which the count stops is one. -/
theorem testBit_clzBits (v n : Nat) (h : clzBits v n < n) : v.testBit (n - 1 - clzBits v n) = true := by
  induction n with
  | zero => exact absurd h (Nat.not_lt_zero _)
  | succ n ih =>
    rw [clzBits] at h ⊢
    split at h
    case isTrue hb => simp [hb]
    case isFalse hb => rw [if_neg hb, show n + 1 - 1 - (1 + clzBits v n) = n - 1 - clzBits v n by omega]; exact ih (by omega)

theorem ctzFrom_le (v k n : Nat) : ctzFrom v k n ≤ n := by
  induction n generalizing k with
  | zero => exact Nat.le_refl 0
  | succ n ih =>
    have := ih (k + 1)
    rw [ctzFrom]; split <;> omega

theorem testBit_of_lt_ctzFrom (v k n j : Nat) (hj : j < ctzFrom v k n) : v.testBit (k + j) = false := by
  induction n generalizing k j with
  | zero => exact absurd hj (Nat.not_lt_zero j)
  | succ n ih =>
    rw [ctzFrom] at hj
    split at hj
    case isTrue => omega
    case isFalse h =>
      cases j with
      | zero => simpa using h
      | succ j => rw [show k + (j + 1) = k + 1 + j by omega]; exact ih (k + 1) j (by omega)

theorem testBit_ctzFrom (v k n : Nat) (h : ctzFrom v k n < n) : v.testBit (k + ctzFrom v k n) = true := by
  induction n generalizing k with
  | zero => exact absurd h (Nat.not_lt_zero _)
  | succ n ih =>
    rw [ctzFrom] at h ⊢
    split at h
    case isTrue hb => simp [hb]
    case isFalse hb => rw [if_neg hb, ← Nat.add_assoc]; exact ih (k + 1) (by omega)

theorem popBits_eq_countP (v n : Nat) : popBits v n = (List.range n).countP (fun k => v.testBit k) := by
  induction n with
  | zero => rfl
  | succ n ih => rw [popBits, ih, List.range_succ, List.countP_append, List.countP_singleton, Nat.add_comm]

/-! ### Reversals -/

/-- The bits that n steps of BREV have placed are the n highest. -/
theorem brevBits_dvd (v top n : Nat) (hn : n ≤ top + 1) : 2 ^ (top + 1 - n) ∣ brevBits v top n := by
  induction n with
  | zero => exact dvd_zero _
  | succ n ih =>
    rw [brevBits, show top + 1 - (n + 1) = top - n by omega]
    refine Nat.dvd_add (by split <;> simp) (Nat.dvd_trans (Nat.pow_dvd_pow 2 ?_) (ih (by omega)))
    omega

theorem testBit_brevBits (v top n j : Nat) (hn : n ≤ top + 1) :
    (brevBits v top n).testBit j = (decide (j ≤ top ∧ top - j < n) && v.testBit (top - j)) := by
  induction n with
  | zero => simp [brevBits]
  | succ n ih =>
    obtain ⟨m, hm⟩ := brevBits_dvd v top n (by omega)
    have hlt : (if v.testBit n then 2 ^ (top - n) else 0) < 2 ^ (top + 1 - n) := by
      split
      · exact Nat.pow_lt_pow_right (by decide) (by omega)
      · exact Nat.two_pow_pos _
    rw [brevBits, Nat.add_comm, hm, Nat.two_pow_add_eq_or_of_lt hlt, Nat.testBit_or, ← hm, ih (by omega)]
    by_cases hj : top - n = j
    · subst hj
      rw [show top - (top - n) = n by omega]
      cases v.testBit n <;> simp
    · have hb : (if v.testBit n then 2 ^ (top - n) else 0).testBit j = false := by
        split
        · exact Nat.testBit_two_pow_of_ne hj
        · exact Nat.zero_testBit j
      rw [hb, Bool.or_false]
      congr 2
      simp only [eq_iff_iff]
      omega

/-- Bit k of a number is bit k % 8 of its byte k / 8. -/
theorem testBit_ofBytes (bs : List Byte) (k : Nat) : (ofBytes bs).testBit k = (bs.getD (k / 8) 0).getLsbD (k % 8) := by
  induction bs generalizing k with
  | nil => simp [ofBytes]
  | cons b r ih =>
    rw [ofBytes, Nat.add_comm, show 256 = 2 ^ 8 from rfl, Nat.testBit_two_pow_mul_add _ b.isLt]
    split
    case isTrue h => rw [Nat.div_eq_of_lt h, Nat.mod_eq_of_lt h]; rfl
    case isFalse h =>
      rw [ih, show k / 8 = (k - 8) / 8 + 1 by omega, show k % 8 = (k - 8) % 8 by omega]
      rfl

theorem bytesOf_length (n v : Nat) : (bytesOf n v).length = n := by
  induction n generalizing v with
  | zero => rfl
  | succ n ih => rw [bytesOf, List.length_cons, ih]

theorem getElem_bytesOf (n v i : Nat) (h : i < (bytesOf n v).length) : (bytesOf n v)[i] = BitVec.ofNat 8 (v / 2 ^ (8 * i)) := by
  induction n generalizing v i with
  | zero => exact absurd h (Nat.not_lt_zero i)
  | succ n ih =>
    cases i with
    | zero => simp [bytesOf]
    | succ i =>
      simp only [bytesOf, List.getElem_cons_succ]
      rw [ih, Nat.div_div_eq_div_mul, show 256 = 2 ^ 8 from rfl, ← Nat.pow_add, Nat.mul_succ, Nat.add_comm]

/-- Reversed bytes: byte k / 8 is the one as far from the other end. -/
theorem testBit_ofBytes_reverse (n v k : Nat) (hk : k < 8 * n) :
    (ofBytes (bytesOf n v).reverse).testBit k = v.testBit (8 * (n - 1 - k / 8) + k % 8) := by
  have hr : k / 8 < (bytesOf n v).reverse.length := by rw [List.length_reverse, bytesOf_length]; omega
  rw [testBit_ofBytes, List.getD_eq_getElem _ _ hr, List.getElem_reverse, getElem_bytesOf, bytesOf_length, BitVec.getLsbD_ofNat,
    Nat.testBit_div_two_pow, Nat.add_comm (k % 8), decide_eq_true (Nat.mod_lt k (by decide)), Bool.true_and]

theorem getLsbD_bswapVal (a : Word) (k : Nat) (hk : k < 64) :
    (bswapVal a).getLsbD k = a.getLsbD (8 * (7 - k / 8) + k % 8) := by
  rw [bswapVal, BitVec.getLsbD_ofNat, testBit_ofBytes_reverse 8 a.toNat k hk, BitVec.testBit_toNat, decide_eq_true hk, Bool.true_and]

/-! ### The carry-less product (R247) -/

/-- The carry-less product of the spec: one shifted copy of a for each one bit of b. -/
def clmulFold (a b : Word) (n : Nat) : BitVec 128 :=
  (List.range n).foldl (fun p n => if b.getLsbD n then p ^^^ (a.setWidth 128 <<< n) else p) 0

theorem clmulFold_eq (a b : Word) (n : Nat) : clmulFold a b n = BitVec.ofNat 128 (clmulBits a.toNat b.toNat n) := by
  induction n with
  | zero => rfl
  | succ n ih =>
    have hs : BitVec.ofNat 128 (a.toNat * 2 ^ n) = a.setWidth 128 <<< n := by
      apply BitVec.eq_of_toNat_eq
      rw [BitVec.toNat_ofNat, BitVec.toNat_shiftLeft, BitVec.toNat_setWidth_of_le (by decide), Nat.shiftLeft_eq]
    rw [clmulFold, List.range_succ, List.foldl_append, ← clmulFold, ih, clmulBits, BitVec.testBit_toNat]
    simp only [List.foldl_cons, List.foldl_nil]
    split
    · rw [BitVec.ofNat_xor, hs, BitVec.xor_comm]
    · rfl

/-- CLMUL, CLMULH and CLMULR take 64 bits of the product from a place on. -/
theorem extractLsb'_clmulFold (a b : Word) (k : Nat) (hk : k + 64 ≤ 128) :
    BitVec.ofNat 64 (clmul128 a b / 2 ^ k) = (clmulFold a b 64).extractLsb' k 64 := by
  rw [clmulFold_eq]
  apply BitVec.eq_of_getLsbD_eq
  intro i hi
  rw [BitVec.getLsbD_ofNat, BitVec.getLsbD_extractLsb', BitVec.getLsbD_ofNat, Nat.testBit_div_two_pow, Nat.add_comm k i,
    decide_eq_true (show i + k < 128 by omega), Bool.true_and, clmul128]

/-! ### Fields (R248) -/

theorem testBit_wbits (v : Word) (lo n k : Nat) : (wbits v lo n).testBit k = (decide (k < n) && v.getLsbD (lo + k)) := by
  rw [wbits, bits, Nat.testBit_mod_two_pow, Nat.testBit_div_two_pow, BitVec.testBit_toNat, Nat.add_comm]

/-- A field written holds the low bits of the value, and every other bit stays. -/
theorem getLsbD_setBits (v : Word) (lo n x k : Nat) (hk : k < 64) :
    (setBits v lo n x).getLsbD k = if lo ≤ k ∧ k < lo + n then x.testBit (k - lo) else v.getLsbD k := by
  simp only [setBits, BitVec.getLsbD_or, BitVec.getLsbD_and, BitVec.getLsbD_not, BitVec.getLsbD_ofNat, Nat.testBit_mul_two_pow,
    Nat.testBit_two_pow_sub_one, Nat.testBit_mod_two_pow, hk, decide_true, Bool.true_and]
  by_cases h1 : lo ≤ k
  · by_cases h2 : k < lo + n
    · simp [h1, h2, show k - lo < n by omega]
    · simp [h1, h2, show ¬ k - lo < n by omega]
  · simp [h1]

/-- A field below its sign, which fills the bits above it. -/
theorem testBit_add_ones (v n k : Nat) (hv : v < 2 ^ n) (hn : n ≤ 64) (hk : k < 64) :
    (v + (2 ^ 64 - 2 ^ n)).testBit k = if k < n then v.testBit k else true := by
  have hp : 2 ^ 64 - 2 ^ n = 2 ^ n * (2 ^ (64 - n) - 1) := by
    rw [Nat.mul_sub_one, ← Nat.pow_add, Nat.add_sub_cancel' hn]
  rw [Nat.add_comm, hp, Nat.testBit_two_pow_mul_add _ hv, Nat.testBit_two_pow_sub_one]
  split
  case isTrue => rfl
  case isFalse h => exact decide_eq_true (by omega)

theorem bfLen_eq (b : Word) : bfLen b = min (b.toNat / 64 % 64 + 1) (64 - b.toNat % 64) := by
  simp [bfLen, wbits, bits]

theorem wbits_low6 (b : Word) : wbits b 0 6 = b.toNat % 64 := amount_eq b

theorem getLsbD_bfxVal (a b : Word) (k : Nat) (hk : k < 64) :
    (bfxVal a b).getLsbD k = if k < bfLen b then a.getLsbD (wbits b 0 6 + k)
      else b.getLsbD 12 && a.getLsbD (wbits b 0 6 + bfLen b - 1) := by
  have hn : 1 ≤ bfLen b ∧ bfLen b ≤ 64 := by rw [bfLen_eq]; omega
  obtain ⟨h1, h64⟩ := hn
  have hv : wbits a (wbits b 0 6) (bfLen b) < 2 ^ bfLen b := Nat.mod_lt _ (Nat.two_pow_pos _)
  have hs : (wbits a (wbits b 0 6) (bfLen b)).testBit (bfLen b - 1) = a.getLsbD (wbits b 0 6 + bfLen b - 1) := by
    rw [testBit_wbits, decide_eq_true (by omega), Bool.true_and, Nat.add_sub_assoc h1]
  simp only [bfxVal, wbit, hs]
  split
  case isTrue h =>
    rw [← Bool.and_eq_true] at h
    rw [BitVec.getLsbD_ofNat, testBit_add_ones _ _ k hv h64 hk, testBit_wbits, h, decide_eq_true hk, Bool.true_and]
    by_cases hkn : k < bfLen b <;> simp [hkn]
  case isFalse h =>
    rw [← Bool.and_eq_true, Bool.not_eq_true] at h
    rw [BitVec.getLsbD_ofNat, testBit_wbits, h, decide_eq_true hk, Bool.true_and]
    by_cases hkn : k < bfLen b <;> simp [hkn]

theorem getLsbD_bfiVal (a b old : Word) (k : Nat) (hk : k < 64) :
    (bfiVal a b old).getLsbD k =
      if wbits b 0 6 ≤ k ∧ k < wbits b 0 6 + bfLen b then a.getLsbD (k - wbits b 0 6) else old.getLsbD k := by
  rw [bfiVal, getLsbD_setBits _ _ _ _ _ hk]
  split
  case isTrue h => rw [testBit_wbits, decide_eq_true (by omega), Bool.true_and, Nat.zero_add]
  case isFalse => rfl

end Sys2Proof.Machine

/-! PROOFS. The statements of scalar arithmetic: each instruction applies its function to clear registers, and that function has the
spec's value. -/

namespace Sys2Proof.Proofs

open Sys2Proof.Machine Sys2Proof.Claims

/-- Settles O1, with one value lemma for each of the 22 instructions; a shift amount is the low six bits of rs2. -/
theorem aluRegister : Obligations.AluRegister := by
  intro hd d a b s hc A B n
  have hn : n < 64 := Nat.mod_lt _ (by decide)
  have hm : amount (s.rx b) = n := amount_eq _
  refine ⟨regReg_writes rfl hc (add_eq_ofNat A B), regReg_writes rfl hc (sub_eq_ofInt A B), regReg_writes rfl hc rfl,
    regReg_writes rfl hc rfl, regReg_writes rfl hc rfl, ?sll, ?srl, ?sra, ?rol, ?ror,
    regReg_writes rfl hc (bool64_slt A B), regReg_writes rfl hc (bool64_ult A B),
    regReg_writes rfl hc (if_slt_eq_min A B), regReg_writes rfl hc (if_slt_eq_max A B),
    regReg_writes rfl hc (if_ult_eq_min A B), regReg_writes rfl hc (if_ult_eq_max A B), ?addw, ?subw, regReg_writes rfl hc rfl,
    regReg_writes rfl hc rfl, regReg_writes rfl hc (clamp64_eq _), regReg_writes rfl hc (clamp64_eq _)⟩
  case sll => exact regReg_writes rfl hc (by rw [hm, shiftLeft_eq_ofNat])
  case srl => exact regReg_writes rfl hc (by rw [hm, ushiftRight_eq_ofNat])
  case sra => exact regReg_writes rfl hc (by rw [hm, sshiftRight_eq_ofInt])
  case rol => exact regReg_writes rfl hc (by rw [hm, rotateLeft_eq _ n hn])
  case ror => exact regReg_writes rfl hc (by rw [hm, rotateRight_eq _ n hn])
  case addw => exact regReg_writes rfl hc (by rw [add_eq_ofInt, sext32_ofInt])
  case subw => exact regReg_writes rfl hc (by rw [sub_eq_ofInt, sext32_ofInt])

/-- Settles O2: the model's own cases for zero and for the overflow of a division are those of the spec. -/
theorem multiplyDivide : Obligations.MultiplyDivide := by
  intro hd d a b s hc A B
  refine ⟨regReg_writes rfl hc (mul_eq_ofNat A B), regReg_writes rfl hc rfl, regReg_writes rfl hc (high64_natCast _),
    regReg_writes rfl hc rfl, ?mulw, regReg_writes rfl hc (divVal_eq A B), regReg_writes rfl hc (divuVal_eq A B),
    regReg_writes rfl hc (remVal_eq A B), regReg_writes rfl hc (remuVal_eq A B)⟩
  case mulw => exact regReg_writes rfl hc (by rw [mul_eq_ofInt, sext32_ofInt])

/-- Settles O3, from the bits of each of the model's recursions. -/
theorem bitManipulation : Obligations.BitManipulation := by
  intro hd d a b s hc A B pos len
  have ha : s.clear hd [.x a] [.x d] := clear_mono s hd _ _ _ _ hc (by simp) (List.Subset.refl _)
  have hab : s.clear hd [.x a, .x b] [.x d] := clear_mono s hd _ _ _ _ hc (by simp) (List.Subset.refl _)
  have hpos : wbits B 0 6 = pos := wbits_low6 B
  have hlen : bfLen B = len := bfLen_eq B
  refine ⟨⟨clzBits A.toNat 64, clzBits_le _ _, regOne_writes rfl ha rfl, testBit_of_lt_clzBits _ 64, testBit_clzBits _ 64⟩, ?ctz, ?popc, ?brev,
    ⟨_, regOne_writes rfl ha rfl, getLsbD_bswapVal A⟩, ?sextb, ?sexth, ?sextw, regOne_writes rfl ha (zx_setWidth A), ?clmul, ?bfx, ?bfi⟩
  case ctz =>
    refine ⟨ctzFrom A.toNat 0 64, ctzFrom_le _ _ _, regOne_writes rfl ha rfl, fun k hk => ?_, fun h => ?_⟩
    · rw [← BitVec.testBit_toNat, ← Nat.zero_add k, testBit_of_lt_ctzFrom _ 0 64 k hk]
    · rw [← BitVec.testBit_toNat, ← Nat.zero_add (ctzFrom _ _ _), testBit_ctzFrom _ 0 64 h]
  case popc => exact regOne_writes rfl ha (by rw [popBits_eq_countP]; rfl)
  case brev =>
    refine ⟨_, regOne_writes rfl ha rfl, fun k hk => ?_⟩
    rw [BitVec.getLsbD_ofNat, testBit_brevBits _ 63 64 k (by decide), BitVec.testBit_toNat, decide_eq_true hk,
      decide_eq_true (by omega), Bool.true_and, Bool.true_and]
  case sextb => exact regOne_writes rfl ha (signExtend_setWidth A 8 (by decide))
  case sexth => exact regOne_writes rfl ha (signExtend_setWidth A 16 (by decide))
  case sextw => exact regOne_writes rfl ha (signExtend_setWidth A 32 (by decide))
  case clmul =>
    refine ⟨clmulFold A B 64, rfl, regReg_writes rfl hab ?_, regReg_writes rfl hab ?_, regReg_writes rfl hab ?_⟩
    · rw [← extractLsb'_clmulFold A B 0 (by decide), Nat.pow_zero, Nat.div_one]
    · exact extractLsb'_clmulFold A B 64 (by decide)
    · exact extractLsb'_clmulFold A B 63 (by decide)
  case bfx => exact ⟨_, regReg_writes rfl hab rfl, fun k hk => by rw [getLsbD_bfxVal A B k hk, hpos, hlen]⟩
  case bfi => exact ⟨_, regRegRd_writes rfl hc rfl, fun k hk => by rw [getLsbD_bfiVal A B _ k hk, hpos, hlen]⟩

theorem aluImmediate_holds : aluImmediate := by
  intro hd d a i n j w s hc A
  have h0 : s.clear hd [] [.x d] := clear_mono s hd _ _ _ _ hc (List.nil_subset _) (List.Subset.refl _)
  refine ⟨regOne_writes rfl hc (add_sx A i), regOne_writes rfl hc rfl, regOne_writes rfl hc rfl, regOne_writes rfl hc rfl,
    regOne_writes rfl hc (shiftLeft_eq_ofNat A _), regOne_writes rfl hc (ushiftRight_eq_ofNat A _),
    regOne_writes rfl hc (sshiftRight_eq_ofInt A _), regOne_writes rfl hc (rotateRight_eq A _ n.isLt), ?slti,
    regOne_writes rfl hc (bool64_ult A _), regNone_writes rfl h0 (sx_shiftLeft j 12), ?addpc, ?li32⟩
  case slti => exact regOne_writes rfl hc (by rw [bool64_slt, toInt_sx i (by decide)])
  case addpc => exact regNone_writes rfl h0 (by rw [sx_shiftLeft, BitVec.ofInt_add, BitVec.ofInt_toInt])
  case li32 => exact regOne_writes rfl hc (by rw [shiftLeft_or_zx]; rfl)

theorem compressedAlu_holds : compressedAlu := by
  intro d a e f i u s pd pb plain
  refine ⟨fun hc => ?addisp, fun hc => ⟨regOne_writes rfl hc (add_sx _ i), regOne_writes rfl hc (shiftLeft_eq_ofNat _ _)⟩, fun hc => ?li,
    fun hc => ⟨regOne_writes rfl hc (ushiftRight_eq_ofNat _ _), regOne_writes rfl hc (sshiftRight_eq_ofInt _ _), regOne_writes rfl hc rfl⟩,
    fun hc => ⟨regReg_writes rfl hc (sub_eq_ofInt _ _), regReg_writes rfl hc rfl, regReg_writes rfl hc rfl, regReg_writes rfl hc rfl⟩,
    fun hc => ?mv, fun hc => regReg_writes rfl hc (add_eq_ofNat _ _)⟩
  case addisp => exact regOne_writes rfl hc (by rw [zx_shiftLeft_three u (by decide)])
  case li => exact regOne_writes rfl (clear_x0 hc) (BitVec.zero_add _)
  case mv => exact regReg_writes rfl (clear_x0 hc) (BitVec.zero_add _)

/-- Settles O4: the 32-bit and 64-bit forms, then the compressed ones, which use the same value lemmas. -/
theorem aluImmediate : Obligations.AluImmediate := ⟨aluImmediate_holds, compressedAlu_holds⟩

end Sys2Proof.Proofs

/-! PROOFS. The ground of a state: memory, the clk, the hart whose turn it is and the agenda, and what the updates of the state leave of it. -/

namespace Sys2Proof.Machine

/-- What the parts of the state that memory, time and the agenda are made of hold. -/
structure Ground where
  mem : Memory
  clk : Nat
  cur : HartId
  agenda : List Turn

def State.ground (s : State) : Ground := ⟨s.mem, s.clk, s.cur, s.agenda⟩

@[simp] theorem State.ground_eta (s : State) : (⟨s.mem, s.clk, s.cur, s.agenda⟩ : Ground) = s.ground := rfl

@[simp] theorem State.ground_mk (clk : Nat) (cur : HartId) (agenda : List Turn) (n : Nat) (mem : Memory) (bad : List Nat) (harts : Table HartId Hart)
    (cores : Table Nat Core) (vaults : Table Nat Vault) (clusters : Table Nat Cluster) (stks : Table Nat Stack) (dev : Device) :
    (⟨clk, cur, agenda, n, mem, bad, harts, cores, vaults, clusters, stks, dev⟩ : State).ground = ⟨mem, clk, cur, agenda⟩ := rfl

theorem State.ground_congr {s t : State} (hm : t.mem = s.mem) (hk : t.clk = s.clk) (hc : t.cur = s.cur) (ha : t.agenda = s.agenda) :
    t.ground = s.ground := by rw [State.ground, hm, hk, hc, ha, State.ground]

@[simp] theorem State.setHart_ground (s : State) (i : HartId) (x : Hart) : (s.setHart i x).ground = s.ground :=
  State.ground_congr rfl rfl rfl rfl
@[simp] theorem State.modHart_ground (s : State) (i : HartId) (f : Hart → Hart) : (s.modHart i f).ground = s.ground :=
  State.ground_congr rfl rfl rfl rfl
@[simp] theorem State.modMe_ground (s : State) (f : Hart → Hart) : (s.modMe f).ground = s.ground :=
  State.ground_congr rfl rfl rfl rfl
@[simp] theorem State.modCore_ground (s : State) (i : Nat) (f : Core → Core) : (s.modCore i f).ground = s.ground :=
  State.ground_congr rfl rfl rfl rfl
@[simp] theorem State.modVault_ground (s : State) (i : Nat) (f : Vault → Vault) : (s.modVault i f).ground = s.ground :=
  State.ground_congr rfl rfl rfl rfl
@[simp] theorem State.modCluster_ground (s : State) (i : Nat) (f : Cluster → Cluster) : (s.modCluster i f).ground = s.ground :=
  State.ground_congr rfl rfl rfl rfl
@[simp] theorem State.modStk_ground (s : State) (i : Nat) (f : Stack → Stack) : (s.modStk i f).ground = s.ground :=
  State.ground_congr rfl rfl rfl rfl
@[simp] theorem State.modDev_ground (s : State) (f : Device → Device) : (s.modDev f).ground = s.ground :=
  State.ground_congr rfl rfl rfl rfl

@[simp] theorem foldl_ground {α : Type} (l : List α) (g : State → α → State) (s : State) (h : ∀ s x, (g s x).ground = s.ground) :
    (l.foldl g s).ground = s.ground := by
  induction l generalizing s with
  | nil => rfl
  | cons x r ih => rw [List.foldl_cons, ih, h]

theorem getD_ground (o : Option State) (s : State) (h : ∀ t, o = some t → t.ground = s.ground) : (o.getD s).ground = s.ground := by
  cases o with
  | none => rfl
  | some t => exact h t rfl

/-- A fold of steps that may find no state. -/
theorem foldl_bind_ground {α : Type} (l : List α) (g : State → α → Option State) (hg : ∀ u v x, g u x = some v → v.ground = u.ground)
    (s t : State) (h : l.foldl (fun (r : Option State) x => r.bind (fun s => g s x)) (some s) = some t) : t.ground = s.ground := by
  induction l generalizing s with
  | nil => cases h; rfl
  | cons x r ih =>
    rw [List.foldl_cons, Option.bind_some] at h
    cases hx : g s x with
    | none =>
      rw [hx] at h
      exact absurd h (by clear ih h; induction r with | nil => simp | cons y r ihr => simpa using ihr)
    | some u => exact (ih u (hx ▸ h)).trans (hg s u x hx)

/-- Memory is in its canonical form. -/
def Ground.ok (g : Ground) : Prop := g.mem.wf = true

theorem State.memOk_iff (s : State) : s.memOk ↔ s.ground.ok := Iff.rfl

@[simp] theorem State.writeMem_ok (s : State) (pa : Nat) (bs : List Byte) (hs : s.ground.ok) : (s.writeMem pa bs).ground.ok :=
  wf_write s.mem (homePa pa) bs hs

theorem foldl_ok {α : Type} (l : List α) (g : State → α → State) (s : State) (h : ∀ s x, s.ground.ok → (g s x).ground.ok) (hs : s.ground.ok) :
    (l.foldl g s).ground.ok := by
  induction l generalizing s with
  | nil => exact hs
  | cons x r ih => exact ih _ (h s x hs)

end Sys2Proof.Machine

/-! PROOFS. The frame of the model's functions: every function that makes a state without writing memory leaves the ground of the state as it was, one lemma for each, in the order of the model. -/

namespace Sys2Proof.Machine

@[simp] theorem State.free_ground (s : State) : s.free.2.ground = s.ground := rfl

@[simp] theorem State.mctpAnswer_ground (s : State) (i3c : Bool) (r : MctpReq) : (s.mctpAnswer i3c r).ground = s.ground :=
  State.ground_congr rfl rfl rfl rfl

@[simp] theorem State.layerUpNext_ground (s : State) : (s.layerUpNext).ground = s.ground := by
  simp only [State.layerUpNext]
  repeat' split
  all_goals simp

theorem guarded_ground (ready : Bool) (f : State → State) (s : State) (hf : ∀  s, (f  s).ground = s.ground) :
    ∀ t, guarded ready f s = some t → t.ground = s.ground := by
  unfold guarded
  grind

@[simp] theorem State.modBank_ground (s : State) (core b : Nat) (f : Bank → Bank) : (s.modBank core b f).ground = s.ground :=
  State.ground_congr rfl rfl rfl rfl

@[simp] theorem State.undoLate_ground (s : State) (core b t : Nat) : (s.undoLate core b t).ground = s.ground := by
  simp only [State.undoLate]
  repeat' split
  all_goals simp

@[simp] theorem State.startRefresh_ground (s : State) (core b t : Nat) : (s.startRefresh core b t).ground = s.ground :=
  State.ground_congr rfl rfl rfl rfl

@[simp] theorem State.notify_ground (s : State) (k : Nat) (n : Notice) : (s.notify k n).ground = s.ground :=
  State.ground_congr rfl rfl rfl rfl

@[simp] theorem State.addLog_ground (s : State) (core : Nat) (r : BitVec 128) : (s.addLog core r).ground = s.ground := by
  simp only [State.addLog]
  repeat' split
  all_goals simp

@[simp] theorem State.logUncorr_ground (s : State) (word : Nat) : (s.logUncorr word).ground = s.ground := by
  unfold State.logUncorr
  split <;> simp

@[simp] theorem State.patrol_ground (s : State) (core : Nat) : (s.patrol core).ground = s.ground := by
  simp only [State.patrol]
  repeat' split
  all_goals simp

@[simp] theorem refreshSlotEffect_ground (core : Nat) (s : State) : (refreshSlotEffect core s).ground = s.ground := by
  simp only [refreshSlotEffect]
  repeat' split
  all_goals simp

@[simp] theorem State.eventEnd_ground (s : State) (core b st start stop : Nat) (waited : VReq → Bool) :
    (s.eventEnd core b st start stop waited).ground = s.ground := State.ground_congr rfl rfl rfl rfl

@[simp] theorem refreshEndEffect_ground (core b : Nat) (s : State) : (refreshEndEffect core b s).ground = s.ground := by
  simp only [refreshEndEffect]
  repeat' split
  all_goals simp

@[simp] theorem State.pendingRefresh_ground (s : State) (core b t : Nat) : (s.pendingRefresh core b t).ground = s.ground := by
  unfold State.pendingRefresh
  split <;> simp

@[simp] theorem holdEndEffect_ground (core b : Nat) (s : State) : (holdEndEffect core b s).ground = s.ground := by
  simp only [holdEndEffect]
  repeat' split
  all_goals simp

@[simp] theorem holdStartEffect_ground (core b : Nat) (s : State) : (holdStartEffect core b s).ground = s.ground :=
  State.ground_congr rfl rfl rfl rfl

@[simp] theorem repairSwitchEffect_ground (core b : Nat) (s : State) : (repairSwitchEffect core b s).ground = s.ground := by
  simp only [repairSwitchEffect]
  repeat' split
  all_goals simp

@[simp] theorem State.noteBusy_ground (s : State) (core : Nat) (k : MsgKind) : (s.noteBusy core k).ground = s.ground :=
  State.ground_congr rfl rfl rfl rfl

@[simp] theorem State.onlyLock_ground (s : State) (core line : Nat) : (s.onlyLock core line).ground = s.ground :=
  State.ground_congr rfl rfl rfl rfl

@[simp] theorem State.noteWaits_ground (s : State) (core : Nat) : (s.noteWaits core).ground = s.ground := by
  unfold State.noteWaits
  split <;> simp

@[simp] theorem State.noteAllWaits_ground (s : State) : (s.noteAllWaits).ground = s.ground := by simp [State.noteAllWaits]

@[simp] theorem State.noteTurn_ground (s : State) : s.noteTurn.ground = s.ground := by
  simp [State.noteTurn]

@[simp] theorem State.modItem_ground (s : State) (k table id : Nat) (f : Item → Item) : (s.modItem k table id f).ground = s.ground :=
  State.ground_congr rfl rfl rfl rfl

@[simp] theorem State.modLaunch_ground (s : State) (k l : Nat) (f : Launch → Launch) : (s.modLaunch k l f).ground = s.ground :=
  State.ground_congr rfl rfl rfl rfl

@[simp] theorem State.stopLaunch_ground (s : State) (k l : Nat) : (s.stopLaunch k l).ground = s.ground := State.ground_congr rfl rfl rfl rfl

@[simp] theorem State.preemptSet1_ground (s : State) (id : HartId) (req kill : Bool) : (s.preemptSet1 id req kill).ground = s.ground :=
  State.ground_congr rfl rfl rfl rfl

@[simp] theorem State.childDone_ground (s : State) (k n id status : Nat) (cause : BitVec 8) (unit : BitVec 32) :
    (s.childDone k n id status cause unit).ground = s.ground := State.ground_congr rfl rfl rfl rfl

@[simp] theorem State.settleItem_ground (s : State) (k n id : Nat) : (s.settleItem k n id).ground = s.ground := by
  induction n generalizing s id with
  | zero => unfold State.settleItem; dsimp only; split <;> simp
  | succ n ih => unfold State.settleItem; dsimp only; split <;> simp [ih]

@[simp] theorem State.forgetEarly_ground (s : State) (who : Reader) : (s.forgetEarly who).ground = s.ground := by
  unfold State.forgetEarly
  split <;> simp

@[simp] theorem State.dropReads_ground (s : State) (core : Nat) (who : Reader) : (s.dropReads core who).ground = s.ground := by
  simp only [State.dropReads]
  repeat' split
  all_goals simp

@[simp] theorem State.dropAsked_ground (s : State) (id : HartId) : (s.dropAsked id).ground = s.ground := by simp [State.dropAsked]

@[simp] theorem State.modSlot_ground (s : State) (cl n : Nat) (f : LeaseSlot → LeaseSlot) : (s.modSlot cl n f).ground = s.ground :=
  State.ground_congr rfl rfl rfl rfl

@[simp] theorem State.drainSlot_ground (s : State) (cl n : Nat) : (s.drainSlot cl n).ground = s.ground := State.ground_congr rfl rfl rfl rfl

@[simp] theorem State.dropLease_ground (s : State) (id : HartId) : (s.dropLease id).ground = s.ground := by
  unfold State.dropLease
  split <;> simp

@[simp] theorem State.modLock_ground (s : State) (k : Nat × Nat × Nat) (f : PLock → PLock) : (s.modLock k f).ground = s.ground :=
  State.ground_congr rfl rfl rfl rfl

@[simp] theorem State.dropLock_ground (s : State) (id : HartId) (k : Nat × Nat × Nat) : (s.dropLock id k).ground = s.ground := by
  unfold State.dropLock
  split <;> simp

@[simp] theorem State.clearLock_ground (s : State) (id : HartId) : (s.clearLock id).ground = s.ground := by
  unfold State.clearLock
  split <;> simp

@[simp] theorem State.reply_ground (s : State) (r : Reply) : (s.reply r).ground = s.ground := State.ground_congr rfl rfl rfl rfl

@[simp] theorem State.replyAll_ground (s : State) (m : Msg) (r : Reply) : (s.replyAll m r).ground = s.ground := by
  unfold State.replyAll
  split
  · simp
  · exact foldl_ground _ _ _ (by simp)

@[simp] theorem State.nackMsg_ground (s : State) (m : Msg) (cause status : BitVec 8) : (s.nackMsg m cause status).ground = s.ground :=
  by simp [State.nackMsg]

@[simp] theorem State.send_ground (s : State) (m : Msg) (track : Bool) : (s.send m track).ground = s.ground := by
  simp only [State.send]
  repeat' split
  all_goals simp

@[simp] theorem State.withdraw_ground (s : State) (id : HartId) : (s.withdraw id).ground = s.ground := by simp [State.withdraw]

@[simp] theorem State.killUnit_ground (s : State) (id : HartId) (cause : BitVec 8) : (s.killUnit id cause).ground = s.ground :=
  by simp [State.killUnit]

@[simp] theorem State.cancelLaunch_ground (s : State) (k l : Nat) : (s.cancelLaunch k l).ground = s.ground := by
  simp [State.cancelLaunch]

@[simp] theorem State.cancelItem_ground (s : State) (k table id : Nat) : (s.cancelItem k table id).ground = s.ground := by
  simp [State.cancelItem]

@[simp] theorem State.cancelContext_ground (s : State) (ccb : Nat) : (s.cancelContext ccb).ground = s.ground := by
  refine foldl_ground _ _ s fun s k => foldl_ground _ _ s fun s p => ?_
  split <;> simp

@[simp] theorem State.dropReply_ground (s : State) (n : Nat) : (s.dropReply n).ground = s.ground := State.ground_congr rfl rfl rfl rfl

@[simp] theorem State.modOwner_ground (s : State) (id : HartId) (epoch : BitVec 8) (f : Hart → Hart) :
    (s.modOwner id epoch f).ground = s.ground := by
  simp only [State.modOwner]
  repeat' split
  all_goals simp

@[simp] theorem State.unpost_ground (s : State) (id : HartId) (msg : Nat) : (s.unpost id msg).ground = s.ground :=
  State.ground_congr rfl rfl rfl rfl

@[simp] theorem State.modFlight_ground (s : State) (id : HartId) (seq : Nat) (f : Flight → Flight) :
    (s.modFlight id seq f).ground = s.ground := State.ground_congr rfl rfl rfl rfl

@[simp] theorem State.closeCtx_ground (s : State) (id : HartId) (e : Ending) : (s.closeCtx id e).ground = s.ground := by
  simp only [State.closeCtx]
  repeat' split
  all_goals simp

@[simp] theorem State.settle_ground (s : State) (id : HartId) : (s.settle id).ground = s.ground := by
  simp only [State.settle]
  repeat' split
  all_goals simp

@[simp] theorem replyFillEffect_ground (r : Reply) (s : State) : (replyFillEffect r s).ground = s.ground := by
  unfold replyFillEffect
  split <;> simp

@[simp] theorem State.travellerEnds_ground (s : State) (r : Reply) : (s.travellerEnds r).ground = s.ground := by
  unfold State.travellerEnds
  split <;> simp

@[simp] theorem travellerEndEffect_ground (r : Reply) (s : State) : (travellerEndEffect r s).ground = s.ground :=
  by simp [travellerEndEffect]

@[simp] theorem State.copyAccepted_ground (s : State) (id : HartId) (cmd : Option Nat) (n : Nat) :
    (s.copyAccepted id cmd n).ground = s.ground := by
  unfold State.copyAccepted
  split <;> simp

@[simp] theorem acceptanceEffect_ground (r : Reply) (s : State) : (acceptanceEffect r s).ground = s.ground := by
  simp only [acceptanceEffect]
  repeat' split
  all_goals simp

@[simp] theorem State.repMsg_ground (s : State) (id : HartId) (c : Commit) (core step : Nat) :
    (s.repMsg id c core step).ground = s.ground := by simp [State.repMsg]

@[simp] theorem State.setCommit_ground (s : State) (id : HartId) (c : Option Commit) : (s.setCommit id c).ground = s.ground :=
  State.ground_congr rfl rfl rfl rfl

@[simp] theorem State.commitDone_ground (s : State) (id : HartId) (c : Commit) : (s.commitDone id c).ground = s.ground :=
  by simp [State.commitDone]

@[simp] theorem State.commitNext_ground (s : State) (id : HartId) (c : Commit) : (s.commitNext id c).ground = s.ground := by
  simp only [State.commitNext]
  repeat' split
  all_goals simp

@[simp] theorem commitAnswer_ground (r : Reply) (s : State) : (commitAnswer r s).ground = s.ground := by
  unfold commitAnswer
  split <;> simp

@[simp] theorem repcommitGrantEffect_ground (r : Reply) (s : State) : (repcommitGrantEffect r s).ground = s.ground := by
  simp only [repcommitGrantEffect]
  repeat' split
  all_goals simp

@[simp] theorem State.snapshot_ground (s : State) (k : Nat) : (s.snapshot k).ground = s.ground := by
  unfold State.snapshot
  split <;> simp

@[simp] theorem State.machineCheck_ground (s : State) (core : Nat) (v : Word) : (s.machineCheck core v).ground = s.ground :=
  by simp [State.machineCheck]

@[simp] theorem State.setXact_ground (s : State) (id : HartId) (x : Xact) : (s.setXact id x).ground = s.ground :=
  State.ground_congr rfl rfl rfl rfl

@[simp] theorem State.xactMsg_ground (s : State) (id : HartId) (x : Xact) (core step : Nat) :
    (s.xactMsg id x core step).ground = s.ground := by simp [State.xactMsg]

@[simp] theorem State.xactVoted_ground (s : State) (id : HartId) (x : Xact) : (s.xactVoted id x).ground = s.ground := by
  simp only [State.xactVoted]
  repeat' split
  all_goals simp

@[simp] theorem xcommitVoteEffect_ground (r : Reply) (s : State) : (xcommitVoteEffect r s).ground = s.ground := by
  simp only [xcommitVoteEffect]
  repeat' split
  all_goals simp

@[simp] theorem xcommitAckEffect_ground (r : Reply) (s : State) : (xcommitAckEffect r s).ground = s.ground := by
  unfold xcommitAckEffect
  split <;> simp

@[simp] theorem State.noteRoll_ground (s : State) (ccb : Nat) (why : RollCause) : (s.noteRoll ccb why).ground = s.ground :=
  State.ground_congr rfl rfl rfl rfl

@[simp] theorem State.rollHart_ground (s : State) (id : HartId) : (s.rollHart id).ground = s.ground := by
  simp only [State.rollHart]
  repeat' split
  all_goals simp

@[simp] theorem nackEffect_ground (r : Reply) (s : State) : (nackEffect r s).ground = s.ground := by
  unfold nackEffect
  split
  · simp
  · simp only [State.settle_ground]
    split <;> split <;> split <;> simp

theorem replyEvent_ground (n : Nat) (s t : State) (h : replyEvent n s = some t) : t.ground = s.ground := by
  unfold replyEvent at h
  split at h
  · cases h
  · dsimp only at h
    repeat' split at h
    all_goals cases h
    all_goals simp

theorem State.poolTurns_ground (s t : State) (port : Nat) (lines : List Nat) (h : s.poolTurns port lines = some t) : t.ground = s.ground := by
  induction lines generalizing s with
  | nil => cases h; rfl
  | cons l r ih =>
    unfold State.poolTurns at h
    dsimp only at h
    split at h
    · exact ih _ h
    · split at h
      · rw [ih _ h, State.modCluster_ground]
      · cases h

@[simp] theorem State.enter_ground (s : State) (core b : Nat) (q : VReq) : (s.enter core b q).ground = s.ground :=
  State.ground_congr rfl rfl rfl rfl

@[simp] theorem State.askRead_ground (s : State) (who : Reader) (core off n : Nat) : (s.askRead who core off n).ground = s.ground :=
  State.ground_congr rfl rfl rfl rfl

@[simp] theorem State.prepareSegment_ground (s : State) (id : HartId) (seq : Nat) : (s.prepareSegment id seq).ground = s.ground := by
  simp only [State.prepareSegment]
  repeat' split
  all_goals simp

@[simp] theorem State.afterTransfer_ground (s : State) (k : VReqKind) : (s.afterTransfer k).ground = s.ground := by
  unfold State.afterTransfer
  split <;> simp

@[simp] theorem State.transfer_ground (s : State) (core b n : Nat) (q : VReq) (who : Reader) :
    (s.transfer core b n q who).ground = s.ground := by simp [State.transfer]

@[simp] theorem bankRequestEffect_ground (core b : Nat) (s : State) : (bankRequestEffect core b s).ground = s.ground := by
  simp only [bankRequestEffect]
  repeat' split
  all_goals simp

@[simp] theorem State.askAll_ground (s : State) (who : Reader) (parts : List (Nat × Nat)) : (s.askAll who parts).ground = s.ground := by
  refine foldl_ground _ _ s fun s line => ?_
  dsimp only
  split
  · rfl
  · split <;> simp

@[simp] theorem State.readyRuns_ground (s : State) (id : HartId) (seq port : Nat) (rs : List Run) :
    (s.readyRuns id seq port rs).1.ground = s.ground := by simp [State.readyRuns]

@[simp] theorem State.clearTape_ground (s : State) (core id : Nat) : (s.clearTape core id).ground = s.ground :=
  State.ground_congr rfl rfl rfl rfl

@[simp] theorem State.turnBoundary_ground (s : State) (cl : Nat) : (s.turnBoundary cl).ground = s.ground := by
  simp only [State.turnBoundary]
  repeat' split
  all_goals simp

theorem State.takeTurn_ground (s t : State) (cl n : Nat) (h : s.takeTurn cl n = some t) : t.ground = s.ground := by
  unfold State.takeTurn at h
  dsimp only at h
  repeat' split at h
  all_goals cases h
  all_goals simp

@[simp] theorem State.signalCommand_ground (s : State) (id : HartId) (c : Cmd) (bad : Option TokFault) :
    (s.signalCommand id c bad).ground = s.ground := by
  simp only [State.signalCommand]
  repeat' split
  all_goals simp

@[simp] theorem State.dropSegment_ground (s : State) (id : HartId) (seq : Nat) (g : Seg) : (s.dropSegment id seq g).ground = s.ground :=
  State.ground_congr rfl rfl rfl rfl

@[simp] theorem State.errorFill_ground (s : State) (id : HartId) (i : Instr) : (s.errorFill id i).ground = s.ground := by
  unfold State.errorFill
  split <;> simp

@[simp] theorem State.takeOff_ground (s : State) (id : HartId) (q : Nat) (f : Flight) : (s.takeOff id q f).ground = s.ground :=
  by simp [State.takeOff]

@[simp] theorem State.useWalked_ground (s : State) (who : Asker) (w : Walked) : (s.useWalked who w).ground = s.ground := by
  unfold State.useWalked
  split <;> simp

@[simp] theorem State.l1Put_ground (s : State) (id : HartId) (e : TlbEnt) : (s.l1Put id e).ground = s.ground := by
  unfold State.l1Put
  split <;> simp

@[simp] theorem State.askWalk_ground (s : State) (who : Asker) (va : Nat) : (s.askWalk who va).ground = s.ground := by
  simp only [State.askWalk]
  repeat' split
  all_goals simp

@[simp] theorem State.page_ground (s : State) (who : Asker) (va : Nat) : (s.page who va).1.ground = s.ground := by
  simp only [State.page]
  repeat' split
  all_goals simp

@[simp] theorem State.translate_ground (s : State) (who : Asker) (va : Word) : (s.translate who va).1.ground = s.ground := by
  have hp := State.page_ground s who va.toNat
  unfold State.translate
  dsimp only
  split
  · rfl
  · split
    · rfl
    · rcases hq : s.page who va.toNat with ⟨t, e | c | _⟩ <;> rw [hq] at hp <;> exact hp

@[simp] theorem State.check_ground (s : State) (who : Asker) (a : Acc) (va : Word) : (s.check who a va).1.ground = s.ground := by
  have ht := State.translate_ground s who va
  unfold State.check
  rcases hq : s.translate who va with ⟨t, x | c | _⟩ <;> rw [hq] at ht
  · dsimp only at ht ⊢
    repeat' split
    all_goals exact ht
  · exact ht
  · exact ht

@[simp] theorem State.checkLines_ground (s : State) (who : Asker) (a : Acc) (code : Nat) (ps : List Piece) :
    (s.checkLines who a code ps).1.ground = s.ground := by
  induction ps generalizing s with
  | nil => rfl
  | cons p r ih => simp [State.checkLines, ih]

@[simp] theorem State.checkCopy_ground (s : State) (who : Asker) (a : Acc) (size : Nat) (vas : List Word) :
    (s.checkCopy who a size vas).1.ground = s.ground := by simp [State.checkCopy]

theorem Checks.settle_ground (k : Checks) (s : State) (go : List Run → Launching) (h : ∀ r, (go r).1.ground = s.ground) :
    (k.settle s go).1.ground = s.ground := by
  unfold Checks.settle
  split
  · rfl
  · split
    · rfl
    · exact h _

@[simp] theorem State.sendCopy_ground (s : State) (id : HartId) (c : Cmd) (src : List Run) (elems : List (Nat × Nat × Nat)) :
    (s.sendCopy id c src elems).1.ground = s.ground := by
  unfold State.sendCopy
  split <;> simp

@[simp] theorem State.startCopy_ground (s : State) (id : HartId) (c : Cmd) (slot : Nat) : (s.startCopy id c slot).1.ground = s.ground := by
  unfold State.startCopy
  dsimp only
  split
  · rfl
  · split
    · rfl
    · rw [Checks.settle_ground _ _ _ (by simp)]
      simp

@[simp] theorem State.checkReceivers_ground (s : State) (who : Asker) (size : Nat) (ds : List ((Nat × Option Nat) × List Word)) :
    (s.checkReceivers who size ds).1.ground = s.ground := by
  induction ds generalizing s with
  | nil => rfl
  | cons d r ih => simp [State.checkReceivers, ih]

theorem State.combineAt_ground (s t : State) (core mbx root cl : Nat) (kids : List Nat) (h : s.combineAt core mbx root cl kids = some t) :
    t.ground = s.ground := by
  unfold State.combineAt at h
  dsimp only at h
  repeat' split at h
  all_goals cases h
  all_goals simp

theorem State.combineTile_ground (s t : State) (core mbx : Nat) (homes : List Nat) (h : s.combineTile core mbx homes = some t) : t.ground = s.ground := by
  refine foldl_bind_ground _ _ (fun u v cl hv => ?_) s t h
  exact State.combineAt_ground u v _ _ _ _ _ hv

@[simp] theorem State.startCopyMc_ground (s : State) (id : HartId) (c : Cmd) (slot : Nat) : (s.startCopyMc id c slot).1.ground = s.ground := by
  unfold State.startCopyMc
  dsimp only
  split
  · rfl
  · split
    · rfl
    · rw [Checks.settle_ground]
      · simp
      · intro r
        split
        · rfl
        · split
          · rfl
          · rw [State.sendCopy_ground]
            exact State.combineTile_ground _ _ _ _ _ ‹_›

@[simp] theorem State.freeFault_ground (s : State) (cause : BitVec 8) : (s.freeFault cause).1.ground = s.ground :=
  State.ground_congr rfl rfl rfl rfl

@[simp] theorem State.startRcall_ground (s : State) (id : HartId) (c : Cmd) (hidx : BitVec 6) (rr : Bool) (rd : Reg) (ord : BitVec 2) :
    (s.startRcall id c hidx rr rd ord).1.ground = s.ground := by
  simp only [State.startRcall]
  repeat' split
  all_goals simp

@[simp] theorem State.startMbxAdd_ground (s : State) (id : HartId) (c : Cmd) : (s.startMbxAdd id c).1.ground = s.ground := by
  unfold State.startMbxAdd
  split <;> simp

@[simp] theorem State.access_ground (s : State) (who : Asker) (a : Acc) (align : Nat) (va : Word) :
    (s.access who a align va).1.ground = s.ground := by
  unfold State.access
  split <;> simp

@[simp] theorem State.accessAll_ground (s : State) (who : Asker) (a : Acc) (align : Nat) (vas : List Word) :
    (s.accessAll who a align vas).1.ground = s.ground := by
  induction vas generalizing s with
  | nil => rfl
  | cons va r ih => simp [State.accessAll, ih]

@[simp] theorem State.mmioTouch_ground (s : State) (r : MmioReg) : (s.mmioTouch r).ground = s.ground := by
  unfold State.mmioTouch
  split <;> simp

@[simp] theorem State.touchPart_ground (s : State) (p : Nat × Nat) : (s.touchPart p).ground = s.ground := by
  unfold State.touchPart
  split <;> simp

@[simp] theorem State.noteVlast_ground (s : State) (id : HartId) (st waited : Nat) (hit : Bool) :
    (s.noteVlast id st waited hit).ground = s.ground := State.ground_congr rfl rfl rfl rfl

@[simp] theorem State.noteWords_ground (s : State) (id : HartId) (who : Reader) (ps : List Nat) : (s.noteWords id who ps).ground = s.ground := by
  simp [State.noteWords]

@[simp] theorem State.blockRead_ground (s : State) (who : Asker) (note : Bool) (va : Word) (n : Nat) :
    (s.blockRead who note va n).1.ground = s.ground := by
  have hg := State.accessAll_ground s who (.load 8 false) 8 ((List.range n).map (fun k => va + BitVec.ofNat 64 (8 * k)))
  unfold State.blockRead
  dsimp only
  generalize s.accessAll who (.load 8 false) 8 ((List.range n).map (fun k => va + BitVec.ofNat 64 (8 * k))) = p at hg ⊢
  repeat' split
  all_goals first | exact hg | (simp only [State.askAll_ground]; exact hg) | skip
  all_goals simpa [State.poolTurns_ground _ _ _ _ ‹_›] using hg

@[simp] theorem State.checkStreams_ground (s : State) (who : Asker) (tgt : Nat) (vas : List (List Word)) :
    (s.checkStreams who tgt vas).1.ground = s.ground := by
  induction vas generalizing s with
  | nil => rfl
  | cons v r ih => simp [State.checkStreams, ih]

@[simp] theorem State.pagesCarry_ground (s : State) (who : Asker) (layout : Nat) (vas : List Nat) :
    (s.pagesCarry who layout vas).1.ground = s.ground := by
  induction vas generalizing s with
  | nil => rfl
  | cons va r ih => simp [State.pagesCarry, ih]

@[simp] theorem State.resident_ground (s : State) (who : Asker) (j : JobBlock) (rs : List Run) :
    (s.resident who j rs).1.ground = s.ground := by
  simp only [State.resident]
  repeat' split
  all_goals simp

@[simp] theorem State.sendJob_ground (s : State) (id : HartId) (c : Cmd) (tgt : Nat) (rd : Reg) (job : Job) (src : List Run) :
    (s.sendJob id c tgt rd job src).1.ground = s.ground := by simp [State.sendJob]

@[simp] theorem State.placeJob_ground (s : State) (id : HartId) (c : Cmd) (sel rr flt : Bool) (rd : Reg) (b : List Byte) :
    (s.placeJob id c sel rr flt rd b).1.ground = s.ground := by
  unfold State.placeJob
  dsimp only
  split
  · simp
  · rename_i tgt _
    generalize hd : State.checkLines _ _ _ _ _ = d
    have hg : d.1.ground = s.ground := by rw [← hd]; simp
    rw [Checks.settle_ground]
    · exact hg
    · intro r
      split
      · rfl
      · have hr := State.resident_ground d.1 (c.asker id) (blockFields b) ((s.checkStreams (c.asker id) tgt (List.map ((blockFields b).bytesOf sel) (List.range 4))).2.1.getD 1 [] ++ (s.checkStreams (c.asker id) tgt (List.map ((blockFields b).bytesOf sel) (List.range 4))).2.1.getD 3 [])
        split <;> rename_i hq <;> rw [hq] at hr
        · exact hr
        · split
          · exact hr
          · simpa using hr

@[simp] theorem State.startPipe_ground (s : State) (id : HartId) (c : Cmd) (sel rr flt : Bool) (rd : Reg) :
    (s.startPipe id c sel rr flt rd).1.ground = s.ground := by
  have hg := State.blockRead_ground s (c.asker id) false c.va 24
  unfold State.startPipe
  split
  · rfl
  · repeat' split
    all_goals simp_all

@[simp] theorem State.askBank_ground (s : State) (core b : Nat) (k : VReqKind) (row line : Nat) :
    (s.askBank core b k row line).ground = s.ground := State.ground_congr rfl rfl rfl rfl

@[simp] theorem State.askRow_ground (s : State) (act : Bool) (pa : Nat) : (s.askRow act pa).ground = s.ground :=
  State.ground_congr rfl rfl rfl rfl

@[simp] theorem State.startRow_ground (s : State) (id : HartId) (c : Cmd) (act : Bool) : (s.startRow id c act).1.ground = s.ground := by
  have hg := State.check_ground s (c.asker id) .vault c.va
  unfold State.startRow
  split <;> simp_all

@[simp] theorem State.startPlay_ground (s : State) (id : HartId) (c : Cmd) (tape : Nat) : (s.startPlay id c tape).1.ground = s.ground :=
  State.ground_congr rfl rfl rfl rfl

@[simp] theorem State.startRuns_ground (s : State) (id : HartId) (c : Cmd) (a : Acc) (code : Nat) (ps : List Piece) :
    (s.startRuns id c a code ps).1.ground = s.ground := by
  unfold State.startRuns
  dsimp only
  rw [Checks.settle_ground]
  · simp
  · exact fun _ => rfl

@[simp] theorem State.startSave_ground (s : State) (id : HartId) (c : Cmd) (tape : Nat) : (s.startSave id c tape).1.ground = s.ground := by
  simp only [State.startSave]
  repeat' split
  all_goals simp

@[simp] theorem State.startTile_ground (s : State) (id : HartId) (c : Cmd) (fmt rows frow : Nat) (sc weights : Bool) (pool : Option (Word × Word)) :
    (s.startTile id c fmt rows frow sc weights pool).1.ground = s.ground := by
  unfold State.startTile
  dsimp only
  split
  · rfl
  · rw [Checks.settle_ground]
    · split <;> simp
    · exact fun _ => rfl

@[simp] theorem State.startPair_ground (s : State) (id : HartId) (c : Cmd) (a : Acc) (esz : Nat) (ps : List Piece) :
    (s.startPair id c a esz ps).1.ground = s.ground := by
  unfold State.startPair
  split <;> simp

@[simp] theorem State.startMatrix_ground (s : State) (id : HartId) (c : Cmd) : (s.startMatrix id c).1.ground = s.ground := by
  simp only [State.startMatrix]
  repeat' split
  all_goals simp

@[simp] theorem tapePlayStartEffect_ground (id : HartId) (s : State) : (tapePlayStartEffect id s).ground = s.ground := by
  unfold tapePlayStartEffect
  split <;> simp

@[simp] theorem State.modPlay_ground (s : State) (id : HartId) (f : Play → Play) : (s.modPlay id f).ground = s.ground :=
  State.ground_congr rfl rfl rfl rfl

@[simp] theorem State.enqueue_ground (s : State) (id : HartId) (q : Nat) (c : Cmd) : (s.enqueue id q c).ground = s.ground :=
  State.ground_congr rfl rfl rfl rfl

@[simp] theorem tapeRecordIssueEffect_ground (id : HartId) (s : State) : (tapeRecordIssueEffect id s).ground = s.ground := by
  simp only [tapeRecordIssueEffect]
  repeat' split
  all_goals simp

@[simp] theorem tapeBarrierEffect_ground (id : HartId) (s : State) : (tapeBarrierEffect id s).ground = s.ground := by
  simp only [tapeBarrierEffect]
  repeat' split
  all_goals simp

@[simp] theorem tapePlayEndEffect_ground (id : HartId) (s : State) : (tapePlayEndEffect id s).ground = s.ground := by
  simp only [tapePlayEndEffect]
  repeat' split
  all_goals simp

@[simp] theorem State.writeDst_ground (s : State) (id : HartId) (d : LoadDst) (bs : List Byte) : (s.writeDst id d bs).ground = s.ground := by
  unfold State.writeDst
  split <;> simp

@[simp] theorem loadCompleteEffect_ground (id : HartId) (s : State) : (loadCompleteEffect id s).ground = s.ground := by
  simp only [loadCompleteEffect]
  repeat' split
  all_goals simp

@[simp] theorem State.evalWatches_ground (s : State) (core idx : Nat) : (s.evalWatches core idx).ground = s.ground := by
  unfold State.evalWatches
  exact foldl_ground _ _ _ (by simp)

@[simp] theorem State.counterSet_ground (s : State) (core idx : Nat) (v : BitVec 32) : (s.counterSet core idx v).ground = s.ground :=
  by simp [State.counterSet]

@[simp] theorem State.msgerrClear_ground (s : State) (id : HartId) : (s.msgerrClear id).ground = s.ground :=
  State.ground_congr rfl rfl rfl rfl

@[simp] theorem State.request_ground (s : State) (id : HartId) : (s.request id).ground = s.ground := by
  have hone (s : State) (h : HartId) : (if (s.hart h).occupied && !(s.hart h).isTaken then s.preemptSet1 h true (wbit (s.hart h).csr.preempt 1) else s).ground = s.ground := by
    split <;> simp
  unfold State.request
  dsimp only
  split
  · exact foldl_ground _ _ _ hone
  · exact hone s id

@[simp] theorem State.preemptSet_ground (s : State) (id : HartId) (req kill : Bool) : (s.preemptSet id req kill).ground = s.ground := by
  simp only [State.preemptSet]
  repeat' split
  all_goals simp

@[simp] theorem State.spillApply_ground (s : State) (core base quota : Nat) : (s.spillApply core base quota).ground = s.ground :=
  State.ground_congr rfl rfl rfl rfl

@[simp] theorem State.spillSet_ground (s : State) (core : Nat) (quota : Bool) (v : Word) : (s.spillSet core quota v).ground = s.ground := by
  simp only [State.spillSet]
  repeat' split
  all_goals simp

@[simp] theorem State.aqstatSet_ground (s : State) (core : Nat) (v : Word) : (s.aqstatSet core v).ground = s.ground :=
  State.ground_congr rfl rfl rfl rfl

@[simp] theorem State.vaultevtSet_ground (s : State) (core : Nat) (v : Word) : (s.vaultevtSet core v).ground = s.ground :=
  State.ground_congr rfl rfl rfl rfl

@[simp] theorem State.arraystatSet_ground (s : State) (core : Nat) (v : Word) : (s.arraystatSet core v).ground = s.ground :=
  State.ground_congr rfl rfl rfl rfl

@[simp] theorem State.leaseBudgetSet_ground (s : State) (core : Nat) (v : Word) : (s.leaseBudgetSet core v).ground = s.ground :=
  State.ground_congr rfl rfl rfl rfl

@[simp] theorem State.restart_ground (s : State) (id : HartId) : (s.restart id).ground = s.ground := State.ground_congr rfl rfl rfl rfl

@[simp] theorem State.clkstepSet_ground (s : State) (cl : Nat) (v : Word) : (s.clkstepSet cl v).ground = s.ground :=
  State.ground_congr rfl rfl rfl rfl

@[simp] theorem State.modHq_ground (s : State) (q : Nat) (f : Hq → Hq) : (s.modHq q f).ground = s.ground :=
  State.ground_congr rfl rfl rfl rfl

@[simp] theorem State.queueError_ground (s : State) (q cause : Nat) : (s.queueError q cause).ground = s.ground := by
  simp only [State.queueError]
  repeat' split
  all_goals simp

@[simp] theorem State.tailCheck_ground (s : State) (q : Nat) : (s.tailCheck q).ground = s.ground := by
  simp only [State.tailCheck]
  repeat' split
  all_goals simp

@[simp] theorem State.hqctlSet_ground (s : State) (q : Nat) (v : Word) : (s.hqctlSet q v).ground = s.ground := by simp [State.hqctlSet]

@[simp] theorem State.hqtailSet_ground (s : State) (q : Nat) (v : Word) : (s.hqtailSet q v).ground = s.ground := by simp [State.hqtailSet]

@[simp] theorem State.hqstatClear_ground (s : State) (q : Nat) : (s.hqstatClear q).ground = s.ground := State.ground_congr rfl rfl rfl rfl

@[simp] theorem State.hqSet_ground (s : State) (q reg : Nat) (v : Word) : (s.hqSet q reg v).ground = s.ground := by
  simp only [State.hqSet]
  repeat' split
  all_goals simp

@[simp] theorem State.closeEnd_ground (s : State) : (s.closeEnd).ground = s.ground := by
  unfold State.closeEnd
  split <;> simp

@[simp] theorem State.newInterval_ground (s : State) : (s.newInterval).ground = s.ground := State.ground_congr rfl rfl rfl rfl

@[simp] theorem State.closeInterval_ground (s : State) : (s.closeInterval).ground = s.ground := by
  unfold State.closeInterval
  split <;> simp

@[simp] theorem State.ckptctlSet_ground (s : State) (v : Word) : (s.ckptctlSet v).ground = s.ground := by
  simp only [State.ckptctlSet]
  repeat' split
  all_goals simp

@[simp] theorem State.ckptlogSet_ground (s : State) (v : Word) : (s.ckptlogSet v).ground = s.ground := by
  unfold State.ckptlogSet
  split <;> simp

@[simp] theorem State.snapSet_ground (s : State) (k : Nat) (v : Word) : (s.snapSet k v).ground = s.ground := by
  unfold State.snapSet
  split <;> simp

@[simp] theorem repcommitStartEffect_ground (id : HartId) (s : State) : (repcommitStartEffect id s).ground = s.ground := by
  unfold repcommitStartEffect
  split <;> simp

@[simp] theorem repcommitRetryEffect_ground (id : HartId) (core : Nat) (s : State) : (repcommitRetryEffect id core s).ground = s.ground := by
  unfold repcommitRetryEffect
  split <;> simp

@[simp] theorem State.grantLock_ground (s : State) (id : HartId) (k : Nat × Nat × Nat) : (s.grantLock id k).ground = s.ground :=
  State.ground_congr rfl rfl rfl rfl

@[simp] theorem ldlRetryEffect_ground (id : HartId) (s : State) : (ldlRetryEffect id s).ground = s.ground := by
  simp only [ldlRetryEffect]
  repeat' split
  all_goals simp

@[simp] theorem watchRetryEffect_ground (id : HartId) (n : Nat) (s : State) : (watchRetryEffect id n s).ground = s.ground := by
  unfold watchRetryEffect
  split <;> simp

@[simp] theorem State.takeUnit_ground (s : State) (id : HartId) : (s.takeUnit id).ground = s.ground := by
  simp only [State.takeUnit]
  repeat' split
  all_goals simp

@[simp] theorem safePointTakeEffect_ground (id : HartId) (s : State) : (safePointTakeEffect id s).ground = s.ground := by
  unfold safePointTakeEffect
  split <;> simp

@[simp] theorem State.freeSlot_ground (s : State) (id : HartId) : (s.freeSlot id).ground = s.ground := by
  simp only [State.freeSlot]
  repeat' split
  all_goals simp

@[simp] theorem State.unitDone_ground (s : State) (k l u status : Nat) (cause : BitVec 8) :
    (s.unitDone k l u status cause).ground = s.ground := by simp [State.unitDone]

@[simp] theorem State.endUnit_ground (s : State) (id : HartId) (status : Nat) (cause : BitVec 8) :
    (s.endUnit id status cause).ground = s.ground := by
  simp only [State.endUnit]
  repeat' split
  all_goals simp

@[simp] theorem unitEndEffect_ground (id : HartId) (s : State) : (unitEndEffect id s).ground = s.ground := by
  simp only [unitEndEffect]
  repeat' split
  all_goals simp

@[simp] theorem repairCopyEffect_ground (core b : Nat) (s : State) : (repairCopyEffect core b s).ground = s.ground :=
  State.ground_congr rfl rfl rfl rfl

@[simp] theorem State.repairFail_ground (s : State) (core b row : Nat) : (s.repairFail core b row).ground = s.ground :=
  by simp [State.repairFail]

@[simp] theorem repairStartEffect_ground (core b : Nat) (s : State) : (repairStartEffect core b s).ground = s.ground := by
  simp only [repairStartEffect]
  repeat' split
  all_goals simp

@[simp] theorem State.closeUnless_ground (s : State) (gone : Nat × Nat → Bool) : (s.closeUnless gone).ground = s.ground := by
  unfold State.closeUnless
  split <;> simp

@[simp] theorem State.unserve_ground (s : State) (core id : Nat) : (s.unserve core id).ground = s.ground := by simp [State.unserve]

@[simp] theorem State.ringEmptied_ground (s : State) (core : Nat) : (s.ringEmptied core).ground = s.ground := by
  simp only [State.ringEmptied]
  repeat' split
  all_goals simp

@[simp] theorem State.refill_ground (s : State) (core n : Nat) : (s.refill core n).ground = s.ground := by
  induction n generalizing s with
  | zero => rfl
  | succ n ih =>
    unfold State.refill
    dsimp only
    repeat' split
    all_goals simp [ih]

@[simp] theorem State.leave_ground (s : State) (core n : Nat) : (s.leave core n).ground = s.ground := by simp [State.leave]

@[simp] theorem State.hold_ground (s : State) (core : Nat) (m : Msg) : (s.hold core m).ground = s.ground :=
  State.ground_congr rfl rfl rfl rfl

theorem State.remoteBad_ground (s t : State) (core : Nat) (m : Msg) (h : s.remoteBad core m = some t) : t.ground = s.ground := by
  unfold State.remoteBad at h
  dsimp only at h
  repeat' split at h
  all_goals cases h
  all_goals simp

@[simp] theorem State.acceptNotices_ground (s : State) (m : Msg) : (s.acceptNotices m).ground = s.ground := by simp [State.acceptNotices]

@[simp] theorem State.onlyReads_ground (s : State) (core : Nat) (who : Reader) (lines : List Nat) :
    (s.onlyReads core who lines).ground = s.ground := by
  simp only [State.onlyReads]
  repeat' split
  all_goals simp

@[simp] theorem State.sendChunk_ground (s : State) (m : Msg) (es : List (Nat × Nat × Nat)) (pa : Nat) (bs : List Byte) :
    (s.sendChunk m es pa bs).ground = s.ground := by simp [State.sendChunk]

@[simp] theorem State.lockRep_ground (s : State) (core : Nat) (m : Msg) : (s.lockRep core m).ground = s.ground := by
  simp only [State.lockRep]
  repeat' split
  all_goals simp

@[simp] theorem State.freeLine_ground (s : State) (core line : Nat) : (s.freeLine core line).ground = s.ground := by
  unfold State.freeLine
  split <;> simp

@[simp] theorem State.runJob_ground (s : State) (core : Nat) (m : Msg) (job : Job) : (s.runJob core m job).1.ground = s.ground := by
  simp only [State.runJob]
  repeat' split
  all_goals simp

theorem State.jobEvent_ground (s t : State) (core : Nat) (m : Msg) (h : s.jobEvent core m = some t) : t.ground = s.ground := by
  unfold State.jobEvent State.unlessSame at h
  dsimp only at h
  repeat' split at h
  all_goals cases h
  all_goals simp

theorem State.vpjob_ground (s t : State) (core : Nat) (h : s.vpjob core = some t) : t.ground = s.ground := by
  unfold State.vpjob at h
  split at h
  · next u hu =>
    cases h
    obtain ⟨m, _, hm⟩ := Option.bind_eq_some_iff.mp hu
    exact State.jobEvent_ground _ _ _ _ hm
  · obtain ⟨p, _, rfl⟩ := Option.map_eq_some_iff.mp h
    simp

@[simp] theorem State.finishJob_ground (s : State) (j : JobRun) : (s.finishJob j).ground = s.ground := by
  simp only [State.finishJob]
  repeat' split
  all_goals simp

@[simp] theorem bfreeCombineEffect_ground (cl n : Nat) (s : State) : (bfreeCombineEffect cl n s).ground = s.ground := by
  simp only [bfreeCombineEffect]
  repeat' split
  all_goals simp

@[simp] theorem State.foreign_ground (s : State) (m : Msg) : (s.foreign m).ground = s.ground := by
  simp only [State.foreign]
  repeat' split
  all_goals simp

@[simp] theorem State.acceptTravel_ground (s : State) (m : Msg) : (s.acceptTravel m).ground = s.ground := by
  unfold State.acceptTravel
  split <;> simp

@[simp] theorem State.breach_ground (s : State) (core : Nat) (m : Msg) : (s.breach core m).ground = s.ground := by
  simp only [State.breach]
  repeat' split
  all_goals simp

@[simp] theorem State.serveLoad_ground (s : State) (q : PReq) : (s.serveLoad q).ground = s.ground := State.ground_congr rfl rfl rfl rfl

@[simp] theorem poolBankAccessEffect_ground (cl bank : Nat) (s : State) : (poolBankAccessEffect cl bank s).ground = s.ground := by
  unfold poolBankAccessEffect
  split <;> simp

@[simp] theorem State.grantSlot_ground (s : State) (cl n : Nat) (id : HartId) : (s.grantSlot cl n id).ground = s.ground :=
  State.ground_congr rfl rfl rfl rfl

@[simp] theorem leaseGrantEffect_ground (cl : Nat) (s : State) : (leaseGrantEffect cl s).ground = s.ground := by
  unfold leaseGrantEffect
  split <;> simp

@[simp] theorem slotDrainedEffect_ground (cl n : Nat) (s : State) : (slotDrainedEffect cl n s).ground = s.ground :=
  State.ground_congr rfl rfl rfl rfl

@[simp] theorem lvuTakeEffect_ground (cl : Nat) (s : State) : (lvuTakeEffect cl s).ground = s.ground := by
  unfold lvuTakeEffect
  split <;> simp

@[simp] theorem State.unitQueueError_ground (s : State) (u : Option (Nat × Nat × Nat)) : (s.unitQueueError u).ground = s.ground := by
  simp only [State.unitQueueError]
  repeat' split
  all_goals simp

@[simp] theorem State.rename_ground (s : State) (r : Rename) : (s.rename r).ground = s.ground := State.ground_congr rfl rfl rfl rfl

@[simp] theorem State.saveUnit_ground (s : State) (cl : Nat) (wKeep : Nat → Bool) (id : HartId) :
    (s.saveUnit cl wKeep id).ground = s.ground := by
  simp only [State.saveUnit]
  repeat' split
  all_goals simp

@[simp] theorem saveCompleteEffect_ground (cl : Nat) (s : State) : (saveCompleteEffect cl s).ground = s.ground := by
  simp [saveCompleteEffect]

@[simp] theorem State.haltCluster_ground (s : State) (cl : Nat) : (s.haltCluster cl).ground = s.ground := by
  simp [State.haltCluster]

@[simp] theorem lockstepMismatchEffect_ground (cl : Nat) (s : State) : (lockstepMismatchEffect cl s).ground = s.ground :=
  by simp [lockstepMismatchEffect]

@[simp] theorem supervisorNoticeEffect_ground (k : Nat) (s : State) : (supervisorNoticeEffect k s).ground = s.ground := by
  unfold supervisorNoticeEffect
  split <;> simp

@[simp] theorem tlbMissEffect_ground (id : HartId) (s : State) : (tlbMissEffect id s).ground = s.ground := by
  unfold tlbMissEffect
  split <;> simp

@[simp] theorem State.l2Put_ground (s : State) (cl : Nat) (e : TlbEnt) : (s.l2Put cl e).ground = s.ground :=
  State.ground_congr rfl rfl rfl rfl

@[simp] theorem State.answerMiss_ground (s : State) (w : Walk) (r : Except (BitVec 8) TlbEnt) (m : Miss) :
    (s.answerMiss w r m).ground = s.ground := by
  simp only [State.answerMiss]
  repeat' split
  all_goals simp

@[simp] theorem State.endWalk_ground (s : State) (k n : Nat) (r : Except (BitVec 8) TlbEnt) : (s.endWalk k n r).ground = s.ground := by
  unfold State.endWalk
  split <;> simp

@[simp] theorem State.modWalk_ground (s : State) (k n : Nat) (f : Walk → Walk) : (s.modWalk k n f).ground = s.ground :=
  State.ground_congr rfl rfl rfl rfl

@[simp] theorem walkStepEffect_ground (k n : Nat) (s : State) : (walkStepEffect k n s).ground = s.ground := by
  simp only [walkStepEffect]
  repeat' split
  all_goals simp

@[simp] theorem ptreadEffect_ground (k n : Nat) (s : State) : (ptreadEffect k n s).ground = s.ground := by
  simp only [ptreadEffect]
  repeat' split
  all_goals simp

@[simp] theorem State.flushOne_ground (s : State) (q : Nat) : (s.flushOne q).ground = s.ground := State.ground_congr rfl rfl rfl rfl

@[simp] theorem State.flushRecord_ground (s : State) (k ccb : Nat) (r : List Byte) : (s.flushRecord k ccb r).ground = s.ground := by
  unfold State.flushRecord
  dsimp only
  simp only [apply_ite State.ground, State.settleItem_ground, State.modItem_ground, State.childDone_ground, ite_self]

@[simp] theorem State.addItem_ground (s : State) (k table id parent ccb : Nat) : (s.addItem k table id parent ccb).ground = s.ground := by
  unfold State.addItem
  split <;> simp

@[simp] theorem State.addItems_ground (s : State) (k ccb : Nat) (r : List Byte) : (s.addItems k ccb r).ground = s.ground := by
  simp only [State.addItems]
  repeat' split
  all_goals simp

@[simp] theorem State.applySeals_ground (s : State) (k : Nat) (r : List Byte) : (s.applySeals k r).ground = s.ground := by
  simp only [State.applySeals]
  repeat' split
  all_goals simp

@[simp] theorem State.createLaunch_ground (s : State) (k l ccb hq prio : Nat) (ptroot : Word) (r : List Byte) :
    (s.createLaunch k l ccb hq prio ptroot r).ground = s.ground := by
  simp only [State.createLaunch]
  repeat' split
  all_goals simp

@[simp] theorem launchRecordAcceptEffect_ground (q : Nat) (s : State) : (launchRecordAcceptEffect q s).ground = s.ground := by
  simp only [launchRecordAcceptEffect]
  repeat' split
  all_goals simp

@[simp] theorem recordFlushEffect_ground (q : Nat) (s : State) : (recordFlushEffect q s).ground = s.ground := by
  unfold recordFlushEffect
  split <;> simp

@[simp] theorem State.endLaunch_ground (s : State) (k l : Nat) (f : Item → Item) : (s.endLaunch k l f).ground = s.ground :=
  by simp [State.endLaunch]

@[simp] theorem launchReadyEffect_ground (k l : Nat) (s : State) : (launchReadyEffect k l s).ground = s.ground := by
  simp only [launchReadyEffect]
  repeat' split
  all_goals simp

@[simp] theorem State.failGang_ground (s : State) (k l u : Nat) (c : BitVec 8) : (s.failGang k l u c).ground = s.ground :=
  by simp [State.failGang]

@[simp] theorem State.bind_ground (s : State) (k l u : Nat) (id : HartId) : (s.bind k l u id).ground = s.ground :=
  State.ground_congr rfl rfl rfl rfl

@[simp] theorem gangBindEffect_ground (k l : Nat) (s : State) : (gangBindEffect k l s).ground = s.ground := by
  unfold gangBindEffect
  dsimp only
  repeat' split
  all_goals simp

@[simp] theorem State.failUnit_ground (s : State) (k l u : Nat) (c : BitVec 8) : (s.failUnit k l u c).ground = s.ground :=
  by simp [State.failUnit]

@[simp] theorem unitDispatchEffect_ground (k l u slot : Nat) (s : State) : (unitDispatchEffect k l u slot s).ground = s.ground := by
  simp only [unitDispatchEffect]
  repeat' split
  all_goals simp

@[simp] theorem State.fetchHome_ground (s : State) (id : HartId) (pa : Nat) : (s.fetchHome id pa).1.ground = s.ground := by
  unfold State.fetchHome
  split
  · rfl
  · split
    · split
      · exact State.poolTurns_ground _ _ _ _ ‹_›
      · rfl
    · simp

@[simp] theorem State.fetchParcel_ground (s : State) (id : HartId) (va : Word) : (s.fetchParcel id va).1.ground = s.ground := by
  have hg := State.check_ground s (.instr id) .fetch va
  unfold State.fetchParcel
  dsimp only
  split
  · rfl
  · generalize s.check (.instr id) .fetch va = p at hg ⊢
    rcases p with ⟨t, x | c | _⟩
    · dsimp only at hg ⊢
      repeat' split
      all_goals simpa using hg
    · exact hg
    · exact hg

@[simp] theorem State.fetchParcels_ground (s : State) (id : HartId) (va : Word) (n : Nat) : (s.fetchParcels id va n).1.ground = s.ground := by
  induction n generalizing s va with
  | zero => rfl
  | succ n ih =>
    have hg := State.fetchParcel_ground s id va
    unfold State.fetchParcels
    generalize s.fetchParcel id va = p at hg ⊢
    rcases p with ⟨s1, e | b⟩
    · exact hg
    · have h2 := ih s1 (va + 2)
      dsimp only at hg ⊢
      generalize s1.fetchParcels id (va + 2) n = q at h2 ⊢
      rcases q with ⟨s2, e | r⟩ <;> exact h2.trans hg

@[simp] theorem State.fetchBase_ground (s : State) (id : HartId) (pc : Word) : (s.fetchBase id pc).1.ground = s.ground := by
  have hg := State.fetchParcels_ground s id pc 1
  unfold State.fetchBase
  generalize s.fetchParcels id pc 1 = q at hg ⊢
  rcases q with ⟨s1, e | p⟩
  · exact hg
  · have h2 := State.fetchParcels_ground s1 id (pc + 2) (parcelLen (BitVec.ofNat 16 (ofBytes p)) / 2 - 1)
    dsimp only at hg ⊢
    generalize s1.fetchParcels id (pc + 2) (parcelLen (BitVec.ofNat 16 (ofBytes p)) / 2 - 1) = q at h2 ⊢
    rcases q with ⟨s2, e | r⟩ <;> exact h2.trans hg

@[simp] theorem State.ungrant_ground (s : State) (id : HartId) : (s.ungrant id).ground = s.ground := by
  unfold State.ungrant
  split <;> simp

@[simp] theorem State.giveUp_ground (s : State) : (s.giveUp).ground = s.ground := by simp [State.giveUp]

@[simp] theorem State.endCtx_ground (s : State) (id : HartId) (e : Ending) : (s.endCtx id e).ground = s.ground := by simp [State.endCtx]

@[simp] theorem takeTrap_ground (cause status : BitVec 8) (val epc : Word) (s : State) :
    (takeTrap cause status val epc s).ground = s.ground := by
  simp only [takeTrap]
  repeat' split
  all_goals simp

@[simp] theorem trapVal_ground (cause : BitVec 8) (v : Word) (s : State) : (trapVal cause v s).ground = s.ground := by simp [trapVal]

@[simp] theorem trapUncorr_ground (w : Nat) (va : Word) (s : State) : (trapUncorr w va s).ground = s.ground := by
  unfold trapUncorr
  split <;> simp

@[simp] theorem stopFetch_ground (e : FetchStop) (s : State) : (stopFetch e s).ground = s.ground := by
  unfold stopFetch
  split <;> simp

@[simp] theorem trapInstr_ground (cause : BitVec 8) (ik : Code) (s : State) : (trapInstr cause ik s).ground = s.ground :=
  by simp [trapInstr]

@[simp] theorem stallAt_ground (hd : Head) (w : Wait) (takeable : Bool) (s : State) : (stallAt hd w takeable s).ground = s.ground :=
  State.ground_congr rfl rfl rfl rfl

@[simp] theorem issueOwn_ground (ik : Code) (hd : Head) (level : Nat) (legal : Bool) (own : Option (BitVec 8)) (srcs dsts : List RegRef) (k : State → State) (s : State) (hk : ∀  s, (k  s).ground = s.ground) :
    (issueOwn ik hd level legal own srcs dsts k s).ground = s.ground := by
  simp only [issueOwn]
  repeat' split
  all_goals simp [*]

@[simp] theorem issue_ground (ik : Code) (hd : Head) (level : Nat) (legal : Bool) (srcs dsts : List RegRef) (k : State → State) (s : State) (hk : ∀  s, (k  s).ground = s.ground) :
    (issue ik hd level legal srcs dsts k s).ground = s.ground := by simp [issue, *]

@[simp] theorem finishAt_ground (hd : Head) (next : Word) (s : State) : (finishAt hd next s).ground = s.ground :=
  State.ground_congr rfl rfl rfl rfl

@[simp] theorem finish_ground (ik : Code) (hd : Head) (s : State) : (finish ik hd s).ground = s.ground := State.ground_congr rfl rfl rfl rfl

@[simp] theorem State.wx_ground (s : State) (r : Reg) (v : Word) : (s.wx r v).ground = s.ground := State.ground_congr rfl rfl rfl rfl

@[simp] theorem writeRd_ground (ik : Code) (hd : Head) (d : Reg) (v : Word) (s : State) : (writeRd ik hd d v s).ground = s.ground :=
  State.ground_congr rfl rfl rfl rfl

@[simp] theorem regReg_ground (ik : Code) (hd : Head) (d a b : Reg) (f : Word → Word → Word) (s : State) :
    (regReg ik hd d a b f s).ground = s.ground := issue_ground _ _ _ _ _ _ _ _ (by simp)

@[simp] theorem regOne_ground (ik : Code) (hd : Head) (d a : Reg) (f : Word → Word) (s : State) :
    (regOne ik hd d a f s).ground = s.ground := issue_ground _ _ _ _ _ _ _ _ (by simp)

@[simp] theorem regNone_ground (ik : Code) (hd : Head) (d : Reg) (f : Word → Word) (s : State) : (regNone ik hd d f s).ground = s.ground :=
  issue_ground _ _ _ _ _ _ _ _ (by simp)

@[simp] theorem regRegRd_ground (ik : Code) (hd : Head) (d a b : Reg) (f : Word → Word → Word → Word) (s : State) :
    (regRegRd ik hd d a b f s).ground = s.ground := issue_ground _ _ _ _ _ _ _ _ (by simp)

@[simp] theorem addFcsr_ground (f : Flags) (s : State) : (addFcsr f s).ground = s.ground := State.ground_congr rfl rfl rfl rfl

@[simp] theorem writeF_ground (ik : Code) (hd : Head) (d : Reg) (r : Nat × Flags) (s : State) : (writeF ik hd d r s).ground = s.ground :=
  State.ground_congr rfl rfl rfl rfl

@[simp] theorem fp2_ground (ik : Code) (hd : Head) (d a b : Reg) (f : FEnv → Word → Word → Nat × Flags) (s : State) :
    (fp2 ik hd d a b f s).ground = s.ground := issue_ground _ _ _ _ _ _ _ _ (by simp)

@[simp] theorem fp1_ground (ik : Code) (hd : Head) (d a : Reg) (f : FEnv → Word → Nat × Flags) (s : State) :
    (fp1 ik hd d a f s).ground = s.ground := issue_ground _ _ _ _ _ _ _ _ (by simp)

@[simp] theorem fp3_ground (ik : Code) (hd : Head) (d a b c : Reg) (np nc : Bool) (s : State) :
    (fp3 ik hd d a b c np nc s).ground = s.ground := issue_ground _ _ _ _ _ _ _ _ (by simp)

@[simp] theorem jump_ground (hd : Head) (target : Word) (s : State) : (jump hd target s).ground = s.ground :=
  State.ground_congr rfl rfl rfl rfl

@[simp] theorem branch_ground (ik : Code) (hd : Head) (a b : Reg) (off : Word) (taken : Word → Word → Bool) (s : State) :
    (branch ik hd a b off taken s).ground = s.ground := issue_ground _ _ _ _ _ _ _ _ (by intro s; split <;> simp)

@[simp] theorem jumpLink_ground (ik : Code) (hd : Head) (d : Reg) (off : Word) (s : State) : (jumpLink ik hd d off s).ground = s.ground :=
  issue_ground _ _ _ _ _ _ _ _ (by simp)

@[simp] theorem jumpReg_ground (ik : Code) (hd : Head) (d a : Reg) (off : Word) (s : State) : (jumpReg ik hd d a off s).ground = s.ground :=
  issue_ground _ _ _ _ _ _ _ _ (by intro s; dsimp only; split <;> (try split) <;> simp)

@[simp] theorem loopPush_ground (ik : Code) (hd : Head) (off : BitVec 12) (count : Word) (s : State) :
    (loopPush ik hd off count s).ground = s.ground := by
  simp only [loopPush]
  repeat' split
  all_goals simp

@[simp] theorem stall_ground (s : State) : (stall s).ground = s.ground := by
  unfold stall
  split <;> simp

theorem withAccess_ground (a : Acc) (align : Nat) (va : Word) (k : Xlat → State → State) (s : State)
    (hk : ∀ x s, (k x s).ground = s.ground) : (withAccess a align va k s).ground = s.ground := by
  have hg := State.access_ground s (.instr s.cur) a align va
  unfold withAccess
  generalize s.access (.instr s.cur) a align va = p at hg ⊢
  rcases p with ⟨t, x | c | _⟩
  · exact (hk x t).trans hg
  · simpa using hg
  · simpa using hg

@[simp] theorem State.startLoad_ground (s : State) (id : HartId) (dst : LoadDst) (parts : List (Nat × Nat)) (long acq : Bool) :
    (s.startLoad id dst parts long acq).ground = s.ground := by
  simp only [State.startLoad, apply_ite State.ground, State.askAll_ground, ite_self]
  exact (foldl_ground _ _ _ (by simp)).trans (by simp)

@[simp] theorem loadX_ground (ik : Code) (hd : Head) (d a : Reg) (srcs : List RegRef) (w : BitVec 2) (sgn acq : Bool) (ea : State → Word) (s : State) :
    (loadX ik hd d a srcs w sgn acq ea s).ground = s.ground := by
  refine issue_ground _ _ _ _ _ _ _ _ fun s => ?_
  split
  · simp
  · refine withAccess_ground _ _ _ _ _ fun x s => ?_
    repeat' split
    all_goals simp

@[simp] theorem waitLock_ground (hd : Head) (k : Nat × Nat × Nat) (s : State) : (waitLock hd k s).ground = s.ground := by
  unfold waitLock
  split <;> simp

theorem lockedAccess_ground (hd : Head) (n : Nat) (ea : Word) (pa : Nat) (go : LockTurn → State → State) (s : State)
    (hgo : ∀ t s, (go t s).ground = s.ground) : (lockedAccess hd n ea pa go s).ground = s.ground := by
  unfold lockedAccess
  dsimp only
  split
  · simp
  · simp
  · split
    · simp
    · split
      · simp
      · rw [hgo]
        exact State.poolTurns_ground _ _ _ _ ‹_›

@[simp] theorem ldlGo_ground (ik : Code) (hd : Head) (d : Reg) (w : BitVec 2) (sgn : Bool) (ea : Word) (x : Xlat) (s : State) :
    (ldlGo ik hd d w sgn ea x s).ground = s.ground := by
  refine lockedAccess_ground _ _ _ _ _ _ fun t s => ?_
  cases t <;> simp

@[simp] theorem State.startStore_ground (s : State) (id : HartId) (parts : List (Nat × Nat × Word)) (rel : Bool) (unlock : Option (Nat × Nat × Nat)) (rep : Option (BitVec 256)) (long : Bool) :
    (s.startStore id parts rel unlock rep long).ground = s.ground := State.ground_congr rfl rfl rfl rfl

@[simp] theorem storeX_ground (ik : Code) (hd : Head) (d a : Reg) (srcs : List RegRef) (w : BitVec 2) (rel : Bool) (ea : State → Word) (s : State) :
    (storeX ik hd d a srcs w rel ea s).ground = s.ground := by
  refine issue_ground _ _ _ _ _ _ _ _ fun s => ?_
  split
  · simp
  · refine withAccess_ground _ _ _ _ _ fun x s => ?_
    repeat' split
    all_goals simp

@[simp] theorem stuGo_ground (ik : Code) (hd : Head) (d : Reg) (w : BitVec 2) (ea : Word) (x : Xlat) (s : State) :
    (stuGo ik hd d w ea x s).ground = s.ground := by
  unfold stuGo
  split <;> simp

@[simp] theorem State.relFence_ground (s : State) (scope : Nat) : (s.relFence scope).ground = s.ground := State.ground_congr rfl rfl rfl rfl

@[simp] theorem fence_ground (ik : Code) (hd : Head) (kind : Nat) (c : BitVec 3) (s : State) : (fence ik hd kind c s).ground = s.ground := by
  refine issue_ground _ _ _ _ _ _ _ _ fun s => ?_
  dsimp only
  repeat' split
  all_goals simp

@[simp] theorem vaultDirect_ground (ik : Code) (hd : Head) (act : Bool) (a : Reg) (s : State) : (vaultDirect ik hd act a s).ground = s.ground := by
  refine issue_ground _ _ _ _ _ _ _ _ fun s => ?_
  exact withAccess_ground _ _ _ _ _ (by simp)

@[simp] theorem State.takeLog_ground (s : State) (core : Nat) : (s.takeLog core).2.ground = s.ground := by
  unfold State.takeLog
  split <;> simp

theorem remote_ground (ik : Code) (hd : Head) (srcs dsts : List RegRef) (r w : Bool) (a : Reg) (n : Nat)
    (go : Msg → State → State) (kind : MsgKind) (o : BitVec 2) (s : State) (hgo : ∀ m s, (go m s).ground = s.ground) :
    (remote ik hd srcs dsts r w a n go kind o s).ground = s.ground := by
  refine issue_ground _ _ _ _ _ _ _ _ fun s => ?_
  split
  · simp
  · exact withAccess_ground _ _ _ _ _ (by simp [hgo])

@[simp] theorem State.pend_ground (s : State) (r : Reg) (core : Nat) (dev : BitVec 16) : (s.pend r core dev).ground = s.ground := by
  unfold State.pend
  split <;> simp

@[simp] theorem State.sendAsk_ground (s : State) (m : Msg) (acq : Bool) : (s.sendAsk m acq).ground = s.ground := by
  unfold State.sendAsk
  split <;> simp

@[simp] theorem ramo_ground (ik : Code) (hd : Head) (op : Nat) (d a : Reg) (w o : BitVec 2) (s : State) : (ramo ik hd op d a w o s).ground = s.ground :=
  remote_ground _ _ _ _ _ _ _ _ _ _ _ _ (by simp)

@[simp] theorem migrateHop_ground (ik : Code) (a b : Reg) (s : State) : (migrateHop ik a b s).ground = s.ground := by
  unfold migrateHop
  split
  · split
    · simp
    · simp [State.free]
  · simp

@[simp] theorem migrateThread_ground (ik : Code) (hd : Head) (d a b : Reg) (s : State) : (migrateThread ik hd d a b s).ground = s.ground := by
  simp only [migrateThread]
  repeat' split
  all_goals simp

@[simp] theorem ctxReturn_ground (ik : Code) (hd : Head) (s : State) : (ctxReturn ik hd s).ground = s.ground := by simp [ctxReturn]

@[simp] theorem entryWrite_ground (ik : Code) (hd : Head) (a : Reg) (act : Nat → State → State) (s : State) (hact : ∀ x0 s, (act x0 s).ground = s.ground) :
    (entryWrite ik hd a act s).ground = s.ground := by
  simp only [entryWrite]
  repeat' split
  all_goals simp [*]

@[simp] theorem stopBlock_ground (e : FetchStop) (s : State) : (stopBlock e s).ground = s.ground := by
  unfold stopBlock
  split <;> simp

theorem withBlock_ground (va : Word) (align words : Nat) (k : List Byte → State → State) (s : State)
    (hk : ∀ b s, (k b s).ground = s.ground) : (withBlock va align words k s).ground = s.ground := by
  have hg := State.blockRead_ground s (.instr s.cur) true va words
  unfold withBlock
  split
  · simp
  · split
    · simp
    · generalize s.blockRead (.instr s.cur) true va words = p at hg ⊢
      rcases p with ⟨t, e | b⟩
      · simpa using hg
      · exact (hk b t).trans hg

@[simp] theorem enterBusy_ground (n : Nat) (new : Option (Word × Word × Bool × Bool)) (s : State) : (enterBusy n new s).ground = s.ground :=
  State.ground_congr rfl rfl rfl rfl

@[simp] theorem withCounter_ground (v : Word) (k : CounterName → State → State) (s : State) (hk : ∀ x0 s, (k x0 s).ground = s.ground) :
    (withCounter v k s).ground = s.ground := by
  unfold withCounter
  split <;> simp [*]

@[simp] theorem State.startWait_ground (s : State) (n : CounterName) (name : Word) (target : BitVec 32) (reg : Option Reg) :
    (s.startWait n name target reg).ground = s.ground := by
  unfold State.startWait
  split <;> simp

@[simp] theorem State.setVoid_ground (s : State) (r : RegRef) : (s.setVoid r).ground = s.ground := by
  simp only [State.setVoid]
  repeat' split
  all_goals simp

@[simp] theorem raiseToken_ground (m : BitVec 8) (k : BitVec 3) (s : State) : (raiseToken m k s).ground = s.ground := by simp [raiseToken]

@[simp] theorem returnTrap_ground (hd : Head) (ik : Code) (s : State) : (returnTrap hd ik s).ground = s.ground := by
  simp only [returnTrap]
  repeat' split
  all_goals simp

@[simp] theorem exitUnit_ground (ik : Code) (hd : Head) (s : State) : (exitUnit ik hd s).ground = s.ground := by
  unfold exitUnit
  split
  · simp
  · exact issue_ground _ _ _ _ _ _ _ _ (by simp)

@[simp] theorem launchRecord_ground (ik : Code) (hd : Head) (d : Reg) (r : List Byte) (s : State) :
    (launchRecord ik hd d r s).ground = s.ground := by
  simp only [launchRecord]
  repeat' split
  all_goals simp

@[simp] theorem fenced_ground (scope : Nat) (k : State → State) (s : State) (hk : ∀  s, (k  s).ground = s.ground) :
    (fenced scope k s).ground = s.ground := by
  simp only [fenced]
  repeat' split
  all_goals simp [*]

@[simp] theorem State.bumpGen_ground (s : State) (c : InvCtl) : (s.bumpGen c).ground = s.ground := by
  unfold State.bumpGen
  split <;> simp

@[simp] theorem State.dropAnswers_ground (s : State) (id : HartId) (c : InvCtl) : (s.dropAnswers id c).ground = s.ground :=
  State.ground_congr rfl rfl rfl rfl

@[simp] theorem State.dropEntries_ground (s : State) (id : HartId) (c : InvCtl) : (s.dropEntries id c).ground = s.ground :=
  State.ground_congr rfl rfl rfl rfl

@[simp] theorem xcommitEnd_ground (ik : Code) (hd : Head) (d : Reg) (v : Word) (s : State) : (xcommitEnd ik hd d v s).ground = s.ground :=
  State.ground_congr rfl rfl rfl rfl

theorem vecIssueOwn_ground (ik : Code) (hd : Head) (legal : Bool) (own : Option (BitVec 8)) (mem : Bool) (xs vs dsts : List RegRef)
    (named : List Reg) (body : State → State) (s : State) (hb : ∀ s, (body s).ground = s.ground) :
    (vecIssueOwn ik hd legal own mem xs vs dsts named body s).ground = s.ground := by
  unfold vecIssueOwn
  dsimp only
  rw [issueOwn_ground]
  · split <;> simp
  · intro s
    repeat' split
    all_goals simp [hb]

@[simp] theorem vecIssue_ground (ik : Code) (hd : Head) (legal mem : Bool) (xs vs dsts : List RegRef) (named : List Reg) (body : State → State)
    (s : State) (hb : ∀ s, (body s).ground = s.ground) : (vecIssue ik hd legal mem xs vs dsts named body s).ground = s.ground :=
  vecIssueOwn_ground _ _ _ _ _ _ _ _ _ _ _ hb

@[simp] theorem addVcsr_ground (f : Flags) (s : State) : (addVcsr f s).ground = s.ground := State.ground_congr rfl rfl rfl rfl

@[simp] theorem State.wvec_ground (s : State) (r : Reg) (v : Nat) : (s.wvec r v).ground = s.ground := by
  unfold State.wvec
  split <;> simp

@[simp] theorem writeV_ground (ik : Code) (hd : Head) (d : Reg) (v : Nat) (f : Flags) (s : State) :
    (writeV ik hd d v f s).ground = s.ground := by simp [writeV]

@[simp] theorem vec2_ground (ik : Code) (hd : Head) (d a b : Reg) (t : BitVec 3) (legal : Bool) (f : FEnv → Nat → Nat → Nat × Flags) (s : State) :
    (vec2 ik hd d a b t legal f s).ground = s.ground := by simp [vec2]

@[simp] theorem vec3_ground (ik : Code) (hd : Head) (d a b : Reg) (t : BitVec 3) (legal : Bool) (f : FEnv → Nat → Nat → Nat → Nat × Flags) (s : State) :
    (vec3 ik hd d a b t legal f s).ground = s.ground := by simp [vec3]

@[simp] theorem vec1_ground (ik : Code) (hd : Head) (d a : Reg) (t : BitVec 3) (legal : Bool) (f : FEnv → Nat → Nat × Flags) (s : State) :
    (vec1 ik hd d a t legal f s).ground = s.ground := by simp [vec1]

@[simp] theorem vecAll1_ground (ik : Code) (hd : Head) (d a : Reg) (w : Nat) (legal : Bool) (f : FEnv → List Nat → List Nat × Flags) (s : State) :
    (vecAll1 ik hd d a w legal f s).ground = s.ground := by simp [vecAll1]

@[simp] theorem vecLoad_ground (ik : Code) (hd : Head) (dst : LoadDst) (acc : Acc) (align n : Nat) (vas : List Word) (s : State) :
    (vecLoad ik hd dst acc align n vas s).ground = s.ground := by
  simp only [vecLoad]
  repeat' split
  all_goals simp

@[simp] theorem vecStore_ground (ik : Code) (hd : Head) (align : Nat) (ps : List (Word × List (Nat × Nat × Word))) (s : State) :
    (vecStore ik hd align ps s).ground = s.ground := by
  have hg := State.accessAll_ground s (.instr s.cur) .store align (ps.map (·.1))
  unfold vecStore
  generalize s.accessAll (.instr s.cur) .store align (ps.map (·.1)) = p at hg ⊢
  rcases p with ⟨t, r⟩
  dsimp only
  repeat' split
  all_goals simpa using hg

@[simp] theorem vecAll2_ground (ik : Code) (hd : Head) (d a b : Reg) (w : Nat) (legal : Bool) (f : List Nat → List Nat → List Nat) (s : State) :
    (vecAll2 ik hd d a b w legal f s).ground = s.ground := by simp [vecAll2]

@[simp] theorem State.noteCopy_ground (s : State) (seq : Nat) : (s.noteCopy seq).ground = s.ground := by
  unfold State.noteCopy
  split <;> simp

@[simp] theorem rowRepairRequestEffect_ground (core b row : Nat) (s : State) : (rowRepairRequestEffect core b row s).ground = s.ground := by
  simp only [rowRepairRequestEffect]
  repeat' split
  all_goals simp

@[simp] theorem State.logBand_ground (s : State) (k layer band temp : Nat) : (s.logBand k layer band temp).ground = s.ground :=
  by simp [State.logBand]

@[simp] theorem State.sampleLayer_ground (s : State) (k layer temp : Nat) : (s.sampleLayer k layer temp).ground = s.ground := by
  simp only [State.sampleLayer]
  repeat' split
  all_goals simp

@[simp] theorem thermalSampleEffect_ground (k : Nat) (temps : BitVec 64) (s : State) : (thermalSampleEffect k temps s).ground = s.ground :=
  by simp [thermalSampleEffect]

@[simp] theorem lineLockTimeoutEffect_ground (core line : Nat) (s : State) : (lineLockTimeoutEffect core line s).ground = s.ground := by
  unfold lineLockTimeoutEffect
  split <;> simp

@[simp] theorem handlerWatchdogEffect_ground (id : HartId) (s : State) : (handlerWatchdogEffect id s).ground = s.ground :=
  by simp [handlerWatchdogEffect]

@[simp] theorem busyTimeoutEffect_ground (core n : Nat) (s : State) : (busyTimeoutEffect core n s).ground = s.ground := by
  unfold busyTimeoutEffect
  split <;> simp

@[simp] theorem mbxWaitTimeoutEffect_ground (id : HartId) (n : Nat) (s : State) : (mbxWaitTimeoutEffect id n s).ground = s.ground := by
  simp only [mbxWaitTimeoutEffect]
  repeat' split
  all_goals simp

@[simp] theorem priorityAgingEffect_ground (k l : Nat) (s : State) : (priorityAgingEffect k l s).ground = s.ground :=
  State.ground_congr rfl rfl rfl rfl

@[simp] theorem migrationDeadlineEffect_ground (id : HartId) (s : State) : (migrationDeadlineEffect id s).ground = s.ground := by
  simp only [migrationDeadlineEffect]
  repeat' split
  all_goals simp

@[simp] theorem safepointWatchdogEffect_ground (id : HartId) (s : State) : (safepointWatchdogEffect id s).ground = s.ground :=
  by simp [safepointWatchdogEffect]

@[simp] theorem errorEventEffect_ground (u : UnitId) (s : State) : (errorEventEffect u s).ground = s.ground :=
  State.ground_congr rfl rfl rfl rfl

@[simp] theorem unitRetireEffect_ground (u : UnitId) (s : State) : (unitRetireEffect u s).ground = s.ground := by
  unfold unitRetireEffect
  split <;> simp

@[simp] theorem State.modPort_ground (s : State) (p : Nat) (f : Port → Port) : (s.modPort p f).ground = s.ground :=
  State.ground_congr rfl rfl rfl rfl

@[simp] theorem linkDownEffect_ground (port : Nat) (s : State) : (linkDownEffect port s).ground = s.ground := by simp [linkDownEffect]

@[simp] theorem State.outsideWaits_ground (s : State) (src pa n : Nat) : (s.outsideWaits src pa n).ground = s.ground := by
  unfold State.outsideWaits
  split <;> simp

@[simp] theorem State.hostAnswer_ground (s : State) (src pa : Nat) (bs : List Byte) : (s.hostAnswer src pa bs).ground = s.ground :=
  State.ground_congr rfl rfl rfl rfl

theorem State.hostRead_ground (s t : State) (src pa n : Nat) (h : s.hostRead src pa n = some t) : t.ground = s.ground := by
  unfold State.hostRead State.unlessSame at h
  dsimp only at h
  repeat' split at h
  all_goals try (cases h <;> simp)
  obtain ⟨u, hu, rfl⟩ := Option.map_eq_some_iff.mp h
  simpa using State.poolTurns_ground _ _ _ _ hu

@[simp] theorem firmwareUpdateEffect_ground (f : FwImage) (s : State) : (firmwareUpdateEffect f s).ground = s.ground :=
  State.ground_congr rfl rfl rfl rfl

@[simp] theorem layerPowerGateEffect_ground (k layer : Nat) (s : State) : (layerPowerGateEffect k layer s).ground = s.ground :=
  by simp [layerPowerGateEffect]

@[simp] theorem jobReleaseEffect_ground (k j : Nat) (s : State) : (jobReleaseEffect k j s).ground = s.ground :=
  State.ground_congr rfl rfl rfl rfl

@[simp] theorem powerUngateEffect_ground (u : UnitId) (s : State) : (powerUngateEffect u s).ground = s.ground := by
  unfold powerUngateEffect
  split <;> simp

@[simp] theorem State.fetchedAll_ground (s : State) : (s.fetchedAll).ground = s.ground := by
  unfold State.fetchedAll
  split <;> simp

@[simp] theorem State.fetchMask_ground (s : State) (id : HartId) (pc : Word) (k : Code) : (s.fetchMask id pc k).1.ground = s.ground := by
  have hg := State.fetchParcels_ground s id (pc + BitVec.ofNat 64 k.len) 2
  unfold State.fetchMask
  split
  · rfl
  · generalize s.fetchParcels id (pc + BitVec.ofNat 64 k.len) 2 = p at hg ⊢
    rcases p with ⟨t, e | b⟩ <;> exact hg

@[simp] theorem State.noteCommit_ground (s : State) (id : HartId) : (s.noteCommit id).ground = s.ground := by
  simp only [State.noteCommit]
  repeat' split
  all_goals simp

@[simp] theorem State.noteIssue_ground (s : State) (id : HartId) (behind : List HartId) : (s.noteIssue id behind).ground = s.ground := by
  unfold State.noteIssue
  split <;> simp

@[simp] theorem State.aheadBytes_ground (s : State) (id : HartId) (ask : Bool) (va : Word) (n : Nat) : (s.aheadBytes id ask va n).ground = s.ground := by
  induction n generalizing s va with
  | zero => rfl
  | succ n ih =>
    have hg := State.check_ground s (.instr id) .fetch va
    unfold State.aheadBytes
    generalize s.check (.instr id) .fetch va = p at hg ⊢
    rcases p with ⟨t, x | c | _⟩
    · dsimp only at hg ⊢
      repeat' split
      all_goals first | exact hg | (simpa [ih] using hg) | skip
      rw [ih, State.modHart_ground]
      exact (State.poolTurns_ground _ _ _ _ ‹_›).trans hg
    · exact hg
    · exact hg

@[simp] theorem State.fetchAhead_ground (s : State) (id : HartId) (va : Word) (n : Nat) : (s.fetchAhead id va n).ground = s.ground := by
  simp only [State.fetchAhead]
  repeat' split
  all_goals simp

@[simp] theorem State.loadUnit_ground (s : State) (id : HartId) (num n : Nat) : (s.loadUnit id num n).ground = s.ground := by
  simp only [State.loadUnit]
  repeat' split
  all_goals simp

@[simp] theorem State.readEarly_ground (s : State) (who : Reader) (words : List Nat) : (s.readEarly who words).ground = s.ground :=
  State.ground_congr rfl rfl rfl rfl

@[simp] theorem State.readServed_ground (s : State) (who : Reader) (pa : Nat) : (s.readServed who pa).ground = s.ground := by
  unfold State.readServed
  split <;> simp

@[simp] theorem State.readPool_ground (s : State) (id : HartId) (f : Flight) (pa : Nat) : (s.readPool id f pa).ground = s.ground := by
  unfold State.readPool
  split
  · split
    · rw [State.readEarly_ground]
      exact State.poolTurns_ground _ _ _ _ ‹_›
    · rfl
  · rfl

@[simp] theorem State.readUnit_ground (s : State) (who : Reader) (pa : Nat) : (s.readUnit who pa).ground = s.ground := by
  simp only [State.readUnit]
  repeat' split
  all_goals simp

@[simp] theorem State.train_ground (s : State) (port : Nat) : (s.train port).ground = s.ground := State.ground_congr rfl rfl rfl rfl

@[simp] theorem State.readBack_ground (s : State) (r : ReadBack) : (s.readBack r).ground = s.ground := State.ground_congr rfl rfl rfl rfl

@[simp] theorem State.trailError_ground (s : State) (cl n : Nat) (r : Reg) (v : Word) : (s.trailError cl n r v).ground = s.ground :=
  State.ground_congr rfl rfl rfl rfl

end Sys2Proof.Machine

/-! PROOFS. Memory stays in canonical form (R132): what stores, rollbacks, tile loads and tapes write. -/

namespace Sys2Proof.Machine

/-- Every state that there is has its memory in canonical form. -/
def okAll (o : Option State) : Prop := ∀ t, o = some t → t.ground.ok

@[simp] theorem okAll_none : okAll none := fun _ h => absurd h (by simp)
@[simp] theorem okAll_some (t : State) : okAll (some t) ↔ t.ground.ok := by simp [okAll]
theorem okAll_of_ground {o : Option State} {s : State} (h : ∀ t, o = some t → t.ground = s.ground) (hs : s.ground.ok) : okAll o :=
  fun t ht => h t ht ▸ hs
theorem okAll_map {o : Option State} {f : State → State} (ho : okAll o) (hf : ∀ t, t.ground.ok → (f t).ground.ok) : okAll (o.map f) := by
  cases o with
  | none => simp
  | some t => simpa using hf t (ho t rfl)
theorem okAll_bind {o : Option State} {f : State → Option State} (ho : okAll o) (hf : ∀ t, t.ground.ok → okAll (f t)) : okAll (o.bind f) := by
  cases o with
  | none => simp
  | some t => exact hf t (ho t rfl)
theorem getD_ok {o : Option State} {s : State} (ho : okAll o) (hs : s.ground.ok) : (o.getD s).ground.ok := by
  cases o with
  | none => exact hs
  | some t => exact ho t rfl
theorem okAll_guarded {ready : Bool} {f : State → State} {s : State} (h : (f s).ground.ok) : okAll (guarded ready f s) := by
  unfold guarded; split <;> simp [h]
theorem okAll_unlessSame {s t : State} (h : t.ground.ok) : okAll (s.unlessSame t) := by
  unfold State.unlessSame; split <;> simp [h]
theorem okAll_firstOf {s : State} (fs : List (State → Option State)) (h : ∀ f ∈ fs, okAll (f s)) : okAll (firstOf fs s) := by
  induction fs with
  | nil => simp [firstOf]
  | cons f r ih =>
    rw [List.forall_mem_cons] at h
    unfold firstOf
    split
    case h_1 t ht => simpa using h.1 t ht
    case h_2 => exact ih h.2
theorem okAll_firstAt {α : Type} {s : State} (xs : List α) (f : α → State → Option State) (h : ∀ x, okAll (f x s)) : okAll (firstAt xs f s) := by
  induction xs with
  | nil => simp [firstAt]
  | cons x r ih =>
    unfold firstAt
    split
    case h_1 t ht => simpa using h x t ht
    case h_2 => exact ih
theorem okAll_findSome {α : Type} (xs : List α) (f : α → Option State) (h : ∀ x ∈ xs, okAll (f x)) : okAll (xs.findSome? f) := by
  intro t ht
  obtain ⟨x, hx, hf⟩ := List.exists_of_findSome?_eq_some ht
  exact h x hx t hf

@[simp] theorem okAll_poolTurns {s : State} (port : Nat) (lines : List Nat) (hs : s.ground.ok) : okAll (s.poolTurns port lines) :=
  okAll_of_ground (fun t h => s.poolTurns_ground t port lines h) hs

/-! ### Memory written, accepted and copied -/

@[simp] theorem State.writeBack_ok (s : State) (e : CkptEnt) (hs : s.ground.ok) : (s.writeBack e).ground.ok := by
  simp [State.writeBack, hs]

@[simp] theorem rollbackEffect_ok (ccb : Nat) (s : State) (hs : s.ground.ok) : (rollbackEffect ccb s).ground.ok := by
  simp only [rollbackEffect, State.modDev_ground]
  rw [foldl_ground _ _ _ (fun s k => by simp)]
  exact foldl_ok _ _ _ (fun s e h => foldl_ok _ _ _ (fun s c h => s.writeBack_ok c h) h) (by simpa using hs)

@[simp] theorem State.ckptNote_ok (s : State) (core line : Nat) (asid : BitVec 12) (hs : s.ground.ok) : (s.ckptNote core line asid).ground.ok := by
  simp only [State.ckptNote]
  repeat' split
  all_goals simp [hs]

@[simp] theorem State.acceptLine_ok (s : State) (core line : Nat) (bs : List (Nat × Byte)) (who : Writer) (hs : s.ground.ok) :
    (s.acceptLine core line bs who).ground.ok := by simp [State.acceptLine, hs]

theorem State.acceptLines_ok (s : State) (core : Nat) (ls : List (Nat × List (Nat × Byte))) (who : Writer) (hs : s.ground.ok) :
    okAll (s.acceptLines core ls who) := by
  induction ls generalizing s with
  | nil => simpa [State.acceptLines] using hs
  | cons l r ih =>
    unfold State.acceptLines
    split
    · exact ih _ (by simp [hs])
    · simp

theorem State.acceptBytes_ok (s : State) (port pa : Nat) (bs : List Byte) (who : Writer) (hs : s.ground.ok) :
    okAll (s.acceptBytes port pa bs who) := by
  unfold State.acceptBytes
  split
  · exact s.acceptLines_ok _ _ _ hs
  · exact okAll_map (okAll_poolTurns _ _ hs) (fun t h => t.writeMem_ok _ _ h)

theorem State.storeBytes_ok (s : State) (port pa : Nat) (bs : List Byte) (who : Writer) (hs : s.ground.ok) :
    okAll (s.storeBytes port pa bs who) := by
  unfold State.storeBytes
  split
  · simp
  · exact s.acceptBytes_ok _ _ _ _ hs

@[simp] theorem State.writeMore_ok (s : State) (port : Nat) (who : Writer) (ws : List (Nat × List Byte)) (hs : s.ground.ok) :
    (s.writeMore port who ws).1.ground.ok := by
  induction ws generalizing s with
  | nil => exact hs
  | cons w r ih =>
    unfold State.writeMore
    split
    case h_1 => exact hs
    case h_2 t ht => exact ih t (s.storeBytes_ok _ _ _ _ hs t ht)

@[simp] theorem State.looseMove_ok (s : State) (c : Cmd) (m : Nat × Nat × Nat × Nat) (hs : s.ground.ok) : (s.looseMove c m).ground.ok := by
  have h : ({ s with freeCtr := s.freeCtr + m.2.2.1 } : State).ground.ok := hs
  unfold State.looseMove
  dsimp only
  split
  · simp [hs]
  · exact State.writeMem_ok _ _ _ h
  · exact h

@[simp] theorem State.looseRows_ok (s : State) (f : Flight) (n : Nat) (hs : s.ground.ok) : (s.looseRows f n).ground.ok :=
  foldl_ok _ _ _ (fun s m h => s.looseMove_ok f.cmd m h) hs

@[simp] theorem State.stopTile_ok (s : State) (id : HartId) (f : Flight) (g : Seg) (why : SegStop × Nat) (hs : s.ground.ok) :
    (s.stopTile id f g why).ground.ok := by
  simp [State.stopTile, hs]

@[simp] theorem State.tileMove_ok (s : State) (id : HartId) (c : Cmd) (m : Nat × Nat × Nat × Nat) (hs : s.ground.ok) :
    (s.tileMove id c m).ground.ok := by
  unfold State.tileMove
  dsimp only
  split <;> simp [hs]

@[simp] theorem State.moveSegment_ok (s : State) (id : HartId) (f : Flight) (g : Seg) (rest : List Seg) (hs : s.ground.ok) :
    (s.moveSegment id f g rest).ground.ok := by
  unfold State.moveSegment
  dsimp only
  split
  · simp [hs]
  · simp only [State.modFlight_ground]
    exact foldl_ok _ _ _ (fun s m h => s.tileMove_ok id f.cmd m h) (by simpa using hs)

@[simp] theorem tileLoadSegmentEffect_ok (id : HartId) (seq : Nat) (s : State) (hs : s.ground.ok) :
    (tileLoadSegmentEffect id seq s).ground.ok := by
  unfold tileLoadSegmentEffect
  split
  · exact hs
  · rename_i f g rest _
    have ht := getD_ok (okAll_poolTurns tilePort (moveLines f.cmd (f.nextMoves g)) hs) hs
    dsimp only
    repeat' split
    all_goals simp [ht]

/-- What readies runs leaves memory as it is, in the state that waits and in the one that goes on. -/
theorem State.readyRuns_ok (s : State) (id : HartId) (seq port : Nat) (rs : List Run) (hs : s.ground.ok) :
    (s.readyRuns id seq port rs).1.ground.ok ∧ okAll (s.readyRuns id seq port rs).2 := by
  refine ⟨by simpa using hs, ?_⟩
  unfold State.readyRuns
  dsimp only
  split
  · simp
  · exact okAll_poolTurns _ _ (by simpa using hs)

@[simp] theorem State.placeTape_ok (s : State) (id : HartId) (c : Cmd) (tape : Nat) (b : List Byte) (hs : s.ground.ok) :
    (s.placeTape id c tape b).1.ground.ok := by
  unfold State.placeTape
  dsimp only
  split
  · simpa using hs
  · split
    · simpa using hs
    · have hv := s.startRuns_ground id c .engOwnR 0 [⟨c.va + 64, 32 * (readHdr b).nrec, 0⟩]
      split <;> (rename_i h; rw [h] at hv; simp [show Ground.ok _ from hv ▸ hs])

@[simp] theorem State.startLoadTape_ok (s : State) (id : HartId) (c : Cmd) (tape : Nat) (hs : s.ground.ok) :
    (s.startLoadTape id c tape).1.ground.ok := by
  have hu := (s.startRuns_ground id c .engOwnR 0 [⟨c.va, 64, 0⟩]).symm ▸ hs
  unfold State.startLoadTape
  dsimp only
  split
  · exact hs
  split
  · exact hs
  split
  · exact hs
  split
  · simp_all
  · simp_all
  · rename_i u h hs'
    rw [hs'] at hu
    have hv := u.readyRuns_ok id c.seq (agentPort c.home) h.src (by simpa [hs'] using hu)
    split
    · rename_i hr
      rw [hr] at hv
      exact hv.1
    · rename_i v hr
      rw [hr] at hv
      have hv2 : v.ground.ok := hv.2 v rfl
      split <;> simp [hv2]

@[simp] theorem State.startCmd_ok (s : State) (id : HartId) (c : Cmd) (hs : s.ground.ok) : (s.startCmd id c).1.ground.ok := by
  unfold State.startCmd
  split <;> simp [hs]

theorem State.queueLeave_ok (s : State) (id : HartId) (q : Nat) (hs : s.ground.ok) : okAll (s.queueLeave id q) := by
  unfold State.queueLeave
  dsimp only
  split
  · simp
  · rename_i c _ _
    have ht := s.startCmd_ok id c hs
    split
    · simp
    split
    · simp [hs]
    split
    · rename_i t h; rw [h] at ht; exact okAll_unlessSame ht
    · rename_i t f h; rw [h] at ht; simp [ht]
    · rename_i t f h
      rw [h] at ht
      simp only [okAll_some]
      split
      · split <;> simp [ht]
      · simp [ht]

end Sys2Proof.Machine

/-! PROOFS. Memory stays in canonical form: the ends of engine commands, and registers written by number. -/

namespace Sys2Proof.Machine

/-- The state that the end of a command leaves has its memory in canonical form. -/
def Ended.ok (r : Ended) : Prop := match r with | .done s _ => s.ground.ok | .moved s => s.ground.ok | .wait s => s.ground.ok

@[simp] theorem Ended.ok_done (s : State) (x : Option TokFault) : (Ended.done s x).ok ↔ s.ground.ok := Iff.rfl
@[simp] theorem Ended.ok_moved (s : State) : (Ended.moved s).ok ↔ s.ground.ok := Iff.rfl
@[simp] theorem Ended.ok_wait (s : State) : (Ended.wait s).ok ↔ s.ground.ok := Iff.rfl

theorem State.writeOut_ok (s : State) (id : HartId) (f : Flight) (hs : s.ground.ok) : (s.writeOut id f).ok := by
  simp only [State.writeOut]
  repeat' split
  all_goals simp [hs]

theorem State.beginWrites_ok (s : State) (id : HartId) (f : Flight) (bs : List Byte) (bad : Option TokFault) (hs : s.ground.ok) :
    (s.beginWrites id f bs bad).ok := s.writeOut_ok _ _ hs

theorem State.withPool_ok (s : State) (id : HartId) (f : Flight) (go : List Byte → State → State × Option TokFault) (hs : s.ground.ok)
    (hgo : ∀ bs t, t.ground.ok → (go bs t).1.ground.ok) : (s.withPool id f go).ok := by
  obtain ⟨h1, h2⟩ := s.readyRuns_ok id f.cmd.seq matrixPort f.src hs
  unfold State.withPool
  split
  · rename_i h; rw [h] at h1; exact h1
  · rename_i t h
    rw [h] at h2
    have ht := h2 t rfl
    split
    · exact ht
    · exact hgo _ _ ht

theorem State.matrixDone_ok (s : State) (id : HartId) (f : Flight) (n : Nat) (hs : s.ground.ok) : (s.matrixDone id f n).ok := by
  unfold State.matrixDone
  dsimp only
  split
  · exact hs
  split
  · exact hs
  split
  · exact s.withPool_ok id f _ hs (fun bs t ht => by simpa using ht)
  · exact s.withPool_ok id f _ hs (fun bs t ht => by simpa using ht)
  · simpa using hs
  · simpa using hs
  · simpa using hs
  · exact State.beginWrites_ok _ _ _ _ _ (by simpa using hs)
  · exact State.beginWrites_ok _ _ _ _ _ (by simpa using hs)
  · exact hs

theorem State.saveDone_ok (s : State) (id : HartId) (f : Flight) (tape : Nat) (hs : s.ground.ok) : (s.saveDone id f tape).ok := by
  unfold State.saveDone
  dsimp only
  split
  · exact hs
  · exact s.beginWrites_ok _ _ _ _ hs

theorem State.loadDone_ok (s : State) (id : HartId) (f : Flight) (tape : Nat) (hs : s.ground.ok) : (s.loadDone id f tape).ok := by
  obtain ⟨h1, h2⟩ := s.readyRuns_ok id f.cmd.seq (agentPort f.cmd.home) f.src hs
  unfold State.loadDone
  dsimp only
  split
  · rename_i h; rw [h] at h1; exact h1
  · rename_i u h
    rw [h] at h2
    have hu := h2 u rfl
    repeat' split
    all_goals simp [hu]

theorem State.matrixSignal_ok (s : State) (id : HartId) (f : Flight) (n : Nat) (hs : s.ground.ok) : (s.matrixSignal id f n).ok := by
  unfold State.matrixSignal
  dsimp only
  split
  · simpa using hs
  · simpa using hs
  · split
    · simpa using hs
    · exact s.matrixDone_ok _ _ _ hs
  · split
    · split
      · exact hs
      · rename_i t ht
        have h := t.matrixDone_ok id f n (s.takeTurn_ground t _ n ht ▸ hs)
        split <;> simp_all
    · exact s.matrixDone_ok _ _ _ hs

theorem State.lastEffect_ok (s : State) (id : HartId) (f : Flight) (hs : s.ground.ok) : (s.lastEffect id f).ok := by
  unfold State.lastEffect
  split
  · exact s.writeOut_ok _ _ hs
  · split
    · split <;> simp [hs]
    · split
      · exact s.saveDone_ok _ _ _ hs
      · exact s.loadDone_ok _ _ _ hs
      · exact s.matrixSignal_ok _ _ _ hs
      · exact hs

theorem State.tokenSignal_ok (s : State) (id : HartId) (seq : Nat) (hs : s.ground.ok) : okAll (s.tokenSignal id seq) := by
  unfold State.tokenSignal
  split
  · simp
  · rename_i f _
    have h := s.lastEffect_ok id f hs
    split
    · simp
    split
    · rename_i he; rw [he] at h; simpa using h
    · rename_i he; rw [he] at h; simpa using h
    · rename_i he; rw [he] at h; exact okAll_unlessSame h

theorem State.htbaseSet_ok (s : State) (core : Nat) (v : Word) (hs : s.ground.ok) : okAll (s.htbaseSet core v) := by
  unfold State.htbaseSet
  dsimp only
  split
  · simpa using hs
  · exact State.storeBytes_ok _ _ _ _ _ (by simpa using hs)

/-- What a write of a register leaves has its memory in canonical form. -/
def WRes.ok' (r : WRes) : Prop := ∀ t, r = .ok t → t.ground.ok

@[simp] theorem WRes.ok'_ok (s : State) : (WRes.ok s).ok' ↔ s.ground.ok := by simp [WRes.ok']
@[simp] theorem WRes.ok'_trap : WRes.trap.ok' := by simp [WRes.ok']
@[simp] theorem WRes.ok'_wait : WRes.wait.ok' := by simp [WRes.ok']

@[simp] theorem State.hartCsr_ok (s : State) (id : HartId) (f : HartCsrs → HartCsrs) (hs : s.ground.ok) : (s.hartCsr id f).ok' := by
  simpa [State.hartCsr] using hs

@[simp] theorem atLevel_ok (priv least : Nat) (s t : State) (hs : s.ground.ok) (ht : t.ground.ok) : (atLevel priv least s t).ok' := by
  unfold atLevel; split <;> simpa

@[simp] theorem atLevelTrap_ok (priv least : Nat) (t : State) (ht : t.ground.ok) : (atLevelTrap priv least t).ok' := by
  unfold atLevelTrap; split <;> simp [ht]

theorem WRes.ok'_ite {c : Prop} [Decidable c] {a b : WRes} (ha : a.ok') (hb : b.ok') : (if c then a else b).ok' := by
  split <;> assumption

theorem State.csrWrite_ok (s : State) (id : HartId) (priv n : Nat) (v : Word) (hs : s.ground.ok) : (s.csrWrite id priv n v).ok' := by
  unfold State.csrWrite
  dsimp only
  repeat' refine WRes.ok'_ite ?_ ?_
  all_goals try simp [hs]
  split
  · simpa using s.htbaseSet_ok id.home v hs _ ‹_›
  · simp

end Sys2Proof.Machine

/-! PROOFS. Memory stays in canonical form: the store buffer, the write buffers, and the requests that cores serve. -/

namespace Sys2Proof.Machine

/-! ### Registers written by address, the store buffer and the write buffers -/

@[simp] theorem State.ground_bad (s : State) (b : List Nat) : ({ s with bad := b } : State).ground = s.ground := rfl

theorem State.mmioSet_ok (s : State) (r : MmioReg) (v : Word) (hs : s.ground.ok) : (s.mmioSet r v).ok' := by
  unfold State.mmioSet
  split
  case h_1 => exact s.csrWrite_ok _ _ _ _ hs
  case h_2 => split <;> simp [hs]
  all_goals simp [hs]

theorem State.mmioStore_ok (s : State) (pa n : Nat) (v : Word) (hs : s.ground.ok) : (s.mmioStore pa n v).ok' := by
  unfold State.mmioStore
  split
  · simpa using hs
  · exact s.mmioSet_ok _ _ hs

theorem State.storePart_ok (s : State) (id : HartId) (e : SbEnt) (p : Nat × Nat × Word) (hs : s.ground.ok) : okAll (s.storePart id e p) := by
  unfold State.storePart
  split
  · simp
  split
  · simp [hs]
  split
  · have h := s.mmioStore_ok p.1 p.2.1 p.2.2 hs
    split
    · rename_i t ht; simpa using h t ht
    · simpa using hs
    · simp
  · exact s.storeBytes_ok _ _ _ _ hs

theorem State.storeParts_ok (s : State) (id : HartId) (e : SbEnt) (ps : List (Nat × Nat × Word)) (hs : s.ground.ok) :
    okAll (s.storeParts id e ps) := by
  induction ps generalizing s with
  | nil => simpa [State.storeParts] using hs
  | cons p r ih =>
    unfold State.storeParts
    split
    · simp
    · rename_i t ht; exact ih t (s.storePart_ok id e p hs t ht)

theorem State.storeHead_ok (s : State) (id : HartId) (hs : s.ground.ok) : okAll (s.storeHead id) := by
  unfold State.storeHead
  split
  · simp
  split
  · simp
  · refine okAll_map (s.storeParts_ok _ _ _ hs) (fun t ht => ?_)
    dsimp only
    split <;> simp [ht]

@[simp] theorem State.storeUnit_ok (s : State) (id : HartId) (n : Nat) (hs : s.ground.ok) : (s.storeUnit id n).ground.ok := by
  unfold State.storeUnit
  split
  · exact hs
  split
  · exact hs
  split
  · exact hs
  split
  · exact hs
  · rename_i t ht; simpa using s.storeParts_ok _ _ _ hs t ht

@[simp] theorem State.drainLine_ok (s : State) (core n : Nat) (hs : s.ground.ok) : (s.drainLine core n).ground.ok := by
  unfold State.drainLine
  split
  · exact hs
  · simp only [State.closeUnless_ground, State.ground_bad]
    exact foldl_ok _ _ _ (fun s b h => s.writeMem_ok _ _ h) (by simpa using hs)

theorem State.drain_ok (s : State) (core n : Nat) (hs : s.ground.ok) : okAll (s.drain core n) := by
  simp only [State.drain]
  repeat' split
  all_goals simp [hs]

theorem okAll_bankEvents (core b : Nat) (s : State) (hs : s.ground.ok) : okAll (firstOf (bankEvents core b) s) := by
  refine okAll_firstOf _ ?_
  simp only [bankEvents, List.forall_mem_cons]
  refine ⟨okAll_guarded ?_, okAll_guarded ?_, okAll_guarded ?_, okAll_guarded ?_, okAll_guarded ?_, okAll_guarded ?_, okAll_guarded ?_, by simp⟩
  all_goals simp [hs]

theorem vaultEvents_ok (core : Nat) (s : State) (hs : s.ground.ok) : okAll (vaultEvents core s) := by
  have h := okAll_firstAt ((s.vault core).banks.map (·.1)) (fun b => firstOf (bankEvents core b)) (fun b => okAll_bankEvents core b s hs)
  unfold vaultEvents
  split
  · rename_i t ht; simpa using h t ht
  · exact okAll_firstAt _ _ (fun n => s.drain_ok core n hs)

/-! ### Requests in the arrival queue -/

theorem State.amoAt_ok (s : State) (port pa op n b exp : Nat) (who : Writer) (p : Nat × State) (h : s.amoAt port pa op n b exp who = some p)
    (hs : s.ground.ok) : p.2.ground.ok := by
  unfold State.amoAt at h
  dsimp only at h
  split at h
  · cases h; exact hs
  · obtain ⟨t, ht, rfl⟩ := Option.map_eq_some_iff.mp h
    exact s.acceptBytes_ok _ _ _ _ hs t ht

/-- The state that a service leaves has its memory in canonical form. -/
def Served.ok (r : Served) : Prop := r.state.ground.ok

@[simp] theorem Served.ok_done (s : State) : (Served.done s).ok ↔ s.ground.ok := Iff.rfl
@[simp] theorem Served.ok_wait (s : State) : (Served.wait s).ok ↔ s.ground.ok := Iff.rfl

theorem orWait_ok {s : State} {o : Option State} (hs : s.ground.ok) (ho : okAll o) : (orWait s o).ok := by
  unfold orWait
  split
  · exact ho _ rfl
  · exact hs

theorem State.serveHeld_ok (s : State) (core : Nat) (k : Msg → Bool) (f : Msg → State → Served) (hf : ∀ m t, t.ground.ok → (f m t).ok)
    (hs : s.ground.ok) : okAll (s.serveHeld core k f) := by
  refine okAll_findSome _ _ (fun m _ => ?_)
  have h := hf m s hs
  split
  · split
    · rename_i he; rw [he] at h; simpa using h
    · simp
  · simp

theorem State.serve_ok (s : State) (core : Nat) (k : Msg → Bool) (f : Msg → State → Served) (hf : ∀ m t, t.ground.ok → (f m t).ok)
    (hs : s.ground.ok) : okAll (s.serve core k f) := by
  unfold State.serve
  split
  · rename_i t ht; simpa using s.serveHeld_ok core k f hf hs t ht
  · intro t ht
    obtain ⟨p, -, rfl⟩ := Option.map_eq_some_iff.mp ht
    have h := hf p.2 (s.leave core p.1) (by simpa using hs)
    split <;> (rename_i he; rw [he] at h; simpa using h)

theorem okAll_remoteBad {s : State} (core : Nat) (m : Msg) (hs : s.ground.ok) : okAll (s.remoteBad core m) :=
  okAll_of_ground (fun t h => s.remoteBad_ground t core m h) hs

theorem withRemoteRead_ok (core : Nat) (go : Reading → State → Option State) (m : Msg) (s : State) (hgo : ∀ r t, t.ground.ok → okAll (go r t))
    (hs : s.ground.ok) : (withRemoteRead core go m s).ok := by
  unfold withRemoteRead
  dsimp only
  split
  · exact okAll_remoteBad core m hs _ ‹_›
  split
  · simpa using hs
  split
  · simpa using hs
  · exact orWait_ok (by simpa using hs) (hgo _ _ (by simpa using hs))

theorem serveRload_ok (core : Nat) (m : Msg) (s : State) (hs : s.ground.ok) : (serveRload core m s).ok :=
  withRemoteRead_ok core _ m s (fun r t ht => by simpa using ht) hs

theorem serveRstore_ok (core : Nat) (m : Msg) (s : State) (hs : s.ground.ok) : (serveRstore core m s).ok := by
  unfold serveRstore
  split
  · exact okAll_remoteBad core m hs _ ‹_›
  · exact orWait_ok hs (okAll_map (s.storeBytes_ok _ _ _ _ hs) (fun t ht => by simpa using ht))

theorem serveRamo_ok (core : Nat) (m : Msg) (s : State) (hs : s.ground.ok) : (serveRamo core m s).ok := by
  refine withRemoteRead_ok core _ m s (fun r t ht u hu => ?_) hs
  obtain ⟨p, hp, rfl⟩ := Option.map_eq_some_iff.mp hu
  simpa using t.amoAt_ok _ _ _ _ _ _ _ p hp ht

theorem serveMbxadd_ok (core : Nat) (m : Msg) (s : State) (hs : s.ground.ok) : (serveMbxadd core m s).ok := by
  simp only [serveMbxadd]
  split <;> simp [hs]

theorem serveMbxwatch_ok (core : Nat) (m : Msg) (s : State) (hs : s.ground.ok) : (serveMbxwatch core m s).ok := by
  simp only [serveMbxwatch, Served.ok_done]
  repeat' split
  all_goals simp [hs]

theorem serveCall_ok (core : Nat) (m : Msg) (s : State) (hs : s.ground.ok) : (serveCall core m s).ok := by
  simp only [serveCall, Served.ok_done]
  repeat' split
  all_goals simp [hs]

theorem State.storeRuns_ok (s : State) (port : Nat) (who : Writer) (ws : List (Nat × List Byte)) (hs : s.ground.ok) :
    okAll (s.storeRuns port who ws) := by
  induction ws generalizing s with
  | nil => simpa [State.storeRuns] using hs
  | cons w r ih => exact okAll_bind (s.storeBytes_ok _ _ _ _ hs) ih

theorem serveChunk_ok (core : Nat) (m : Msg) (s : State) (hs : s.ground.ok) : (serveChunk core m s).ok := by
  unfold serveChunk
  split
  · simpa using hs
  · exact orWait_ok hs (okAll_map (s.storeRuns_ok _ _ _ hs) (fun t ht => by simpa using ht))

theorem State.commitCells_ok (s : State) (core : Nat) (bs : List Host.Cell) (who : Writer) (hs : s.ground.ok) : okAll (s.commitCells core bs who) := by
  unfold State.commitCells
  refine okAll_map (State.acceptLines_ok _ _ _ _ (by simpa using hs)) (fun t ht => ?_)
  simpa using ht

theorem serveRepLock_ok (core : Nat) (m : Msg) (s : State) (hs : s.ground.ok) : (serveRepLock core m s).ok := by
  simpa [serveRepLock] using hs

theorem serveRepData_ok (core : Nat) (m : Msg) (s : State) (hs : s.ground.ok) : (serveRepData core m s).ok := by
  unfold serveRepData
  split
  · exact orWait_ok hs (okAll_map (s.commitCells_ok _ _ _ hs) (fun t ht => by simpa using ht))
  · simpa using hs

theorem serveXactLock_ok (core : Nat) (m : Msg) (s : State) (hs : s.ground.ok) : (serveXactLock core m s).ok := by
  simp only [serveXactLock]
  split <;> simp [hs]

theorem serveXactData_ok (core : Nat) (m : Msg) (s : State) (hs : s.ground.ok) : (serveXactData core m s).ok :=
  orWait_ok hs (okAll_map (s.commitCells_ok _ _ _ hs) (fun t ht => by simpa using ht))

theorem serveXactUnlock_ok (core : Nat) (m : Msg) (s : State) (hs : s.ground.ok) : (serveXactUnlock core m s).ok := by
  simp only [serveXactUnlock, Served.ok_done]
  refine foldl_ok _ _ _ (fun s l h => ?_) hs
  repeat' split
  all_goals simp [h]

theorem callEvent_ok (core : Nat) (k : MsgKind) (s : State) (hs : s.ground.ok) : okAll (callEvent core k s) :=
  s.serve_ok _ _ _ (serveCall_ok core) hs

theorem State.deliver_ok (s : State) (core : Nat) (m : Msg) (pa : Nat) (bs : List Byte) (hs : s.ground.ok) : okAll (s.deliver core m pa bs) :=
  okAll_map (s.storeBytes_ok _ _ _ _ hs) (fun t ht => by simpa using ht)

theorem State.deliverAll_ok (s : State) (core : Nat) (m : Msg) (es : List (Nat × List Byte)) (hs : s.ground.ok) :
    okAll (s.deliverAll core m es) := by
  induction es generalizing s with
  | nil => simpa [State.deliverAll] using hs
  | cons e r ih =>
    unfold State.deliverAll
    split
    · simp
    · rename_i t ht; exact ih t (s.deliver_ok _ _ _ _ hs t ht)

/-- The state that a step of a copy leaves, where it leaves one, has its memory in canonical form. -/
def CopyStep.ok (r : CopyStep) : Prop := match r with | .moved s _ _ => s.ground.ok | .refused _ _ => True | .wait s => s.ground.ok

theorem State.copyStep_ok (s : State) (core : Nat) (m : Msg) (hs : s.ground.ok) : (s.copyStep core m).ok := by
  have hw (who : Reader) (ls : List Nat) (ps : List (Nat × Nat)) : ((s.onlyReads core who ls).askAll who ps).ground.ok := by simpa using hs
  unfold State.copyStep
  extract_lets n es far b srcs t rest src u vals old
  have ht : t.ground.ok := hw _ _ _
  have hsrc : src.ground.ok := (t.dropReads_ground core (.msg m.id)).symm ▸ ht
  clear_value n es far b srcs t rest src
  have hu : u.ground.ok := hsrc
  clear_value u vals old
  split
  · trivial
  split
  · exact ht
  split
  · trivial
  split
  · exact ht
  · rename_i v hv
    have hv := okAll_poolTurns _ _ hu v hv
    split
    · simpa [CopyStep.ok] using hv
    split
    · exact ht
    · rename_i x hx; exact v.deliverAll_ok _ _ _ hv x hx

theorem State.copyEvent_ok (s : State) (core : Nat) (m : Msg) (hs : s.ground.ok) : okAll (s.copyEvent core m) := by
  have h := s.copyStep_ok core m hs
  unfold State.copyEvent
  split
  · rename_i he; rw [he] at h
    have h : Ground.ok _ := h
    split <;> simp [h]
  · dsimp only
    split <;> simp [hs]
  · rename_i he; rw [he] at h
    exact okAll_unlessSame h

theorem State.copyreq_ok (s : State) (core : Nat) (hs : s.ground.ok) : okAll (s.copyreq core) := by
  unfold State.copyreq
  split
  · rename_i t ht; simpa using okAll_findSome _ _ (fun m _ => s.copyEvent_ok core m hs) t ht
  · intro t ht
    obtain ⟨p, -, rfl⟩ := Option.map_eq_some_iff.mp ht
    have h : ((s.leave core p.1).hold core p.2).ground.ok := by simpa using hs
    exact getD_ok (State.copyEvent_ok _ _ _ h) h

theorem State.vpjobComplete_ok (s : State) (core : Nat) (hs : s.ground.ok) : okAll (s.vpjobComplete core) := by
  refine okAll_findSome _ _ (fun n _ => ?_)
  dsimp only
  split
  · simp
  · repeat' split
    all_goals simp [hs]

theorem State.entryWritten_ok (s : State) (core n : Nat) (hs : s.ground.ok) : okAll (s.entryWritten core n) := by
  unfold State.entryWritten
  dsimp only
  split
  · exact okAll_map (s.storeBytes_ok _ _ _ _ hs) (fun t ht => by simpa using ht)
  · simp

/-- Induction over a recursion on a list, for any bodies of its two cases: the equations of `State.ringWrite` itself make the kernel
compute an address, and so its recursion is entered here with its bodies as variables. -/
theorem brecOn_induction (Q : (State → Nat → Option State) → Prop)
    (h1 : State → Nat → List.below (α := List Byte) (motive := fun _ => State → Nat → Option State) [] → Option State)
    (h2 : State → Nat → (e : List Byte) → (r : List (List Byte)) → List.below (motive := fun _ => State → Nat → Option State) (e :: r) → Option State)
    (hnil : ∀ b, Q (fun s n => h1 s n b)) (hcons : ∀ e r b, Q b.1 → Q (fun s n => h2 s n e r b)) (l : List (List Byte)) :
    Q (List.brecOn (motive := fun _ => State → Nat → Option State) l (fun es f s n =>
      (match (motive := (es : List (List Byte)) → List.below (motive := fun _ => State → Nat → Option State) es → Option State) es with
        | [] => h1 s n
        | e :: r => h2 s n e r) f)) := by
  induction l with
  | nil => exact hnil _
  | cons e r ih => exact hcons e r _ ih

/-- The function leaves memory in its canonical form. -/
def KeepsOk (f : State → Nat → Option State) : Prop := ∀ s n, s.ground.ok → okAll (f s n)

theorem State.ringWrite_ok (s : State) (core idx : Nat) (es : List (List Byte)) (hs : s.ground.ok) : okAll (s.ringWrite core idx es) := by
  delta State.ringWrite
  delta State.ringWrite._f
  refine brecOn_induction KeepsOk _ _ ?_ ?_ es s idx hs
  · exact fun b s n hs => (okAll_some s).mpr hs
  · intro e r b ih s n hs
    dsimp only
    split
    · simp
    · rename_i t ht
      exact ih t _ (s.storeBytes_ok _ _ _ _ hs t ht)

theorem State.arrive_ok (s : State) (core : Nat) (m : Msg) (hs : s.ground.ok) : okAll (s.arrive core m) := by
  unfold State.arrive
  dsimp only
  split
  · simpa using hs
  split
  · exact okAll_map (s.ringWrite_ok _ _ _ hs) (fun t ht => by simpa using ht)
  · simpa using hs

theorem State.messageArrives_ok (s : State) (n : Nat) (hs : s.ground.ok) : okAll (s.messageArrives n) := by
  unfold State.messageArrives
  dsimp only
  split
  · simp
  split
  · simp
  split
  · simpa using hs
  split
  · simpa using hs
  · exact State.arrive_ok _ _ _ (by simpa using hs)

theorem netEvent_ok (n : Nat) (s : State) (hs : s.ground.ok) : okAll (netEvent n s) := by
  unfold netEvent
  split
  · simp
  split
  · exact okAll_guarded (by simpa using hs)
  · exact s.messageArrives_ok _ hs

theorem arrivalEvents_ok (core : Nat) (s : State) (hs : s.ground.ok) : okAll (firstOf (arrivalEvents core) s) := by
  refine okAll_firstOf _ ?_
  simp only [arrivalEvents, List.forall_mem_cons, List.not_mem_nil, false_imp_iff, implies_true, and_true]
  exact ⟨s.serve_ok _ _ _ (serveRload_ok core) hs, s.serve_ok _ _ _ (serveRstore_ok core) hs, s.serve_ok _ _ _ (serveRamo_ok core) hs,
    s.serve_ok _ _ _ (serveMbxadd_ok core) hs, s.serve_ok _ _ _ (serveMbxwatch_ok core) hs, callEvent_ok _ _ _ hs, callEvent_ok _ _ _ hs,
    s.copyreq_ok _ hs, s.serve_ok _ _ _ (serveChunk_ok core) hs, s.serve_ok _ _ _ (serveRepLock_ok core) hs,
    s.serve_ok _ _ _ (serveRepData_ok core) hs, s.serve_ok _ _ _ (serveXactLock_ok core) hs, s.serve_ok _ _ _ (serveXactData_ok core) hs,
    s.serve_ok _ _ _ (serveXactUnlock_ok core) hs, okAll_of_ground (fun t h => s.vpjob_ground t core h) hs, s.vpjobComplete_ok _ hs,
    okAll_firstAt _ _ (fun n => s.entryWritten_ok core n hs)⟩

end Sys2Proof.Machine

/-! PROOFS. Memory stays in canonical form: units saved and resumed, and the events that happen by themselves. -/

namespace Sys2Proof.Machine

/-! ### Units saved and resumed -/

/-- (The definition is entered as a function: at its arguments the kernel would compute the address of the area.) -/
@[simp] theorem State.spillBytes_ok (s : State) (ccb cl n : Nat) (hs : s.ground.ok) : (s.spillBytes ccb cl n).ground.ok := by
  suffices h : ∀ f, f = State.spillBytes → (f s ccb cl n).ground.ok from h _ rfl
  delta State.spillBytes
  rintro _ rfl
  beta_reduce
  split
  · exact hs
  · extract_lets a b
    refine State.writeMem_ok _ _ _ ?_
    simpa [b] using hs

@[simp] theorem State.spillImages_ok (s : State) (cl : Nat) (keep : List (Option Nat)) (hs : s.ground.ok) : (s.spillImages cl keep).ground.ok := by
  simp only [State.spillImages]
  rw [foldl_ground _ _ _ (fun s v => by simp), State.modCluster_ground]
  exact foldl_ok _ _ _ (fun s c h => s.spillBytes_ok _ _ _ h) hs

@[simp] theorem State.spillExcess_ok (s : State) (cl : Nat) (hs : s.ground.ok) : (s.spillExcess cl).ground.ok := by
  simp only [State.spillExcess]
  repeat' split
  all_goals simp [hs]

@[simp] theorem State.shadowBytes_ok (s : State) (cl : Nat) (hs : s.ground.ok) : (s.shadowBytes cl).ground.ok :=
  s.writeMem_ok (shadowPa cl 0) _ hs

@[simp] theorem clusterSaveEffect_ok (cl : Nat) (s : State) (hs : s.ground.ok) : (clusterSaveEffect cl s).ground.ok := by
  have ht := getD_ok (okAll_poolTurns shadowPort (shadowLines cl (s.saveRanges cl)) hs) hs
  simp only [clusterSaveEffect]
  refine State.spillExcess_ok _ _ (State.shadowBytes_ok _ _ ?_)
  rw [foldl_ground _ _ _ (fun s h => by simp)]
  exact State.spillImages_ok _ _ _ ht

@[simp] theorem State.restorePool_ok (s : State) (cl : Nat) (v : Saved) (hs : s.ground.ok) : (s.restorePool cl v).ground.ok := by
  simp only [State.restorePool, State.ground_bad]
  exact foldl_ok _ _ _ (fun s r h => s.writeMem_ok _ _ h) hs

@[simp] theorem State.moveIn_ok (s : State) (v : Saved) (id : HartId) (hs : s.ground.ok) : (s.moveIn v id).ground.ok := by
  simp only [State.moveIn, State.setHart_ground, State.rename_ground]
  exact State.restorePool_ok _ _ _ hs

theorem State.restoreUnit_ok (s : State) (v : Saved) (id : HartId) (hs : s.ground.ok) : okAll (s.restoreUnit v id) := by
  have ht := okAll_poolTurns shadowPort (shadowLines (clusterOf id.core) v.ranges) hs
  unfold State.restoreUnit
  dsimp only
  split
  · simp
  split
  · simp
  · rename_i h _; simp [ht _ h]
  · simp
  · rename_i h _ _; simp [ht _ h]

theorem State.restoreGroup_ok (s : State) (v : Saved) (id : HartId) (hs : s.ground.ok) : okAll (s.restoreGroup v id) := by
  unfold State.restoreGroup
  extract_lets clear group
  clear_value clear group
  split
  · split
    · simp
    · refine okAll_map ?_ (fun t ht => by simpa using ht)
      clear * - hs
      generalize hr : (some s : Option State) = r
      have hk : okAll r := hr ▸ (okAll_some s).mpr hs
      clear hr
      induction group generalizing r with
      | nil => exact hk
      | cons o g ih => exact ih _ (okAll_bind hk (fun t ht => t.restoreUnit_ok _ _ ht))
  · split
    · simp
    · exact okAll_map (s.restoreUnit_ok _ _ hs) (fun t ht => by simpa using ht)

/-- Induction over a recursion on a number, for any body: the equations of `State.restoreGang` itself make the
kernel compute what a saved unit holds, and so its recursion is entered here with its body as a variable. -/
theorem natBrecOn_induction {σ : Type} (Q : σ → Prop) (F : (n : Nat) → Nat.below (motive := fun _ => σ) n → σ)
    (hzero : ∀ b, Q (F 0 b)) (hsucc : ∀ m b, Q b.1 → Q (F (m + 1) b)) (n : Nat) : Q (Nat.brecOn (motive := fun _ => σ) n F) := by
  induction n with
  | zero => exact hzero _
  | succ m ih => exact hsucc m _ ih

theorem State.restoreGang_ok (s : State) (k l n : Nat) (hs : s.ground.ok) : okAll (s.restoreGang k l n) := by
  suffices h : ∀ f, f = State.restoreGang → okAll (f s k l n) from h _ rfl
  delta State.restoreGang
  delta State.restoreGang._f
  rintro _ rfl
  beta_reduce
  refine natBrecOn_induction (fun f : State → Option State => ∀ s, s.ground.ok → okAll (f s)) _ ?_ ?_ n s hs
  · intro b s hs
    split
    · exact (okAll_some s).mpr hs
    · simp
  · intro m b ih s hs
    split
    · exact (okAll_some s).mpr hs
    · rename_i o _
      dsimp only
      split
      · simp
      split
      · simp
      · rename_i t ht; exact ih t (s.restoreGroup_ok _ _ hs t ht)

theorem State.resumeAt_ok (s : State) (v : Saved) (id : HartId) (hs : s.ground.ok) : okAll (s.resumeAt v id) := by
  unfold State.resumeAt
  split
  · exact s.restoreGroup_ok _ _ hs
  split
  · exact s.restoreGroup_ok _ _ hs
  split
  · exact okAll_bind (s.restoreGroup_ok _ _ hs) (fun t ht => t.restoreGang_ok _ _ _ ht)
  · simp

theorem State.resume_ok (s : State) (saved id : HartId) (hs : s.ground.ok) : okAll (s.resume saved id) := by
  unfold State.resume
  split
  · simp
  · have h := fun v => s.resumeAt_ok v id hs
    repeat' split
    all_goals simp [h]

theorem resumeEvent_ok (s : State) (hs : s.ground.ok) : okAll (resumeEvent s) := by
  refine okAll_firstAt _ _ (fun e => ?_)
  split
  · exact s.resume_ok _ _ hs
  · simp

/-! ### The events -/

theorem hartEvents_ok (id : HartId) (s : State) (hs : s.ground.ok) : okAll (firstOf (hartEvents id) s) := by
  refine okAll_firstOf _ ?_
  simp only [hartEvents, List.forall_mem_cons, List.not_mem_nil, false_imp_iff, implies_true, and_true]
  refine ⟨okAll_firstAt _ _ (fun f => s.tokenSignal_ok id _ hs), okAll_firstAt _ _ (fun f => okAll_guarded ?_),
    okAll_firstAt _ _ (fun q => s.queueLeave_ok id q hs), okAll_guarded ?_, okAll_guarded ?_, okAll_guarded ?_, okAll_guarded ?_,
    okAll_guarded ?_, s.storeHead_ok id hs, okAll_guarded ?_, okAll_firstAt _ _ (fun core => okAll_guarded ?_), okAll_guarded ?_,
    okAll_firstAt _ _ (fun n => okAll_guarded ?_), okAll_guarded ?_, okAll_guarded ?_⟩
  all_goals simp [hs]

theorem clusterEvents_ok (cl : Nat) (s : State) (hs : s.ground.ok) : okAll (firstOf (clusterEvents cl) s) := by
  refine okAll_firstOf _ ?_
  simp only [clusterEvents, List.forall_mem_cons, List.not_mem_nil, false_imp_iff, implies_true, and_true]
  refine ⟨okAll_firstAt _ _ (fun q => okAll_guarded ?_), okAll_guarded ?_, okAll_firstAt _ _ (fun n => okAll_guarded ?_), okAll_guarded ?_,
    okAll_guarded ?_, okAll_guarded ?_, okAll_guarded ?_⟩
  all_goals simp [hs]

theorem launchEvents_ok (k l : Nat) (s : State) (hs : s.ground.ok) : okAll (firstOf (launchEvents k l) s) := by
  refine okAll_firstOf _ ?_
  simp only [launchEvents, List.forall_mem_cons, List.not_mem_nil, false_imp_iff, implies_true, and_true]
  refine ⟨okAll_guarded ?_, okAll_guarded ?_, okAll_firstAt _ _ (fun u => okAll_firstAt _ _ (fun n => okAll_guarded ?_))⟩
  all_goals simp [hs]

theorem stackEvents_ok (k : Nat) (s : State) (hs : s.ground.ok) : okAll (firstOf (stackEvents k) s) := by
  refine okAll_firstOf _ ?_
  simp only [stackEvents, List.forall_mem_cons, List.not_mem_nil, false_imp_iff, implies_true, and_true]
  refine ⟨okAll_guarded ?_, fun t ht => ?_, okAll_firstAt _ _ (fun n => okAll_guarded ?_), okAll_firstAt _ _ (fun n => okAll_guarded ?_),
    okAll_firstAt _ _ (fun q => okAll_guarded ?_), okAll_firstAt _ _ (fun q => okAll_guarded ?_),
    okAll_firstAt _ _ (fun l => launchEvents_ok k l s hs)⟩
  case refine_2 => obtain ⟨m, -, rfl⟩ := Option.map_eq_some_iff.mp ht; simpa using hs
  all_goals simp [hs]

theorem State.nextEvent_ok (s : State) (hs : s.ground.ok) : okAll s.nextEvent := by
  refine okAll_firstOf _ ?_
  simp only [List.forall_mem_cons, List.not_mem_nil, false_imp_iff, implies_true, and_true]
  exact ⟨okAll_firstAt _ _ (fun e => okAll_guarded (by simp [hs])),
    okAll_firstAt _ _ (fun n => okAll_of_ground (fun t h => replyEvent_ground n s t h) hs), okAll_firstAt _ _ (fun h => hartEvents_ok h s hs),
    okAll_firstAt _ _ (fun c => vaultEvents_ok c s hs), okAll_firstAt _ _ (fun c => arrivalEvents_ok c s hs),
    okAll_firstAt _ _ (fun n => netEvent_ok n s hs), okAll_firstAt _ _ (fun c => clusterEvents_ok c s hs),
    okAll_firstAt _ _ (fun k => stackEvents_ok k s hs), resumeEvent_ok s hs⟩

end Sys2Proof.Machine

/-! PROOFS. Memory stays in canonical form: the operations that instructions share, requests from outside, and power. -/

namespace Sys2Proof.Machine

/-! ### Instructions -/

@[simp] theorem issueOwn_ok (ik : Code) (hd : Head) (level : Nat) (legal : Bool) (own : Option (BitVec 8)) (srcs dsts : List RegRef)
    (k : State → State) (s : State) (hk : ∀ s, s.ground.ok → (k s).ground.ok) (hs : s.ground.ok) :
    (issueOwn ik hd level legal own srcs dsts k s).ground.ok := by
  simp only [issueOwn]
  repeat' split
  all_goals simp [hs, hk]

@[simp] theorem issue_ok (ik : Code) (hd : Head) (level : Nat) (legal : Bool) (srcs dsts : List RegRef) (k : State → State) (s : State)
    (hk : ∀ s, s.ground.ok → (k s).ground.ok) (hs : s.ground.ok) : (issue ik hd level legal srcs dsts k s).ground.ok :=
  issueOwn_ok _ _ _ _ _ _ _ _ _ hk hs

theorem withAccess_ok (a : Acc) (align : Nat) (va : Word) (k : Xlat → State → State) (s : State) (hk : ∀ x s, s.ground.ok → (k x s).ground.ok)
    (hs : s.ground.ok) : (withAccess a align va k s).ground.ok := by
  have hg := State.access_ground s (.instr s.cur) a align va
  unfold withAccess
  generalize s.access (.instr s.cur) a align va = p at hg ⊢
  have ht : p.1.ground.ok := hg ▸ hs
  split <;> simp_all

theorem lockedAccess_ok (hd : Head) (n : Nat) (ea : Word) (pa : Nat) (go : LockTurn → State → State) (s : State)
    (hgo : ∀ t s, s.ground.ok → (go t s).ground.ok) (hs : s.ground.ok) : (lockedAccess hd n ea pa go s).ground.ok := by
  unfold lockedAccess
  dsimp only
  split
  · simpa using hs
  · simpa using hs
  · split
    · simpa using hs
    · split
      · simpa using hs
      · exact hgo _ _ (okAll_poolTurns _ _ hs _ ‹_›)

@[simp] theorem amoVault_ok (ik : Code) (hd : Head) (d : Reg) (op n : Nat) (b exp : Word) (ea : Word) (pa : Nat) (s : State) (hs : s.ground.ok) :
    (amoVault ik hd d op n b exp ea pa s).ground.ok := by
  unfold amoVault
  dsimp only
  split
  · simpa using hs
  split
  · simpa using hs
  split
  · simpa using hs
  · rename_i h; simpa using State.amoAt_ok _ _ _ _ _ _ _ _ _ h (by simpa using hs)

@[simp] theorem amoPool_ok (ik : Code) (hd : Head) (d : Reg) (op n : Nat) (b exp : Word) (ea : Word) (pa : Nat) (s : State) (hs : s.ground.ok) :
    (amoPool ik hd d op n b exp ea pa s).ground.ok := by
  refine lockedAccess_ok _ _ _ _ _ _ (fun t s hs => ?_) hs
  cases t <;> dsimp only <;> repeat' split
  all_goals simp [hs]

@[simp] theorem amo_ok (ik : Code) (hd : Head) (op : Nat) (d a b : Reg) (w : BitVec 1) (o : BitVec 2) (s : State) (hs : s.ground.ok) :
    (amo ik hd op d a b w o s).ground.ok := by
  refine issue_ok _ _ _ _ _ _ _ _ (fun s hs => ?_) hs
  split
  · simpa using hs
  refine withAccess_ok _ _ _ _ _ (fun x s hs => ?_) hs
  repeat' split
  case h_2 h => simpa using State.amoAt_ok _ _ _ _ _ _ _ _ _ h hs
  all_goals simp [hs]

@[simp] theorem State.appendGroup_ok (s : State) (rs : List TapeRec) (hs : s.ground.ok) : (s.appendGroup rs).ground.ok := by
  unfold State.appendGroup
  split
  · exact hs
  split
  · exact hs
  split
  · simpa using hs
  · simp only [State.modMe_ground]
    exact foldl_ok _ _ _ (fun s p h => s.writeMem_ok _ _ h) hs

@[simp] theorem State.recordCmd_ok (s : State) (c : Cmd) (word ctl : BitVec 32) (hs : s.ground.ok) : (s.recordCmd c word ctl).ground.ok := by
  simp only [State.recordCmd]
  repeat' split
  all_goals simp [hs]

@[simp] theorem enterCmd_ok (ik : Code) (hd : Head) (q : Nat) (c : Cmd) (ctl : BitVec 32) (post : State → State) (s : State)
    (hpost : ∀ s, s.ground.ok → (post s).ground.ok) (hs : s.ground.ok) : (enterCmd ik hd q c ctl post s).ground.ok := by
  unfold enterCmd
  split <;> simp [hs, hpost]

@[simp] theorem engineForm_ok (ik : Code) (hd : Head) (q : Nat) (i : Instr) (c a b : Reg) (name : State → Option Word) (s : State)
    (hs : s.ground.ok) : (engineForm ik hd q i c a b name s).ground.ok := by
  refine issue_ok _ _ _ _ _ _ _ _ (fun s hs => ?_) hs
  dsimp only
  repeat' split
  all_goals simp [hs]

@[simp] theorem engineCmd_ok (ik : Code) (hd : Head) (q : Nat) (i : Instr) (tk : BitVec 3) (wait : BitVec 8) (legal : Bool)
    (own : Option (BitVec 8)) (d a b : Reg) (s : State) (hs : s.ground.ok) : (engineCmd ik hd q i tk wait legal own d a b s).ground.ok :=
  issueOwn_ok _ _ _ _ _ _ _ _ _ (fun _ hs => enterCmd_ok _ _ _ _ _ _ _ (fun _ h => h) hs) hs

@[simp] theorem resultCmd_ok (ik : Code) (hd : Head) (q : Nat) (i : Instr) (tk : BitVec 3) (wait : BitVec 8) (legal : Bool)
    (own : Option (BitVec 8)) (rr : Bool) (d target : Reg) (srcs : List RegRef) (cmd : State → Cmd → Cmd) (s : State) (hs : s.ground.ok) :
    (resultCmd ik hd q i tk wait legal own rr d target srcs cmd s).ground.ok :=
  issueOwn_ok _ _ _ _ _ _ _ _ _ (fun _ hs => enterCmd_ok _ _ _ _ _ _ _ (fun _ h => by split <;> simp [h]) hs) hs

@[simp] theorem waitTokens_ok (ik : Code) (hd : Head) (m : BitVec 8) (s : State) (hs : s.ground.ok) : (waitTokens ik hd m s).ground.ok := by
  refine issueOwn_ok _ _ _ _ _ _ _ _ _ (fun s hs => ?_) hs
  dsimp only
  repeat' split
  all_goals simp [hs]

@[simp] theorem csrOp_ok (ik : Code) (hd : Head) (d a : Reg) (n : BitVec 12) (always : Bool) (f : Word → Word → Word) (s : State)
    (hs : s.ground.ok) : (csrOp ik hd d a n always f s).ground.ok := by
  refine issue_ok _ _ _ _ _ _ _ _ (fun s hs => ?_) hs
  split
  · simpa using hs
  dsimp only
  split
  · have h := s.csrWrite_ok s.cur s.me.priv n.toNat (f (s.csrRead s.cur n.toNat) (s.rx a)) hs
    split
    · simpa using hs
    · simpa using hs
    · rename_i t ht; simpa using h t ht
  · simpa using hs

@[simp] theorem vecIssueOwn_ok (ik : Code) (hd : Head) (legal : Bool) (own : Option (BitVec 8)) (mem : Bool) (xs vs dsts : List RegRef)
    (named : List Reg) (body : State → State) (s : State) (hb : ∀ s, s.ground.ok → (body s).ground.ok) (hs : s.ground.ok) :
    (vecIssueOwn ik hd legal own mem xs vs dsts named body s).ground.ok := by
  unfold vecIssueOwn
  refine issueOwn_ok _ _ _ _ _ _ _ _ _ (fun s hs => ?_) (by split <;> simp [hs])
  repeat' split
  all_goals simp [hs, hb]

@[simp] theorem State.closeTape_ok (s : State) (r : Recording) (st : Nat) (hs : s.ground.ok) : (s.closeTape r st).ground.ok := by
  unfold State.closeTape
  repeat' split
  all_goals simp [hs]

/-! ### Requests from outside and power -/

theorem State.linkArrives_ok (s : State) (m : Msg) (hs : s.ground.ok) : okAll (s.linkArrives m) := by
  unfold State.linkArrives
  split
  · simpa using hs
  split
  · simpa using hs
  split
  · simp
  · exact s.arrive_ok _ _ hs

@[simp] theorem State.ground_dev (s : State) (d : Device) : ({ s with dev := d } : State).ground = s.ground := rfl

theorem State.fromLink_ok (s : State) (m : Msg) (hs : s.ground.ok) : okAll (s.fromLink m) := by
  unfold State.fromLink
  split
  · exact State.linkArrives_ok _ _ hs
  · simp

theorem State.hostAdd_ok (s : State) (src pa : Nat) (bs : List Byte) (hs : s.ground.ok) : okAll (s.hostAdd src pa bs) := by
  unfold State.hostAdd
  split
  · simpa using hs
  split
  · simpa using hs
  · exact s.fromLink_ok _ hs

theorem WRes.stateOr_ok {r : WRes} {s : State} (hr : r.ok') (hs : s.ground.ok) : (r.stateOr s).ground.ok := by
  unfold WRes.stateOr
  split
  · exact hr _ rfl
  · exact hs

theorem State.hostWrite_ok (s : State) (src pa : Nat) (bs : List Byte) (hs : s.ground.ok) : okAll (s.hostWrite src pa bs) := by
  unfold State.hostWrite
  split
  · simp
  split
  · simp only [okAll_some]
    split
    · exact WRes.stateOr_ok (s.mmioSet_ok _ _ hs) hs
    · exact hs
  split
  · exact s.hostAdd_ok _ _ _ hs
  split
  · simpa using hs
  split
  · exact s.storeBytes_ok _ _ _ _ hs
  split
  · exact s.storeBytes_ok _ _ _ _ hs
  split
  · exact s.storeBytes_ok _ _ _ _ hs
  · simpa using hs

@[simp] theorem State.resetStack_ok (s : State) (k : Nat) (hs : s.ground.ok) : (s.resetStack k).ground.ok := by
  have h : (s.closeUnless (fun l => stackOf l.1 == k)).ground.ok := by simpa using hs
  exact wf_filter _ _ h

@[simp] theorem State.resetDevice_ok (s : State) (hs : s.ground.ok) : s.resetDevice.ground.ok := by
  have h := foldl_ok allStacks (fun s k => s.resetStack k) s.free.2 (fun s k h => s.resetStack_ok k h) hs
  exact h

@[simp] theorem powerUpEffect_ok (fail : Option Nat) (s : State) (hs : s.ground.ok) : (powerUpEffect fail s).ground.ok := by
  have h : (s.modDev (fun d => { d with layerFail := none })).resetDevice.ground.ok := State.resetDevice_ok _ (by simpa using hs)
  exact wf_filter _ _ h

@[simp] theorem clusterPowerGateEffect_ok (cl : Nat) (s : State) (hs : s.ground.ok) : (clusterPowerGateEffect cl s).ground.ok :=
  wf_filter _ _ hs

@[simp] theorem hostAtomicopEffect_ok (src : Nat) (op : BitVec 2) (w : BitVec 1) (pa : Nat) (v cmp : Word) (s : State) (hs : s.ground.ok) :
    (hostAtomicopEffect src op w pa v cmp s).ground.ok := by
  simp [hostAtomicopEffect, hs]

end Sys2Proof.Machine

/-! PROOFS. Memory stays in canonical form: every instruction that has an encoding. -/

namespace Sys2Proof.Machine

/-- The next state of an outcome, where it is one, has its memory in canonical form. -/
def okNext (o : Host.Outcome State Fault Refusal) : Prop := ∀ t, o = .next t → t.ground.ok

theorem okNext_next {t : State} (h : t.ground.ok) : okNext (.next t) := fun u hu => by cases hu; exact h

theorem okNext_when {ready : Bool} {f : State → State} {s : State} (hs : s.ground.ok) (h : (f s).ground.ok) : okNext (when ready f s) := by
  refine okNext_next ?_
  split <;> assumption

@[simp] theorem ite_ok {c : Prop} [Decidable c] {a b : State} (ha : a.ground.ok) (hb : b.ground.ok) : (if c then a else b).ground.ok := by
  split <;> assumption

theorem okNext_withReply (n : Nat) (k : Reply → Bool) (f : Reply → State → State) (s : State) (hs : s.ground.ok)
    (hf : ∀ r s, s.ground.ok → (f r s).ground.ok) : okNext (withReply n k f s) := by
  refine okNext_next ?_
  split
  · exact hf _ _ (by simpa using hs)
  · exact hs

theorem withBlock_ok (va : Word) (align words : Nat) (k : List Byte → State → State) (s : State) (hk : ∀ b s, s.ground.ok → (k b s).ground.ok)
    (hs : s.ground.ok) : (withBlock va align words k s).ground.ok := by
  have hg := State.blockRead_ground s (.instr s.cur) true va words
  unfold withBlock
  generalize s.blockRead (.instr s.cur) true va words = p at hg ⊢
  have ht : p.1.ground.ok := hg ▸ hs
  repeat' split
  all_goals simp_all


@[simp] theorem vecIssue_ok (ik : Code) (hd : Head) (legal mem : Bool) (xs vs dsts : List RegRef) (named : List Reg) (body : State → State) (s : State)
    (hb : ∀ s, s.ground.ok → (body s).ground.ok) (hs : s.ground.ok) : (vecIssue ik hd legal mem xs vs dsts named body s).ground.ok :=
  vecIssueOwn_ok _ _ _ _ _ _ _ _ _ _ _ hb hs

theorem withCounter_ok (v : Word) (k : CounterName → State → State) (s : State) (hk : ∀ n s, s.ground.ok → (k n s).ground.ok) (hs : s.ground.ok) :
    (withCounter v k s).ground.ok := by
  unfold withCounter
  split <;> simp [hs, hk]

theorem exec_ok_of_instr (i : Instr) (s : State) (hi : encode i ≠ none) (hs : s.ground.ok) : okNext (exec i s) := by
  cases i
  all_goals first | exact absurd rfl hi | refine okNext_next ?_
  case rload | rstore =>
    rw [remote_ground _ _ _ _ _ _ _ _ _ _ _ _ (by simp)]
    exact hs
  case ldl | stu =>
    refine issue_ok _ _ _ _ _ _ _ _ (fun s hs => ?_) hs
    split
    · simpa using hs
    · exact withAccess_ok _ _ _ _ _ (fun x s hs => by simpa using hs) hs
  case mbxAdd | mbxSet | mbxRead | bfree =>
    refine issue_ok _ _ _ _ _ _ _ _ (fun s hs => ?_) hs
    split
    · simpa using hs
    · exact withCounter_ok _ _ _ (fun n s hs => by (try split) <;> simp [hs]) hs
  case mbxWait =>
    refine issueOwn_ok _ _ _ _ _ _ _ _ _ (fun s hs => ?_) hs
    split
    · split <;> simp [hs]
    split
    · simpa using hs
    split
    · simpa using hs
    refine withCounter_ok _ _ _ (fun n s hs => ?_) hs
    dsimp only
    repeat' split
    all_goals simp [hs]
  case pause | tlbinv =>
    refine issue_ok _ _ _ _ _ _ _ _ (fun s hs => ?_) hs
    dsimp only
    repeat' split
    all_goals simp [hs]
  case vstat | vmodeL | vmodeS | cancel | fenceI | tapePatch  =>
    refine issue_ok _ _ _ _ _ _ _ _ (fun s hs => ?_) hs
    repeat' split
    all_goals simp [hs]
  case lease | tapeRec | tapeEnd | tapeInv | copy | xcommit =>
    refine issueOwn_ok _ _ _ _ _ _ _ _ _ (fun s hs => ?_) hs
    dsimp only
    repeat' split
    all_goals simp [hs]
  case migrate | halt | waitctr =>
    refine issueOwn_ok _ _ _ _ _ _ _ _ _ (fun s hs => ?_) hs
    repeat' split
    all_goals simp [hs]
  case xstore =>
    exact issueOwn_ok _ _ _ _ _ _ _ _ _ (fun s hs => withAccess_ok _ _ _ _ _ (fun x s hs => by simpa using hs) hs) hs
  case hset =>
    refine issue_ok _ _ _ _ _ _ _ _ (fun s hs => ?_) hs
    rw [entryWrite_ground _ _ _ _ _ (fun n s => withBlock_ground _ _ _ _ _ (fun b s => by split <;> simp))]
    exact hs
  case launch =>
    refine issueOwn_ok _ _ _ _ _ _ _ _ _ (fun s hs => withBlock_ok _ _ _ _ _ (fun b s hs => ?_) hs) hs
    split <;> simp [hs]
  case tmpl =>
    refine issue_ok _ _ _ _ _ _ _ _ (fun s hs => ?_) hs
    split
    · simpa using hs
    · exact withBlock_ok _ _ _ _ _ (fun b s hs => by split <;> simp [hs]) hs
  case vld | vst =>
    refine vecIssue_ok _ _ _ _ _ _ _ _ _ _ (fun s hs => ?_) hs
    dsimp only
    split <;> simp [hs]
  case vldrow =>
    refine vecIssue_ok _ _ _ _ _ _ _ _ _ _ (fun s hs => withAccess_ok _ _ _ _ _ (fun x s hs => ?_) hs) hs
    dsimp only
    repeat' split
    all_goals simp [hs]
  case vdot =>
    split
    · simpa using hs
    · exact vecIssue_ok _ _ _ _ _ _ _ _ _ _ (fun s hs => by simpa using hs) hs
  case mma =>
    split
    · exact vecIssueOwn_ok _ _ _ _ _ _ _ _ _ _ _ (fun s hs => enterCmd_ok _ _ _ _ _ _ _ (fun _ h => h) hs) hs
    · simp [hs]
  all_goals simp [hs]
end Sys2Proof.Machine

/-! PROOFS. Memory stays in canonical form: every event. -/

namespace Sys2Proof.Machine

theorem okNext_fault (r : Fault) : okNext (.fault r) := fun _ h => absurd h (by simp)

theorem execRegisterWrite_ok (pa : Nat) (v : Word) (s : State) (hs : s.ground.ok) : okNext (execRegisterWrite pa v s) := by
  unfold execRegisterWrite
  split
  · exact okNext_fault _
  · exact okNext_next (WRes.stateOr_ok (s.mmioSet_ok _ _ hs) hs)

theorem execHostRead_ok (src pa n : Nat) (s : State) (hs : s.ground.ok) : okNext (execHostRead src pa n s) := by
  refine okNext_next (getD_ok ?_ hs)
  split
  · exact okAll_of_ground (fun t h => s.hostRead_ground t src pa n h) hs
  · simp

theorem execHostWrite_ok (src pa : Nat) (bs : List Byte) (s : State) (hs : s.ground.ok) : okNext (execHostWrite src pa bs s) := by
  refine okNext_next ?_
  split
  · exact getD_ok (s.hostWrite_ok _ _ _ hs) (by simpa using hs)
  · exact hs

/-- The service of a call or a traveller, whose wait at a BUSY entry is noted first. -/
theorem execCall_ok (core : Nat) (k : MsgKind) (s : State) (hs : s.ground.ok) :
    okNext (.next (((s.noteBusy core k).serve core (fun m => m.kind == k) (serveCall core)).getD (s.noteBusy core k))) := by
  have h : (s.noteBusy core k).ground.ok := by simpa using hs
  exact okNext_next (getD_ok (State.serve_ok _ _ _ _ (serveCall_ok core) h) h)

theorem exec_ok_of_event (i : Instr) (s : State) (hi : (encode i).isNone = true) (hs : s.ground.ok) : okNext (exec i s) := by
  have hg {o : Option State} (ho : okAll o) : okNext (.next (o.getD s)) := okNext_next (getD_ok ho hs)
  cases i
  all_goals first | exact absurd hi Bool.false_ne_true | clear hi
  case registerWrite pa v => exact execRegisterWrite_ok pa v s hs
  case hostRead src pa n => exact execHostRead_ok src pa n s hs
  case hostWrite src pa bs => exact execHostWrite_ok src pa bs s hs
  case messageArrival n => exact hg (s.messageArrives_ok _ hs)
  case handlerEntryWritten core n => exact hg (s.entryWritten_ok _ _ hs)
  case writeBufferDrain core n => exact hg (s.drain_ok _ _ hs)
  case storeVisible h => exact hg (s.storeHead_ok _ hs)
  case unitResume saved h => exact hg (s.resume_ok _ _ hs)
  case htbaseWrite core v => exact hg (s.htbaseSet_ok _ _ hs)
  case engineQueueLeave h q => exact hg (s.queueLeave_ok _ _ hs)
  case tokenSignal h q => exact hg (s.tokenSignal_ok _ _ hs)
  case rloadRequest core => exact hg (s.serve_ok _ _ _ (serveRload_ok core) hs)
  case rstoreRequest core => exact hg (s.serve_ok _ _ _ (serveRstore_ok core) hs)
  case ramoRequest core => exact hg (s.serve_ok _ _ _ (serveRamo_ok core) hs)
  case mbxadd core => exact hg (s.serve_ok _ _ _ (serveMbxadd_ok core) hs)
  case mbxwatch core => exact hg (s.serve_ok _ _ _ (serveMbxwatch_ok core) hs)
  case chunk core => exact hg (s.serve_ok _ _ _ (serveChunk_ok core) hs)
  case repcommitLock core => exact hg (s.serve_ok _ _ _ (serveRepLock_ok core) hs)
  case repcommitData core => exact hg (s.serve_ok _ _ _ (serveRepData_ok core) hs)
  case xactLock core => exact hg (s.serve_ok _ _ _ (serveXactLock_ok core) hs)
  case xactData core => exact hg (s.serve_ok _ _ _ (serveXactData_ok core) hs)
  case xactUnlock core => exact hg (s.serve_ok _ _ _ (serveXactUnlock_ok core) hs)
  case rcallRequest core => exact execCall_ok core .rcall s hs
  case travel core => exact execCall_ok core .travel s hs
  case copyreq core => exact hg (s.copyreq_ok _ hs)
  case vpjob core => exact hg (okAll_of_ground (fun t h => s.vpjob_ground t core h) hs)
  case vpjobComplete core => exact hg (s.vpjobComplete_ok _ hs)
  case nack | replyFill | acceptanceNotice | travellerEndNotice | repcommitGrant | repcommitAck | xcommitVote | xcommitAck =>
    exact okNext_withReply _ _ _ _ hs (fun r t ht => by simpa using ht)
  all_goals refine okNext_next ?_
  all_goals simp [hs]

theorem exec_ok (i : Instr) (s : State) (hs : s.ground.ok) : okNext (exec i s) := by
  by_cases hi : encode i = none
  · exact exec_ok_of_event i s (by simp [hi]) hs
  · exact exec_ok_of_instr i s hi hs

end Sys2Proof.Machine

/-! PROOFS. Memory stays in canonical form: a turn, and a step. -/

namespace Sys2Proof.Machine

/-! ### Units ahead of their accesses -/

theorem State.writeAhead_ok (s : State) (port : Nat) (who : Writer) (ws : List (Nat × List Byte)) (n : Nat) (r : State × List (Nat × List Byte))
    (h : s.writeAhead port who ws n = some r) (hs : s.ground.ok) : r.1.ground.ok := by
  obtain ⟨u, -, hu⟩ := Option.bind_eq_some_iff.mp h
  obtain ⟨t, ht, rfl⟩ := Option.map_eq_some_iff.mp hu
  exact s.storeBytes_ok _ _ _ _ hs t ht

theorem State.tileAhead_ok (s : State) (id : HartId) (seq n : Nat) (hs : s.ground.ok) : okAll (s.tileAhead id seq n) := by
  unfold State.tileAhead
  split
  · simp
  dsimp only
  split
  · simp
  split
  · simp
  · exact okAll_map (okAll_poolTurns _ _ hs) (fun t ht => by simpa using State.tileMove_ok _ _ _ _ ht)

theorem State.jobUnit_ok (s : State) (id n : Nat) (hs : s.ground.ok) : okAll (s.jobUnit id n) := by
  refine okAll_findSome _ _ (fun e _ t ht => ?_)
  obtain ⟨j, -, hj⟩ := Option.bind_eq_some_iff.mp ht
  obtain ⟨r, hr, rfl⟩ := Option.map_eq_some_iff.mp hj
  simpa using s.writeAhead_ok _ _ _ _ r hr hs

theorem State.chunkPart_ok (s : State) (core n : Nat) (m : Msg) (hs : s.ground.ok) : okAll (s.chunkPart core n m) := by
  unfold State.chunkPart
  split
  · simp
  · intro t ht
    obtain ⟨r, hr, rfl⟩ := Option.map_eq_some_iff.mp ht
    simpa using s.writeAhead_ok _ _ _ _ r hr hs

theorem State.chunkUnit_ok (s : State) (id n : Nat) (hs : s.ground.ok) : okAll (s.chunkUnit id n) := by
  refine okAll_findSome _ _ (fun e _ => ?_)
  split
  · exact s.chunkPart_ok _ _ _ hs
  · intro t ht
    obtain ⟨p, -, hp⟩ := Option.bind_eq_some_iff.mp ht
    exact State.chunkPart_ok _ _ _ _ (by simpa using hs) t hp

@[simp] theorem State.writeUnit_ok (s : State) (who : Reader) (n : Nat) (hs : s.ground.ok) : (s.writeUnit who n).ground.ok := by
  unfold State.writeUnit
  split
  · split
    · exact hs
    split
    · split
      · rename_i t out h; simpa using s.writeAhead_ok _ _ _ _ _ h hs
      · exact hs
    · exact getD_ok (s.tileAhead_ok _ _ _ hs) hs
  · exact getD_ok (s.jobUnit_ok _ _ hs) (getD_ok (s.chunkUnit_ok _ _ hs) hs)
  · exact hs

/-! ### Turns -/

theorem decodedRun_ok (k : Code) (f : State → Host.Outcome State Fault Refusal) (h : decodedRun k = .ok f) (s : State) (hs : s.ground.ok) :
    okNext (f s) := by
  unfold decodedRun at h
  split at h
  · cases h
  · cases h; exact exec_ok _ s hs

theorem runCode_ok (k : Code) (s : State) (hs : s.ground.ok) : okNext (runCode k s) := by
  unfold runCode
  split
  · rename_i f h; exact decodedRun_ok k f h s hs
  · exact okNext_next (by simpa using hs)

theorem runInstr_ok (s : State) (hs : s.ground.ok) : okNext (runInstr s) := by
  have h1 : (s.fetchBase s.cur s.me.pc).1.ground.ok := by simpa using hs
  unfold runInstr
  split
  · rename_i h; rw [h] at h1; exact okNext_next (by simpa using h1)
  · rename_i s1 k h
    rw [h] at h1
    split
    · exact runCode_ok _ _ (by simpa using h1)
    split
    · exact okNext_next (by simpa using h1)
    · have h2 : (s1.fetchMask s1.cur s1.me.pc k).1.ground.ok := by simpa using h1
      split
      · rename_i h; rw [h] at h2; exact okNext_next (by simpa using h2)
      · rename_i h; rw [h] at h2; exact runCode_ok _ _ (by simpa using h2)

theorem State.issueTurn_ok (s : State) (id : HartId) (hs : s.ground.ok) (o : Host.Outcome State Fault Refusal) (h : s.issueTurn id = some o) :
    okNext o := by
  have hr : okNext (runInstr { s with cur := id }) := runInstr_ok _ hs
  unfold State.issueTurn at h
  dsimp only at h
  split at h
  · split at h
    · split at h
      · rename_i t ht
        have := hr t ht
        cases h
        refine okNext_next ?_
        split <;> simp [this]
      · cases h; exact hr
    · cases h
  · cases h

theorem runHart_ok (id : HartId) (s : State) (hs : s.ground.ok) : okNext (runHart id s) := by
  unfold runHart
  cases h : s.issueTurn id with
  | none => exact okNext_next hs
  | some o => exact s.issueTurn_ok id hs o h

theorem firstRun_ok (hs : List HartId) (s : State) (hm : s.ground.ok) (o : Host.Outcome State Fault Refusal) (h : firstRun hs s = some o) :
    okNext o := by
  induction hs with
  | nil => cases h
  | cons g r ih =>
    unfold firstRun at h
    split at h
    · exact ih h
    · rename_i t ht
      split at h
      · exact ih h
      · cases h; exact s.issueTurn_ok g hm _ ht
    · rename_i ht; cases h; exact s.issueTurn_ok g hm _ ht

theorem runNext_ok (s : State) (hs : s.ground.ok) : okNext (runNext s) := by
  unfold runNext
  split
  · exact okNext_next hs
  split
  · rename_i t ht; exact okNext_next (s.nextEvent_ok hs t ht)
  split
  · rename_i o ho; exact firstRun_ok _ s hs o ho
  · exact okNext_next hs

theorem runAct_ok (a : Act) (s : State) (hs : s.ground.ok) : okNext (runAct a s) := by
  unfold runAct
  split
  · exact okNext_next hs
  split
  case h_1 => exact runHart_ok _ s hs
  case h_7 =>
    split
    · exact exec_ok _ s hs
    · exact okNext_next hs
  case h_16 => exact okNext_next (by split <;> exact hs)
  case h_8 => exact okNext_next (getD_ok (s.fromLink_ok _ hs) hs)
  all_goals exact okNext_next (by simp [hs])

/-! ### What is due before a turn -/

/-- A dated state has its memory in canonical form. -/
def okDated (o : Option (Nat × State)) : Prop := ∀ p, o = some p → p.2.ground.ok

theorem earlier_ok {a b : Option (Nat × State)} (ha : okDated a) (hb : okDated b) : okDated (earlier a b) := by
  unfold earlier
  split
  · split
    · exact hb
    · exact ha
  · exact ha
  · exact hb

theorem State.timedAt_ok (s : State) (core : Nat) : ∀ x ∈ s.timedAt core, ∀ t : State, t.ground.ok → okAll (x.2 t) := by
  intro x hx t ht
  simp only [State.timedAt, List.mem_cons, List.mem_flatMap, List.not_mem_nil, or_false] at hx
  rcases hx with rfl | ⟨e, -, rfl | rfl | rfl | rfl⟩ <;> exact okAll_guarded (by simp [ht])

theorem State.due_ok (s : State) (now : Nat) (hs : s.ground.ok) : okAll (s.due now) := by
  have hk : ∀ x ∈ s.vaults.flatMap (fun (e : Nat × Vault) => s.timedAt e.1), ∀ t : State, t.ground.ok → okAll (x.2 t) := by
    intro x hx
    obtain ⟨e, -, he⟩ := List.mem_flatMap.mp hx
    exact s.timedAt_ok e.1 x he
  unfold State.due
  intro t ht
  obtain ⟨p, hp, rfl⟩ := Option.map_eq_some_iff.mp ht
  refine (?_ : okDated _) p hp
  refine List.foldlRecOn (motive := okDated) _ _ (by simp [okDated]) (fun b hb x hx => ?_)
  split
  · refine earlier_ok hb (fun q hq => ?_)
    obtain ⟨u, hu, rfl⟩ := Option.map_eq_some_iff.mp hq
    exact hk x hx { s with clk := max s.clk x.1 } hs u hu
  · exact hb

theorem State.beforeTurn_ok (s : State) (hs : s.ground.ok) : okAll s.beforeTurn := by
  unfold State.beforeTurn
  split
  · simpa using hs
  split
  · exact s.due_ok _ hs
  · simp

theorem noted_ok {o : Host.Outcome State Fault Refusal} (ho : okNext o) : okNext (noted o) := by
  unfold noted
  split
  · exact okNext_next (by simpa using ho _ rfl)
  · exact ho

theorem step_ok (s : State) (hs : s.ground.ok) : okNext (step s) := by
  unfold step
  split
  · rename_i t ht; exact noted_ok (okNext_next (s.beforeTurn_ok hs t ht))
  split
  · exact noted_ok (runNext_ok _ hs)
  · exact noted_ok (runAct_ok _ _ hs)

end Sys2Proof.Machine

namespace Sys2Proof.Proofs
open Sys2Proof.Machine

/-- Settles O57: every function of the model that makes a state keeps memory in its canonical form, and a step is made of them. -/
theorem stepKeepsMemory : Obligations.StepKeepsMemory := by
  unfold Obligations.StepKeepsMemory
  intro s t hs ht
  exact step_ok s hs t ht

end Sys2Proof.Proofs

/-! PROOFS. The fields of the formats (R219, R220, R224, R225), read back from the words that the encoder puts together. -/

namespace Sys2Proof
/-! ### The fields of the formats, read back (R219) -/

@[simp] theorem fd_wRR (mj : BitVec 6) (fn : BitVec 7) (hd : Head) (d a b : Reg) :
    fd (wRR mj fn hd d a b) = d := by
  unfold fd wRR
  ext j hj
  simp
  grind

@[simp] theorem fa_wRR (mj : BitVec 6) (fn : BitVec 7) (hd : Head) (d a b : Reg) :
    fa (wRR mj fn hd d a b) = a := by
  unfold fa wRR
  ext j hj
  simp
  grind

@[simp] theorem fb_wRR (mj : BitVec 6) (fn : BitVec 7) (hd : Head) (d a b : Reg) :
    fb (wRR mj fn hd d a b) = b := by
  unfold fb wRR
  ext j hj
  simp
  grind

@[simp] theorem fn7_wRR (mj : BitVec 6) (fn : BitVec 7) (hd : Head) (d a b : Reg) :
    fn7 (wRR mj fn hd d a b) = fn := by
  unfold fn7 wRR
  ext j hj
  simp
  grind

@[simp] theorem maj_wRR (mj : BitVec 6) (fn : BitVec 7) (hd : Head) (d a b : Reg) :
    maj (wRR mj fn hd d a b) = mj := by
  unfold maj wRR wLow
  ext j hj
  simp
  grind

@[simp] theorem low_wRR (mj : BitVec 6) (fn : BitVec 7) (hd : Head) (d a b : Reg) :
    (wRR mj fn hd d a b).extractLsb' 0 10 = wLow mj hd := by
  unfold wRR
  ext j hj
  simp
  grind

@[simp] theorem fd_wRI (mj : BitVec 6) (hd : Head) (d a : Reg) (i : BitVec 12) :
    fd (wRI mj hd d a i) = d := by
  unfold fd wRI
  ext j hj
  simp
  grind

@[simp] theorem fa_wRI (mj : BitVec 6) (hd : Head) (d a : Reg) (i : BitVec 12) :
    fa (wRI mj hd d a i) = a := by
  unfold fa wRI
  ext j hj
  simp
  grind

@[simp] theorem imm12_wRI (mj : BitVec 6) (hd : Head) (d a : Reg) (i : BitVec 12) :
    (wRI mj hd d a i).extractLsb' 20 12 = i := by
  unfold wRI
  ext j hj
  simp
  grind

@[simp] theorem maj_wRI (mj : BitVec 6) (hd : Head) (d a : Reg) (i : BitVec 12) :
    maj (wRI mj hd d a i) = mj := by
  unfold maj wRI wLow
  ext j hj
  simp
  grind

@[simp] theorem low_wRI (mj : BitVec 6) (hd : Head) (d a : Reg) (i : BitVec 12) :
    (wRI mj hd d a i).extractLsb' 0 10 = wLow mj hd := by
  unfold wRI
  ext j hj
  simp
  grind

@[simp] theorem fd_wJP (mj : BitVec 6) (hd : Head) (d : Reg) (i : BitVec 17) :
    fd (wJP mj hd d i) = d := by
  unfold fd wJP
  ext j hj
  simp
  grind

@[simp] theorem imm17_wJP (mj : BitVec 6) (hd : Head) (d : Reg) (i : BitVec 17) :
    (wJP mj hd d i).extractLsb' 15 17 = i := by
  unfold wJP
  ext j hj
  simp
  grind

@[simp] theorem maj_wJP (mj : BitVec 6) (hd : Head) (d : Reg) (i : BitVec 17) :
    maj (wJP mj hd d i) = mj := by
  unfold maj wJP wLow
  ext j hj
  simp
  grind

@[simp] theorem low_wJP (mj : BitVec 6) (hd : Head) (d : Reg) (i : BitVec 17) :
    (wJP mj hd d i).extractLsb' 0 10 = wLow mj hd := by
  unfold wJP
  ext j hj
  simp
  grind

@[simp] theorem fd_wQR (mj : BitVec 6) (fn : BitVec 2) (hd : Head) (d a b c : Reg) :
    fd (wQR mj fn hd d a b c) = d := by
  unfold fd wQR
  ext j hj
  simp
  grind

@[simp] theorem fa_wQR (mj : BitVec 6) (fn : BitVec 2) (hd : Head) (d a b c : Reg) :
    fa (wQR mj fn hd d a b c) = a := by
  unfold fa wQR
  ext j hj
  simp
  grind

@[simp] theorem fb_wQR (mj : BitVec 6) (fn : BitVec 2) (hd : Head) (d a b c : Reg) :
    fb (wQR mj fn hd d a b c) = b := by
  unfold fb wQR
  ext j hj
  simp
  grind

@[simp] theorem rs3_wQR (mj : BitVec 6) (fn : BitVec 2) (hd : Head) (d a b c : Reg) :
    (wQR mj fn hd d a b c).extractLsb' 25 5 = c := by
  unfold wQR
  ext j hj
  simp
  grind

@[simp] theorem fn2_wQR (mj : BitVec 6) (fn : BitVec 2) (hd : Head) (d a b c : Reg) :
    (wQR mj fn hd d a b c).extractLsb' 30 2 = fn := by
  unfold wQR
  ext j hj
  simp
  grind

@[simp] theorem maj_wQR (mj : BitVec 6) (fn : BitVec 2) (hd : Head) (d a b c : Reg) :
    maj (wQR mj fn hd d a b c) = mj := by
  unfold maj wQR wLow
  ext j hj
  simp
  grind

@[simp] theorem low_wQR (mj : BitVec 6) (fn : BitVec 2) (hd : Head) (d a b c : Reg) :
    (wQR mj fn hd d a b c).extractLsb' 0 10 = wLow mj hd := by
  unfold wQR
  ext j hj
  simp
  grind

@[simp] theorem count_wLP (mj : BitVec 6) (hd : Head) (n : BitVec 10) (i : BitVec 12) :
    (wLP mj hd n i).extractLsb' 10 10 = n := by
  unfold wLP
  ext j hj
  simp
  grind

@[simp] theorem imm12_wLP (mj : BitVec 6) (hd : Head) (n : BitVec 10) (i : BitVec 12) :
    (wLP mj hd n i).extractLsb' 20 12 = i := by
  unfold wLP
  ext j hj
  simp
  grind

@[simp] theorem maj_wLP (mj : BitVec 6) (hd : Head) (n : BitVec 10) (i : BitVec 12) :
    maj (wLP mj hd n i) = mj := by
  unfold maj wLP wLow
  ext j hj
  simp
  grind

@[simp] theorem low_wLP (mj : BitVec 6) (hd : Head) (n : BitVec 10) (i : BitVec 12) :
    (wLP mj hd n i).extractLsb' 0 10 = wLow mj hd := by
  unfold wLP
  ext j hj
  simp
  grind

@[simp] theorem fd_wM (mj : BitVec 6) (o : BitVec 2) (hd : Head) (d a : Reg) (u : BitVec 1) (w : BitVec 2) (i : BitVec 7) :
    fd (wM mj o hd d a u w i) = d := by
  unfold fd wM
  ext j hj
  simp
  grind

@[simp] theorem fa_wM (mj : BitVec 6) (o : BitVec 2) (hd : Head) (d a : Reg) (u : BitVec 1) (w : BitVec 2) (i : BitVec 7) :
    fa (wM mj o hd d a u w i) = a := by
  unfold fa wM
  ext j hj
  simp
  grind

@[simp] theorem width_wM (mj : BitVec 6) (o : BitVec 2) (hd : Head) (d a : Reg) (u : BitVec 1) (w : BitVec 2) (i : BitVec 7) :
    (wM mj o hd d a u w i).extractLsb' 20 2 = w := by
  unfold wM
  ext j hj
  simp
  grind

@[simp] theorem unsigned_wM (mj : BitVec 6) (o : BitVec 2) (hd : Head) (d a : Reg) (u : BitVec 1) (w : BitVec 2) (i : BitVec 7) :
    (wM mj o hd d a u w i).extractLsb' 22 1 = u := by
  unfold wM
  ext j hj
  simp
  grind

@[simp] theorem order_wM (mj : BitVec 6) (o : BitVec 2) (hd : Head) (d a : Reg) (u : BitVec 1) (w : BitVec 2) (i : BitVec 7) :
    (wM mj o hd d a u w i).extractLsb' 23 2 = o := by
  unfold wM
  ext j hj
  simp
  grind

@[simp] theorem imm7_wM (mj : BitVec 6) (o : BitVec 2) (hd : Head) (d a : Reg) (u : BitVec 1) (w : BitVec 2) (i : BitVec 7) :
    (wM mj o hd d a u w i).extractLsb' 25 7 = i := by
  unfold wM
  ext j hj
  simp
  grind

@[simp] theorem maj_wM (mj : BitVec 6) (o : BitVec 2) (hd : Head) (d a : Reg) (u : BitVec 1) (w : BitVec 2) (i : BitVec 7) :
    maj (wM mj o hd d a u w i) = mj := by
  unfold maj wM wLow
  ext j hj
  simp
  grind

@[simp] theorem low_wM (mj : BitVec 6) (o : BitVec 2) (hd : Head) (d a : Reg) (u : BitVec 1) (w : BitVec 2) (i : BitVec 7) :
    (wM mj o hd d a u w i).extractLsb' 0 10 = wLow mj hd := by
  unfold wM
  ext j hj
  simp
  grind

@[simp] theorem fd_wV (mj : BitVec 6) (op : BitVec 4) (t : BitVec 3) (hd : Head) (d a b : Reg) :
    fd (wV mj op t hd d a b) = d := by
  unfold fd wV
  ext j hj
  simp
  grind

@[simp] theorem fa_wV (mj : BitVec 6) (op : BitVec 4) (t : BitVec 3) (hd : Head) (d a b : Reg) :
    fa (wV mj op t hd d a b) = a := by
  unfold fa wV
  ext j hj
  simp
  grind

@[simp] theorem fb_wV (mj : BitVec 6) (op : BitVec 4) (t : BitVec 3) (hd : Head) (d a b : Reg) :
    fb (wV mj op t hd d a b) = b := by
  unfold fb wV
  ext j hj
  simp
  grind

@[simp] theorem ft_wV (mj : BitVec 6) (op : BitVec 4) (t : BitVec 3) (hd : Head) (d a b : Reg) :
    ft (wV mj op t hd d a b) = t := by
  unfold ft wV
  ext j hj
  simp
  grind

@[simp] theorem op4_wV (mj : BitVec 6) (op : BitVec 4) (t : BitVec 3) (hd : Head) (d a b : Reg) :
    (wV mj op t hd d a b).extractLsb' 28 4 = op := by
  unfold wV
  ext j hj
  simp
  grind

@[simp] theorem subopHigh_wV (mj : BitVec 6) (op : BitVec 4) (t : BitVec 3) (hd : Head) (d a b : Reg) :
    (wV mj op t hd d a b).extractLsb' 23 2 = b.extractLsb' 3 2 := by
  unfold wV
  ext j hj
  simp
  grind

@[simp] theorem subopLow_wV (mj : BitVec 6) (op : BitVec 4) (t : BitVec 3) (hd : Head) (d a b : Reg) :
    (wV mj op t hd d a b).extractLsb' 20 3 = b.extractLsb' 0 3 := by
  unfold wV
  ext j hj
  simp
  grind

@[simp] theorem maj_wV (mj : BitVec 6) (op : BitVec 4) (t : BitVec 3) (hd : Head) (d a b : Reg) :
    maj (wV mj op t hd d a b) = mj := by
  unfold maj wV wLow
  ext j hj
  simp
  grind

@[simp] theorem low_wV (mj : BitVec 6) (op : BitVec 4) (t : BitVec 3) (hd : Head) (d a b : Reg) :
    (wV mj op t hd d a b).extractLsb' 0 10 = wLow mj hd := by
  unfold wV
  ext j hj
  simp
  grind

/-! ### Fields that a format divides further (R220, R227, R228) -/

@[simp] theorem width_remote (mj : BitVec 6) (hd : Head) (fn : BitVec 7) (d a : Reg) (o w : BitVec 2) :
    (wRR mj fn hd d a (0#1 ++ o ++ w)).extractLsb' 20 2 = w := by
  unfold wRR
  ext j hj
  simp
  grind

@[simp] theorem order_remote (mj : BitVec 6) (hd : Head) (fn : BitVec 7) (d a : Reg) (o w : BitVec 2) :
    (wRR mj fn hd d a (0#1 ++ o ++ w)).extractLsb' 22 2 = o := by
  unfold wRR
  ext j hj
  simp
  grind

@[simp] theorem file_fullEmpty (mj : BitVec 6) (hd : Head) (fn : BitVec 7) (d a : Reg) (f : BitVec 1) :
    (wRR mj fn hd d a (0#4 ++ f)).extractLsb' 20 1 = f := by
  unfold wRR
  ext j hj
  simp
  grind

@[simp] theorem token_tokenQuery (mj : BitVec 6) (hd : Head) (fn : BitVec 7) (d b : Reg) (k : BitVec 3) :
    (wRR mj fn hd d (0#2 ++ k) b).extractLsb' 15 3 = k := by
  unfold wRR
  ext j hj
  simp
  grind

@[simp] theorem width_ldx (mj : BitVec 6) (hd : Head) (d a b : Reg) (q u : BitVec 1) (w : BitVec 2) :
    (wRR mj (0#3 ++ q ++ u ++ w) hd d a b).extractLsb' 25 2 = w := by
  unfold wRR
  ext j hj
  simp
  grind

@[simp] theorem unsigned_ldx (mj : BitVec 6) (hd : Head) (d a b : Reg) (q u : BitVec 1) (w : BitVec 2) :
    (wRR mj (0#3 ++ q ++ u ++ w) hd d a b).extractLsb' 27 1 = u := by
  unfold wRR
  ext j hj
  simp
  grind

@[simp] theorem order_ldx (mj : BitVec 6) (hd : Head) (d a b : Reg) (q u : BitVec 1) (w : BitVec 2) :
    (wRR mj (0#3 ++ q ++ u ++ w) hd d a b).extractLsb' 28 1 = q := by
  unfold wRR
  ext j hj
  simp
  grind

@[simp] theorem op_amo (mj : BitVec 6) (hd : Head) (d a b : Reg) (o : BitVec 2) (w : BitVec 1) (n : BitVec 4) :
    (wRR mj (o ++ w ++ n) hd d a b).extractLsb' 25 4 = n := by
  unfold wRR
  ext j hj
  simp
  grind

@[simp] theorem width_amo (mj : BitVec 6) (hd : Head) (d a b : Reg) (o : BitVec 2) (w : BitVec 1) (n : BitVec 4) :
    (wRR mj (o ++ w ++ n) hd d a b).extractLsb' 29 1 = w := by
  unfold wRR
  ext j hj
  simp
  grind

@[simp] theorem order_amo (mj : BitVec 6) (hd : Head) (d a b : Reg) (o : BitVec 2) (w : BitVec 1) (n : BitVec 4) :
    (wRR mj (o ++ w ++ n) hd d a b).extractLsb' 30 2 = o := by
  unfold wRR
  ext j hj
  simp
  grind

@[simp] theorem kind_fence (mj : BitVec 6) (hd : Head) (d a b : Reg) (n : BitVec 4) (c : BitVec 3) :
    (wRR mj (n ++ c) hd d a b).extractLsb' 28 2 = n.extractLsb' 0 2 := by
  unfold wRR
  ext j hj
  simp
  grind

@[simp] theorem scope_fence (mj : BitVec 6) (hd : Head) (d a b : Reg) (n : BitVec 4) (c : BitVec 3) :
    (wRR mj (n ++ c) hd d a b).extractLsb' 25 3 = c := by
  unfold wRR
  ext j hj
  simp
  grind

@[simp] theorem kind_shift (mj : BitVec 6) (hd : Head) (d a : Reg) (c n : BitVec 6) :
    (wRI mj hd d a (c ++ n)).extractLsb' 26 6 = c := by
  unfold wRI
  ext j hj
  simp
  grind

@[simp] theorem amount_shift (mj : BitVec 6) (hd : Head) (d a : Reg) (c n : BitVec 6) :
    (wRI mj hd d a (c ++ n)).extractLsb' 20 6 = n := by
  unfold wRI
  ext j hj
  simp
  grind

@[simp] theorem tokens_wRI (mj : BitVec 6) (hd : Head) (d a : Reg) (m : BitVec 8) :
    (wRI mj hd d a (0#4 ++ m)).extractLsb' 20 8 = m := by
  unfold wRI
  ext j hj
  simp
  grind

@[simp] theorem subopHigh_vcvt (g : BitVec 3) :
    (0b01#2 ++ g).extractLsb' 3 2 = 1 := by
  ext j hj
  simp
  grind

@[simp] theorem subopLow_vcvt (g : BitVec 3) :
    (0b01#2 ++ g).extractLsb' 0 3 = g := by
  ext j hj
  simp
  grind

/-! ### The fields of the compressed forms (R225) -/

@[simp] theorem quadrant_wC (q : BitVec 2) (op : BitVec 3) (f : BitVec 11) :
    (wC q op f).extractLsb' 0 2 = q := by
  unfold wC
  ext j hj
  simp
  grind

@[simp] theorem op_wC (q : BitVec 2) (op : BitVec 3) (f : BitVec 11) :
    (wC q op f).extractLsb' 2 3 = op := by
  unfold wC
  ext j hj
  simp
  grind

@[simp] theorem all_wC (q : BitVec 2) (op : BitVec 3) (f : BitVec 11) :
    (wC q op f).extractLsb' 5 11 = f := by
  unfold wC
  ext j hj
  simp
  grind

@[simp] theorem reg_wC_imm8 (q : BitVec 2) (op : BitVec 3) (u : BitVec 8) (d : BitVec 3) :
    (wC q op (u ++ d)).extractLsb' 5 3 = d := by
  unfold wC
  ext j hj
  simp
  grind

@[simp] theorem imm_wC_imm8 (q : BitVec 2) (op : BitVec 3) (u : BitVec 8) (d : BitVec 3) :
    (wC q op (u ++ d)).extractLsb' 8 8 = u := by
  unfold wC
  ext j hj
  simp
  grind

@[simp] theorem reg_wC_mem (q : BitVec 2) (op : BitVec 3) (u : BitVec 5) (a d : BitVec 3) :
    (wC q op (u ++ a ++ d)).extractLsb' 5 3 = d := by
  unfold wC
  ext j hj
  simp
  grind

@[simp] theorem base_wC_mem (q : BitVec 2) (op : BitVec 3) (u : BitVec 5) (a d : BitVec 3) :
    (wC q op (u ++ a ++ d)).extractLsb' 8 3 = a := by
  unfold wC
  ext j hj
  simp
  grind

@[simp] theorem imm_wC_mem (q : BitVec 2) (op : BitVec 3) (u : BitVec 5) (a d : BitVec 3) :
    (wC q op (u ++ a ++ d)).extractLsb' 11 5 = u := by
  unfold wC
  ext j hj
  simp
  grind

@[simp] theorem reg_wC_imm6 (q : BitVec 2) (op : BitVec 3) (i : BitVec 6) (d : Reg) :
    (wC q op (i ++ d)).extractLsb' 5 5 = d := by
  unfold wC
  ext j hj
  simp
  grind

@[simp] theorem imm_wC_imm6 (q : BitVec 2) (op : BitVec 3) (i : BitVec 6) (d : Reg) :
    (wC q op (i ++ d)).extractLsb' 10 6 = i := by
  unfold wC
  ext j hj
  simp
  grind

@[simp] theorem flag_wC_imm6 (q : BitVec 2) (op : BitVec 3) (i : BitVec 6) (d : Reg) :
    (wC q op (i ++ d)).extractLsb' 15 1 = i.extractLsb' 5 1 := by
  unfold wC
  ext j hj
  simp
  grind

@[simp] theorem rs2_wC_imm6 (q : BitVec 2) (op : BitVec 3) (i : BitVec 6) (d : Reg) :
    (wC q op (i ++ d)).extractLsb' 10 5 = i.extractLsb' 0 5 := by
  unfold wC
  ext j hj
  simp
  grind

@[simp] theorem reg_wC_two (q : BitVec 2) (op : BitVec 3) (x : BitVec 1) (b d : Reg) :
    (wC q op (x ++ b ++ d)).extractLsb' 5 5 = d := by
  unfold wC
  ext j hj
  simp
  grind

@[simp] theorem rs2_wC_two (q : BitVec 2) (op : BitVec 3) (x : BitVec 1) (b d : Reg) :
    (wC q op (x ++ b ++ d)).extractLsb' 10 5 = b := by
  unfold wC
  ext j hj
  simp
  grind

@[simp] theorem flag_wC_two (q : BitVec 2) (op : BitVec 3) (x : BitVec 1) (b d : Reg) :
    (wC q op (x ++ b ++ d)).extractLsb' 15 1 = x := by
  unfold wC
  ext j hj
  simp
  grind

@[simp] theorem reg_wC_alu (q : BitVec 2) (op : BitVec 3) (n : BitVec 6) (s : BitVec 2) (d : BitVec 3) :
    (wC q op (n ++ s ++ d)).extractLsb' 5 3 = d := by
  unfold wC
  ext j hj
  simp
  grind

@[simp] theorem sel_wC_alu (q : BitVec 2) (op : BitVec 3) (n : BitVec 6) (s : BitVec 2) (d : BitVec 3) :
    (wC q op (n ++ s ++ d)).extractLsb' 8 2 = s := by
  unfold wC
  ext j hj
  simp
  grind

@[simp] theorem imm_wC_alu (q : BitVec 2) (op : BitVec 3) (n : BitVec 6) (s : BitVec 2) (d : BitVec 3) :
    (wC q op (n ++ s ++ d)).extractLsb' 10 6 = n := by
  unfold wC
  ext j hj
  simp
  grind

@[simp] theorem reg_wC_aluReg (q : BitVec 2) (op : BitVec 3) (x b : BitVec 3) (s : BitVec 2) (d : BitVec 3) :
    (wC q op (x ++ b ++ s ++ d)).extractLsb' 5 3 = d := by
  unfold wC
  ext j hj
  simp
  grind

@[simp] theorem sel_wC_aluReg (q : BitVec 2) (op : BitVec 3) (x b : BitVec 3) (s : BitVec 2) (d : BitVec 3) :
    (wC q op (x ++ b ++ s ++ d)).extractLsb' 8 2 = s := by
  unfold wC
  ext j hj
  simp
  grind

@[simp] theorem rs2_wC_aluReg (q : BitVec 2) (op : BitVec 3) (x b : BitVec 3) (s : BitVec 2) (d : BitVec 3) :
    (wC q op (x ++ b ++ s ++ d)).extractLsb' 10 3 = b := by
  unfold wC
  ext j hj
  simp
  grind

@[simp] theorem flag_wC_aluReg (q : BitVec 2) (op : BitVec 3) (x b : BitVec 3) (s : BitVec 2) (d : BitVec 3) :
    (wC q op (x ++ b ++ s ++ d)).extractLsb' 15 1 = x.extractLsb' 2 1 := by
  unfold wC
  ext j hj
  simp
  grind

@[simp] theorem fn_wC_aluReg (q : BitVec 2) (op : BitVec 3) (x b : BitVec 3) (s : BitVec 2) (d : BitVec 3) :
    (wC q op (x ++ b ++ s ++ d)).extractLsb' 13 2 = x.extractLsb' 0 2 := by
  unfold wC
  ext j hj
  simp
  grind

/-! ### The instruction that the selectors of an encoding name -/

/-- The head read back from a word is the head written. -/
theorem headOf_of_low {w : BitVec 32} {mj : BitVec 6} {hd : Head} (h : w.extractLsb' 0 10 = wLow mj hd)
    (hh : headOk hd = true) : headOf w ((if hd.s then some hd.mask else none).getD 0) = hd := by
  have e2 : w.extractLsb' 2 1 = (w.extractLsb' 0 10).extractLsb' 2 1 := by ext j hj; simp
  have e3 : w.extractLsb' 3 1 = (w.extractLsb' 0 10).extractLsb' 3 1 := by ext j hj; simp
  have he : (wLow mj hd).extractLsb' 3 1 = bit1 hd.e := by unfold wLow; ext j hj; simp; grind
  have hs : (wLow mj hd).extractLsb' 2 1 = bit1 hd.s := by unfold wLow; ext j hj; simp; grind
  obtain ⟨s, e, mask⟩ := hd
  simp only [headOf, e2, e3, h, hs, he, headOk] at *
  cases s <;> cases e <;> simp_all [bit1]

/-- What the selectors of an encoding name, before its unused fields are looked at (step 1 of R222). -/
noncomputable def named (k : Code) : Option Instr :=
  if k.len = 2 then select16 (k.w.setWidth 16) else select32 (headOf k.w (k.mask.getD 0)) k.w k.c

section
variable {hd : Head} {w : BitVec 32} {mj : BitVec 6} (hh : headOk hd = true)
include hh

theorem named_code32 (h : w.extractLsb' 0 10 = wLow mj hd) : named (code32 hd w) = select32 hd w 0 := by
  simp only [named, code32, headOf_of_low h hh]
  simp

theorem named_code64 {c : BitVec 32} (h : w.extractLsb' 0 10 = wLow mj hd) :
    named (code64 hd w c) = select32 hd w c := by
  simp only [named, code64, headOf_of_low h hh]
  simp

@[simp] theorem named_wRR (fn : BitVec 7) (d a b : Reg) :
    named (code32 hd (wRR mj fn hd d a b)) = select32 hd (wRR mj fn hd d a b) 0 := named_code32 hh (low_wRR ..)

@[simp] theorem named_wRI (d a : Reg) (i : BitVec 12) :
    named (code32 hd (wRI mj hd d a i)) = select32 hd (wRI mj hd d a i) 0 := named_code32 hh (low_wRI ..)

@[simp] theorem named_wJP (d : Reg) (i : BitVec 17) :
    named (code32 hd (wJP mj hd d i)) = select32 hd (wJP mj hd d i) 0 := named_code32 hh (low_wJP ..)

@[simp] theorem named_wQR (fn : BitVec 2) (d a b c : Reg) :
    named (code32 hd (wQR mj fn hd d a b c)) = select32 hd (wQR mj fn hd d a b c) 0 := named_code32 hh (low_wQR ..)

@[simp] theorem named_wLP (n : BitVec 10) (i : BitVec 12) :
    named (code32 hd (wLP mj hd n i)) = select32 hd (wLP mj hd n i) 0 := named_code32 hh (low_wLP ..)

@[simp] theorem named_wM (o : BitVec 2) (d a : Reg) (u : BitVec 1) (w : BitVec 2) (i : BitVec 7) :
    named (code32 hd (wM mj o hd d a u w i)) = select32 hd (wM mj o hd d a u w i) 0 := named_code32 hh (low_wM ..)

@[simp] theorem named_wV (op : BitVec 4) (t : BitVec 3) (d a b : Reg) :
    named (code32 hd (wV mj op t hd d a b)) = select32 hd (wV mj op t hd d a b) 0 := named_code32 hh (low_wV ..)

/-- The 64-bit forms are those of MAJ 0x3F (R216). -/
@[simp] theorem named_ext (fn : BitVec 7) (d a b : Reg) (c : BitVec 32) :
    named (code64 hd (wRR 0x3F fn hd d a b) c) = selExt hd (wRR 0x3F fn hd d a b) c := by
  rw [named_code64 hh (low_wRR ..)]
  simp [select32]

end

@[simp] theorem named_code16 (h : BitVec 16) : named (code16 h) = select16 h := by
  simp [named, code16, BitVec.setWidth_setWidth_of_le]

/-- The selectors of a well-formed instruction's encoding name the instruction. -/
def Named (i : Instr) : Prop := ∀ k, i.wellFormed = true → encode i = some k → named k = some i
end Sys2Proof

/-! PROOFS. The selectors of an encoding name the instruction encoded (R227, R228). -/

namespace Sys2Proof

set_option Elab.async false

/-- A slice of two joined parts that lies in one of them. -/
theorem slice_append {m n s l : Nat} (x : BitVec m) (y : BitVec n) :
    (x ++ y).extractLsb' s l = if n ≤ s then x.extractLsb' (s - n) l
      else if s + l ≤ n then y.extractLsb' s l else (x ++ y).extractLsb' s l := by
  split
  · exact BitVec.extractLsb'_append_eq_of_le ‹_›
  · split
    · exact BitVec.extractLsb'_append_eq_of_add_le ‹_›
    · rfl

/-! One theorem for each selector of the decoder (R227, R228). -/

theorem select32_alu (hd : Head) {w c : BitVec 32} (h : maj w = 0x01) : select32 hd w c = selAlu hd w := by
  simp only [select32, selectBase, h]
  rfl

/-- ALU. -/
theorem named_alu (hd : Head) :
    (∀ d a b, Named (.add hd d a b)) ∧ (∀ d a b, Named (.sub hd d a b)) ∧ (∀ d a b, Named (.and hd d a b)) ∧
    (∀ d a b, Named (.or hd d a b)) ∧ (∀ d a b, Named (.xor hd d a b)) ∧ (∀ d a b, Named (.sll hd d a b)) ∧
    (∀ d a b, Named (.srl hd d a b)) ∧ (∀ d a b, Named (.sra hd d a b)) ∧ (∀ d a b, Named (.rol hd d a b)) ∧
    (∀ d a b, Named (.ror hd d a b)) ∧ (∀ d a b, Named (.slt hd d a b)) ∧ (∀ d a b, Named (.sltu hd d a b)) ∧
    (∀ d a b, Named (.min hd d a b)) ∧ (∀ d a b, Named (.max hd d a b)) ∧ (∀ d a b, Named (.minu hd d a b)) ∧
    (∀ d a b, Named (.maxu hd d a b)) ∧ (∀ d a b, Named (.addw hd d a b)) ∧ (∀ d a b, Named (.subw hd d a b)) ∧
    (∀ d a b, Named (.andn hd d a b)) ∧ (∀ d a b, Named (.orn hd d a b)) ∧ (∀ d a b, Named (.addsat hd d a b)) ∧
    (∀ d a b, Named (.subsat hd d a b)) := by
  and_intros
  all_goals
    intros
    intro k hw hi
    obtain rfl := Option.some.inj hi
    simp only [Instr.wellFormed] at hw
    simp [select32_alu, selAlu, hw]

/-- the immediate forms. -/
theorem named_immediate (hd : Head) :
    (∀ d a i, Named (.addi hd d a i)) ∧ (∀ d a i, Named (.andi hd d a i)) ∧ (∀ d a i, Named (.ori hd d a i)) ∧
    (∀ d a i, Named (.xori hd d a i)) ∧ (∀ d a i, Named (.slti hd d a i)) ∧ (∀ d a i, Named (.sltiu hd d a i)) ∧
    (∀ d i, Named (.lhi hd d i)) ∧ (∀ d i, Named (.addpc hd d i)) := by
  and_intros
  all_goals
    intros
    intro k hw hi
    obtain rfl := Option.some.inj hi
    simp only [Instr.wellFormed] at hw
    simp [select32, selectBase, hw]

theorem select32_shi (hd : Head) {w c : BitVec 32} (h : maj w = 0x06) : select32 hd w c = selShi hd w := by
  simp only [select32, selectBase, h]
  rfl

/-- SHI. -/
theorem named_shi (hd : Head) :
    (∀ d a n, Named (.slli hd d a n)) ∧ (∀ d a n, Named (.srli hd d a n)) ∧ (∀ d a n, Named (.srai hd d a n)) ∧
    (∀ d a n, Named (.rori hd d a n)) := by
  and_intros
  all_goals
    intros
    intro k hw hi
    obtain rfl := Option.some.inj hi
    simp only [Instr.wellFormed] at hw
    simp [select32_shi, selShi, hw]

theorem select32_mulDiv (hd : Head) {w c : BitVec 32} (h : maj w = 0x0B) : select32 hd w c = selMul hd w := by
  simp only [select32, selectBase, h]
  rfl

/-- MULDIV. -/
theorem named_mulDiv (hd : Head) :
    (∀ d a b, Named (.mul hd d a b)) ∧ (∀ d a b, Named (.mulh hd d a b)) ∧ (∀ d a b, Named (.mulhu hd d a b)) ∧
    (∀ d a b, Named (.mulhsu hd d a b)) ∧ (∀ d a b, Named (.div hd d a b)) ∧ (∀ d a b, Named (.divu hd d a b)) ∧
    (∀ d a b, Named (.rem hd d a b)) ∧ (∀ d a b, Named (.remu hd d a b)) ∧ (∀ d a b, Named (.mulw hd d a b)) := by
  and_intros
  all_goals
    intros
    intro k hw hi
    obtain rfl := Option.some.inj hi
    simp only [Instr.wellFormed] at hw
    simp [select32_mulDiv, selMul, hw]

theorem select32_bit (hd : Head) {w c : BitVec 32} (h : maj w = 0x0C) : select32 hd w c = selBit hd w := by
  simp only [select32, selectBase, h]
  rfl

/-- BIT. -/
theorem named_bit (hd : Head) :
    (∀ d a, Named (.clz hd d a)) ∧ (∀ d a, Named (.ctz hd d a)) ∧ (∀ d a, Named (.popc hd d a)) ∧
    (∀ d a, Named (.brev hd d a)) ∧ (∀ d a, Named (.bswap hd d a)) ∧ (∀ d a, Named (.sextb hd d a)) ∧
    (∀ d a, Named (.sexth hd d a)) ∧ (∀ d a, Named (.sextw hd d a)) ∧ (∀ d a, Named (.zextw hd d a)) ∧
    (∀ d a b, Named (.clmul hd d a b)) ∧ (∀ d a b, Named (.clmulh hd d a b)) ∧
    (∀ d a b, Named (.clmulr hd d a b)) ∧ (∀ d a b, Named (.bfx hd d a b)) ∧ (∀ d a b, Named (.bfi hd d a b)) := by
  and_intros
  all_goals
    intros
    intro k hw hi
    obtain rfl := Option.some.inj hi
    simp only [Instr.wellFormed] at hw
    simp [select32_bit, selBit, hw]

theorem select32_fps (hd : Head) {w c : BitVec 32} (h : maj w = 0x0D) : select32 hd w c = selFps hd w := by
  simp only [select32, selectBase, h]
  rfl

/-- FPS. -/
theorem named_fps (hd : Head) :
    (∀ d a b, Named (.faddS hd d a b)) ∧ (∀ d a b, Named (.fsubS hd d a b)) ∧ (∀ d a b, Named (.fmulS hd d a b)) ∧
    (∀ d a b, Named (.fdivS hd d a b)) ∧ (∀ d a, Named (.fsqrtS hd d a)) ∧ (∀ d a b, Named (.fminS hd d a b)) ∧
    (∀ d a b, Named (.fmaxS hd d a b)) ∧ (∀ d a b, Named (.feqS hd d a b)) ∧ (∀ d a b, Named (.fltS hd d a b)) ∧
    (∀ d a b, Named (.fleS hd d a b)) ∧ (∀ d a, Named (.fclassS hd d a)) ∧ (∀ d a, Named (.fcvtSL hd d a)) ∧
    (∀ d a, Named (.fcvtSLu hd d a)) ∧ (∀ d a, Named (.fcvtLS hd d a)) ∧ (∀ d a, Named (.fcvtLuS hd d a)) ∧
    (∀ d a b, Named (.fsgnjS hd d a b)) ∧ (∀ d a b, Named (.fsgnjnS hd d a b)) ∧
    (∀ d a b, Named (.fsgnjxS hd d a b)) := by
  and_intros
  all_goals
    intros
    intro k hw hi
    obtain rfl := Option.some.inj hi
    simp only [Instr.wellFormed] at hw
    simp [select32_fps, selFps, hw]

theorem select32_fma4 (hd : Head) {w c : BitVec 32} (h : maj w = 0x0E) : select32 hd w c = selFma hd w := by
  simp only [select32, selectBase, h]
  rfl

/-- FMA4. -/
theorem named_fma4 (hd : Head) :
    (∀ d a b c, Named (.fmaddS hd d a b c)) ∧ (∀ d a b c, Named (.fmsubS hd d a b c)) ∧
    (∀ d a b c, Named (.fnmaddS hd d a b c)) ∧ (∀ d a b c, Named (.fnmsubS hd d a b c)) := by
  and_intros
  all_goals
    intros
    intro k hw hi
    obtain rfl := Option.some.inj hi
    simp only [Instr.wellFormed] at hw
    simp [select32_fma4, selFma, hw]

/-- branches, jumps and loops. -/
theorem named_branch (hd : Head) :
    (∀ a b o, Named (.beq hd a b o)) ∧ (∀ a b o, Named (.bne hd a b o)) ∧ (∀ a b o, Named (.blt hd a b o)) ∧
    (∀ a b o, Named (.bge hd a b o)) ∧ (∀ a b o, Named (.bltu hd a b o)) ∧ (∀ a b o, Named (.bgeu hd a b o)) ∧
    (∀ d i, Named (.jal hd d i)) ∧ (∀ d a i, Named (.jalr hd d a i)) ∧ (∀ a i, Named (.loop hd a i)) ∧
    (∀ n i, Named (.loopi hd n i)) := by
  and_intros
  all_goals
    intros
    intro k hw hi
    obtain rfl := Option.some.inj hi
    simp only [Instr.wellFormed, Bool.and_eq_true] at hw
    simp [select32, selectBase, hw]

/-- loads and stores. -/
theorem named_loadStore (hd : Head) :
    (∀ d a w u i, Named (.ld hd d a w u i)) ∧ (∀ d a w u i, Named (.ldAcq hd d a w u i)) ∧
    (∀ d a w u i, Named (.ldl hd d a w u i)) ∧ (∀ d a w i, Named (.st hd d a w i)) ∧
    (∀ d a w i, Named (.stRel hd d a w i)) ∧ (∀ d a w i, Named (.stu hd d a w i)) ∧
    (∀ d a b w u q, Named (.ldx hd d a b w u q)) ∧ (∀ d a b w r, Named (.stx hd d a b w r)) := by
  and_intros
  all_goals
    intros
    intro k hw hi
    obtain rfl := Option.some.inj hi
    simp only [Instr.wellFormed, Bool.and_eq_true] at hw
    simp [select32, selectBase, selLd, selSt, hw]

theorem select32_amo (hd : Head) {w c : BitVec 32} (h : maj w = 0x1C) : select32 hd w c = selAmo hd w := by
  simp only [select32, selectBase, h]
  rfl

/-- AMO. -/
theorem named_amo (hd : Head) :
    (∀ d a b w o, Named (.amoadd hd d a b w o)) ∧ (∀ d a b w o, Named (.amoand hd d a b w o)) ∧
    (∀ d a b w o, Named (.amoor hd d a b w o)) ∧ (∀ d a b w o, Named (.amoxor hd d a b w o)) ∧
    (∀ d a b w o, Named (.amomin hd d a b w o)) ∧ (∀ d a b w o, Named (.amomax hd d a b w o)) ∧
    (∀ d a b w o, Named (.amominu hd d a b w o)) ∧ (∀ d a b w o, Named (.amomaxu hd d a b w o)) ∧
    (∀ d a b w o, Named (.amoswap hd d a b w o)) ∧ (∀ d a b w o, Named (.amocas hd d a b w o)) := by
  and_intros
  all_goals
    intros
    intro k hw hi
    obtain rfl := Option.some.inj hi
    simp only [Instr.wellFormed] at hw
    simp [select32_amo, selAmo, hw]

theorem select32_fence (hd : Head) {w c : BitVec 32} (h : maj w = 0x1D) : select32 hd w c = selFence hd w := by
  simp only [select32, selectBase, h]
  rfl

/-- FENCE. -/
theorem named_fence (hd : Head) :
    (∀ c, Named (.fence hd c)) ∧ (∀ c, Named (.fenceAcq hd c)) ∧ (∀ c, Named (.fenceRel hd c)) ∧
    (∀ c, Named (.fenceV hd c)) := by
  and_intros
  all_goals
    intros
    intro k hw hi
    obtain rfl := Option.some.inj hi
    simp only [Instr.wellFormed, Bool.and_eq_true] at hw
    simp [select32_fence, selFence, hw]

theorem select32_vault (hd : Head) {w c : BitVec 32} (h : maj w = 0x20) : select32 hd w c = selVault hd w := by
  simp only [select32, selectBase, h]
  rfl

/-- VAULT. -/
theorem named_vault (hd : Head) :
    (∀ a, Named (.act hd a)) ∧ (∀ c a, Named (.actEngine hd c a)) ∧ (∀ a, Named (.pre hd a)) ∧
    (∀ c a, Named (.preEngine hd c a)) ∧ Named (.prea hd) ∧ (∀ d a, Named (.vstat hd d a)) ∧
    (∀ d, Named (.vevt hd d)) := by
  and_intros
  all_goals
    intros
    intro k hw hi
    obtain rfl := Option.some.inj hi
    simp only [Instr.wellFormed, Bool.and_eq_true, notX0, bne_iff_ne, BitVec.ofNat_eq_ofNat] at hw
    simp [select32_vault, selVault, hw]

theorem select32_rpc (hd : Head) {w c : BitVec 32} (h : maj w = 0x21) : select32 hd w c = selRpc hd w := by
  simp only [select32, selectBase, h]
  rfl

/-- RPC. -/
theorem named_rpc (hd : Head) :
    (∀ d a w o, Named (.rload hd d a w o)) ∧ (∀ d a w o, Named (.rstore hd d a w o)) ∧
    (∀ d a w o, Named (.ramoadd hd d a w o)) ∧ (∀ d a w o, Named (.ramoand hd d a w o)) ∧
    (∀ d a w o, Named (.ramoor hd d a w o)) ∧ (∀ d a w o, Named (.ramoxor hd d a w o)) ∧
    (∀ d a w o, Named (.ramomin hd d a w o)) ∧ (∀ d a w o, Named (.ramomax hd d a w o)) ∧
    (∀ d a w o, Named (.ramominu hd d a w o)) ∧ (∀ d a w o, Named (.ramomaxu hd d a w o)) ∧
    (∀ d a w o, Named (.ramoswap hd d a w o)) ∧ (∀ d a w o, Named (.ramocas hd d a w o)) ∧
    (∀ d a b, Named (.migrate hd d a b)) ∧ (∀ a, Named (.reply hd a)) ∧ Named (.hret hd) ∧
    (∀ a b, Named (.hset hd a b)) ∧ (∀ a, Named (.hclr hd a)) := by
  and_intros
  all_goals
    intros
    intro k hw hi
    obtain rfl := Option.some.inj hi
    simp only [Instr.wellFormed, Bool.and_eq_true] at hw
    simp [select32_rpc, selRpc, hw]

theorem select32_mbx (hd : Head) {w c : BitVec 32} (h : maj w = 0x22) : select32 hd w c = selMbx hd w := by
  simp only [select32, selectBase, h]
  rfl

/-- MBX. -/
theorem named_mbx (hd : Head) :
    (∀ a b, Named (.mbxAdd hd a b)) ∧ (∀ c a b, Named (.mbxAddEngine hd c a b)) ∧
    (∀ d a b, Named (.mbxWait hd d a b)) ∧ (∀ d a, Named (.mbxRead hd d a)) ∧ (∀ a b, Named (.mbxSet hd a b)) ∧
    (∀ a, Named (.bfree hd a)) := by
  and_intros
  all_goals
    intros
    intro k hw hi
    obtain rfl := Option.some.inj hi
    simp only [Instr.wellFormed, Bool.and_eq_true, notX0, bne_iff_ne, BitVec.ofNat_eq_ofNat] at hw
    simp [select32_mbx, selMbx, hw]

/-- FE and WAITTK. -/
theorem named_fullEmpty (hd : Head) :
    (∀ d f, Named (.sete hd d f)) ∧ (∀ d a f, Named (.isfull hd d a f)) ∧ (∀ d k, Named (.tkq hd d k)) ∧
    (∀ d k, Named (.tkflt hd d k)) ∧ (∀ m, Named (.waittk hd m)) := by
  and_intros
  all_goals
    intros
    intro k hw hi
    obtain rfl := Option.some.inj hi
    simp only [Instr.wellFormed] at hw
    simp [select32, selectBase, selFe, hw]

theorem select32_sys (hd : Head) {w c : BitVec 32} (h : maj w = 0x26) : select32 hd w c = selSys hd w := by
  simp only [select32, selectBase, h]
  rfl

/-- SYS. -/
theorem named_sys (hd : Head) :
    (∀ a, Named (.trap hd a)) ∧ Named (.eret hd) ∧ Named (.halt hd) ∧ Named (.yield hd) ∧ Named (.exit hd) ∧
    Named (.vmodeL hd) ∧ Named (.vmodeS hd) ∧ (∀ d a, Named (.launch hd d a)) ∧ (∀ d a, Named (.cancel hd d a)) ∧
    (∀ d a, Named (.waitctr hd d a)) ∧ Named (.brk hd) ∧ (∀ a, Named (.pause hd a)) ∧
    (∀ a b, Named (.tlbinv hd a b)) ∧ Named (.fenceI hd) ∧ Named (.xbegin hd) ∧ (∀ d, Named (.xcommit hd d)) ∧
    Named (.xabort hd) := by
  and_intros
  all_goals
    intros
    intro k hw hi
    obtain rfl := Option.some.inj hi
    simp only [Instr.wellFormed] at hw
    simp [select32_sys, selSys, hw]

/-- the CSR instructions. -/
theorem named_csr (hd : Head) :
    (∀ d a c, Named (.csrxch hd d a c)) ∧ (∀ d a c, Named (.csrbis hd d a c)) ∧
    (∀ d a c, Named (.csrbic hd d a c)) := by
  and_intros
  all_goals
    intros
    intro k hw hi
    obtain rfl := Option.some.inj hi
    simp only [Instr.wellFormed] at hw
    simp [select32, selectBase, hw]

theorem select32_va (hd : Head) {w c : BitVec 32} (h : maj w = 0x2A) : select32 hd w c = selVa hd w := by
  simp only [select32, selectBase, h]
  rfl

/-- VA. -/
theorem named_va (hd : Head) :
    (∀ d a b t, Named (.vadd hd d a b t)) ∧ (∀ d a b t, Named (.vsub hd d a b t)) ∧
    (∀ d a b t, Named (.vmul hd d a b t)) ∧ (∀ d a b t, Named (.vmin hd d a b t)) ∧
    (∀ d a b t, Named (.vmax hd d a b t)) ∧ (∀ d a b t, Named (.vabsd hd d a b t)) ∧
    (∀ d a b t, Named (.vand hd d a b t)) ∧ (∀ d a b t, Named (.vor hd d a b t)) ∧
    (∀ d a b t, Named (.vxor hd d a b t)) ∧ (∀ d a b t, Named (.vshl hd d a b t)) ∧
    (∀ d a b t, Named (.vshr hd d a b t)) ∧ (∀ d a b t, Named (.vsra hd d a b t)) ∧
    (∀ d a b t, Named (.vadds hd d a b t)) ∧ (∀ d a b t, Named (.vsubs hd d a b t)) ∧
    (∀ d a b t, Named (.vmulh hd d a b t)) ∧ (∀ d a b t, Named (.vavg hd d a b t)) := by
  and_intros
  all_goals
    intros
    intro k hw hi
    obtain rfl := Option.some.inj hi
    simp only [Instr.wellFormed, Bool.and_eq_true] at hw
    simp [select32_va, selVa, hw]

theorem select32_vc (hd : Head) {w c : BitVec 32} (h : maj w = 0x2B) : select32 hd w c = selVc hd w := by
  simp only [select32, selectBase, h]
  rfl

/-- VC. -/
theorem named_vc (hd : Head) :
    (∀ d a b t, Named (.vceq hd d a b t)) ∧ (∀ d a b t, Named (.vclt hd d a b t)) ∧
    (∀ d a b t, Named (.vcle hd d a b t)) ∧ (∀ d a b t, Named (.vcltu hd d a b t)) ∧
    (∀ d a b t, Named (.vsel hd d a b t)) ∧ (∀ d a b t, Named (.vfma hd d a b t)) ∧
    (∀ d a b t, Named (.vfms hd d a b t)) ∧ (∀ d a b p, Named (.vdot hd d a b p)) ∧
    (∀ d a b t, Named (.vclmul hd d a b t)) ∧ (∀ d a b t, Named (.vclmulh hd d a b t)) ∧
    (∀ d a b, Named (.vrcps hd d a b)) ∧ (∀ d a b, Named (.vrsqs hd d a b)) := by
  and_intros
  all_goals
    intros
    intro k hw hi
    obtain rfl := Option.some.inj hi
    simp only [Instr.wellFormed, Bool.and_eq_true] at hw
    simp [select32_vc, selVc, hw]

theorem select32_vu (hd : Head) {w c : BitVec 32} (h : maj w = 0x2C) : select32 hd w c = selVu hd w := by
  simp only [select32, selectBase, h]
  rfl

/-- VU. -/
theorem named_vu (hd : Head) :
    (∀ d a, Named (.vrcp hd d a)) ∧ (∀ d a, Named (.vrsq hd d a)) ∧ (∀ d a, Named (.vexp2 hd d a)) ∧
    (∀ d a, Named (.vlog2 hd d a)) ∧ (∀ d a t, Named (.vsqrt hd d a t)) ∧ (∀ d a t, Named (.vabs hd d a t)) ∧
    (∀ d a t, Named (.vneg hd d a t)) ∧ (∀ d a t, Named (.vpopc hd d a t)) ∧
    (∀ d a g t, Named (.vcvt hd d a g t)) ∧ (∀ d a t, Named (.vredadd hd d a t)) ∧
    (∀ d a t, Named (.vredmax hd d a t)) ∧ (∀ d a t, Named (.vredmin hd d a t)) ∧
    (∀ d a t, Named (.vclz hd d a t)) := by
  and_intros
  all_goals
    intros
    intro k hw hi
    obtain rfl := Option.some.inj hi
    simp only [Instr.wellFormed, Bool.and_eq_true] at hw
    simp [select32_vu, selVu, hw]

theorem select32_vm (hd : Head) {w c : BitVec 32} (h : maj w = 0x2D) : select32 hd w c = selVm hd w := by
  simp only [select32, selectBase, h]
  rfl

/-- VM. -/
theorem named_vm (hd : Head) :
    (∀ d a, Named (.vld hd d a)) ∧ (∀ d a, Named (.vst hd d a)) ∧ (∀ d a b t, Named (.vlds hd d a b t)) ∧
    (∀ d a b t, Named (.vsts hd d a b t)) ∧ (∀ d a t, Named (.vbcast hd d a t)) ∧
    (∀ d a b t, Named (.vins hd d a b t)) ∧ (∀ d a b t, Named (.vext hd d a b t)) ∧
    (∀ d a, Named (.vldrow hd d a)) := by
  and_intros
  all_goals
    intros
    intro k hw hi
    obtain rfl := Option.some.inj hi
    simp only [Instr.wellFormed] at hw
    simp [select32_vm, selVm, hw]

theorem select32_vp (hd : Head) {w c : BitVec 32} (h : maj w = 0x2E) : select32 hd w c = selVp hd w := by
  simp only [select32, selectBase, h]
  rfl

/-- VP. -/
theorem named_vp (hd : Head) :
    (∀ d a b t, Named (.vperm hd d a b t)) ∧ (∀ d a b t, Named (.vzip hd d a b t)) ∧
    (∀ d a b t, Named (.vunzip hd d a b t)) ∧ (∀ d a b t, Named (.vmergeLo hd d a b t)) ∧
    (∀ d a b t, Named (.vmergeHi hd d a b t)) ∧ (∀ d a t, Named (.vsort hd d a t)) ∧
    (∀ d a b t, Named (.vslide hd d a b t)) := by
  and_intros
  all_goals
    intros
    intro k hw hi
    obtain rfl := Option.some.inj hi
    simp only [Instr.wellFormed, Bool.and_eq_true] at hw
    simp [select32_vp, selVp, hw]

/-- The matrix commands (R224). -/
theorem named_matrix (hd : Head) :
    (∀ a tk wait dst fmt rows sc frow, Named (.tld hd a tk wait dst fmt rows sc frow)) ∧
    (∀ d a b tk wait fmt rows sc frow, Named (.tldP hd d a b tk wait fmt rows sc frow)) ∧
    (∀ a tk wait row0 rows ofmt satf, Named (.tst hd a tk wait row0 rows ofmt satf)) ∧
    (∀ d a b tk wait src fmt sc frow, Named (.wload hd d a b tk wait src fmt sc frow)) ∧
    (∀ d b tk wait asrc fmt rows lt sat ftz wreg, Named (.mma hd d b tk wait asrc fmt rows lt sat ftz wreg)) ∧
    (∀ tk wait, Named (.aswap hd tk wait)) ∧ (∀ tk wait cf, Named (.aclr hd tk wait cf)) ∧
    (∀ tk wait row0 rows wreg, Named (.ard hd tk wait row0 rows wreg)) ∧
    (∀ d b tk wait row0 rows ofmt satf, Named (.ast hd d b tk wait row0 rows ofmt satf)) := by
  and_intros
  all_goals
    intros
    intro k hw hi
    obtain rfl := Option.some.inj hi
    simp only [Instr.wellFormed, Bool.and_eq_true] at hw
    simp only [hw, named_ext, selExt, selExtLow, fd_wRR, fa_wRR, fb_wRR, fn7_wRR, BitVec.reduceToNat]
    simp only [Option.some.injEq, true_and, Instr.tld.injEq, Instr.tldP.injEq, Instr.wload.injEq, Instr.tst.injEq,
      Instr.ast.injEq, Instr.ard.injEq, Instr.mma.injEq, Instr.aswap.injEq, Instr.aclr.injEq]
    and_intros
    all_goals
      repeat (rw [slice_append]; simp only [Nat.reduceLeDiff, Nat.reduceSub, Nat.reduceAdd, ↓reduceIte,
        BitVec.extractLsb'_eq_self])

/-- VPIPE, SELQ, LEASE, copies and calls (R224). -/
theorem named_engine (hd : Head) :
    (∀ d try1, Named (.lease hd d try1)) ∧ (∀ d a b tk wait rr flt, Named (.vpipe hd d a b tk wait rr flt)) ∧
    (∀ d a b tk wait rr flt, Named (.selq hd d a b tk wait rr flt)) ∧
    (∀ a b tk wait tmpl, Named (.copy hd a b tk wait tmpl)) ∧
    (∀ d a b tk wait tmpl, Named (.copyMc hd d a b tk wait tmpl)) ∧
    (∀ d a tk wait hidx rr ord, Named (.rcall hd d a tk wait hidx rr ord)) := by
  and_intros
  all_goals
    intros
    intro k hw hi
    obtain rfl := Option.some.inj hi
    simp only [Instr.wellFormed, Bool.and_eq_true] at hw
    simp only [hw, named_ext, selExt, selExtLow, fd_wRR, fa_wRR, fb_wRR, fn7_wRR, BitVec.reduceToNat]
    simp only [Option.some.injEq, true_and, Instr.vpipe.injEq, Instr.selq.injEq, Instr.lease.injEq,
      Instr.copy.injEq, Instr.copyMc.injEq, Instr.rcall.injEq]
    and_intros
    all_goals
      repeat (rw [slice_append]; simp only [Nat.reduceLeDiff, Nat.reduceSub, Nat.reduceAdd, ↓reduceIte,
        BitVec.extractLsb'_eq_self])

/-- The tape commands (R224). -/
theorem named_tape (hd : Head) :
    (∀ d id lim, Named (.tapeRec hd d id lim)) ∧ (∀ a tk wait id, Named (.tapePlay hd a tk wait id)) ∧
    (∀ a b slot, Named (.tapePatch hd a b slot)) ∧ (∀ a tk wait id, Named (.tapeSave hd a tk wait id)) ∧
    (∀ a tk wait id, Named (.tapeLoad hd a tk wait id)) := by
  and_intros
  all_goals
    intros
    intro k hw hi
    obtain rfl := Option.some.inj hi
    simp only [Instr.wellFormed, Bool.and_eq_true] at hw
    simp only [hw, named_ext, selExt, selExtLow, fd_wRR, fa_wRR, fb_wRR, fn7_wRR, BitVec.reduceToNat]
    simp only [Option.some.injEq, true_and, Instr.tapeRec.injEq, Instr.tapePlay.injEq, Instr.tapePatch.injEq,
      Instr.tapeSave.injEq, Instr.tapeLoad.injEq]
    and_intros
    all_goals
      repeat (rw [slice_append]; simp only [Nat.reduceLeDiff, Nat.reduceSub, Nat.reduceAdd, ↓reduceIte,
        BitVec.extractLsb'_eq_self])

/-- TAPE.INV, TMPL and XSTORE (R224). -/
theorem named_short (hd : Head) :
    (∀ a slot, Named (.tmpl hd a slot)) ∧ (∀ id, Named (.tapeInv hd id)) ∧
    (∀ a b w, Named (.xstore hd a b w)) := by
  and_intros
  all_goals
    intros
    intro k hw hi
    obtain rfl := Option.some.inj hi
    simp only [Instr.wellFormed] at hw
    simp only [codeXstore, codeTapeInv, codeTmpl, hw, named_ext, selExt, fa_wRR, fb_wRR, fn7_wRR, BitVec.reduceToNat]
    simp only [Option.some.injEq, true_and, Instr.tapeInv.injEq, Instr.tmpl.injEq, Instr.xstore.injEq]
    repeat (rw [slice_append]; simp only [Nat.reduceLeDiff, Nat.reduceAdd, ↓reduceIte, BitVec.extractLsb'_eq_self])

/-- The 64-bit forms whose control word is not divided. -/
theorem named_wholeControl (hd : Head) :
    Named (.release hd) ∧ (∀ d, Named (.tapeEnd hd d)) ∧ (∀ d a imm, Named (.li32 hd d a imm)) := by
  and_intros
  all_goals
    intros
    intro k hw hi
    obtain rfl := Option.some.inj hi
    simp only [Instr.wellFormed] at hw
    simp only [codeLi32, hw, named_ext, selExt, selExtLow, fd_wRR, fa_wRR, fn7_wRR, BitVec.reduceToNat]


/-- the compressed forms. -/
theorem named_compressed :
    (∀ d u, Named (.cAddisp d u)) ∧ (∀ d a u, Named (.cLd d a u)) ∧ (∀ d a u, Named (.cSt d a u)) ∧
    (∀ m, Named (.cWaittk m)) ∧ (∀ d i, Named (.cAddi d i)) ∧ (∀ d i, Named (.cLi d i)) ∧
    (∀ d n, Named (.cSrli d n)) ∧ (∀ d n, Named (.cSrai d n)) ∧ (∀ d i, Named (.cAndi d i)) ∧
    (∀ d b, Named (.cSub d b)) ∧ (∀ d b, Named (.cXor d b)) ∧ (∀ d b, Named (.cOr d b)) ∧
    (∀ d b, Named (.cAnd d b)) ∧ (∀ o, Named (.cJ o)) ∧ (∀ a o, Named (.cBeqz a o)) ∧ (∀ a o, Named (.cBnez a o)) ∧
    (∀ d n, Named (.cSlli d n)) ∧ (∀ d u, Named (.cLdsp d u)) ∧ (∀ d u, Named (.cStsp d u)) ∧
    (∀ a, Named (.cJr a)) ∧ (∀ d b, Named (.cMv d b)) ∧ (∀ a, Named (.cJalr a)) ∧ (∀ d b, Named (.cAdd d b)) := by
  and_intros
  all_goals
    intros
    intro k hw hi
    obtain rfl := Option.some.inj hi
    simp only [codeCAddisp, codeCLd, codeCSt, codeCWaittk, codeCAddi, codeCLi, codeCSrli, codeCSrai, codeCAndi,
      codeCSub, codeCXor, codeCOr, codeCAnd, codeCJ, codeCBeqz, codeCBnez, codeCSlli, codeCLdsp, codeCStsp,
      codeCJr, codeCMv, codeCJalr, codeCAdd, named_code16]
    simp_all [select16, selCReg, selCAlu, notX0, Instr.wellFormed]

/-- The selectors of an instruction's encoding name it. -/
theorem named_encode {i : Instr} {k : Code} (hw : i.wellFormed = true) (hi : encode i = some k) : named k = some i := by
  suffices h : Named i from h k hw hi
  cases i
  case cExit => intro k _ hi; obtain rfl := Option.some.inj hi; rfl
  all_goals first
    | exact fun k _ hi => absurd hi.symm (Option.some_ne_none k)
    | simp only [named_alu, named_immediate, named_shi, named_mulDiv, named_bit, named_fps, named_fma4,
      named_branch, named_loadStore, named_amo, named_fence, named_vault, named_rpc, named_mbx, named_fullEmpty,
      named_sys, named_csr, named_va, named_vc, named_vu, named_vm, named_vp, named_matrix, named_engine,
      named_tape, named_short, named_wholeControl, named_compressed]

end Sys2Proof

/-! PROOFS. Decoding gives back what was encoded (R216, R222). -/

namespace Sys2Proof
open Machine Claims

/-! ### Bytes and numbers (R132) -/

theorem ofBytes_lt (bs : List Byte) : ofBytes bs < 256 ^ bs.length := by
  induction bs with
  | nil => simp [ofBytes]
  | cons b r ih =>
    have := b.isLt
    simp only [ofBytes, List.length_cons, Nat.pow_succ]
    omega

/-- The bytes of the number that bytes form are those bytes. -/
theorem bytesOf_ofBytes (bs : List Byte) : bytesOf bs.length (ofBytes bs) = bs := by
  induction bs with
  | nil => rfl
  | cons b r ih =>
    have hb := b.isLt
    have hd : (b.toNat + 256 * ofBytes r) / 256 = ofBytes r := by omega
    have hm : BitVec.ofNat 8 (b.toNat + 256 * ofBytes r) = b := by
      apply BitVec.eq_of_toNat_eq
      rw [BitVec.toNat_ofNat]
      omega
    simp only [List.length_cons, bytesOf, ofBytes, hd, hm, ih]

/-- The number that the bytes of a number form is that number, as far as the bytes go. -/
theorem ofBytes_bytesOf (n v : Nat) : ofBytes (bytesOf n v) = v % 256 ^ n := by
  induction n generalizing v with
  | zero => simp [bytesOf, ofBytes, Nat.mod_one]
  | succ n ih =>
    rw [bytesOf, ofBytes, ih, BitVec.toNat_ofNat]
    exact (Nat.mod_mul (a := 256)).symm.trans (by rw [Nat.pow_succ'])

theorem word_bytes (w : BitVec 32) : BitVec.ofNat 32 (ofBytes (bytesOf 4 w.toNat)) = w := by
  rw [ofBytes_bytesOf]
  apply BitVec.eq_of_toNat_eq
  have := w.isLt
  rw [BitVec.toNat_ofNat]
  omega

theorem bytes_word {bs : List Byte} {n : Nat} (h : bs.length = n) (hn : n ≤ 4) :
    bytesOf n (BitVec.ofNat 32 (ofBytes bs)).toNat = bs := by
  have hlt : ofBytes bs < 256 ^ 4 := (ofBytes_lt bs).trans_le (h ▸ Nat.pow_le_pow_right (by decide) hn)
  rw [BitVec.toNat_ofNat, Nat.mod_eq_of_lt (hlt.trans_le (by decide)), ← h, bytesOf_ofBytes]

theorem take_bytesOf {j n : Nat} (h : j ≤ n) (v : Nat) : (bytesOf n v).take j = bytesOf j v := by
  induction j generalizing n v with
  | zero => rfl
  | succ j ih =>
    obtain ⟨n, rfl⟩ : ∃ m, n = m + 1 := ⟨n - 1, by omega⟩
    simp only [bytesOf, List.take_succ_cons, ih (Nat.le_of_succ_le_succ h)]

/-- The first parcel of a word's bytes is the low half of the word (R216). -/
theorem parcel_bytes {n : Nat} (h : 2 ≤ n) (w : BitVec 32) (rest : List Byte) :
    BitVec.ofNat 16 (ofBytes ((bytesOf n w.toNat ++ rest).take 2)) = w.setWidth 16 := by
  rw [List.take_append_of_le_length (by rw [bytesOf_length]; exact h), take_bytesOf h, ofBytes_bytesOf]
  apply BitVec.eq_of_toNat_eq
  rw [BitVec.toNat_ofNat, BitVec.toNat_setWidth]
  omega

/-- A code of 2 bytes is a parcel. -/
theorem word_parcel {w : BitVec 32} (h : w.toNat < 2 ^ 16) : BitVec.ofNat 32 (ofBytes (bytesOf 2 w.toNat)) = w := by
  rw [ofBytes_bytesOf]
  apply BitVec.eq_of_toNat_eq
  rw [BitVec.toNat_ofNat]
  omega

/-! ### A code and its bytes (R216) -/

theorem parcelLen_cases (p : BitVec 16) : parcelLen p = 2 ∨ parcelLen p = 4 ∨ parcelLen p = 8 := by
  unfold parcelLen
  split
  · exact .inl rfl
  · split
    · exact .inr (.inl rfl)
    · exact .inr (.inr rfl)

theorem maskLen_of_len2 {p : BitVec 16} (h : parcelLen p = 2) : maskLen p = 0 := by
  unfold parcelLen at h
  unfold maskLen
  split at h
  · next hp => simp_all
  · split at h <;> cases h

theorem encode_shaped {i : Instr} {k : Code} (hi : encode i = some k) : k.Shaped := by
  suffices h : Laws.Shape.Statement i from h k hi
  cases i
  all_goals first
    | exact fun k hi => absurd hi.symm (Option.some_ne_none k)
    | simp only [Laws.Shape.add, Laws.Shape.sub, Laws.Shape.and, Laws.Shape.or, Laws.Shape.xor, Laws.Shape.sll,
      Laws.Shape.srl, Laws.Shape.sra, Laws.Shape.rol, Laws.Shape.ror, Laws.Shape.slt, Laws.Shape.sltu,
      Laws.Shape.min, Laws.Shape.max, Laws.Shape.minu, Laws.Shape.maxu, Laws.Shape.addw, Laws.Shape.subw,
      Laws.Shape.andn, Laws.Shape.orn, Laws.Shape.addsat, Laws.Shape.subsat, Laws.Shape.addi, Laws.Shape.andi,
      Laws.Shape.ori, Laws.Shape.xori, Laws.Shape.slli, Laws.Shape.srli, Laws.Shape.srai, Laws.Shape.rori,
      Laws.Shape.slti, Laws.Shape.sltiu, Laws.Shape.lhi, Laws.Shape.addpc, Laws.Shape.mul, Laws.Shape.mulh,
      Laws.Shape.mulhu, Laws.Shape.mulhsu, Laws.Shape.div, Laws.Shape.divu, Laws.Shape.rem, Laws.Shape.remu,
      Laws.Shape.mulw, Laws.Shape.clz, Laws.Shape.ctz, Laws.Shape.popc, Laws.Shape.brev, Laws.Shape.bswap,
      Laws.Shape.sextb, Laws.Shape.sexth, Laws.Shape.sextw, Laws.Shape.zextw, Laws.Shape.clmul, Laws.Shape.clmulh,
      Laws.Shape.clmulr, Laws.Shape.bfx, Laws.Shape.bfi, Laws.Shape.faddS, Laws.Shape.fsubS, Laws.Shape.fmulS,
      Laws.Shape.fdivS, Laws.Shape.fsqrtS, Laws.Shape.fminS, Laws.Shape.fmaxS, Laws.Shape.feqS, Laws.Shape.fltS,
      Laws.Shape.fleS, Laws.Shape.fclassS, Laws.Shape.fcvtSL, Laws.Shape.fcvtSLu, Laws.Shape.fcvtLS,
      Laws.Shape.fcvtLuS, Laws.Shape.fsgnjS, Laws.Shape.fsgnjnS, Laws.Shape.fsgnjxS, Laws.Shape.fmaddS,
      Laws.Shape.fmsubS, Laws.Shape.fnmaddS, Laws.Shape.fnmsubS, Laws.Shape.beq, Laws.Shape.bne, Laws.Shape.blt,
      Laws.Shape.bge, Laws.Shape.bltu, Laws.Shape.bgeu, Laws.Shape.jal, Laws.Shape.jalr, Laws.Shape.loop,
      Laws.Shape.loopi, Laws.Shape.ld, Laws.Shape.ldAcq, Laws.Shape.ldl, Laws.Shape.st, Laws.Shape.stRel,
      Laws.Shape.stu, Laws.Shape.ldx, Laws.Shape.stx, Laws.Shape.amoadd, Laws.Shape.amoand, Laws.Shape.amoor,
      Laws.Shape.amoxor, Laws.Shape.amomin, Laws.Shape.amomax, Laws.Shape.amominu, Laws.Shape.amomaxu,
      Laws.Shape.amoswap, Laws.Shape.amocas, Laws.Shape.fence, Laws.Shape.fenceAcq, Laws.Shape.fenceRel,
      Laws.Shape.fenceV, Laws.Shape.act, Laws.Shape.actEngine, Laws.Shape.pre, Laws.Shape.preEngine,
      Laws.Shape.prea, Laws.Shape.vstat, Laws.Shape.vevt, Laws.Shape.rload, Laws.Shape.rstore, Laws.Shape.ramoadd,
      Laws.Shape.ramoand, Laws.Shape.ramoor, Laws.Shape.ramoxor, Laws.Shape.ramomin, Laws.Shape.ramomax,
      Laws.Shape.ramominu, Laws.Shape.ramomaxu, Laws.Shape.ramoswap, Laws.Shape.ramocas, Laws.Shape.migrate,
      Laws.Shape.reply, Laws.Shape.hret, Laws.Shape.hset, Laws.Shape.hclr, Laws.Shape.mbxAdd,
      Laws.Shape.mbxAddEngine, Laws.Shape.mbxWait, Laws.Shape.mbxRead, Laws.Shape.mbxSet, Laws.Shape.bfree,
      Laws.Shape.sete, Laws.Shape.isfull, Laws.Shape.tkq, Laws.Shape.tkflt, Laws.Shape.waittk, Laws.Shape.trap,
      Laws.Shape.eret, Laws.Shape.halt, Laws.Shape.yield, Laws.Shape.exit, Laws.Shape.vmodeL, Laws.Shape.vmodeS,
      Laws.Shape.launch, Laws.Shape.cancel, Laws.Shape.waitctr, Laws.Shape.brk, Laws.Shape.pause,
      Laws.Shape.tlbinv, Laws.Shape.fenceI, Laws.Shape.xbegin, Laws.Shape.xcommit, Laws.Shape.xabort,
      Laws.Shape.csrxch, Laws.Shape.csrbis, Laws.Shape.csrbic, Laws.Shape.vadd, Laws.Shape.vsub, Laws.Shape.vmul,
      Laws.Shape.vmin, Laws.Shape.vmax, Laws.Shape.vabsd, Laws.Shape.vand, Laws.Shape.vor, Laws.Shape.vxor,
      Laws.Shape.vshl, Laws.Shape.vshr, Laws.Shape.vsra, Laws.Shape.vadds, Laws.Shape.vsubs, Laws.Shape.vmulh,
      Laws.Shape.vavg, Laws.Shape.vceq, Laws.Shape.vclt, Laws.Shape.vcle, Laws.Shape.vcltu, Laws.Shape.vsel,
      Laws.Shape.vfma, Laws.Shape.vfms, Laws.Shape.vdot, Laws.Shape.vclmul, Laws.Shape.vclmulh, Laws.Shape.vrcps,
      Laws.Shape.vrsqs, Laws.Shape.vrcp, Laws.Shape.vrsq, Laws.Shape.vexp2, Laws.Shape.vlog2, Laws.Shape.vsqrt,
      Laws.Shape.vabs, Laws.Shape.vneg, Laws.Shape.vpopc, Laws.Shape.vcvt, Laws.Shape.vredadd, Laws.Shape.vredmax,
      Laws.Shape.vredmin, Laws.Shape.vclz, Laws.Shape.vld, Laws.Shape.vst, Laws.Shape.vlds, Laws.Shape.vsts,
      Laws.Shape.vbcast, Laws.Shape.vins, Laws.Shape.vext, Laws.Shape.vldrow, Laws.Shape.vperm, Laws.Shape.vzip,
      Laws.Shape.vunzip, Laws.Shape.vmergeLo, Laws.Shape.vmergeHi, Laws.Shape.vsort, Laws.Shape.vslide,
      Laws.Shape.tld, Laws.Shape.tldP, Laws.Shape.tst, Laws.Shape.wload, Laws.Shape.mma, Laws.Shape.aswap,
      Laws.Shape.aclr, Laws.Shape.ard, Laws.Shape.ast, Laws.Shape.lease, Laws.Shape.release, Laws.Shape.vpipe,
      Laws.Shape.selq, Laws.Shape.copy, Laws.Shape.copyMc, Laws.Shape.tmpl, Laws.Shape.rcall, Laws.Shape.tapeRec,
      Laws.Shape.tapeEnd, Laws.Shape.tapePlay, Laws.Shape.tapePatch, Laws.Shape.tapeSave, Laws.Shape.tapeLoad,
      Laws.Shape.tapeInv, Laws.Shape.li32, Laws.Shape.xstore, Laws.Shape.cAddisp, Laws.Shape.cLd, Laws.Shape.cSt,
      Laws.Shape.cWaittk, Laws.Shape.cAddi, Laws.Shape.cLi, Laws.Shape.cSrli, Laws.Shape.cSrai, Laws.Shape.cAndi,
      Laws.Shape.cSub, Laws.Shape.cXor, Laws.Shape.cOr, Laws.Shape.cAnd, Laws.Shape.cJ, Laws.Shape.cBeqz,
      Laws.Shape.cBnez, Laws.Shape.cSlli, Laws.Shape.cLdsp, Laws.Shape.cStsp, Laws.Shape.cJr, Laws.Shape.cMv,
      Laws.Shape.cJalr, Laws.Shape.cAdd, Laws.Shape.cExit]

theorem drop_two_words (v w : Nat) (rest : List Byte) : (bytesOf 4 v ++ (bytesOf 4 w ++ rest)).drop 8 = rest := by
  rw [← List.append_assoc, List.drop_left' (by simp [bytesOf_length])]

/-- The bytes of a code announce that code, whatever follows. -/
theorem codeOfBytes_bytes {k : Code} (hk : k.Shaped) (rest : List Byte) : codeOfBytes (k.bytes ++ rest) = some k := by
  obtain ⟨len, w, c, mask⟩ := k
  obtain ⟨hp, hm, hc, hw⟩ := hk
  dsimp only at hp hm hc hw
  have hlen : len = 2 ∨ len = 4 ∨ len = 8 := hp ▸ parcelLen_cases _
  have hb : BitVec.ofNat 16 (ofBytes ((Code.bytes ⟨len, w, c, mask⟩ ++ rest).take 2)) = w.setWidth 16 := by
    simp only [Code.bytes, List.append_assoc]
    exact parcel_bytes (by omega) w _
  simp only [codeOfBytes, hb, hp, hm]
  rcases hlen with rfl | rfl | rfl
  · have hm0 : mask = none := by
      have := maskLen_of_len2 hp
      cases mask <;> simp_all
    subst hm0
    simp [Code.bytes, bytesOf_length, word_parcel (hw rfl), hc, List.take_left']
    omega
  · cases mask <;> simp [Code.bytes, bytesOf_length, word_bytes, hc, List.take_left', List.drop_left'] <;> omega
  · cases mask <;>
      simp [Code.bytes, bytesOf_length, word_bytes, List.take_left', List.drop_left', drop_two_words] <;> omega

/-- The size of a code is the number of its bytes (R217). -/
theorem drop_bytes {k : Code} (hk : k.Shaped) (rest : List Byte) : (k.bytes ++ rest).drop k.size = rest := by
  obtain ⟨len, w, c, mask⟩ := k
  have hp : parcelLen (w.setWidth 16) = len := hk.1
  have hlen : len = 2 ∨ len = 4 ∨ len = 8 := hp ▸ parcelLen_cases _
  apply List.drop_left'
  rcases hlen with rfl | rfl | rfl <;> cases mask <;> simp [Code.bytes, Code.size, bytesOf_length]

/-- The bytes at whose head a code stands are its bytes and what follows them. -/
theorem bytes_of_codeOfBytes {bs : List Byte} {k : Code} (h : codeOfBytes bs = some k) :
    bs = k.bytes ++ bs.drop k.size := by
  simp only [codeOfBytes] at h
  split at h
  · cases h
  next hlen =>
    obtain rfl := Option.some.inj h
    generalize hp : BitVec.ofNat 16 (ofBytes (bs.take 2)) = p at hlen ⊢
    have hm : maskLen p = 0 ∨ maskLen p = 4 := by unfold maskLen; split <;> simp
    have hword : ∀ l : List Byte, 4 ≤ l.length → bytesOf 4 (BitVec.ofNat 32 (ofBytes (l.take 4))).toNat = l.take 4 :=
      fun l hl => bytes_word (by simpa using hl) (by decide)
    have hparcel : bytesOf 2 (BitVec.ofNat 32 (ofBytes (bs.take 2))).toNat = bs.take 2 :=
      bytes_word (by simp; omega) (by decide)
    have hsplit : ∀ (l : List Byte) (a b : Nat), l.drop a = (l.drop a).take b ++ l.drop (a + b) := fun l a b => by
      rw [← List.drop_drop, List.take_append_drop]
    clear h hp
    rcases parcelLen_cases p with hn | hn | hn <;> rcases hm with hk | hk <;> simp only [hn, hk] at hlen ⊢
    · simp [-BitVec.toNat_ofNat, Code.bytes, Code.size, hparcel]
    · exact absurd (hk.symm.trans (maskLen_of_len2 hn)) (by decide)
    · simp [-BitVec.toNat_ofNat, Code.bytes, Code.size, hword bs (by omega)]
    · simp [-BitVec.toNat_ofNat, Code.bytes, Code.size, hword bs (by omega), hword (bs.drop 4) (by simp; omega)]
      rw [← hsplit bs 4 4, List.take_append_drop]
    · simp [-BitVec.toNat_ofNat, Code.bytes, Code.size, hword bs (by omega), hword (bs.drop 4) (by simp; omega)]
      rw [← hsplit bs 4 4, List.take_append_drop]
    · simp [-BitVec.toNat_ofNat, Code.bytes, Code.size, hword bs (by omega), hword (bs.drop 4) (by simp; omega),
        hword (bs.drop 8) (by simp; omega)]
      rw [← hsplit bs 8 4, ← hsplit bs 4 4, List.take_append_drop]

end Sys2Proof

namespace Sys2Proof

/-! ### The decoder -/

theorem decodeCode_eq_ok {k : Code} {i : Instr} :
    decodeCode k = .ok i ↔ named k = some i ∧ i.wellFormed = true ∧ encode i = some k := by
  unfold decodeCode
  change (match named k with | none => _ | some i => _) = _ ↔ _
  cases named k with
  | none => simp
  | some j =>
    change (if (fieldsOk j && encode j == some k) = true then _ else _) = _ ↔ _
    have hj : (fieldsOk j && encode j == some k) = true ↔ j.wellFormed = true ∧ encode j = some k := by
      simp only [fieldsOk, Bool.and_eq_true, beq_iff_eq]
    by_cases h : (fieldsOk j && encode j == some k) = true
    · rw [if_pos h, Except.ok.injEq, Option.some.injEq]
      exact ⟨fun e => ⟨e, e ▸ hj.1 h⟩, And.left⟩
    · rw [if_neg h, Option.some.injEq]
      exact ⟨nofun, fun ⟨e, h'⟩ => absurd (hj.2 (e ▸ h')) h⟩

theorem decode_eq_ok {bs rest : List Byte} {i : Instr} :
    decode bs = .ok (i, rest) ↔ ∃ k, codeOfBytes bs = some k ∧ decodeCode k = .ok i ∧ bs.drop k.size = rest := by
  unfold decode
  cases codeOfBytes bs with
  | none => simp
  | some k => cases h : decodeCode k <;> simp [h]

/-- Decoding the encoding of a well-formed instruction gives it back. -/
theorem decodeCode_encode {i : Instr} {k : Code} (hw : i.wellFormed = true) (hi : encode i = some k) :
    decodeCode k = .ok i := decodeCode_eq_ok.2 ⟨named_encode hw hi, hw, hi⟩

theorem decode_bytes {i : Instr} {k : Code} (hw : i.wellFormed = true) (hi : encode i = some k) (rest : List Byte) :
    decode (k.bytes ++ rest) = .ok (i, rest) :=
  decode_eq_ok.2 ⟨k, codeOfBytes_bytes (encode_shaped hi) rest, decodeCode_encode hw hi, drop_bytes (encode_shaped hi) rest⟩

end Sys2Proof

namespace Sys2Proof.Proofs

/-- Settles O55: the fields of each format are read back from its word, so the selectors name the instruction encoded, and
the first parcel announces the length and the mask word, so the bytes of a code are cut where it ends. -/
theorem decodeEncode : Obligations.DecodeEncode := by
  refine ⟨fun i k hw hi => ⟨decodeCode_encode hw hi, decode_bytes hw hi⟩, fun bs rest i h => ?_⟩
  obtain ⟨k, hk, hd, rfl⟩ := decode_eq_ok.1 h
  obtain ⟨-, hw, hi⟩ := decodeCode_eq_ok.1 hd
  exact ⟨hw, k, hi, bytes_of_codeOfBytes hk⟩

end Sys2Proof.Proofs

/-! PROOFS. Words decoded by evaluation, and what reset leaves. -/

namespace Sys2Proof.Proofs
open Machine Claims

/-- Settles O54: each word is decoded by evaluation. -/
theorem decodeWords : Obligations.DecodeWords := by
  unfold Obligations.DecodeWords reads
  and_intros <;> decide +kernel

/-- A key that a table does not list reads as the default. -/
theorem get_of_notMem {κ α : Type} [DecidableEq κ] {t : Table κ α} {k : κ} (d : α) (h : ∀ p ∈ t, p.1 ≠ k) :
    Table.get t k d = d := by
  induction t with
  | nil => rfl
  | cons p r ih =>
    rw [Table.get, if_neg (h p List.mem_cons_self), ih fun q hq => h q (List.mem_cons_of_mem _ hq)]

/-- The reset table lists indices 0 to 10 only (R81). -/
theorem get_resetTable {n : Nat} (h : 11 ≤ n) (d : HEntry) : Table.get resetTable n d = d := by
  apply get_of_notMem
  intro p hp
  obtain ⟨m, hm, rfl⟩ := List.mem_map.1 hp
  have := List.mem_range.1 hm
  dsimp only
  omega

/-- Settles O58: the tables of the reset state hold nothing, so every unit reads as its default. -/
theorem resetValues : Obligations.ResetValues := by
  refine ⟨?_, fun c => ?_, fun c => ?_, fun n => ?_, ?_, ?_, ?_, ?_, fun p => ?_, fun h hk => ?_⟩
  · exact rfl
  · refine ⟨rfl, rfl, rfl, rfl, fun n hn => ?_, fun n hn => ?_, rfl, rfl, rfl, rfl⟩
    · interval_cases n <;> rfl
    · rw [show (State.reset.core c).entry n = HEntry.empty from get_resetTable hn _]
      rfl
  · exact ⟨rfl, rfl, rfl, rfl, fun _ => rfl⟩
  · rfl
  · rfl
  · rfl
  · rfl
  · rfl
  · rfl
  · obtain ⟨kind, core, idx⟩ := h
    cases hk
    exact ⟨rfl, rfl, rfl, rfl⟩

end Sys2Proof.Proofs

/-! PROOFS. What the service of banks leaves as it was. -/

namespace Sys2Proof.Machine

/-! ### What the service of banks leaves as it was

A request entered in a bank's queue, a row opened and a transfer begun change the banks and the bus of a vault, the ports of a pool, the
segments that the tile loads in flight have asked for, and the count of requests: nothing else of the device. -/

/-- A vault with its banks and its bus left out. -/
def Vault.still (v : Vault) : Vault := { v with banks := [], acts := [], served := [], busHalf := 0, lastLine := none }

/-- A hart with its commands in flight left out. -/
def Hart.still (h : Hart) : Hart := h.modBusy (fun b => { b with flights := [] })

/-- A cluster with the ports of its pool left out. -/
def Cluster.still (c : Cluster) : Cluster := { c with ports := [] }

/-- A device with the count of requests left out. -/
def Device.still (d : Device) : Device := { d with asks := 0 }

/-- What stands in the units of a device, as they are read, with what bank service changes left out. -/
structure Still where
  ground : Ground
  hart : HartId → Hart
  core : Nat → Core
  vault : Nat → Vault
  cluster : Nat → Cluster
  stk : Nat → Stack
  dev : Device

def State.still (s : State) : Still :=
  ⟨s.ground, fun h => (s.hart h).still, s.core, fun c => (s.vault c).still, fun c => (s.cluster c).still, s.stk, s.dev.still⟩

section
variable {s t : State} (h : t.still = s.still)
include h

theorem State.ground_of_still : t.ground = s.ground := congrArg Still.ground h
theorem State.hart_of_still (i : HartId) : (t.hart i).still = (s.hart i).still := congrFun (congrArg Still.hart h) i
theorem State.core_of_still (c : Nat) : t.core c = s.core c := congrFun (congrArg Still.core h) c
theorem State.vault_of_still (c : Nat) : (t.vault c).still = (s.vault c).still := congrFun (congrArg Still.vault h) c
theorem State.cluster_of_still (c : Nat) : (t.cluster c).still = (s.cluster c).still := congrFun (congrArg Still.cluster h) c
theorem State.stk_of_still (k : Nat) : t.stk k = s.stk k := congrFun (congrArg Still.stk h) k
theorem State.dev_of_still : t.dev.still = s.dev.still := congrArg Still.dev h

end

theorem State.modVault_still (s : State) (c : Nat) (f : Vault → Vault) (hf : ∀ v, (f v).still = v.still) :
    (s.modVault c f).still = s.still := by
  have hv : (fun d => ((s.modVault c f).vault d).still) = fun d => (s.vault d).still := by
    funext d
    by_cases hd : c = d
    · subst hd; rw [State.modVault_vault_same, hf]
    · rw [State.modVault_vault_other _ _ _ _ hd]
  simp only [State.still, hv, State.modVault_ground]
  rfl

theorem State.modHart_still (s : State) (i : HartId) (f : Hart → Hart) (hf : ∀ x, (f x).still = x.still) :
    (s.modHart i f).still = s.still := by
  have hh : (fun j => ((s.modHart i f).hart j).still) = fun j => (s.hart j).still := by
    funext j
    by_cases hj : i = j
    · subst hj; rw [State.modHart_hart_same, hf]
    · rw [State.modHart_hart_other _ _ _ _ hj]
  simp only [State.still, hh, State.modHart_ground]
  rfl

theorem State.modCluster_still (s : State) (c : Nat) (f : Cluster → Cluster) (hf : ∀ v, (f v).still = v.still) :
    (s.modCluster c f).still = s.still := by
  have hv : (fun d => ((s.modCluster c f).cluster d).still) = fun d => (s.cluster d).still := by
    funext d
    by_cases hd : c = d
    · subst hd; rw [State.modCluster_cluster_same, hf]
    · rw [State.modCluster_cluster_other _ _ _ _ hd]
  simp only [State.still, hv, State.modCluster_ground]
  rfl

@[simp] theorem State.modBank_still (s : State) (c b : Nat) (f : Bank → Bank) : (s.modBank c b f).still = s.still :=
  s.modVault_still c _ fun _ => rfl

@[simp] theorem State.enter_still (s : State) (c b : Nat) (q : VReq) : (s.enter c b q).still = s.still :=
  s.modBank_still c b fun bk => { bk with q := bk.q ++ [q] }

@[simp] theorem State.askRead_still (s : State) (who : Reader) (core off n : Nat) : (s.askRead who core off n).still = s.still :=
  s.enter_still ..

@[simp] theorem State.prepareSegment_still (s : State) (id : HartId) (seq : Nat) : (s.prepareSegment id seq).still = s.still := by
  simp only [State.prepareSegment]
  repeat' split
  · rfl
  · rfl
  · exact s.modHart_still id _ fun _ => rfl
  · exact ((State.askRead_still s ..).symm ▸ State.modHart_still _ id _ fun _ => rfl)

@[simp] theorem State.afterTransfer_still (s : State) (k : VReqKind) : (s.afterTransfer k).still = s.still := by
  unfold State.afterTransfer
  split <;> simp

@[simp] theorem State.transfer_still (s : State) (core b n : Nat) (q : VReq) (who : Reader) :
    (s.transfer core b n q who).still = s.still := by
  simp only [State.transfer, State.afterTransfer_still]
  exact s.modVault_still core _ fun _ => rfl

@[simp] theorem bankRequestEffect_still (core b : Nat) (s : State) : (bankRequestEffect core b s).still = s.still := by
  have ha (u : State) (c : Nat) (row : Nat) : (u.modVault core (fun v => v.activate b c row)).still = u.still :=
    u.modVault_still core _ fun _ => rfl
  simp only [bankRequestEffect]
  repeat' split
  all_goals simp [ha]

theorem foldl_still {α : Type} (f : State → α → State) (l : List α) (s : State) (hf : ∀ s a, (f s a).still = s.still) :
    (l.foldl f s).still = s.still := by
  induction l generalizing s with
  | nil => rfl
  | cons a r ih => exact (ih _).trans (hf s a)

@[simp] theorem State.askAll_still (s : State) (who : Reader) (parts : List (Nat × Nat)) : (s.askAll who parts).still = s.still := by
  refine foldl_still _ _ s fun s line => ?_
  dsimp only
  split
  · rfl
  · split <;> simp

theorem State.poolTurns_still (s t : State) (port : Nat) (lines : List Nat) (h : s.poolTurns port lines = some t) :
    t.still = s.still := by
  induction lines generalizing s with
  | nil => cases h; rfl
  | cons l r ih =>
    unfold State.poolTurns at h
    dsimp only at h
    split at h
    · exact ih _ h
    · split at h
      · exact (ih _ h).trans (s.modCluster_still _ _ fun _ => rfl)
      · cases h

@[simp] theorem State.fetchHome_still (s : State) (id : HartId) (pa : Nat) : (s.fetchHome id pa).1.still = s.still := by
  unfold State.fetchHome
  split
  · rfl
  · split
    · split
      · exact State.poolTurns_still _ _ _ _ ‹_›
      · rfl
    · simp

/-! ### The bytes that are seen -/

/-- The bytes that are seen are those of memory and of the write buffers. -/
theorem State.readByte_of_still {s t : State} (h : t.still = s.still) (pa : Nat) : t.readByte pa = s.readByte pa := by
  have hm : t.mem = s.mem := congrArg Ground.mem (State.ground_of_still h)
  have hw : ∀ c, (t.vault c).wbuf = (s.vault c).wbuf := fun c =>
    show (t.vault c).still.wbuf = (s.vault c).still.wbuf from congrArg Vault.wbuf (State.vault_of_still h c)
  simp only [State.readByte, Vault.bufLine, hm, hw]

end Sys2Proof.Machine

/-! PROOFS. A turn of a hart, and a step. -/

namespace Sys2Proof.Machine
open Claims

/-! ### The turn of a hart (R172, R222) -/

/-- A hart that can issue and that no ready rival precedes runs the instruction at its pc. -/
theorem runHart_issues {s : State} {h : HartId} (hc : s.canIssue h = true) (hf : s.first h (s.rivals h) = true) :
    noted (runHart h s) = issued h s (runInstr { s with cur := h }) := by
  simp only [runHart, State.issueTurn, hc, hf, if_true]
  unfold issued
  cases runInstr { s with cur := h } <;> rfl

theorem runHart_of_not_canIssue {s : State} {h : HartId} (hc : s.canIssue h = false) : runHart h s = .next s := by
  simp [runHart, State.issueTurn, hc]

/-- A hart that a ready rival precedes passes. -/
theorem runHart_of_preceded {s : State} {h : HartId} (hf : s.first h (s.rivals h) = false) : runHart h s = .next s := by
  simp [runHart, State.issueTurn, hf]

theorem runCode_of_ok {k : Code} {i : Instr} (hk : decodeCode k = .ok i) (s : State) : runCode k s = exec i s := by
  simp [runCode, decodedRun, hk]

theorem runCode_of_error {k : Code} {e : DecodeError} (hk : decodeCode k = .error e) (s : State) :
    runCode k s = .next (trapInstr e.cause k s) := by
  simp [runCode, decodedRun, hk]

/-- A device that is not in recovery gives a hart its turn. -/
theorem runAct_issue {s : State} (h : HartId) (hr : s.dev.recovery = false) : runAct (.issue h) s = runHart h s := by
  simp [runAct, hr]

/-- In recovery most turns have no effect (R410). -/
theorem runAct_recovery {s : State} {a : Act} (hr : s.dev.recovery = true) (ha : a.inRecovery = false) :
    runAct a s = .next s := by
  simp [runAct, hr, ha]

/-- A device event has its effect, in recovery one of those that the device then answers. -/
theorem runAct_event {s : State} {e : Instr} (he : encode e = none) (hw : e.wellFormed = true)
    (hr : s.dev.recovery = false ∨ e = .deviceReset ∨ (∃ x, e = .powerUp x) ∨ (∃ x, e = .firmwareUpdate x)) :
    runAct (.event e) s = exec e s := by
  have ha : (s.dev.recovery && !(Act.event e).inRecovery) = false := by
    rcases hr with hr | rfl | ⟨x, rfl⟩ | ⟨x, rfl⟩
    · rw [hr, Bool.false_and]
    all_goals exact Bool.and_false _
  simp only [runAct, ha, he, hw, Option.isNone_none, Bool.and_self, if_true, Bool.false_eq_true, if_false]

section
variable {s s2 : State} {k : Code}

theorem runInstr_of_fetch_error {e : FetchStop} (hf : s.fetchBase s.cur s.me.pc = (s2, .error e)) :
    runInstr s = .next (stopFetch e s2) := by
  simp [runInstr, hf]

theorem runInstr_of_no_mask (hf : s.fetchBase s.cur s.me.pc = (s2, .ok k)) (hm : k.mask = none) :
    runInstr s = runCode k s2.fetchedAll := by
  simp [runInstr, hf, hm]

theorem runInstr_of_error {e : DecodeError} (hf : s.fetchBase s.cur s.me.pc = (s2, .ok k)) (hk : decodeCode k = .error e) :
    runInstr s = .next (trapInstr e.cause k s2.fetchedAll) := by
  cases hm : k.mask with
  | none => rw [runInstr_of_no_mask hf hm, runCode_of_error hk]
  | some m => simp [runInstr, hf, hm, decodedRun, hk]

theorem runInstr_of_mask {s3 : State} {m : Code} {j : Instr} (hf : s.fetchBase s.cur s.me.pc = (s2, .ok k))
    (hm : k.mask.isSome = true) (hk : decodeCode k = .ok j) (h3 : s2.fetchMask s2.cur s2.me.pc k = (s3, .ok m)) :
    runInstr s = runCode m s3.fetchedAll := by
  obtain ⟨w, hw⟩ := Option.isSome_iff_exists.1 hm
  simp [runInstr, hf, hw, decodedRun, hk, h3]

end

/-- A rival that was passed over in the last four issues of the core comes before one that was not; where neither was, the one of the
higher PRIO does (log 117). -/
theorem precedes_of_missed {s : State} {g h : HartId}
    (hm : let missed (x : HartId) : Nat := (s.core h.core).passed.get x.idx 0
      (4 ≤ missed g ∧ missed h < 4) ∨ (missed g < 4 ∧ missed h < 4 ∧ (s.hart h).prio < (s.hart g).prio)) :
    s.precedes g h = true := by
  dsimp only at hm
  rcases hm with ⟨hg, hh⟩ | ⟨hg, hh, hp⟩
  · simp [State.precedes, hg, hh]
  · simp [State.precedes, Nat.not_le.2 hg, Nat.not_le.2 hh, hp, Nat.ne_of_gt hp]

theorem mem_rivals {s : State} {g h : HartId} (hk : h.kind = .thread) (hg : g ∈ threadsOf h.core) (hne : g ≠ h)
    (hr : s.ready g = true) : g ∈ s.rivals h := by
  simp [State.rivals, hk, hg, hne, hr]

theorem first_of_mem_rivals {s : State} {g h : HartId} (hg : g ∈ s.rivals h) (hp : s.precedes g h = true) :
    s.first h (s.rivals h) = false := by
  simp only [State.first, List.all_eq_false]
  exact ⟨g, hg, by simp [hp]⟩

/-! ### A parcel (R216, R260) -/

/-- A parcel that the hart has not fetched ahead is the two bytes at the physical address of its address. -/
theorem fetchParcel_of_home {s u : State} {h : HartId} {va : Word} {x : Xlat} (hf : (s.hart h).fetched = [])
    (hc : s.check (.instr h) .fetch va = (u, .ok x)) (hl : u.heldAt x.pa 2 = false) (hb : u.badWord x.pa 2 = none)
    (hh : (u.fetchHome h x.pa).2 = true) :
    s.fetchParcel h va = ((u.fetchHome h x.pa).1, .ok [u.readByte x.pa, u.readByte (x.pa + 1)]) := by
  simp [State.fetchParcel, hf, hc, hl, hb, hh, State.readBytes, List.range_succ,
    State.readByte_of_still (State.fetchHome_still u h x.pa)]

end Sys2Proof.Machine

namespace Sys2Proof.Proofs
open Machine Claims

/-- Settles O56: a turn of a hart is runInstr of the device with that hart current, and runInstr follows the fetch and the decoder. -/
theorem stepRunsDecoded : Obligations.StepRunsDecoded := by
  intro c r h s s0 s1 runs
  have hturn (hb : s.beforeTurn = none) (a : Act) (ha : s.agenda = ⟨c, a⟩ :: r) : step s = noted (runAct a s0) :=
    step_turn s ⟨c, a⟩ r hb ha
  refine ⟨fun hr ha hc hf => ?_, fun hr ha => ⟨fun hc => ?_, fun g hk hg hne hready => fun hm => ?_⟩, fun e hb ha => ⟨fun hr he hw => ?_, fun hr h1 h2 h3 h4 => ?_⟩,
    fun hb hr ha => ?_, fun t ht => ?_, fun va u x hf hc hl hbad hh => ?_⟩
  · have hstep : step s = issued h s0 (runInstr s1) := by
      rw [hturn hr.1 _ ha, runAct_issue (s := s0) h hr.2, runHart_issues hc hf]
    refine ⟨fun s2 k i hk hm hd => ?_, fun s2 s3 k m i hk hm hj h3 hd => ?_, fun s2 k hk => ⟨fun he => ?_, fun he => ?_⟩, fun s2 cause va he => ?_⟩
    · rw [hstep, runInstr_of_no_mask hk hm, runCode_of_ok hd]
    · obtain ⟨j, hj⟩ := hj
      rw [hstep, runInstr_of_mask hk hm hj h3, runCode_of_ok hd]
    · rw [hstep, runInstr_of_error hk he]
      rfl
    · rw [hstep, runInstr_of_error hk he]
      rfl
    · rw [hstep, runInstr_of_fetch_error he]
      rfl
  · rw [hturn hr.1 _ ha, runAct_issue (s := s0) h hr.2, runHart_of_not_canIssue hc]
    rfl
  · rw [hturn hr.1 _ ha, runAct_issue (s := s0) h hr.2,
      runHart_of_preceded (first_of_mem_rivals (mem_rivals hk hg hne hready) (precedes_of_missed hm))]
    rfl
  · rw [hturn hb _ ha, runAct_event he hw]
    exact hr
  · rw [hturn hb _ ha, runAct_recovery (s := s0) hr]
    · rfl
    · unfold Act.inRecovery
      dsimp only
      split
      · exact absurd rfl (h4 _)
      · exact absurd rfl (h3 _)
      · exact absurd rfl h1
      · exact absurd rfl (h2 _)
      · rfl
  · rw [hturn hb _ ha, runAct_recovery (s := s0) hr rfl]
    rfl
  · simp only [step, ht]
    rfl
  · rw [fetchParcel_of_home hf hc hl hbad hh]
    exact ⟨rfl, congrArg Ground.mem (State.fetchHome_ground u h x.pa)⟩

end Sys2Proof.Proofs

/-! PROOFS. Scalar floating point: the forms of one, two and three sources (R301 to R303). -/

namespace Sys2Proof.Machine
open Claims

/-! ### FP32 encodings (R191) -/

theorem low32_eq_fp32 (v : Word) : low32 v = fp32 v := by simp [low32, fp32, bits]

theorem fp32_lt (v : Word) : fp32 v < 2 ^ 32 := Nat.mod_lt _ (by decide)

/-- The value of an FP32 encoding, by its exponent field. -/
theorem unpack_f32 (ftz : Bool) {a : Nat} (ha : a < 2 ^ 32) :
    Fmt.f32.unpack ftz a =
      if a / 2 ^ 23 % 2 ^ 8 = 255 then
        if a % 2 ^ 23 = 0 then .inf (a.testBit 31) else .nan (decide (a % 2 ^ 23 < 2 ^ 22))
      else if a / 2 ^ 23 % 2 ^ 8 = 0 then .fin (a.testBit 31) (if ftz then 0 else a % 2 ^ 23) (-149)
      else .fin (a.testBit 31) (2 ^ 23 + a % 2 ^ 23) (((a / 2 ^ 23 % 2 ^ 8 : Nat) : Int) - 150) := by
  have hm : a / 2 ^ 0 % 2 ^ (1 + 8 + 23) = a := by simpa using Nat.mod_eq_of_lt ha
  simp only [Fmt.unpack, Fmt.f32, Fmt.emin, Fmt.bias, hm]
  norm_num [sub_sub]

end Sys2Proof.Machine

namespace Sys2Proof.Claims
open Machine

variable {i : Instr} {ik : Code} {hd : Head} {d a b c : Reg} {r : Nat × Flags} {s : State}

/-! ### When a scalar float instruction gives a result -/

theorem fp2_floats {f : FEnv → Word → Word → Nat × Flags} (hx : exec i s = .next (fp2 (codeOf i) hd d a b f s))
    (hc : s.clear hd [.x a, .x b] [.x d]) (hr : f (csrEnv s.me.csr.fcsr) (s.rx a) (s.rx b) = r) : floats i hd d r s := by
  rw [floats, hx, fp2, issue_clear _ hd 0 true _ _ _ s (Nat.zero_le _) rfl hc, hr]
  rfl

theorem fp1_floats {f : FEnv → Word → Nat × Flags} (hx : exec i s = .next (fp1 (codeOf i) hd d a f s))
    (hc : s.clear hd [.x a] [.x d]) (hr : f (csrEnv s.me.csr.fcsr) (s.rx a) = r) : floats i hd d r s := by
  rw [floats, hx, fp1, issue_clear _ hd 0 true _ _ _ s (Nat.zero_le _) rfl hc, hr]
  rfl

theorem fp3_floats {np nc : Bool} (hx : exec i s = .next (fp3 (codeOf i) hd d a b c np nc s))
    (hc : s.clear hd [.x a, .x b, .x c] [.x d]) :
    floats i hd d (Fmt.f32.fma (csrEnv s.me.csr.fcsr) false np nc (fp32 (s.rx a)) (fp32 (s.rx b)) (fp32 (s.rx c))) s := by
  rw [floats, hx, fp3, issue_clear _ hd 0 true _ _ _ s (Nat.zero_le _) rfl hc]
  simp only [low32_eq_fp32]
  rfl

theorem boolF_eq (r : Bool × Flags) : boolF r = (if r.1 then 1 else 0, r.2) := by
  obtain ⟨r, f⟩ := r
  cases r <;> rfl

/-- The sign bit of an FP32 value. -/
theorem bits_sign (v : Word) : bits v.toNat 31 1 = fp32 v / 2 ^ 31 := by
  simp only [bits, fp32]
  omega

theorem testBit_sign {n : Nat} (h : n < 2 ^ 32) : n.testBit 31 = decide (n / 2 ^ 31 = 1) := by
  rw [Nat.testBit_eq_decide_div_mod_eq]
  congr 1
  simp only [eq_iff_iff]
  omega

/-- The class word by the fields of the encoding (R302). -/
theorem fclassWord_eq {n : Nat} (h : n < 2 ^ 32) :
    fclassWord n = (if n % 2 ^ 31 = 0 then 0 else if n / 2 ^ 23 % 2 ^ 8 = 0 then 1 else if n / 2 ^ 23 % 2 ^ 8 < 255 then 2
      else if n % 2 ^ 23 = 0 then 3 else if n / 2 ^ 22 % 2 = 0 then 20 else 4) + n / 2 ^ 31 * 8 := by
  have hs : bits n 31 1 = n / 2 ^ 31 := by simp only [bits]; omega
  have hk : n % 2 ^ 31 = n / 2 ^ 23 % 2 ^ 8 * 2 ^ 23 + n % 2 ^ 23 := by omega
  have he8 : bits n 23 8 = n / 2 ^ 23 % 2 ^ 8 := rfl
  have hq : n / 2 ^ 22 % 2 = n % 2 ^ 23 / 2 ^ 22 := by omega
  have hf : n % 2 ^ 23 < 2 ^ 23 := Nat.mod_lt _ (by decide)
  have he : n / 2 ^ 23 % 2 ^ 8 < 2 ^ 8 := Nat.mod_lt _ (by decide)
  simp only [fclassWord, unpack_f32 false h, hs, hk, he8, hq]
  generalize n / 2 ^ 23 % 2 ^ 8 = e at he ⊢
  generalize n % 2 ^ 23 = f at hf ⊢
  generalize n / 2 ^ 31 = sg
  by_cases h255 : e = 255
  · subst h255
    by_cases h0 : f = 0
    · subst h0; simp
    · by_cases hl : f < 4194304
      · simp [h0, hl, b2n]; omega
      · simp [h0, hl, b2n]
  · by_cases h0 : e = 0
    · subst h0
      by_cases hf0 : f = 0 <;> simp [hf0]
    · simp [h255, h0]
      omega

end Sys2Proof.Claims

namespace Sys2Proof.Proofs
open Machine Claims

/-- Settles O5: the forms of one, two and three sources, each with the function that it applies. -/
theorem scalarFloat : Obligations.ScalarFloat := by
  intro hd d a b c s hc v A B C
  have ha : s.clear hd [.x a] [.x d] := clear_mono s hd _ _ _ _ hc (by simp) (List.Subset.refl _)
  have hab : s.clear hd [.x a, .x b] [.x d] := clear_mono s hd _ _ _ _ hc (by simp) (List.Subset.refl _)
  have hA : low32 (s.rx a) = A := low32_eq_fp32 _
  have hB : low32 (s.rx b) = B := low32_eq_fp32 _
  have hsA : bits (s.rx a).toNat 31 1 = A / 2 ^ 31 := bits_sign _
  have hsB : bits (s.rx b).toNat 31 1 = B / 2 ^ 31 := bits_sign _
  have hBlt : B / 2 ^ 31 < 2 := by have := fp32_lt (s.rx b); omega
  refine ⟨fp2_floats rfl hab ?_, fp2_floats rfl hab ?_, fp2_floats rfl hab ?_, fp2_floats rfl hab ?_, fp1_floats rfl ha ?_,
    fp2_floats rfl hab ?_, fp2_floats rfl hab ?_, fp2_floats rfl hab ?eq, fp2_floats rfl hab ?lt, fp2_floats rfl hab ?le,
    fp1_floats rfl ha ?fclass, fp1_floats rfl ha rfl, fp1_floats rfl ha rfl, fp1_floats rfl ha ?_, fp1_floats rfl ha ?_,
    fp2_floats rfl hab ?sgnj, fp2_floats rfl hab ?sgnjn, fp2_floats rfl hab ?sgnjx,
    fp3_floats rfl hc, fp3_floats rfl hc, fp3_floats rfl hc, fp3_floats rfl hc⟩
  case eq => rw [boolF_eq, hA, hB]
  case lt => rw [boolF_eq, hA, hB]
  case le => rw [boolF_eq, hA, hB]
  case fclass => rw [hA, fclassWord_eq (fp32_lt _)]
  case sgnj => rw [hA, hsB, withSign, Nat.mod_eq_of_lt hBlt]
  case sgnjn => rw [hA, hsB, withSign, show (B / 2 ^ 31 + 1) % 2 = 1 - B / 2 ^ 31 by omega]
  case sgnjx => rw [hA, hsA, hsB, withSign]
  all_goals rw [hA]
  all_goals rw [hB]

end Sys2Proof.Proofs

/-! PROOFS. Scalar floating point: the numbers for which FP32 values stand, and values that are held exactly (R191, R207). -/

namespace Sys2Proof.Machine
open Claims

/-! ### The numbers for which float values stand (R191) -/

/-- The rational number (−1)^neg × m × 2^e. -/
def ratOf (neg : Bool) (m : Nat) (e : Int) : ℚ := (if neg then -1 else 1) * m * (2 : ℚ) ^ e

theorem ratOf_zero (neg : Bool) (e : Int) : ratOf neg 0 e = 0 := by simp [ratOf]

theorem ratOf_flip (neg : Bool) (m : Nat) (e : Int) : ratOf (neg != true) m e = -ratOf neg m e := by
  cases neg <;> simp [ratOf]

theorem ratOf_mul (n1 n2 : Bool) (m1 m2 : Nat) (e1 e2 : Int) :
    ratOf (n1 != n2) (m1 * m2) (e1 + e2) = ratOf n1 m1 e1 * ratOf n2 m2 e2 := by
  have h2 : (2 : ℚ) ≠ 0 := by norm_num
  cases n1 <;> cases n2 <;> simp [ratOf, zpow_add₀ h2] <;> ring

/-- An integer of units of 2^b as a value. -/
theorem ratOf_natAbs (t : Int) (b : Int) : ratOf (decide (t < 0)) t.natAbs b = t * (2 : ℚ) ^ b := by
  rcases lt_or_ge t 0 with h | h
  · have : ((t.natAbs : ℕ) : ℚ) = -(t : ℚ) := by
      rw [← Int.cast_natCast, Int.ofNat_natAbs_of_nonpos h.le, Int.cast_neg]
    simp [ratOf, h, this]
  · have : ((t.natAbs : ℕ) : ℚ) = (t : ℚ) := by rw [← Int.cast_natCast, Int.natAbs_of_nonneg h]
    simp [ratOf, not_lt.2 h, this]

/-- A value in units of 2^b, for b at most its exponent. -/
theorem signedAt_mul (neg : Bool) (m : Nat) {e b : Int} (h : b ≤ e) : (signedAt neg m e b : ℚ) * (2 : ℚ) ^ b = ratOf neg m e := by
  have h2 : (2 : ℚ) ≠ 0 := by norm_num
  have he : (2 : ℚ) ^ (e - b).toNat * (2 : ℚ) ^ b = (2 : ℚ) ^ e := by
    rw [← zpow_natCast, ← zpow_add₀ h2, Int.toNat_of_nonneg (by omega), Int.sub_add_cancel]
  cases neg <;> simp [signedAt, ratOf, ← he] <;> ring

theorem signedAt_lt_iff (n1 n2 : Bool) (m1 m2 : Nat) (e1 e2 : Int) :
    signedAt n1 m1 e1 (min e1 e2) < signedAt n2 m2 e2 (min e1 e2) ↔ ratOf n1 m1 e1 < ratOf n2 m2 e2 := by
  rw [← signedAt_mul n1 m1 (min_le_left e1 e2), ← signedAt_mul n2 m2 (min_le_right e1 e2),
    mul_lt_mul_iff_left₀ (by positivity), Int.cast_lt]

/-- The exact sum stands for the sum of the numbers. -/
theorem addFin_rat (z n1 n2 : Bool) (m1 m2 : Nat) (e1 e2 : Int) :
    ∃ n m e, addFin z n1 m1 e1 n2 m2 e2 = .fin n m e ∧ ratOf n m e = ratOf n1 m1 e1 + ratOf n2 m2 e2 := by
  unfold addFin
  by_cases hz : m1 = 0 ∧ m2 = 0
  · rw [if_pos hz]
    exact ⟨_, _, _, rfl, by rw [hz.1, hz.2]; simp [ratOf_zero]⟩
  · rw [if_neg hz]
    have hs : ratOf n1 m1 e1 + ratOf n2 m2 e2 =
        ((signedAt n1 m1 e1 (min e1 e2) + signedAt n2 m2 e2 (min e1 e2) : Int) : ℚ) * (2 : ℚ) ^ min e1 e2 := by
      rw [Int.cast_add, add_mul, signedAt_mul n1 m1 (min_le_left e1 e2), signedAt_mul n2 m2 (min_le_right e1 e2)]
    dsimp only
    split
    · next h0 => exact ⟨_, _, _, rfl, by rw [hs, h0]; simp [ratOf_zero]⟩
    · exact ⟨_, _, _, rfl, by rw [hs, ratOf_natAbs]⟩

/-- A finite encoding unpacks to the number for which it stands. -/
theorem unpack_finite {a : Nat} (h : finite32 a) :
    ∃ n m e, Fmt.f32.unpack false a = .fin n m e ∧ ratOf n m e = value32 a ∧ m < 2 ^ 24 ∧ -149 ≤ e ∧ e ≤ 104 := by
  obtain ⟨hlt, h255⟩ := h
  have hs : a.testBit 31 = decide (a / 2 ^ 31 % 2 = 1) := by rw [Nat.testBit_eq_decide_div_mod_eq]
  have hf : a % 2 ^ 23 < 2 ^ 23 := Nat.mod_lt _ (by decide)
  have he : a / 2 ^ 23 % 2 ^ 8 < 2 ^ 8 := Nat.mod_lt _ (by decide)
  rw [unpack_f32 false hlt, if_neg h255]
  by_cases h0 : a / 2 ^ 23 % 2 ^ 8 = 0
  · rw [if_pos h0]
    refine ⟨_, _, _, rfl, ?_, by simp; omega, by decide, by decide⟩
    rw [value32, if_pos h0, ratOf, hs]
    simp only [decide_eq_true_eq, mul_assoc]
    rfl
  · rw [if_neg h0]
    refine ⟨_, _, _, rfl, ?_, by omega, by omega, by omega⟩
    rw [value32, if_neg h0, ratOf, hs]
    simp only [decide_eq_true_eq, mul_assoc]

/-! ### Rounding a value that the format holds (R207) -/

theorem two_zpow_pos (e : Int) : (0 : ℚ) < 2 ^ e := zpow_pos (by norm_num) e

/-- The encoding of k units of 2^q, for q at least the least exponent, and k normal if q is above it. -/
theorem value32_encode (neg : Bool) {k : Nat} {q : Int} (hq : -149 ≤ q) (hq' : q ≤ 104) (hk : k < 2 ^ 24)
    (hn : q = -149 ∨ 2 ^ 23 ≤ k) :
    let V := (if neg then 2 ^ 31 else 0) + ((q + 149).toNat * 2 ^ 23 + k)
    finite32 V ∧ value32 V = ratOf neg k q := by
  obtain ⟨p, rfl⟩ : ∃ p : Nat, q = (p : Int) - 149 := ⟨(q + 149).toNat, by omega⟩
  have hp : ((p : Int) - 149 + 149).toNat = p := by omega
  rw [hp]
  intro V
  have hmag : p * 2 ^ 23 + k < 255 * 2 ^ 23 := by omega
  obtain ⟨hlt, hneg, hmod⟩ : V < 2 ^ 32 ∧ (V / 2 ^ 31 % 2 = 1 ↔ neg = true) ∧ V % 2 ^ 31 = p * 2 ^ 23 + k := by
    cases neg
    · simp only [V, Bool.false_eq_true, if_false, iff_false]
      omega
    · simp only [V, if_true, iff_true]
      omega
  have hexp : V / 2 ^ 23 % 2 ^ 8 = (p * 2 ^ 23 + k) / 2 ^ 23 := by omega
  have hfrac : V % 2 ^ 23 = k % 2 ^ 23 := by omega
  refine ⟨⟨hlt, by omega⟩, ?_⟩
  rw [value32, ratOf]
  simp only [hneg, hexp, hfrac]
  by_cases hsub : k < 2 ^ 23
  · obtain rfl : p = 0 := by omega
    rw [if_pos (show (0 * 2 ^ 23 + k) / 2 ^ 23 = 0 by omega), Nat.mod_eq_of_lt hsub, mul_assoc]
    rfl
  · have h1 : (p * 2 ^ 23 + k) / 2 ^ 23 = p + 1 := by omega
    have h2 : 2 ^ 23 + k % 2 ^ 23 = k := by omega
    rw [h1, h2, if_neg (Nat.succ_ne_zero p), mul_assoc, show ((p + 1 : ℕ) : Int) - 150 = (p : Int) - 149 by omega]

theorem bitLen_bounds {m : Nat} (h : m ≠ 0) : 2 ^ (bitLen m - 1) ≤ m ∧ m < 2 ^ bitLen m ∧ 1 ≤ bitLen m := by
  simp only [bitLen, if_neg h, Nat.add_sub_cancel]
  exact ⟨Nat.log2_self_le h, Nat.lt_log2_self, Nat.le_add_left 1 _⟩

/-- m × 2^e lies between the powers of two of its leading bit. -/
theorem lead_bounds {m : Nat} (h : m ≠ 0) (e : Int) :
    (2 : ℚ) ^ (e + (bitLen m : Int) - 1) ≤ m * (2 : ℚ) ^ e ∧ m * (2 : ℚ) ^ e < (2 : ℚ) ^ (e + (bitLen m : Int) - 1 + 1) := by
  have h2 : (2 : ℚ) ≠ 0 := by norm_num
  obtain ⟨hlo, hhi, h1⟩ := bitLen_bounds h
  have hlo' : ((2 : ℚ) ^ (bitLen m - 1)) ≤ m := by exact_mod_cast hlo
  have hhi' : (m : ℚ) < (2 : ℚ) ^ bitLen m := by exact_mod_cast hhi
  have e1 : (2 : ℚ) ^ (e + (bitLen m : Int) - 1) = (2 : ℚ) ^ (bitLen m - 1) * (2 : ℚ) ^ e := by
    rw [← zpow_natCast, ← zpow_add₀ h2]
    congr 1
    omega
  have e2 : (2 : ℚ) ^ (e + (bitLen m : Int) - 1 + 1) = (2 : ℚ) ^ bitLen m * (2 : ℚ) ^ e := by
    rw [← zpow_natCast, ← zpow_add₀ h2]
    congr 1
    omega
  rw [e1, e2]
  exact ⟨mul_le_mul_of_nonneg_right hlo' (two_zpow_pos e).le, mul_lt_mul_of_pos_right hhi' (two_zpow_pos e)⟩

/-- A number of units of 2^q that is a whole number k is rounded to k, in every mode, and is exact. -/
theorem roundAt_exact (rm : Nat) (neg : Bool) {m k : Nat} {e q : Int} (h : (m : ℚ) * (2 : ℚ) ^ e = k * (2 : ℚ) ^ q) :
    roundAt rm neg m e q = (k, false) := by
  have h2 : (2 : ℚ) ≠ 0 := by norm_num
  unfold roundAt
  split
  · next hqe =>
    have hk : (m * 2 ^ (e - q).toNat : ℕ) = k := by
      have he : (2 : ℚ) ^ e = (2 : ℚ) ^ (e - q).toNat * (2 : ℚ) ^ q := by
        rw [← zpow_natCast, ← zpow_add₀ h2, Int.toNat_of_nonneg (by omega), Int.sub_add_cancel]
      rw [he, ← mul_assoc] at h
      exact_mod_cast mul_right_cancel₀ (two_zpow_pos q).ne' h
    rw [hk]
  · next hqe =>
    have hk : m = k * 2 ^ (q - e).toNat := by
      have he : (2 : ℚ) ^ q = (2 : ℚ) ^ (q - e).toNat * (2 : ℚ) ^ e := by
        rw [← zpow_natCast, ← zpow_add₀ h2, Int.toNat_of_nonneg (by omega), Int.sub_add_cancel]
      rw [he, ← mul_assoc] at h
      exact_mod_cast mul_right_cancel₀ (two_zpow_pos e).ne' h
    have hmod : m % 2 ^ (q - e).toNat = 0 := by rw [hk, Nat.mul_mod_left]
    have hdiv : m / 2 ^ (q - e).toNat = k := by rw [hk, Nat.mul_div_cancel _ (Nat.two_pow_pos _)]
    simp [roundInt, hmod, hdiv]

theorem abs_ratOf (neg : Bool) (m : Nat) (e : Int) : |ratOf neg m e| = m * (2 : ℚ) ^ e := by
  cases neg <;> simp [ratOf, abs_mul, abs_of_pos (two_zpow_pos e)]

theorem neg_eq_of_ratOf_eq {n n' : Bool} {m m' : Nat} {e e' : Int} (hm : m ≠ 0) (h : ratOf n m e = ratOf n' m' e') : n = n' := by
  have hp : 0 < (m : ℚ) * (2 : ℚ) ^ e := mul_pos (by exact_mod_cast Nat.pos_of_ne_zero hm) (two_zpow_pos e)
  have hp' : 0 ≤ (m' : ℚ) * (2 : ℚ) ^ e' := mul_nonneg (Nat.cast_nonneg _) (two_zpow_pos e').le
  cases n <;> cases n' <;> simp [ratOf] at h ⊢ <;> linarith

/-- The unit in which a value is rounded: that of its leading bit, or the least of the format. -/
def unitOf (m : Nat) (e : Int) : Int := max (e + (bitLen m : Int) - 1 - 23) (-149)

/-- A value that FP32 holds is a whole number of units of its rounding, below 2^24, and normal above the least unit. -/
theorem units_of_held {m M : Nat} {e E : Int} (hm : m ≠ 0) (hM : M < 2 ^ 24) (hE : -149 ≤ E) (h : (m : ℚ) * (2 : ℚ) ^ e = M * (2 : ℚ) ^ E) :
    unitOf m e ≤ E ∧ ∃ k : Nat, (m : ℚ) * (2 : ℚ) ^ e = k * (2 : ℚ) ^ unitOf m e ∧ k < 2 ^ 24 ∧ (unitOf m e = -149 ∨ 2 ^ 23 ≤ k) := by
  have h2 : (2 : ℚ) ≠ 0 := by norm_num
  have h1 : (1 : ℚ) < 2 := by norm_num
  obtain ⟨hlo, hhi⟩ := lead_bounds hm e
  have hq : unitOf m e = max (e + (bitLen m : Int) - 1 - 23) (-149) := rfl
  generalize e + (bitLen m : Int) - 1 = lead at hlo hhi hq
  generalize unitOf m e = q at hq ⊢
  have hlead : lead < 24 + E := by
    rw [← zpow_lt_zpow_iff_right₀ h1]
    calc (2 : ℚ) ^ lead ≤ M * (2 : ℚ) ^ E := h ▸ hlo
      _ < (2 : ℚ) ^ (24 : Int) * (2 : ℚ) ^ E := mul_lt_mul_of_pos_right (by exact_mod_cast hM) (two_zpow_pos E)
      _ = (2 : ℚ) ^ (24 + E) := (zpow_add₀ h2 _ _).symm
  have hqE : q ≤ E := by omega
  have hk : (m : ℚ) * (2 : ℚ) ^ e = ((M * 2 ^ (E - q).toNat : ℕ) : ℚ) * (2 : ℚ) ^ q := by
    rw [h, Nat.cast_mul, Nat.cast_pow, Nat.cast_ofNat, mul_assoc, ← zpow_natCast, ← zpow_add₀ h2,
      Int.toNat_of_nonneg (by omega), Int.sub_add_cancel]
  refine ⟨hqE, _, hk, ?_, ?_⟩
  · have : ((M * 2 ^ (E - q).toNat : ℕ) : ℚ) * (2 : ℚ) ^ q < (2 : ℚ) ^ (24 : Int) * (2 : ℚ) ^ q := by
      rw [← hk, ← zpow_add₀ h2]
      exact hhi.trans_le (zpow_le_zpow_right₀ h1.le (by omega))
    exact_mod_cast lt_of_mul_lt_mul_right this (two_zpow_pos q).le
  · by_cases hq' : q = -149
    · exact .inl hq'
    · right
      have : (2 : ℚ) ^ (23 : Int) * (2 : ℚ) ^ q ≤ ((M * 2 ^ (E - q).toNat : ℕ) : ℚ) * (2 : ℚ) ^ q := by
        rw [← hk, ← zpow_add₀ h2, show (23 : Int) + q = lead by omega]
        exact hlo
      exact_mod_cast le_of_mul_le_mul_right this (two_zpow_pos q)

/-- A whole number of units is written with no flag. -/
theorem round_of_units {v : FEnv} (hv : v.ftz = false) (neg : Bool) {m k : Nat} {e : Int} (hm : m ≠ 0)
    (h : (m : ℚ) * (2 : ℚ) ^ e = k * (2 : ℚ) ^ unitOf m e) (hk : k < 2 ^ 24) (hq : unitOf m e ≤ 104) :
    Fmt.f32.round v neg m e = ((if neg then 2 ^ 31 else 0) + ((unitOf m e + 149).toNat * 2 ^ 23 + k), 0) := by
  have hr := roundAt_exact v.rm neg h
  have hu : max (e + (bitLen m : Int) - 1 - (Fmt.f32.fb : Int)) (-149) = unitOf m e := rfl
  have he : Fmt.f32.emin - (Fmt.f32.fb : Int) = -149 := rfl
  have hb : -149 ≤ unitOf m e := le_max_right _ _
  have htop : ¬ Fmt.f32.top < (unitOf m e - -149).toNat * 2 ^ Fmt.f32.fb + k := by
    have : Fmt.f32.top = 255 * 2 ^ 23 - 1 := rfl
    have hfb : Fmt.f32.fb = 23 := rfl
    rw [this, hfb]
    omega
  simp only [Fmt.round, if_neg hm, he, hu, hr, if_neg htop, hv, Bool.false_and, Bool.and_false, Flags.when, Bool.false_eq_true,
    if_false]
  have hp : (2 : Nat) ^ Fmt.f32.pad = 1 := rfl
  rw [hp, Nat.mul_one]
  rfl

/-- A value that FP32 holds is rounded to itself, in every mode, with no flag, while FTZ is 0. -/
theorem round_exact {v : FEnv} (hv : v.ftz = false) {neg : Bool} {m : Nat} {e : Int} {C : Nat} (hC : finite32 C)
    (h : ratOf neg m e = value32 C) :
    ∃ V, finite32 V ∧ value32 V = value32 C ∧ Fmt.f32.round v neg m e = (V, 0) := by
  by_cases hm : m = 0
  · subst hm
    obtain ⟨hf, hval⟩ := value32_encode neg (k := 0) (q := -149) (by decide) (by decide) (by decide) (.inl rfl)
    refine ⟨_, hf, ?_, rfl⟩
    rw [hval, ← h, ratOf_zero, ratOf_zero]
  · obtain ⟨n, M, E, -, hM, hMlt, hE, hE'⟩ := unpack_finite hC
    have habs : (m : ℚ) * (2 : ℚ) ^ e = M * (2 : ℚ) ^ E := by
      rw [← abs_ratOf neg, ← abs_ratOf n, h, hM]
    obtain ⟨hqE, k, hk, hklt, hkn⟩ := units_of_held hm hMlt hE habs
    obtain ⟨hf, hval⟩ := value32_encode neg (q := unitOf m e) (le_max_right _ _) (hqE.trans hE') hklt hkn
    refine ⟨_, hf, ?_, round_of_units hv neg hm hk hklt (hqE.trans hE')⟩
    rw [hval, ← h, ratOf, ratOf, mul_assoc, mul_assoc, hk]

/-! ### The instructions on finite values (R301) -/

theorem when_false (f : Flags) : Flags.when f false = 0 := rfl

/-- An exact result that FP32 holds is written as it is. -/
theorem finish_exact {v : FEnv} (hv : v.ftz = false) {neg : Bool} {m : Nat} {e : Int} {C : Nat} (hC : finite32 C)
    (h : ratOf neg m e = value32 C) :
    ∃ V, finite32 V ∧ value32 V = value32 C ∧ Fmt.f32.finish v (.fin neg m e, 0) = (V, 0) := by
  obtain ⟨V, hf, hval, hr⟩ := round_exact hv hC h
  exact ⟨V, hf, hval, by simp [Fmt.finish, Fmt.put, hr]⟩

section
variable {v : FEnv} (hv : v.ftz = false) {a b : Nat} (ha : finite32 a) (hb : finite32 b)
include hv ha hb

theorem add_exact {C : Nat} (hC : finite32 C) (h : value32 C = value32 a + value32 b) :
    ∃ V, finite32 V ∧ value32 V = value32 C ∧ Fmt.f32.add v a b = (V, 0) := by
  obtain ⟨n1, m1, e1, hu1, hr1, -⟩ := unpack_finite ha
  obtain ⟨n2, m2, e2, hu2, hr2, -⟩ := unpack_finite hb
  obtain ⟨n, m, e, hs, hr⟩ := addFin_rat v.zeroNeg n1 n2 m1 m2 e1 e2
  simp only [Fmt.add, hv, hu1, hu2, addVal, hs]
  exact finish_exact hv hC (by rw [hr, hr1, hr2, h])

theorem sub_exact {C : Nat} (hC : finite32 C) (h : value32 C = value32 a - value32 b) :
    ∃ V, finite32 V ∧ value32 V = value32 C ∧ Fmt.f32.sub v a b = (V, 0) := by
  obtain ⟨n1, m1, e1, hu1, hr1, -⟩ := unpack_finite ha
  obtain ⟨n2, m2, e2, hu2, hr2, -⟩ := unpack_finite hb
  obtain ⟨n, m, e, hs, hr⟩ := addFin_rat v.zeroNeg n1 (n2 != true) m1 m2 e1 e2
  simp only [Fmt.sub, hv, hu1, hu2, FVal.flip, addVal, hs]
  exact finish_exact hv hC (by rw [hr, ratOf_flip, hr1, hr2, h, sub_eq_add_neg])

theorem mul_exact {C : Nat} (hC : finite32 C) (h : value32 C = value32 a * value32 b) :
    ∃ V, finite32 V ∧ value32 V = value32 C ∧ Fmt.f32.mul v a b = (V, 0) := by
  obtain ⟨n1, m1, e1, hu1, hr1, -⟩ := unpack_finite ha
  obtain ⟨n2, m2, e2, hu2, hr2, -⟩ := unpack_finite hb
  simp only [Fmt.mul, hv, hu1, hu2, mulVal]
  exact finish_exact hv hC (by rw [ratOf_mul, hr1, hr2, h])

theorem lt_finite : Fmt.f32.lt v a b = (decide (value32 a < value32 b), 0) := by
  obtain ⟨n1, m1, e1, hu1, hr1, -⟩ := unpack_finite ha
  obtain ⟨n2, m2, e2, hu2, hr2, -⟩ := unpack_finite hb
  simp [Fmt.lt, hv, hu1, hu2, FVal.isNan, ltVal, signedAt_lt_iff, hr1, hr2, when_false]

theorem le_finite : Fmt.f32.le v a b = (decide (value32 a ≤ value32 b), 0) := by
  obtain ⟨n1, m1, e1, hu1, hr1, -⟩ := unpack_finite ha
  obtain ⟨n2, m2, e2, hu2, hr2, -⟩ := unpack_finite hb
  simp [Fmt.le, hv, hu1, hu2, FVal.isNan, ltVal, signedAt_lt_iff, hr1, hr2, when_false, ← decide_not]

theorem eq_finite : Fmt.f32.eq v a b = (decide (value32 a = value32 b), 0) := by
  obtain ⟨n1, m1, e1, hu1, hr1, -⟩ := unpack_finite ha
  obtain ⟨n2, m2, e2, hu2, hr2, -⟩ := unpack_finite hb
  simp [Fmt.eq, eqVal, hv, hu1, hu2, FVal.isNan, FVal.isSnan, ltVal, signedAt_lt_iff, hr1, hr2, when_false]
  rw [Bool.eq_iff_iff]
  simp only [Bool.and_eq_true, Bool.not_eq_true', decide_eq_false_iff_not, decide_eq_true_eq, not_lt]
  exact and_comm.trans (le_antisymm_iff (a := value32 a)).symm

end

/-- An encoding above infinity is a NaN (R191). -/
theorem unpack_nan (ftz : Bool) {a : Nat} (ha : a < 2 ^ 32) (h : 255 * 2 ^ 23 < a % 2 ^ 31) :
    (Fmt.f32.unpack ftz a).isNan = true := by
  rw [unpack_f32 ftz ha, if_pos (by omega), if_neg (by omega)]
  rfl

section
variable {v : FEnv} {a b : Nat} (ha : a < 2 ^ 32) (hb : b < 2 ^ 32) (h : 255 * 2 ^ 23 < a % 2 ^ 31 ∨ 255 * 2 ^ 23 < b % 2 ^ 31)
include ha hb h

theorem isNan_or : ((Fmt.f32.unpack v.ftz a).isNan || (Fmt.f32.unpack v.ftz b).isNan) = true := by
  rcases h with h | h
  · rw [unpack_nan v.ftz ha h, Bool.true_or]
  · rw [unpack_nan v.ftz hb h, Bool.or_true]

theorem lt_nan : Fmt.f32.lt v a b = (false, flagNV) := by
  have hn := isNan_or (v := v) ha hb h
  simp only [Fmt.lt, hn, ← Bool.not_or, Bool.not_true, Bool.false_and]
  rfl

theorem le_nan : Fmt.f32.le v a b = (false, flagNV) := by
  have hn := isNan_or (v := v) ha hb h
  simp only [Fmt.le, hn, ← Bool.not_or, Bool.not_true, Bool.false_and]
  rfl

theorem eq_nan : (Fmt.f32.eq v a b).1 = false := by
  have hn := isNan_or (v := v) ha hb h
  simp only [Fmt.eq, eqVal, ← Bool.not_or, hn, Bool.not_true, Bool.false_and]

end

end Sys2Proof.Machine

namespace Sys2Proof.Proofs
open Machine Claims

/-- FTZ of the environment is bit 8 of FCSR (R204). -/
theorem csrEnv_ftz {c : Word} (h : c.getLsbD 8 = false) : (csrEnv c).ftz = false := h

theorem exactFloatResults_holds : exactFloatResults := by
  intro hd d a b C s hc hftz A B hA hB hC
  have hv := csrEnv_ftz hftz
  refine ⟨fun h => ?_, fun h => ?_, fun h => ?_⟩
  · obtain ⟨V, hf, hval, hr⟩ := add_exact hv hA hB hC h
    exact ⟨V, hf, hval, fp2_floats rfl hc (by rw [low32_eq_fp32, low32_eq_fp32]; exact hr)⟩
  · obtain ⟨V, hf, hval, hr⟩ := sub_exact hv hA hB hC h
    exact ⟨V, hf, hval, fp2_floats rfl hc (by rw [low32_eq_fp32, low32_eq_fp32]; exact hr)⟩
  · obtain ⟨V, hf, hval, hr⟩ := mul_exact hv hA hB hC h
    exact ⟨V, hf, hval, fp2_floats rfl hc (by rw [low32_eq_fp32, low32_eq_fp32]; exact hr)⟩

theorem floatComparisons_holds : floatComparisons := by
  intro hd d a b s hc hftz A B
  have hv := csrEnv_ftz hftz
  have hA := low32_eq_fp32 (s.rx a)
  have hB := low32_eq_fp32 (s.rx b)
  refine ⟨fun ha hb => ⟨fp2_floats rfl hc ?_, fp2_floats rfl hc ?_, fp2_floats rfl hc ?_⟩,
    fun h => ⟨fp2_floats rfl hc ?_, fp2_floats rfl hc ?_, (Fmt.f32.eq (csrEnv s.me.csr.fcsr) A B).2, fp2_floats rfl hc ?_⟩⟩
  · rw [boolF_eq, hA, hB, eq_finite hv ha hb]; simp only [decide_eq_true_eq]
  · rw [boolF_eq, hA, hB, lt_finite hv ha hb]; simp only [decide_eq_true_eq]
  · rw [boolF_eq, hA, hB, le_finite hv ha hb]; simp only [decide_eq_true_eq]
  · rw [boolF_eq, hA, hB, lt_nan (fp32_lt _) (fp32_lt _) h]
    rfl
  · rw [boolF_eq, hA, hB, le_nan (fp32_lt _) (fp32_lt _) h]
    rfl
  · rw [boolF_eq, hA, hB, eq_nan (fp32_lt _) (fp32_lt _) h]
    rfl

/-- Settles O6: a number that FP32 holds is a whole number of the units in which it is rounded, so every mode gives it as it is; and the
comparisons compare whole numbers of the smaller of two units. -/
theorem floatValues : Obligations.FloatValues := ⟨exactFloatResults_holds, floatComparisons_holds⟩

end Sys2Proof.Proofs

/-! PROOFS. Jumps, branches and hardware loops (R176 to R178, R249 to R251), and what a thread that traps leaves (R389). -/

namespace Sys2Proof.Machine

set_option Elab.async false
open Claims

/-! ### What an instruction gives up as it traps (R95, R134, R148)

It drops what it has asked its vault for and what it has read ahead, and a pool lock granted to it and not yet taken over goes on: of its own
hart at most the lock and PLOCKSTAT change, and of another hart nothing. -/

/-- A hart with its pool lock and PLOCKSTAT left out. -/
def Hart.lockless (h : Hart) : Hart := { h with lock := none, csr := { h.csr with plockstat := 0 } }

theorem State.forgetEarly_hart (s : State) (w : Reader) (h : HartId) : (s.forgetEarly w).hart h = s.hart h := by
  unfold State.forgetEarly
  split <;> rfl

theorem State.dropReads_hart (s : State) (c : Nat) (w : Reader) (h : HartId) : (s.dropReads c w).hart h = s.hart h := by
  simp only [State.dropReads]
  split
  · rw [State.modVault_hart, State.forgetEarly_hart]
  · exact State.forgetEarly_hart s w h

@[simp] theorem State.modLock_hart (s : State) (k : Nat × Nat × Nat) (f : PLock → PLock) (h : HartId) : (s.modLock k f).hart h = s.hart h := rfl

@[simp] theorem State.dropLock_hart (s : State) (i : HartId) (k : Nat × Nat × Nat) (h : HartId) : (s.dropLock i k).hart h = s.hart h := by
  unfold State.dropLock
  split <;> rfl

theorem State.clearLock_hart_other (s : State) (i h : HartId) (hh : h ≠ i) : (s.clearLock i).hart h = s.hart h := by
  unfold State.clearLock
  split
  · rfl
  · rw [State.modHart_hart_other _ _ _ _ (Ne.symm hh), State.dropLock_hart]

theorem State.clearLock_lockless (s : State) (i : HartId) : ((s.clearLock i).hart i).lockless = (s.hart i).lockless := by
  unfold State.clearLock
  split
  · rfl
  · rw [State.modHart_hart_same, State.dropLock_hart]
    rfl

theorem State.ungrant_hart_other (s : State) (i h : HartId) (hh : h ≠ i) : (s.ungrant i).hart h = s.hart h := by
  unfold State.ungrant
  split
  · rfl
  · exact s.clearLock_hart_other i h hh

theorem State.ungrant_lockless (s : State) (i : HartId) : ((s.ungrant i).hart i).lockless = (s.hart i).lockless := by
  unfold State.ungrant
  split
  · rfl
  · exact s.clearLock_lockless i

theorem State.giveUp_hart_other (s : State) (h : HartId) (hh : h ≠ s.cur) : s.giveUp.hart h = s.hart h := by
  unfold State.giveUp
  rw [State.ungrant_hart_other _ _ _ hh, State.dropReads_hart]

theorem State.giveUp_cur (s : State) : s.giveUp.cur = s.cur := congrArg Ground.cur (State.giveUp_ground s)

theorem State.giveUp_lockless (s : State) : s.giveUp.me.lockless = s.me.lockless := by
  unfold State.me
  rw [State.giveUp_cur, State.giveUp, State.ungrant_lockless, State.dropReads_hart]

section
variable {h g : Hart} (e : h.lockless = g.lockless)
include e

theorem Hart.x_of_lockless : h.x = g.x := show h.lockless.x = g.lockless.x by rw [e]
theorem Hart.loops_of_lockless : h.loops = g.loops := show h.lockless.loops = g.lockless.loops by rw [e]
theorem Hart.sb_of_lockless : h.busy.sb = g.busy.sb := show h.lockless.busy.sb = g.lockless.busy.sb by rw [e]
theorem Hart.tokens_of_lockless : h.busy.tokens = g.busy.tokens := show h.lockless.busy.tokens = g.lockless.busy.tokens by rw [e]
theorem Hart.tkfault_of_lockless : h.csr.tkfault = g.csr.tkfault := show h.lockless.csr.tkfault = g.lockless.csr.tkfault by rw [e]
theorem Hart.tstatus_of_lockless : h.csr.tstatus = g.csr.tstatus := show h.lockless.csr.tstatus = g.lockless.csr.tstatus by rw [e]
theorem Hart.inTrap_of_lockless : h.inTrap = g.inTrap := by rw [Hart.inTrap, Hart.inTrap, Hart.tstatus_of_lockless e]
theorem Hart.priv_of_lockless : h.priv = g.priv := by rw [Hart.priv, Hart.priv, Hart.tstatus_of_lockless e]

end

/-- A hart as it enters its trap handler (R389). -/
def Hart.entered (cause status : BitVec 8) (val epc : Word) (h : Hart) : Hart :=
  { h with
    pc := setBits (setBits h.csr.tvec 0 1 0) 48 16 0
    loops := []
    wait := none
    safe := none
    busy := h.forgetWalks.busy.trapXact
    csr := { (h.csr.saveLoops h.loops) with
             tstatus := tstatusOf (max h.priv 1) h.priv true
             tepc := setBits epc 48 16 0
             tcause := tcauseOf cause status
             tval := val } }

theorem Hart.entered_sb (cause status : BitVec 8) (val epc : Word) (h : Hart) : (h.entered cause status val epc).busy.sb = h.busy.sb := rfl

theorem Hart.entered_tokens (cause status : BitVec 8) (val epc : Word) (h : Hart) :
    (h.entered cause status val epc).busy.tokens = h.busy.tokens := rfl
theorem Hart.entered_tkfault (cause status : BitVec 8) (val epc : Word) (h : Hart) :
    (h.entered cause status val epc).csr.tkfault = h.csr.tkfault := rfl

/-- A trap of a thread that handles none gives up what it had been granted and enters its handler. -/
theorem takeTrap_thread (cause status : BitVec 8) (val epc : Word) (s : State) (hc : s.cur.isCtx = false) (ht : s.me.inTrap = false) :
    takeTrap cause status val epc s = s.giveUp.modMe (Hart.entered cause status val epc) := by
  have ht' : s.giveUp.me.inTrap = false := by rw [Hart.inTrap_of_lockless s.giveUp_lockless, ht]
  simp only [takeTrap, State.giveUp_cur, hc, ht', Bool.false_eq_true, if_false]
  rfl

/-- What stands in a thread that has entered its handler. -/
theorem takeTrap_thread_me (cause status : BitVec 8) (val epc : Word) (s : State) (hc : s.cur.isCtx = false) (ht : s.me.inTrap = false) :
    (takeTrap cause status val epc s).me = s.giveUp.me.entered cause status val epc := by
  rw [takeTrap_thread cause status val epc s hc ht, State.modMe_me]

/-- TEPC keeps the low 48 bits of an address (R389). -/
theorem toNat_tepc (v : Word) : (setBits v 48 16 0).toNat = v.toNat % 2 ^ 48 := by
  have h : setBits v 48 16 0 = v &&& (BitVec.ofNat 64 (2 ^ 48 - 1)) := by
    simp only [setBits, Nat.zero_mod, Nat.zero_mul]
    rw [show BitVec.ofNat 64 0 = 0#64 from rfl, BitVec.or_zero]
    congr 1
  rw [h, BitVec.toNat_and, BitVec.toNat_ofNat, show (2 ^ 48 - 1) % 2 ^ 64 = 2 ^ 48 - 1 from rfl, Nat.and_two_pow_sub_one_eq_mod]

/-- A trap of a thread that handles none leaves its cause, its value and the address of its instruction, and keeps the registers. -/
theorem takeTrap_saves (cause status : BitVec 8) (val epc : Word) (s : State) (hc : s.cur.isCtx = false) (ht : s.me.inTrap = false) :
    (takeTrap cause status val epc s).me.csr.tcause = tcauseOf cause status ∧ (takeTrap cause status val epc s).me.csr.tval = val ∧
    (takeTrap cause status val epc s).me.csr.tepc.toNat = epc.toNat % 2 ^ 48 ∧
    (takeTrap cause status val epc s).me.csr.ldepth = BitVec.ofNat 64 s.me.loops.length ∧
    ∀ r, (takeTrap cause status val epc s).me.rx r = s.me.rx r := by
  rw [takeTrap_thread_me cause status val epc s hc ht]
  refine ⟨rfl, rfl, toNat_tepc epc, ?_, fun r => ?_⟩
  · show BitVec.ofNat 64 s.giveUp.me.loops.length = _
    rw [Hart.loops_of_lockless s.giveUp_lockless]
  · show Hart.rx s.giveUp.me r = _
    rw [Hart.rx, Hart.rx, Hart.x_of_lockless s.giveUp_lockless]

/-! ### Jumps, branches and loops (R176 to R178) -/

/-- The loop entries that a jump leaves are those from the first whose range holds its target. -/
theorem loopJump_eq_kept (t : Word) (l : List LoopEnt) : loopJump t l = kept t l := by
  induction l with
  | nil => rfl
  | cons e r ih =>
    unfold loopJump kept
    rw [List.dropWhile_cons]
    cases hb : (decide (e.start.toNat ≤ t.toNat) && decide (t.toNat < e.stop.toNat))
    · exact ih
    · rfl

theorem jump_eq_takes (hd : Head) (t : Word) (s : State) : jump hd t s = takes hd t s := by
  unfold jump takes
  simp only [loopJump_eq_kept]
  rfl

/-- Nothing is written to x0. -/
theorem takes_wx_zero (hd : Head) (t v : Word) (s : State) : takes hd t (s.wx 0 v) = takes hd t s := State.modMe_modMe s _ _

/-- The successor of an instruction of four bytes stands behind them and its mask word (R217). -/
theorem succ_of_code32 {k : Code} {hd : Head} {w : BitVec 32} (s : State) (hk : k = code32 hd w) :
    s.succ k = s.me.pc + (if hd.s then 8 else 4) := by
  subst hk
  cases hs : hd.s <;> simp [State.succ, Code.size, code32, hs]

theorem wbit_zero (w : Word) : wbit w 0 = decide (w.toNat % 2 = 1) := by
  rw [wbit, BitVec.getLsbD, Nat.testBit_zero]

/-- The bits above bit 47 of an address. -/
theorem wbits_above (w : Word) : wbits w 48 16 = w.toNat / 2 ^ 48 := by
  have h := w.isLt
  simp only [wbits, bits]
  omega

/-- An offset in halfwords. -/
theorem sx_halfwords {n : Nat} (o : BitVec n) : sx o <<< 1 = BitVec.ofInt 64 (2 * o.toInt) := by
  rw [sx_shiftLeft, Int.mul_comm]
  rfl

@[simp] theorem finishAt_me_pc (hd : Head) (n : Word) (s : State) : (finishAt hd n s).me.pc = (loopEndCheck n s.me.loops).2 := by
  rw [finishAt, State.modMe_me]
@[simp] theorem finishAt_me_loops (hd : Head) (n : Word) (s : State) : (finishAt hd n s).me.loops = (loopEndCheck n s.me.loops).1 := by
  rw [finishAt, State.modMe_me]
@[simp] theorem finishAt_me_rx (hd : Head) (n : Word) (s : State) (r : Reg) : (finishAt hd n s).me.rx r = s.me.rx r := by
  rw [finishAt, State.modMe_me]; rfl
theorem finishAt_hart_other (hd : Head) (n : Word) (s : State) (h : HartId) (hh : h ≠ s.cur) : (finishAt hd n s).hart h = s.hart h :=
  State.modMe_hart_other s h _ (Ne.symm hh)

/-- The end check of a loop that ends elsewhere (R177). -/
theorem loopEndCheck_other {e : LoopEnt} {n : Word} (r : List LoopEnt) (h : e.stop ≠ n) : loopEndCheck n (e :: r) = (e :: r, n) := by
  rw [loopEndCheck, if_neg h]

/-- The end check of a loop with passes left (R177). -/
theorem loopEndCheck_again {e : LoopEnt} {n : Word} (r : List LoopEnt) (h : e.stop = n) (hk : 1 < e.count.toNat) :
    loopEndCheck n (e :: r) = ({ e with count := e.count - 1 } :: r, e.start) := by
  rw [loopEndCheck, if_pos h, if_pos hk]

/-- The end check of a loop in its last pass (R177). -/
theorem loopEndCheck_last {e : LoopEnt} {n : Word} (r : List LoopEnt) (h : e.stop = n) (hk : e.count.toNat ≤ 1) :
    loopEndCheck n (e :: r) = loopEndCheck n r := by
  rw [loopEndCheck, if_pos h, if_neg (Nat.not_lt.mpr hk)]

section
variable {ik : Code} {hd : Head} {a b d : Reg} {off : Word} {s : State}

theorem branch_taken {f : Word → Word → Bool} (hc : s.clear hd [.x a, .x b] []) (h : f (s.rx a) (s.rx b) = true) :
    branch ik hd a b off f s = takes hd (s.me.pc + (off <<< 1)) s := by
  rw [branch, issue_clear _ _ _ _ _ _ _ _ (Nat.zero_le _) rfl hc, if_pos h, jump_eq_takes]

theorem branch_untaken {f : Word → Word → Bool} (hc : s.clear hd [.x a, .x b] []) (h : f (s.rx a) (s.rx b) = false) :
    branch ik hd a b off f s = finish ik hd s := by
  rw [branch, issue_clear _ _ _ _ _ _ _ _ (Nat.zero_le _) rfl hc, if_neg (by simp [h])]

theorem jumpLink_clear (hc : s.clear hd [] [.x d]) :
    jumpLink ik hd d off s = takes hd (s.me.pc + (off <<< 1)) (s.wx d (s.succ ik)) := by
  rw [jumpLink, issue_clear _ _ _ _ _ _ _ _ (Nat.zero_le _) rfl hc, jump_eq_takes]

/-- A JALR to an even target within 48 bits. -/
theorem jumpReg_clear (hc : s.clear hd [.x a] [.x d]) (hw : (s.rx a + off).toNat < 2 ^ 48) (he : (s.rx a + off).toNat % 2 = 0) :
    jumpReg ik hd d a off s = takes hd (s.rx a + off) (s.wx d (s.succ ik)) := by
  have h0 : wbit (s.rx a + off) 0 = false := by simp only [wbit_zero, he]; rfl
  have h48 : wbits (s.rx a + off) 48 16 = 0 := by rw [wbits_above, Nat.div_eq_of_lt hw]
  rw [jumpReg, issue_clear _ _ _ _ _ _ _ _ (Nat.zero_le _) rfl hc]
  simp only [h0, h48, Bool.false_eq_true, if_false, ne_eq, not_true_eq_false, jump_eq_takes]

theorem jumpReg_odd (hc : s.clear hd [.x a] [.x d]) (ho : (s.rx a + off).toNat % 2 = 1) :
    jumpReg ik hd d a off s = trapVal 0x04 (s.rx a + off) s := by
  have h0 : wbit (s.rx a + off) 0 = true := by simp only [wbit_zero, ho]; rfl
  rw [jumpReg, issue_clear _ _ _ _ _ _ _ _ (Nat.zero_le _) rfl hc]
  simp only [h0, if_true]

theorem jumpReg_beyond (hc : s.clear hd [.x a] [.x d]) (he : (s.rx a + off).toNat % 2 = 0) (hw : 2 ^ 48 ≤ (s.rx a + off).toNat) :
    jumpReg ik hd d a off s = trapVal 0x06 (s.rx a + off) s := by
  have h0 : wbit (s.rx a + off) 0 = false := by simp only [wbit_zero, he]; rfl
  have h48 : wbits (s.rx a + off) 48 16 ≠ 0 := by
    rw [wbits_above]
    omega
  rw [jumpReg, issue_clear _ _ _ _ _ _ _ _ (Nat.zero_le _) rfl hc]
  simp only [h0, h48, Bool.false_eq_true, if_false, ne_eq, not_false_eq_true, if_true]

end
end Sys2Proof.Machine

namespace Sys2Proof.Proofs

set_option Elab.async false
open Machine Claims

/-- R250: JAL and JALR link and jump. -/
theorem jumps_holds : jumps := by
  intro hd d a j i s hc
  rw [← show sx i = BitVec.ofInt 64 i.toInt from rfl]
  refine ⟨?_, fun hw he => ?_⟩
  · show Host.Outcome.next (jumpLink (codeOf (.jal hd d j)) hd d (sx j) s) = _
    rw [jumpLink_clear (clear_mono s hd [.x a] [] _ _ hc (by simp) (by simp)), sx_halfwords, succ_of_code32 (k := codeOf _) (hd := hd) s rfl]
  · show Host.Outcome.next (jumpReg (codeOf (.jalr hd d a i)) hd d a (sx i) s) = _
    rw [jumpReg_clear hc hw he, succ_of_code32 (k := codeOf _) (hd := hd) s rfl]

/-- R250, R391: the targets that JALR refuses. -/
theorem jalrTraps_holds : jalrTraps := by
  intro hd d a i s hc hx ht
  rw [← show sx i = BitVec.ofInt 64 i.toInt from rfl]
  refine ⟨_, rfl, fun ho => ?_, fun he hw => ?_⟩
  · rw [jumpReg_odd hc ho]
    obtain ⟨h1, h2, h3, _, h5⟩ := takeTrap_saves 0x04 0 (s.rx a + sx i) s.me.pc s hx ht
    exact ⟨h1, h2, h3, h5⟩
  · rw [jumpReg_beyond hc he hw]
    obtain ⟨h1, h2, h3, _, h5⟩ := takeTrap_saves 0x06 0 (s.rx a + sx i) s.me.pc s hx ht
    exact ⟨h1, h2, h3, h5⟩

/-- Settles O7: the links and targets of JAL and JALR, and the traps of JALR. -/
theorem jumps : Obligations.Jumps := ⟨jumps_holds, jalrTraps_holds⟩

/-- R176, R177, R217: where an instruction that falls through goes on, and what it leaves of the loop stack. -/
theorem successorAndLoopEnd_holds : successorAndLoopEnd := by
  intro hd i s hc
  let next := s.me.pc + (if hd.s then 8 else 4)
  let u := s.wx 0 (s.rx 0 + sx i)
  have hu : u.me.loops = s.me.loops := by simp [u, State.wx]
  have hx : exec (.addi hd 0 0 i) s = .next (finishAt hd next u) := by
    show Host.Outcome.next (regOne (codeOf (.addi hd 0 0 i)) hd 0 0 (fun a => a + sx i) s) = _
    rw [regOne_clear _ _ _ _ _ _ hc, writeRd, finish, succ_of_code32 (k := codeOf _) (hd := hd) _ rfl]
    simp [u, next, State.wx]
  refine ⟨finishAt hd next u, hx, fun h => ?_, fun e r h hs => ?_, fun e r h hs hk => ?_, fun e h hs hk => ?_, fun e f r h hs hk hs' hk' => ?_,
    fun q => ?_, fun h hh => ?_, rfl⟩
  · rw [finishAt_me_pc, finishAt_me_loops, hu, h]; exact ⟨rfl, rfl⟩
  · rw [finishAt_me_pc, finishAt_me_loops, hu, h, loopEndCheck_other r hs]; exact ⟨rfl, rfl⟩
  · rw [finishAt_me_pc, finishAt_me_loops, hu, h, loopEndCheck_again r hs hk]; exact ⟨rfl, rfl⟩
  · rw [finishAt_me_pc, finishAt_me_loops, hu, h, loopEndCheck_last [] hs hk]; exact ⟨rfl, rfl⟩
  · rw [finishAt_me_pc, finishAt_me_loops, hu, h, loopEndCheck_last _ hs hk, loopEndCheck_again r hs' hk']; exact ⟨rfl, rfl⟩
  · rw [finishAt_me_rx]; simp [u, State.wx]
  · rw [finishAt_hart_other hd next u h hh]; exact State.modMe_hart_other s h _ (Ne.symm hh)

/-- R176, R251: what LOOP and LOOPI have in common. -/
theorem loopPush_acts (hd : Head) (ik : Code) (w : BitVec 32) (i : BitVec 12) (count : Word) (s : State) (hk : ik = code32 hd w) :
    (s.me.loops.length < 4 → count ≠ 0 → loopPush ik hd i count s = finish ik hd (s.modMe (fun h =>
      { h with loops := ⟨s.me.pc + (if hd.s then 8 else 4), s.me.pc + BitVec.ofNat 64 (2 * i.toNat), count⟩ :: h.loops }))) ∧
    (s.me.loops.length < 4 → count = 0 → loopPush ik hd i count s = finishAt hd (s.me.pc + BitVec.ofNat 64 (2 * i.toNat)) s) ∧
    (4 ≤ s.me.loops.length → loopPush ik hd i count s = trapVal 0x14 0 s) := by
  have hz : zx i <<< 1 = BitVec.ofNat 64 (2 * i.toNat) := by
    apply BitVec.eq_of_toNat_eq
    simp [zx, Nat.shiftLeft_eq]
    omega
  refine ⟨fun hl hn => ?_, fun hl h0 => ?_, fun hl => ?_⟩
  · simp only [loopPush, if_neg (Nat.not_le.mpr hl), if_neg hn, hz, succ_of_code32 s hk]
  · simp only [loopPush, if_neg (Nat.not_le.mpr hl), if_pos h0, hz]
  · simp only [loopPush, if_pos hl]

/-- R176, R251: LOOP and LOOPI. -/
theorem hardwareLoops_holds : hardwareLoops := by
  intro hd a n i s hc
  have family (ins : Instr) (w : BitVec 32) (count : Word) (hk : codeOf ins = code32 hd w)
      (hx : exec ins s = .next (loopPush (codeOf ins) hd i count s)) :
      (s.me.loops.length < 4 → count ≠ 0 → completes ins hd (s.modMe (fun h =>
        { h with loops := ⟨s.me.pc + (if hd.s then 8 else 4), s.me.pc + BitVec.ofNat 64 (2 * i.toNat), count⟩ :: h.loops })) s) ∧
      (s.me.loops.length < 4 → count = 0 → ∃ t : State, exec ins s = .next t ∧
        t.me.pc = (loopEndCheck (s.me.pc + BitVec.ofNat 64 (2 * i.toNat)) s.me.loops).2 ∧
        t.me.loops = (loopEndCheck (s.me.pc + BitVec.ofNat 64 (2 * i.toNat)) s.me.loops).1 ∧ ∀ r, t.me.rx r = s.me.rx r) ∧
      (4 ≤ s.me.loops.length → s.cur.isCtx = false → s.me.inTrap = false → ∃ t : State, exec ins s = .next t ∧
        t.me.csr.tcause = 0x14 ∧ t.me.csr.tepc.toNat = s.me.pc.toNat % 2 ^ 48 ∧ t.me.csr.ldepth = BitVec.ofNat 64 s.me.loops.length) := by
    obtain ⟨hpush, hnone, hdeep⟩ := loopPush_acts hd (codeOf ins) w i count s hk
    refine ⟨fun hl hn => ?_, fun hl h0 => ⟨_, hx.trans (by rw [hnone hl h0]), ?_⟩, fun hl hi ht => ⟨_, hx.trans (by rw [hdeep hl]), ?_⟩⟩
    · rw [completes, hx, hpush hl hn]
    · exact ⟨finishAt_me_pc .., finishAt_me_loops .., fun r => finishAt_me_rx ..⟩
    · obtain ⟨h1, _, h3, h4, _⟩ := takeTrap_saves 0x14 0 0 s.me.pc s hi ht
      exact ⟨h1, h3, h4⟩
  refine ⟨family (.loop hd a i) _ (s.rx a) rfl ?_, family (.loopi hd n i) _ (BitVec.ofNat 64 n.toNat) rfl ?_⟩
  · exact congrArg _ (issue_clear _ _ _ _ _ _ _ _ (Nat.zero_le _) rfl hc)
  · rw [BitVec.ofNat_toNat]
    exact congrArg _ (issue_clear _ _ _ _ _ _ _ _ (Nat.zero_le _) rfl (clear_mono s hd _ [] _ [] hc (by simp) (by simp)))

/-- Settles O8: the successor and the end check, then LOOP and LOOPI. -/
theorem loopsAndSuccessors : Obligations.LoopsAndSuccessors := ⟨successorAndLoopEnd_holds, hardwareLoops_holds⟩

/-- R249: every conditional branch. -/
theorem branches_holds : branches := by
  intro hd a b o s hc A B
  have family (i : Instr) (ik : Code) (f : Word → Word → Bool) (c : Prop) (hi : exec i s = .next (branch ik hd a b (sx o) f s))
      (hk : codeOf i = ik) (hf : f A B = true ↔ c) :
      (c → exec i s = .next (takes hd (s.me.pc + BitVec.ofInt 64 (2 * o.toInt)) s)) ∧ (¬c → completes i hd s s) := by
    subst hk
    refine ⟨fun h => ?_, fun h => ?_⟩
    · rw [hi, branch_taken hc (hf.mpr h), sx_halfwords]
    · rw [completes, hi, branch_untaken hc (by simpa using fun g => h (hf.mp g))]
  refine ⟨family _ _ (fun a b => a == b) _ rfl rfl (by simp), family _ _ (fun a b => a != b) _ rfl rfl (by simp),
    family _ _ (fun a b => a.slt b) _ rfl rfl (by simp [BitVec.slt]), family _ _ (fun a b => !a.slt b) _ rfl rfl (by simp [BitVec.slt]),
    family _ _ (fun a b => a.ult b) _ rfl rfl (by simp [BitVec.ult]), family _ _ (fun a b => !a.ult b) _ rfl rfl (by simp [BitVec.ult])⟩

/-- R225: the compressed jumps and branches. -/
theorem compressedFlow_holds : compressedFlow := by
  intro a e o f s
  refine ⟨?jump, fun hc => ?branch, fun hc hw he => ?jr, fun hc hw he => ?jalr⟩
  case jump =>
    show Host.Outcome.next (jumpLink (codeOf (.cJ o)) Head.plain 0 (sx o) s) = _
    have hc : s.clear Head.plain [] [.x 0] := ⟨rfl, by simp, by simpa using ⟨.inr rfl, rfl⟩⟩
    rw [jumpLink_clear hc, sx_halfwords, takes_wx_zero]
  case branch =>
    have hc0 : s.clear Head.plain [.x (prime e), .x 0] [] := by
      have h := clear_x0 hc
      exact clear_mono s _ _ _ _ _ h (by simp) (by simp)
    have h0 : s.rx 0#5 = 0#64 := rfl
    refine ⟨fun h => ⟨?_, ?_⟩, fun h => ⟨?_, ?_⟩⟩
    · exact congrArg _ ((branch_taken hc0 (by simp [h, h0])).trans (by rw [sx_halfwords]))
    · exact congrArg _ (branch_untaken hc0 (by simp [h, h0]))
    · exact congrArg _ ((branch_taken hc0 (by simpa [h0] using h)).trans (by rw [sx_halfwords]))
    · exact congrArg _ (branch_untaken hc0 (by simpa [h0] using h))
  case jr =>
    have hc0 : s.clear Head.plain [.x a] [.x 0] := ⟨rfl, hc.2.1, by simpa using ⟨.inr rfl, rfl⟩⟩
    have ha : s.rx a + 0 = s.rx a := BitVec.add_zero _
    show Host.Outcome.next (jumpReg (codeOf (.cJr a)) Head.plain 0 a 0 s) = _
    rw [jumpReg_clear hc0 (by rwa [ha]) (by rwa [ha]), ha, takes_wx_zero]
  case jalr =>
    have ha : s.rx a + 0 = s.rx a := BitVec.add_zero _
    show Host.Outcome.next (jumpReg (codeOf (.cJalr a)) Head.plain 1 a 0 s) = _
    rw [jumpReg_clear hc (by rwa [ha]) (by rwa [ha]), ha]
    rfl

/-- Settles O9: the 32-bit branches, then the compressed branches and jumps. -/
theorem branches : Obligations.Branches := ⟨branches_holds, compressedFlow_holds⟩

end Sys2Proof.Proofs

/-! PROOFS. A load whose bank then serves the tile load of another hart. -/

namespace Sys2Proof.Proofs

set_option Elab.async false
open Machine Claims

/-! ### A load that lets its bank serve another hart's tile load (R50 to R53)

A load that goes into flight asks its bank for its line, and a bank that is ready then serves its oldest request. Where that is the segment of
another thread's tile load, the transfer begins the preparation of that load's next segment, which the hart of the other thread records. -/

/-- The thread that issues the load. -/
def loader : HartId := ⟨.thread, 0, 0⟩

/-- The thread whose tile load is in flight. -/
def tileOwner : HartId := ⟨.thread, 0, 1⟩

/-- A tile load of two segments, in banks 3 and 4; the first has been asked for. -/
def tileInFlight : Flight :=
  { cmd :=
      { seq := 0, ins := .tld Head.plain 10 7 0 0 0 0 0 0, tk := 7, wait := 0, vd := 0, va := 0, vb := 0, args := [], wdata := [], kickLoads := 0,
        kickSb := 0, kickMsg := 0, slot := some 0, tape := false, asid := 0, home := 0 }
    src := [], segs := [⟨3, 0, [(0x1800, 0, 64, 0)], []⟩, ⟨4, 0, [(0x2000, 64, 64, 1)], []⟩], moved := [], rows := 0, fault := none,
    remote := false, parts := 0, started := true, asked := 1, stopped := none, written := false, out := [] }

/-- The request of its first segment. -/
def segmentRead : VReq := ⟨.read (.cmd tileOwner 0), 0, 0x60, 0, 64, 0, 0, 0, 0, false, true⟩

/-- Bank 3 with row 0 open since clk 0, and that request in its queue. -/
def openBank : Bank := { Bank.reset with opened := some ⟨0, false⟩, actClk := some 0, q := [segmentRead] }

/-- At clk 100 the loader stands at machine level, its translation off, with an address of bank 3 in x10. -/
def besideTile : State :=
  (({ State.reset with cur := loader, clk := 100 }.modHart loader (fun h =>
      { (h.wx 10 0x1FF8) with st := .running, csr := { h.csr with tstatus := 2 } })).modHart tileOwner (fun h =>
      { h with st := .running, busy := { h.busy with flights := [tileInFlight] } })).modBank 0 3 (fun _ => openBank)

/-- A load of eight bytes from the address in x10. -/
def tileLoadRace : Instr := .ld Head.plain 5 10 3 0 0

/-- The segments that the other thread's tile load has asked for. -/
def askedFor (s : State) : List Nat := (s.hart tileOwner).busy.flights.map (·.asked)

/-- The translation of its address. -/
def raceXlat : Xlat := ⟨0x1FF8, bareEnt 0x1FF8⟩

theorem besideTile_clear : besideTile.clear Head.plain [.x 10] [.x 5] := by
  refine ⟨rfl, ?_, ?_⟩ <;> simp only [List.mem_singleton, forall_eq] <;> decide +kernel

theorem besideTile_reaches : reaches (.load 8 true) 8 (eaM besideTile 10 0 3) besideTile besideTile raceXlat := by
  unfold reaches
  decide +kernel

theorem besideTile_loadable : loadable raceXlat.pa 8 besideTile := by
  unfold loadable
  decide +kernel

theorem askedFor_before : askedFor besideTile = [1] := by decide +kernel

theorem askedFor_after : (match exec tileLoadRace besideTile with | .next t => askedFor t | _ => []) = [2] := by decide +kernel

/-- Refutes O10: a load whose bank has the segment of another thread's tile load ready to serve serves it, and so begins the preparation of that
tile load's next segment: the hart of the other thread changes. -/
theorem not_loadsIssue : ¬ Obligations.LoadsIssue := by
  intro h
  obtain ⟨hld, -⟩ := h Head.plain 5 10 0 3 0 0 0 0 0 0 0 besideTile besideTile raceXlat (by decide +kernel)
  obtain ⟨⟨t, hx, -, -, -, -, -, -, -, -, -, hother⟩, -⟩ := hld besideTile_loadable besideTile_clear besideTile_reaches
  have h2 : askedFor t = [2] := by
    have h := askedFor_after
    unfold tileLoadRace at h
    rwa [hx] at h
  have h1 : askedFor t = [1] := by
    rw [askedFor, hother tileOwner (by decide)]
    exact askedFor_before
  rw [h1] at h2
  exact absurd h2 (by decide)

end Sys2Proof.Proofs

/-! PROOFS. What a translation leaves as it was (R32 to R35), stores that enter the store buffer (R135, R268 to R271), and accesses that fail a check (R19). -/

namespace Sys2Proof.Machine

set_option Elab.async false
open Claims

/-! ### What a translation leaves as it was (R32 to R35, R40)

Beyond the ground of the state a translation changes the TLBs, the miss queue of a cluster, the count of requests, and of the asker's hart the
answers of walks that it has not used yet. -/

/-- A hart with the answers of walks left out. -/
def Hart.unwalked (h : Hart) : Hart := h.modBusy (fun b => { b with walked := [] })

theorem State.l1Put_hart (s : State) (i : HartId) (e : TlbEnt) (h : HartId) : (s.l1Put i e).hart h = s.hart h := by
  unfold State.l1Put
  split <;> rfl

theorem State.askWalk_hart (s : State) (who : Asker) (va : Nat) (h : HartId) : (s.askWalk who va).hart h = s.hart h := by
  simp only [State.askWalk]
  split <;> rfl

theorem State.useWalked_hart (s : State) (who : Asker) (w : Walked) (h : HartId) :
    ((s.useWalked who w).hart h).unwalked = (s.hart h).unwalked := by
  unfold State.useWalked
  split
  · by_cases e : who.hart = h
    · rw [← e, State.modHart_hart_same]; rfl
    · rw [State.modHart_hart_other _ _ _ _ e]
  · rfl

theorem State.page_hart (s : State) (who : Asker) (va : Nat) (h : HartId) : ((s.page who va).1.hart h).unwalked = (s.hart h).unwalked := by
  simp only [State.page]
  repeat' split
  · rfl
  · exact s.useWalked_hart who _ h
  · exact s.useWalked_hart who _ h
  · rw [State.l1Put_hart]
  · rw [State.askWalk_hart]

theorem State.translate_hart (s : State) (who : Asker) (va : Word) (h : HartId) :
    ((s.translate who va).1.hart h).unwalked = (s.hart h).unwalked := by
  have hp := s.page_hart who va.toNat h
  simp only [State.translate]
  split
  · rfl
  split
  · rfl
  revert hp
  rcases s.page who va.toNat with ⟨t, e | c | _⟩ <;> exact id

theorem State.check_hart (s : State) (who : Asker) (a : Acc) (va : Word) (h : HartId) :
    ((s.check who a va).1.hart h).unwalked = (s.hart h).unwalked := by
  have ht := s.translate_hart who va h
  unfold State.check
  revert ht
  rcases s.translate who va with ⟨t, x | c | _⟩ <;> intro ht
  · dsimp only
    repeat' split
    all_goals exact ht
  · exact ht
  · exact ht

theorem State.access_hart (s : State) (who : Asker) (a : Acc) (n : Nat) (va : Word) (h : HartId) :
    ((s.access who a n va).1.hart h).unwalked = (s.hart h).unwalked := by
  unfold State.access
  split
  · rfl
  · exact s.check_hart who a va h

section
variable {h g : Hart} (e : h.unwalked = g.unwalked)
include e

theorem Hart.rx_of_unwalked (r : Reg) : h.rx r = g.rx r := show h.unwalked.rx r = g.unwalked.rx r by rw [e]
theorem Hart.pc_of_unwalked : h.pc = g.pc := show h.unwalked.pc = g.unwalked.pc by rw [e]
theorem Hart.csr_of_unwalked : h.csr = g.csr := show h.unwalked.csr = g.unwalked.csr by rw [e]
theorem Hart.sb_of_unwalked : h.busy.sb = g.busy.sb := show h.unwalked.busy.sb = g.unwalked.busy.sb by rw [e]
theorem Hart.inTrap_of_unwalked : h.inTrap = g.inTrap := by rw [Hart.inTrap, Hart.inTrap, Hart.csr_of_unwalked e]

end

section
variable {s u : State} {a : Acc} {n : Nat} {va : Word} {x : Checked} (hr : s.access (.instr s.cur) a n va = (u, x))
include hr

theorem cur_of_access : u.cur = s.cur := by
  have h := congrArg Ground.cur (State.access_ground s (.instr s.cur) a n va)
  rwa [hr] at h

theorem mem_of_access : u.mem = s.mem := by
  have h := congrArg Ground.mem (State.access_ground s (.instr s.cur) a n va)
  rwa [hr] at h

theorem me_of_access : u.me.unwalked = s.me.unwalked := by
  have h := s.access_hart (.instr s.cur) a n va s.cur
  rw [hr] at h
  rw [State.me, cur_of_access hr]
  exact h

end

/-! ### Stores that issue (R135, R268 to R271) -/

/-- A store whose access passes the checks enters the store buffer. -/
theorem storeX_enters {ik : Code} {hd : Head} {d a : Reg} {srcs : List RegRef} {w : BitVec 2} {rel : Bool} {ea : State → Word} {s u : State}
    {x : Xlat} (hc : s.clear hd (.x d :: .x a :: srcs) []) (hq : s.me.acqWait = false) (hm : mmioHole x.pa = false)
    (hr : reaches .store (widthOf w) (ea s) s u x) :
    storeX ik hd d a srcs w rel ea s = finish ik hd (u.startStore u.cur [(x.pa, widthOf w, s.rx d)] rel none x.ent.rep false) := by
  have hd' : u.rx d = s.rx d := Hart.rx_of_unwalked (me_of_access hr) d
  unfold reaches at hr
  rw [storeX, issue_clear _ _ _ _ _ _ _ _ (Nat.zero_le _) rfl hc, if_neg (by rw [hq]; simp), withAccess, hr]
  simp only [hm, Bool.false_eq_true, if_false, hd']

/-- The entry of a store of a hart that is entered into its store buffer (R135, R140). -/
def State.storeEntry (s : State) (h : Hart) (id : HartId) (parts : List (Nat × Nat × Word)) (rel : Bool) (unlock : Option (Nat × Nat × Nat))
    (rep : Option (BitVec 256)) (long : Bool) : SbEnt :=
  { num := h.busy.sbNext, parts := parts, afterLoads := h.busy.loadNext, afterMsg := if rel then some s.dev.nextMsg else none,
    afterIds := h.busy.relIds, port := portOf id long, unlock := unlock, rep := rep, asid := h.asid }

theorem startStore_eq (s : State) (id : HartId) (parts : List (Nat × Nat × Word)) (rel : Bool) (unlock : Option (Nat × Nat × Nat))
    (rep : Option (BitVec 256)) (long : Bool) :
    s.startStore id parts rel unlock rep long = s.modHart id (fun h => h.modBusy (fun b =>
      { b with sb := b.sb ++ [s.storeEntry h id parts rel unlock rep long], sbNext := b.sbNext + 1 })) := rfl

/-- What a store leaves that has entered the store buffer. -/
theorem stores_of_enters {ik : Code} {hd : Head} {i : Instr} {a : Acc} {n m : Nat} {va v : Word} {rel : Bool} {s u : State} {x : Xlat}
    (hr : reaches a m va s u x)
    (hx : exec i s = .next (finish ik hd (u.startStore u.cur [(x.pa, n, v)] rel none x.ent.rep false))) : stores ik hd i x n v rel u s := by
  have hcur : u.cur = s.cur := cur_of_access hr
  have hs := startStore_eq u u.cur [(x.pa, n, v)] rel none x.ent.rep false
  rw [← State.modMe] at hs
  refine ⟨_, hx, ?_, ?_, ?_, ⟨u.storeEntry u.me u.cur [(x.pa, n, v)] rel none x.ent.rep false, ?_, rfl, rfl, ?_, rfl, rfl, rfl⟩, ?_, ?_, rfl, fun _ => rfl, fun h hh => ?_⟩
  · simp [hs, finish, State.succ]
  · simp [hs, finish, State.succ]
  · simp [hs, finish, finishAt]
  · simp [hs, finish, finishAt, Hart.forgetWalks, Hart.modBusy]
  · cases rel <;> rfl
  · simp [hs, finish, finishAt, Hart.forgetWalks]
  · simp [hs, finish, finishAt, Hart.forgetWalks]
  · rw [← hcur] at hh
    rw [hs]
    exact (finishAt_hart_other hd _ (u.modMe _) h hh).trans (State.modMe_hart_other u h _ (Ne.symm hh))

end Sys2Proof.Machine

namespace Sys2Proof.Proofs

set_option Elab.async false
open Machine Claims

/-- The address of the M format. -/
theorem eaM_eq (s : State) (a : Reg) (i : BitVec 7) (w : BitVec 2) : s.eaM a i w = eaM s a i w := by
  rw [State.eaM, eaM, sx_shiftLeft]

/-- The address of the indexed forms. -/
theorem eaX_eq (s : State) (a b : Reg) (w : BitVec 2) : s.eaX a b w = s.rx a + BitVec.ofNat 64 ((s.rx b).toNat * 2 ^ w.toNat) := by
  rw [State.eaX, shiftLeft_eq_ofNat]

/-- Settles O11: every store form is one store of the register that it names, at its own address. -/
theorem storesIssue : Obligations.StoresIssue := by
  intro hd d a b w r i e f o c s t x hq hm n
  have family {ik : Code} {hd : Head} {ins : Instr} {d a : Reg} {srcs : List RegRef} {w : BitVec 2} {rel : Bool} {ea : State → Word} {va : Word}
      (hx : exec ins s = .next (storeX ik hd d a srcs w rel ea s)) (he : ea s = va) (hc : s.clear hd (.x d :: .x a :: srcs) [])
      (hr : reaches .store (widthOf w) va s t x) : stores ik hd ins x (widthOf w) (s.rx d) rel t s := by
    subst he
    exact stores_of_enters hr (hx.trans (by rw [storeX_enters hc hq hm hr]))
  refine ⟨fun hc hr => ⟨?_, ?_⟩, fun hc hr => ?_, fun hc hr => ?_, fun hc hr => ?_⟩
  · exact family rfl (eaM_eq s a i w) hc hr
  · exact family rfl (eaM_eq s a i w) hc hr
  · exact family rfl (eaX_eq s a b w) hc hr
  · exact family (w := 3) rfl (by rw [zx_shiftLeft_three o (by decide)]) hc hr
  · exact family (w := 3) rfl (by rw [zx_shiftLeft_three c (by decide)]) hc hr

/-! ### Accesses that fail a check (R19) -/

theorem tcauseOf_zero (c : BitVec 8) : tcauseOf c 0 = c.setWidth 64 := by
  apply BitVec.eq_of_getLsbD_eq
  intro i hi
  rw [tcauseOf, BitVec.getLsbD_append, BitVec.getLsbD_setWidth]
  split
  · simp [hi]
  · rename_i h
    rw [BitVec.getLsbD_append, BitVec.getLsbD_of_ge c i (by omega)]
    simp

/-- What an access leaves that fails a check: the cause, the address in TVAL, the registers, memory and the store buffer as they were. -/
theorem trapVal_after_access {s u : State} {a : Acc} {n : Nat} {va ea : Word} {c : BitVec 8} {y : Checked} (hc : s.cur.isCtx = false)
    (ht : s.me.inTrap = false) (hr : s.access (.instr s.cur) a n va = (u, y)) :
    (trapVal c ea u).me.csr.tcause = c.setWidth 64 ∧ (trapVal c ea u).me.csr.tval = ea ∧
    (trapVal c ea u).me.csr.tepc.toNat = s.me.pc.toNat % 2 ^ 48 ∧ (∀ r, (trapVal c ea u).me.rx r = s.me.rx r) ∧
    (trapVal c ea u).mem = s.mem ∧ (trapVal c ea u).me.busy.sb = s.me.busy.sb := by
  have hm := me_of_access hr
  have hc' : u.cur.isCtx = false := by rw [cur_of_access hr, hc]
  have ht' : u.me.inTrap = false := by rw [Hart.inTrap_of_unwalked hm, ht]
  obtain ⟨h1, h2, h3, -, h5⟩ := takeTrap_saves c 0 ea u.me.pc u hc' ht'
  refine ⟨h1.trans (tcauseOf_zero c), h2, h3.trans (by rw [Hart.pc_of_unwalked hm]), fun r => (h5 r).trans (Hart.rx_of_unwalked hm r), ?_, ?_⟩
  · exact (congrArg Ground.mem (trapVal_ground c ea u)).trans (mem_of_access hr)
  · rw [trapVal, takeTrap_thread_me c 0 ea u.me.pc u hc' ht', ← Hart.sb_of_unwalked hm]
    rw [Hart.entered_sb, Hart.sb_of_lockless u.giveUp_lockless]

section
variable {s : State} {a : Acc} {n : Nat} {va : Word}

/-- The checks of R19, in their order: alignment, translation, permission, level, reach. -/
theorem access_misaligned (who : Asker) (h : va.toNat % n ≠ 0) : s.access who a n va = (s, .fault 0x04) := by
  rw [State.access, if_pos h]

theorem access_aligned (who : Asker) (h : va.toNat % n = 0) : s.access who a n va = s.check who a va := by
  rw [State.access, if_neg (by simp [h])]

variable {who : Asker} {x : Xlat}

theorem check_untranslated {c : BitVec 8} (h : (s.translate who va).2 = .fault c) : (s.check who a va).2 = .fault c := by
  unfold State.check
  revert h
  rcases s.translate who va with ⟨t, y | c' | _⟩ <;> intro h
  · cases h
  · exact h
  · cases h

variable (h : (s.translate who va).2 = .ok x)
include h

theorem check_translated : (s.check who a va).2 =
    if !a.permitted (s.hart who.hart).priv x.ent then .fault 0x07
    else if (s.hart who.hart).priv < (if region x.pa = 3 then 1 else if region x.pa = 4 then 2 else 0) then .fault 0x03
    else if !(s.translate who va).1.reachPage a who.home x then .fault 0x05 else .ok x := by
  unfold State.check
  revert h
  rcases s.translate who va with ⟨t, y | c' | _⟩ <;> intro h
  · cases h
    dsimp only
    repeat' split
    all_goals rfl
  · cases h
  · cases h

theorem check_forbidden (hp : a.permitted (s.hart who.hart).priv x.ent = false) : (s.check who a va).2 = .fault 0x07 := by
  rw [check_translated h, if_pos (by simp [hp])]

theorem check_level (hp : a.permitted (s.hart who.hart).priv x.ent = true)
    (hl : (s.hart who.hart).priv < (if region x.pa = 3 then 1 else if region x.pa = 4 then 2 else 0)) : (s.check who a va).2 = .fault 0x03 := by
  rw [check_translated h, if_neg (by simp [hp]), if_pos hl]

theorem check_beyond (hp : a.permitted (s.hart who.hart).priv x.ent = true) (h3 : region x.pa ≠ 3) (h4 : region x.pa ≠ 4)
    (hb : ∀ t : State, t.reach a who.home x.pa = false) : (s.check who a va).2 = .fault 0x05 := by
  rw [check_translated h, if_neg (by simp [hp]), if_neg (by simp [h3, h4]), if_pos]
  unfold State.reachPage
  split <;> simp [hb]

end

section
variable {s : State} {hd : Head} {d a : Reg} {c : BitVec 8} {w : BitVec 2} {ik : Code}

/-- A load whose access fails a check traps with its cause. -/
theorem loadX_faults {srcs : List RegRef} {sgn acq : Bool} {ea : State → Word} (hc : s.clear hd (.x a :: srcs) [.x d]) (hq : s.me.acqWait = false)
    (hr : (s.access (.instr s.cur) (.load (widthOf w) true) (widthOf w) (ea s)).2 = .fault c) :
    loadX ik hd d a srcs w sgn acq ea s =
      trapVal c (ea s) (s.access (.instr s.cur) (.load (widthOf w) true) (widthOf w) (ea s)).1 := by
  rw [loadX, issue_clear _ _ _ _ _ _ _ _ (Nat.zero_le _) rfl hc, if_neg (by rw [hq]; simp), withAccess]
  revert hr
  rcases s.access _ _ _ _ with ⟨u, _ | c' | _⟩ <;> intro hr <;> cases hr
  rfl

/-- A store whose access fails a check traps with its cause. -/
theorem storeX_faults {srcs : List RegRef} {rel : Bool} {ea : State → Word} (hc : s.clear hd (.x d :: .x a :: srcs) []) (hq : s.me.acqWait = false)
    (hr : (s.access (.instr s.cur) .store (widthOf w) (ea s)).2 = .fault c) :
    storeX ik hd d a srcs w rel ea s = trapVal c (ea s) (s.access (.instr s.cur) .store (widthOf w) (ea s)).1 := by
  rw [storeX, issue_clear _ _ _ _ _ _ _ _ (Nat.zero_le _) rfl hc, if_neg (by rw [hq]; simp), withAccess]
  revert hr
  rcases s.access _ _ _ _ with ⟨u, _ | c' | _⟩ <;> intro hr <;> cases hr
  rfl

end

theorem load_permitted (n : Nat) (p : Nat) (e : TlbEnt) : (Acc.load n true).permitted p e = (e.r && (e.u || decide (1 ≤ p))) := by
  have h : (Acc.load n true != .fetch) = true := bne_iff_ne.mpr (by simp)
  simp [Acc.permitted, Acc.needR, Acc.needW, h]

theorem store_permitted (p : Nat) (e : TlbEnt) : Acc.store.permitted p e = (e.w && (e.u || decide (1 ≤ p))) := by
  have h : (Acc.store != .fetch) = true := bne_iff_ne.mpr (by simp)
  simp [Acc.permitted, Acc.needR, Acc.needW, h]

/-- A vault of another core is beyond the reach of a load and of a store. -/
theorem reach_otherVault (s : State) (n core pa : Nat) (h0 : region pa = 0) (hp : paCore pa ≠ core) :
    s.reach (.load n true) core pa = false ∧ s.reach .store core pa = false := by
  simp [State.reach, h0, hp]

/-- A pool of another cluster is beyond the reach of a load and of a store. -/
theorem reach_otherPool (s : State) (n core pa : Nat) (h1 : region pa = 1) (hp : paCluster pa ≠ clusterOf core) :
    s.reach (.load n true) core pa = false ∧ s.reach .store core pa = false := by
  simp [State.reach, h1, hp]

/-- Settles O12: the checks of R19 in their order, each with the cause with which a load and a store trap. -/
theorem accessFaults : Obligations.AccessFaults := by
  intro hd d a w u i s hc hq hx ht
  dsimp only
  rw [← eaM_eq, show 2 ^ w.toNat = widthOf w from rfl]
  have hcl : s.clear hd [.x a] [.x d] := clear_mono s hd _ _ _ _ hc (by simp) (by simp)
  have hcs : s.clear hd [.x d, .x a] [] := clear_mono s hd _ _ _ _ hc (by simp) (by simp)
  have load {c : BitVec 8} (hr : (s.access (.instr s.cur) (.load (widthOf w) true) (widthOf w) (s.eaM a i w)).2 = .fault c) :
      ∃ t : State, exec (.ld hd d a w u i) s = .next t ∧ t.me.csr.tcause = c.setWidth 64 ∧ t.me.csr.tval = s.eaM a i w ∧
        t.me.csr.tepc.toNat = s.me.pc.toNat % 2 ^ 48 ∧ (∀ r, t.me.rx r = s.me.rx r) ∧ t.mem = s.mem ∧ t.me.busy.sb = s.me.busy.sb :=
    ⟨_, congrArg Host.Outcome.next (loadX_faults (srcs := []) (ea := fun s => s.eaM a i w) hcl hq hr), trapVal_after_access hx ht (Prod.eta _).symm⟩
  have store {c : BitVec 8} (hr : (s.access (.instr s.cur) .store (widthOf w) (s.eaM a i w)).2 = .fault c) :
      ∃ t : State, exec (.st hd d a w i) s = .next t ∧ t.me.csr.tcause = c.setWidth 64 ∧ t.me.csr.tval = s.eaM a i w ∧
        t.me.csr.tepc.toNat = s.me.pc.toNat % 2 ^ 48 ∧ (∀ r, t.me.rx r = s.me.rx r) ∧ t.mem = s.mem ∧ t.me.busy.sb = s.me.busy.sb :=
    ⟨_, congrArg Host.Outcome.next (storeX_faults (srcs := []) (ea := fun s => s.eaM a i w) hcs hq hr), trapVal_after_access hx ht (Prod.eta _).symm⟩
  refine ⟨fun hn => ⟨load ?_, store ?_⟩, fun c hn hf => ⟨load ?_, store ?_⟩, fun x hn hk => ?_⟩
  · rw [access_misaligned _ hn]
  · rw [access_misaligned _ hn]
  · rw [access_aligned _ hn]; exact check_untranslated hf
  · rw [access_aligned _ hn]; exact check_untranslated hf
  have hme : (s.hart (Asker.instr s.cur).hart).priv = s.me.priv := rfl
  refine ⟨fun hp => load ?_, fun hp => store ?_, fun hr hw hu h3 hp => ⟨load ?_, store ?_⟩, fun hr hw hu h4 hp => ⟨load ?_, store ?_⟩,
    fun hr hw hu h0 hp => ⟨load ?_, store ?_⟩, fun hr hw hu h1 hp => ⟨load ?_, store ?_⟩⟩
  all_goals rw [access_aligned _ hn]
  · refine check_forbidden hk ?_
    rw [load_permitted, hme]
    rcases hp with h | ⟨h, h'⟩ <;> simp [*]
  · refine check_forbidden hk ?_
    rw [store_permitted, hme]
    rcases hp with h | ⟨h, h'⟩ <;> simp [*]
  · exact check_level hk (by rw [load_permitted, hr, hu]; rfl) (by rw [hme, hp, if_pos h3]; decide)
  · exact check_level hk (by rw [store_permitted, hw, hu]; rfl) (by rw [hme, hp, if_pos h3]; decide)
  · exact check_level hk (by rw [load_permitted, hr, hme]; simpa using hu) (by rw [hme, if_neg (by omega), if_pos h4]; exact hp)
  · exact check_level hk (by rw [store_permitted, hw, hme]; simpa using hu) (by rw [hme, if_neg (by omega), if_pos h4]; exact hp)
  · exact check_beyond hk (by rw [load_permitted, hr, hme]; simpa using hu) (by omega) (by omega) fun t => (reach_otherVault t _ _ _ h0 hp).1
  · exact check_beyond hk (by rw [store_permitted, hw, hme]; simpa using hu) (by omega) (by omega) fun t => (reach_otherVault t 0 _ _ h0 hp).2
  · exact check_beyond hk (by rw [load_permitted, hr, hme]; simpa using hu) (by omega) (by omega) fun t => (reach_otherPool t _ _ _ h1 hp).1
  · exact check_beyond hk (by rw [store_permitted, hw, hme]; simpa using hu) (by omega) (by omega) fun t => (reach_otherPool t 0 _ _ h1 hp).2

end Sys2Proof.Proofs

/-! PROOFS. An AMO on a page that is not aligned, and a fence of a hart that waits for a pool lock. -/

namespace Sys2Proof.Proofs

set_option Elab.async false
open Machine Claims

/-! ### An AMO on a page that is not aligned

A TLB entry is a record of the state, and nothing in the statement says that its page is aligned. The eight bytes of an AMO on the page below lie
on both sides of the end of the vault of core 0: the read takes the last four of them from core 1, the write leaves them where they were. -/

/-- A page of the last four bytes of the vault of core 0 and what follows. -/
def endPage : TlbEnt :=
  { asid := 0, va := 0, size := 4096, pa := 2 ^ 28 - 4, r := true, w := true, x := true, u := true, g := true, clid := 0, rep := none }

/-- The grant of a line to the AMO. -/
def lineGrant (line : Nat) : Grant := ⟨.instr loader, line, 1, 0, 0, 0, false, 0, true⟩

/-- The thread stands at the AMO with its translation on, all ones in x11, and both lines served. -/
def amoAtEnd : State :=
  ((({ State.reset with cur := loader, clk := 100 }.modHart loader (fun h =>
      { (h.wx 11 (BitVec.allOnes 64)) with st := .running, csr := { h.csr with ptroot := 1 } })).modCore 0 (fun c => { c with tlb := [endPage] })).modVault 0
    (fun v => { v with served := [lineGrant (2 ^ 22 - 1)] })).modVault 1 (fun v => { v with served := [lineGrant 0] })

/-- The exchange of the eight bytes at the address in x10 with x11. -/
def swapAtEnd : Instr := .amoswap Head.plain 5 10 11 1 0

theorem amoAtEnd_clear : amoAtEnd.clear Head.plain [.x 5, .x 10, .x 11] [.x 5] := by
  refine ⟨rfl, ?_, ?_⟩ <;> decide +kernel

theorem amoAtEnd_reaches : reaches (.amo true) 8 (amoAtEnd.rx 10) amoAtEnd amoAtEnd ⟨2 ^ 28 - 4, endPage⟩ := by
  unfold reaches
  decide +kernel

theorem amoAtEnd_served : served (.instr loader) [(2 ^ 28 - 4, 8)] amoAtEnd := by
  unfold served
  decide +kernel

theorem amoAtEnd_accepts : accepts 0 amoAtEnd := by
  unfold accepts
  decide +kernel

theorem amoAtEnd_writes : (match exec swapAtEnd amoAtEnd with | .next r => r.readNum (2 ^ 28 - 4) 8 | _ => 0) = 2 ^ 32 - 1 := by decide +kernel

/-- Refutes O14: on a page that ends with the vault of core 0 a swap of eight bytes writes four of them to core 0's vault, and the other four do
not read as it wrote them. -/
theorem not_poolAtomics : ¬ Obligations.PoolAtomics := by
  intro h
  obtain ⟨-, hv, -⟩ := h Head.plain 5 10 11 1 0 8 swapAtEnd amoAtEnd amoAtEnd ⟨2 ^ 28 - 4, endPage⟩ rfl amoAtEnd_clear (by decide +kernel)
    (by decide +kernel) (by decide +kernel) (by decide +kernel) amoAtEnd_reaches (by unfold proper; decide +kernel)
  obtain ⟨r, hx, -, hn, -⟩ := hv (by decide +kernel) (by decide +kernel) amoAtEnd_served amoAtEnd_accepts
  have h1 : r.readNum (2 ^ 28 - 4) 8 = 2 ^ 32 - 1 := by
    have h := amoAtEnd_writes
    rwa [hx] at h
  have h2 : (amoWrites 8 8 (amoAtEnd.readNum (2 ^ 28 - 4) 8) (amoAtEnd.rx 11).toNat (amoAtEnd.rx 5).toNat).getD
      (amoAtEnd.readNum (2 ^ 28 - 4) 8) = 2 ^ 64 - 1 := by decide +kernel
  exact absurd (h1.symm.trans (hn.trans h2)) (by decide)

/-! ### A fence of a hart that waits for a pool lock

A hart that waits for a pool lock goes on waiting for it when its instruction cannot complete (R95), whatever the instruction is. -/

/-- A load of the vault of core 0 that is in flight. -/
def loadInFlight : LoadEnt := { num := 0, dst := .x 5 true, parts := [(0, 8)], asks := [0], pool := 0, got := [], acq := false, asid := 0 }

/-- A thread that waits for a pool lock, with that load in flight. -/
def lockWaiter : State :=
  { State.reset with cur := loader }.modHart loader (fun h =>
    { h with st := .running, wait := some (.lock 0 0 0 1 4), busy := { h.busy with loads := [loadInFlight] } })

theorem fence_keeps_lockWait : (match exec (.fence Head.plain 0) lockWaiter with | .next t => t.me.wait | _ => none) = some (.lock 0 0 0 1 4) := by
  decide +kernel

/-- Refutes O15: a FENCE that finds a load outstanding leaves a hart that waits for a pool lock waiting for the lock. -/
theorem not_fences : ¬ Obligations.Fences := by
  intro h
  obtain ⟨-, -, hw, -⟩ := h Head.plain 0 lockWaiter ⟨rfl, by simp, by simp⟩
  have hl : ∃ l ∈ lockWaiter.me.busy.loads, accessed 0 (l.parts.map (·.1)) :=
    ⟨loadInFlight, by decide +kernel, .inr ⟨0, by decide, by decide⟩⟩
  obtain ⟨t, hx, hs, -⟩ := (hw (.inl hl)).1 (by decide +kernel) (by decide +kernel)
  have h1 : t.me.wait = some (.lock 0 0 0 1 4) := by
    have h := fence_keeps_lockWait
    rwa [hx] at h
  exact absurd (h1.symm.trans hs) (by decide)

end Sys2Proof.Proofs

/-! PROOFS. Pool locks: LDL and STU (R94 to R98). -/

namespace Sys2Proof.Machine

set_option Elab.async false
open Claims

/-! ### Fields of a register written in part -/

/-- A field reads what was written to it. -/
theorem wbits_setBits_same (v : Word) (lo n x : Nat) (h : lo + n ≤ 64) : wbits (setBits v lo n x) lo n = x % 2 ^ n := by
  refine Nat.eq_of_testBit_eq fun k => ?_
  rw [testBit_wbits, Nat.testBit_mod_two_pow]
  by_cases hk : k < n
  · rw [getLsbD_setBits _ _ _ _ _ (by omega), if_pos ⟨by omega, by omega⟩, Nat.add_sub_cancel_left]
  · simp [hk]

/-- A field that shares no bit with the one written reads as before. -/
theorem wbits_setBits_other (v : Word) (lo n x lo' n' : Nat) (h : lo' + n' ≤ 64) (hd : lo' + n' ≤ lo ∨ lo + n ≤ lo') :
    wbits (setBits v lo n x) lo' n' = wbits v lo' n' := by
  refine Nat.eq_of_testBit_eq fun k => ?_
  rw [testBit_wbits, testBit_wbits]
  by_cases hk : k < n'
  · rw [getLsbD_setBits _ _ _ _ _ (by omega), if_neg (by omega)]
  · simp [hk]

theorem wbit_setBits_same (v : Word) (lo n x k : Nat) (h : lo ≤ k ∧ k < lo + n) (hk : k < 64) : wbit (setBits v lo n x) k = x.testBit (k - lo) := by
  rw [wbit, getLsbD_setBits _ _ _ _ _ hk, if_pos h]

theorem wbit_setBits_other (v : Word) (lo n x k : Nat) (h : k < lo ∨ lo + n ≤ k) (hk : k < 64) : wbit (setBits v lo n x) k = wbit v k := by
  rw [wbit, getLsbD_setBits _ _ _ _ _ hk, if_neg (by omega), wbit]

/-! ### PLOCKSTAT (R98) -/

theorem wbit_plockHeld (c : Word) (k : Nat × Nat × Nat) : wbit (plockHeld c (some k)) 16 = true := by
  show wbit (setBits (setBits (setBits c 16 1 1) 17 5 k.2.1) 22 4 k.2.2) 16 = true
  rw [wbit_setBits_other _ _ _ _ _ (by omega) (by omega), wbit_setBits_other _ _ _ _ _ (by omega) (by omega),
    wbit_setBits_same _ _ _ _ _ (by omega) (by omega)]
  rfl

theorem last_plockHeld (c : Word) (k : Nat × Nat × Nat) : wbits (plockHeld c (some k)) 0 16 = wbits c 0 16 := by
  show wbits (setBits (setBits (setBits c 16 1 1) 17 5 k.2.1) 22 4 k.2.2) 0 16 = _
  rw [wbits_setBits_other _ _ _ _ _ _ (by omega) (by omega), wbits_setBits_other _ _ _ _ _ _ (by omega) (by omega),
    wbits_setBits_other _ _ _ _ _ _ (by omega) (by omega)]

/-! ### The lock of a pool access (R94 to R98) -/

section
variable {s : State} {k : Nat × Nat × Nat}

theorem lockTurn_held (h : s.me.lock = some k) : s.lockTurn k = .held := by
  simp [State.lockTurn, h]

theorem lockTurn_other {j : Nat × Nat × Nat} (h : s.me.lock = some j) (hj : j ≠ k) : s.lockTurn k = .other := by
  rw [State.lockTurn, h]
  exact if_neg hj

theorem lockTurn_granted (h : s.me.lock = none) (hw : s.me.wait = some (.locked k.1 k.2.1 k.2.2)) : s.lockTurn k = .taken false := by
  rw [State.lockTurn, h]
  exact if_pos hw

theorem lockTurn_free (h : s.me.lock = none) (hw : s.me.wait ≠ some (.locked k.1 k.2.1 k.2.2)) (ht : s.me.lockTries k = none)
    (hh : (s.plock k).holder = none) : s.lockTurn k = .taken true := by
  rw [State.lockTurn, h]
  simp [hw, ht, hh]

theorem lockTurn_wait (h : s.me.lock = none) (hw : s.me.wait ≠ some (.locked k.1 k.2.1 k.2.2)) (hh : (s.plock k).holder ≠ none) :
    s.lockTurn k = .wait := by
  rw [State.lockTurn, h]
  simp [hw, Option.isSome_iff_ne_none.mpr hh]

end

/-- A locked access at its turn at the bank goes on. -/
theorem lockedAccess_go {hd : Head} {n : Nat} {ea : Word} {pa : Nat} {go : LockTurn → State → State} {s u : State} {t : LockTurn}
    (ht : s.lockTurn (lockOf pa) = t) (h1 : t ≠ .other) (h2 : t ≠ .wait) (hb : s.badWord pa n = none)
    (hp : s.poolTurns (portOf s.cur false) [pa / 64] = some u) : lockedAccess hd n ea pa go s = go t u := by
  simp only [lockedAccess, ht, hb, hp]

theorem lockedAccess_other {hd : Head} {n : Nat} {ea : Word} {pa : Nat} {go : LockTurn → State → State} {s : State}
    (ht : s.lockTurn (lockOf pa) = .other) : lockedAccess hd n ea pa go s = trapVal 0x07 ea s := by
  simp only [lockedAccess, ht]

theorem lockedAccess_wait {hd : Head} {n : Nat} {ea : Word} {pa : Nat} {go : LockTurn → State → State} {s : State}
    (ht : s.lockTurn (lockOf pa) = .wait) : lockedAccess hd n ea pa go s = waitLock hd (lockOf pa) s := by
  simp only [lockedAccess, ht]

/-- A hart that begins to wait for a lock (R95, R98). -/
theorem waitLock_me {hd : Head} {k : Nat × Nat × Nat} {s : State} (ht : s.me.lockTries k = none) :
    (waitLock hd k s).me = ({ s.me with wait := some (.lock k.1 k.2.1 k.2.2 1 (s.clk + 4)), safe := none } : Hart).addRetry := by
  rw [waitLock, ht]
  simp [stallAt, Config.lockRetry]

end Sys2Proof.Machine

namespace Sys2Proof.Proofs

set_option Elab.async false
open Machine Claims

theorem readNum_of_still {s t : State} (h : t.still = s.still) (pa n : Nat) : t.readNum pa n = s.readNum pa n := by
  simp only [State.readNum, State.readBytes, State.readByte_of_still h]

theorem plock_of_still {s t : State} (h : t.still = s.still) (k : Nat × Nat × Nat) : t.plock k = s.plock k := by
  have hc : (t.cluster k.1).still.locks = (s.cluster k.1).still.locks := by rw [State.cluster_of_still h]
  exact congrArg (fun l : Table (Nat × Nat) PLock => l.get k.2 PLock.free) hc

/-- A turn at the banks of a pool leaves every hart as it was. -/
theorem poolTurns_hart {s u : State} {port : Nat} {ls : List Nat} (h : s.poolTurns port ls = some u) (i : HartId) : u.hart i = s.hart i := by
  induction ls generalizing s with
  | nil => cases h; rfl
  | cons l r ih =>
    simp only [State.poolTurns] at h
    split at h
    · exact ih h
    · split at h
      · exact (ih h :)
      · cases h

theorem poolTurns_cur {s u : State} {port : Nat} {ls : List Nat} (h : s.poolTurns port ls = some u) : u.cur = s.cur :=
  congrArg Ground.cur (State.ground_of_still (State.poolTurns_still _ _ _ _ h))

theorem poolTurns_mem {s u : State} {port : Nat} {ls : List Nat} (h : s.poolTurns port ls = some u) : u.mem = s.mem :=
  congrArg Ground.mem (State.ground_of_still (State.poolTurns_still _ _ _ _ h))

theorem poolTurns_me {s u : State} {port : Nat} {ls : List Nat} (h : s.poolTurns port ls = some u) : u.me = s.me := by
  rw [State.me, poolTurns_cur h, poolTurns_hart h]
  rfl

/-- A lock that the issuing hart takes at its bank's turn (R95, R98). -/
def takeLock (fresh : Bool) (k : Nat × Nat × Nat) (s : State) : State :=
  (s.grantLock s.cur k).modMe (fun h =>
    let h := if fresh then h.setLast 0 else h
    { h with lock := some k, csr := { h.csr with plockstat := plockHeld h.csr.plockstat (some k) } })

section
variable {ik : Code} {hd : Head} {d : Reg} {w : BitVec 2} {sgn : Bool} {ea : Word} {x : Xlat} {s u : State}
  (hb : s.badWord x.pa (widthOf w) = none) (hp : s.poolTurns (portOf s.cur false) [x.pa / 64] = some u)
include hb hp

/-- An LDL under the lock that the hart holds. -/
theorem ldlGo_held (hl : s.lockTurn (lockOf x.pa) = .held) :
    ldlGo ik hd d w sgn ea x s = writeRd ik hd d (loaded (s.readNum x.pa (widthOf w)) (widthOf w) sgn) u := by
  rw [ldlGo, lockedAccess_go hl (by simp) (by simp) hb hp, ← readNum_of_still (State.poolTurns_still _ _ _ _ hp)]

/-- An LDL that takes the lock. -/
theorem ldlGo_taken {fresh : Bool} (hl : s.lockTurn (lockOf x.pa) = .taken fresh) :
    ldlGo ik hd d w sgn ea x s =
      writeRd ik hd d (loaded (s.readNum x.pa (widthOf w)) (widthOf w) sgn) (takeLock fresh (lockOf x.pa) u) := by
  have hr : (takeLock fresh (lockOf x.pa) u).readNum x.pa (widthOf w) = u.readNum x.pa (widthOf w) := rfl
  rw [ldlGo, lockedAccess_go hl (by simp) (by simp) hb hp, ← readNum_of_still (State.poolTurns_still _ _ _ _ hp), ← hr]
  rfl

end

section
variable {fresh : Bool} {k : Nat × Nat × Nat} {s : State}

theorem takeLock_me : (takeLock fresh k s).me =
    { (if fresh then s.me.setLast 0 else s.me) with
      lock := some k
      csr := { (if fresh then s.me.setLast 0 else s.me).csr with
               plockstat := plockHeld (if fresh then s.me.setLast 0 else s.me).csr.plockstat (some k) } } := by
  rw [takeLock, State.modMe_me]
  rfl

theorem takeLock_plock : ((takeLock fresh k s).plock k).holder = some s.cur := by
  show ((s.modLock k (fun _ => ⟨some s.cur, portOf s.cur false⟩)).plock k).holder = _
  simp [State.plock, State.modLock]

end

/-- The hart after an instruction that writes rd and completes. -/
theorem writeRd_me (ik : Code) (hd : Head) (d : Reg) (v : Word) (s : State) : (writeRd ik hd d v s).me =
    { ((s.me.wx d v).forgetWalks) with
      pc := (loopEndCheck (s.succ ik) s.me.loops).2, loops := (loopEndCheck (s.succ ik) s.me.loops).1, safe := hd.safe, wait := none } := by
  simp [writeRd, finish, finishAt, State.wx, State.succ]

theorem execLdl_passes {hd : Head} {d a : Reg} {w : BitVec 2} {u : BitVec 1} {i : BitVec 7} {s t : State} {x : Xlat}
    (hc : s.clear hd [.x a] [.x d]) (hq : s.me.acqWait = false) (hs : s.me.poolStores = false) (hl : s.me.busy.loads = [])
    (hr : reaches .ldl (widthOf w) (eaM s a i w) s t x) :
    exec (.ldl hd d a w u i) s = .next (ldlGo (codeOf (.ldl hd d a w u i)) hd d w (u == 0) (eaM s a i w) x t) := by
  show Host.Outcome.next (issue _ _ _ _ _ _ _ _) = _
  unfold reaches at hr
  rw [issue_clear _ _ _ _ _ _ _ _ (Nat.zero_le _) rfl hc]
  simp only [hq, hs, hl, List.isEmpty_nil, eaM_eq, withAccess, hr]
  rfl

theorem execStu_passes {hd : Head} {d a : Reg} {w : BitVec 2} {i : BitVec 7} {s t : State} {x : Xlat}
    (hc : s.clear hd [.x d, .x a] []) (hq : s.me.acqWait = false) (hr : reaches .stu (widthOf w) (eaM s a i w) s t x) :
    exec (.stu hd d a w i) s = .next (stuGo (codeOf (.stu hd d a w i)) hd d w (eaM s a i w) x t) := by
  show Host.Outcome.next (issue _ _ _ _ _ _ _ _) = _
  unfold reaches at hr
  rw [issue_clear _ _ _ _ _ _ _ _ (Nat.zero_le _) rfl hc]
  simp only [hq, eaM_eq, withAccess, hr]
  rfl

/-- What LDL does once its access has passed the checks. -/
theorem ldl_of_passes {hd : Head} {d a : Reg} {w : BitVec 2} {u : BitVec 1} {i : BitVec 7} {s t : State} {x : Xlat}
    (hc : s.clear hd [.x a] [.x d]) (hq : s.me.acqWait = false) (hs : s.me.poolStores = false) (hl : s.me.busy.loads = [])
    (hr : reaches .ldl (widthOf w) (eaM s a i w) s t x) :
    ((t.poolTurns (portOf s.cur false) [x.pa / 64]).isSome = true → t.badWord x.pa (widthOf w) = none →
      (t.me.lock = some (lockOf x.pa) → ∃ r : State, exec (.ldl hd d a w u i) s = .next r ∧ r.me.lock = some (lockOf x.pa) ∧
        (d ≠ 0 → r.me.rx d = loaded (t.readNum x.pa (widthOf w)) (widthOf w) (u == 0)) ∧ r.mem = t.mem ∧ (∀ q, q ≠ d → r.me.rx q = s.me.rx q) ∧
        r.me.pc = (finish (codeOf (.ldl hd d a w u i)) hd t).me.pc ∧ r.me.wait = none) ∧
      (t.me.lock = none → t.me.lockTries (lockOf x.pa) = none →
        ((t.plock (lockOf x.pa)).holder = none ∨ t.me.wait = some (.locked (lockOf x.pa).1 (lockOf x.pa).2.1 (lockOf x.pa).2.2)) →
        ∃ r : State, exec (.ldl hd d a w u i) s = .next r ∧ r.me.lock = some (lockOf x.pa) ∧ (r.plock (lockOf x.pa)).holder = some s.cur ∧
          (d ≠ 0 → r.me.rx d = loaded (t.readNum x.pa (widthOf w)) (widthOf w) (u == 0)) ∧ wbit r.me.csr.plockstat 16 = true ∧
          wbits r.me.csr.plockstat 0 16 =
            (if t.me.wait = some (.locked (lockOf x.pa).1 (lockOf x.pa).2.1 (lockOf x.pa).2.2) then wbits s.me.csr.plockstat 0 16 else 0) ∧
          r.mem = t.mem ∧ r.me.wait = none)) ∧
    (t.me.lock = none → t.me.wait ≠ some (.locked (lockOf x.pa).1 (lockOf x.pa).2.1 (lockOf x.pa).2.2) → (t.plock (lockOf x.pa)).holder ≠ none →
      t.me.lockTries (lockOf x.pa) = none →
      ∃ r : State, exec (.ldl hd d a w u i) s = .next r ∧
        r.me.wait = some (.lock (lockOf x.pa).1 (lockOf x.pa).2.1 (lockOf x.pa).2.2 1 (s.clk + 4)) ∧ r.me.pc = s.me.pc ∧
        wbits r.me.csr.plockstat 32 32 = (wbits t.me.csr.plockstat 32 32 + 1) % 2 ^ 32) ∧
    (∀ h, t.me.lock = some h → h ≠ lockOf x.pa → s.cur.isCtx = false → s.me.inTrap = false →
      ∃ r : State, exec (.ldl hd d a w u i) s = .next r ∧ r.me.csr.tcause = 0x07 ∧ r.me.csr.tval = eaM s a i w) := by
  have hcur := cur_of_access hr
  have hme := me_of_access hr
  have hclk : t.clk = s.clk := by
    have h := congrArg Ground.clk (State.access_ground s (.instr s.cur) .ldl (widthOf w) (eaM s a i w))
    rwa [hr] at h
  have hx := execLdl_passes (u := u) hc hq hs hl hr
  refine ⟨fun hp hb => ?_, fun hn hw hh ht => ⟨_, hx.trans (by rw [ldlGo, lockedAccess_wait (lockTurn_wait hn hw hh)]), ?_⟩,
    fun h hk hne hi hit => ⟨_, hx.trans (by rw [ldlGo, lockedAccess_other (lockTurn_other hk hne)]), ?_⟩⟩
  · obtain ⟨v, hv⟩ := Option.isSome_iff_exists.mp hp
    rw [← hcur] at hv
    have hvm := poolTurns_me hv
    refine ⟨fun hk => ⟨_, hx.trans (by rw [ldlGo_held hb hv (lockTurn_held hk)]), ?_⟩, fun hn ht hor => ?_⟩
    · rw [writeRd_me, hvm]
      refine ⟨?_, fun hd0 => ?_, (poolTurns_mem hv :), fun q hq => ?_, ?_, rfl⟩
      · simpa [Hart.forgetWalks] using hk
      · exact Hart.rx_wx_same _ d _ hd0
      · exact (Hart.rx_wx_other _ d q _ (Ne.symm hq)).trans (Hart.rx_of_unwalked hme q)
      · rw [finish, finishAt_me_pc, State.succ, State.succ, hvm]
    · obtain ⟨fresh, hl, hf⟩ : ∃ fresh, t.lockTurn (lockOf x.pa) = .taken fresh ∧
          (fresh = !decide (t.me.wait = some (.locked (lockOf x.pa).1 (lockOf x.pa).2.1 (lockOf x.pa).2.2))) := by
        by_cases hw : t.me.wait = some (.locked (lockOf x.pa).1 (lockOf x.pa).2.1 (lockOf x.pa).2.2)
        · exact ⟨false, lockTurn_granted hn hw, by simp [hw]⟩
        · exact ⟨true, lockTurn_free hn hw ht (hor.resolve_right hw), by simp [hw]⟩
      refine ⟨_, hx.trans (by rw [ldlGo_taken hb hv hl]), ?_⟩
      have hlast : wbits (plockHeld (if fresh then v.me.setLast 0 else v.me).csr.plockstat (some (lockOf x.pa))) 0 16 =
          (if t.me.wait = some (.locked (lockOf x.pa).1 (lockOf x.pa).2.1 (lockOf x.pa).2.2) then wbits s.me.csr.plockstat 0 16 else 0) := by
        rw [last_plockHeld, hvm, ← Hart.csr_of_unwalked hme]
        by_cases hw : t.me.wait = some (.locked (lockOf x.pa).1 (lockOf x.pa).2.1 (lockOf x.pa).2.2)
        · rw [hf, if_pos hw]; simp [hw]
        · rw [hf, if_neg hw]
          simp only [hw, decide_false, Bool.not_false, if_true, Hart.setLast, Hart.modCsr_csr]
          exact wbits_setBits_same _ _ _ _ (by omega)
      have hpl : ((writeRd (codeOf (.ldl hd d a w u i)) hd d (loaded (t.readNum x.pa (widthOf w)) (widthOf w) (u == 0))
          (takeLock fresh (lockOf x.pa) v)).plock (lockOf x.pa)).holder = some s.cur :=
        (takeLock_plock (fresh := fresh) (s := v)).trans (by rw [poolTurns_cur hv, hcur])
      rw [writeRd_me, takeLock_me]
      refine ⟨?_, hpl, fun hd0 => ?_, ?_, ?_, (poolTurns_mem hv :), rfl⟩
      · simp [Hart.forgetWalks]
      · exact Hart.rx_wx_same _ d _ hd0
      · simpa [Hart.forgetWalks] using wbit_plockHeld _ _
      · simpa [Hart.forgetWalks] using hlast
  · rw [waitLock_me ht, hclk]
    refine ⟨rfl, (Hart.pc_of_unwalked hme :), ?_⟩
    exact wbits_setBits_same _ _ _ _ (by omega)
  · obtain ⟨h1, h2, -⟩ := takeTrap_saves 0x07 0 (eaM s a i w) t.me.pc t (by rw [hcur, hi]) (by rw [Hart.inTrap_of_unwalked hme, hit])
    exact ⟨h1, h2⟩

/-- What STU does once its access has passed the checks. -/
theorem stu_of_passes {hd : Head} {d a : Reg} {w : BitVec 2} {i : BitVec 7} {s t : State} {x : Xlat}
    (hc : s.clear hd [.x d, .x a] []) (hq : s.me.acqWait = false) (hr : reaches .stu (widthOf w) (eaM s a i w) s t x) :
    (t.me.lock = some (lockOf x.pa) → ∃ r : State, exec (.stu hd d a w i) s = .next r ∧ r.me.lock = none ∧
      (∃ e : SbEnt, r.me.busy.sb = t.me.busy.sb ++ [e] ∧ e.parts = [(x.pa, widthOf w, t.rx d)] ∧ e.unlock = some (lockOf x.pa)) ∧ r.mem = t.mem ∧
      r.me.pc = (finish (codeOf (.stu hd d a w i)) hd t).me.pc) ∧
    (t.me.lock ≠ some (lockOf x.pa) → s.cur.isCtx = false → s.me.inTrap = false →
      ∃ r : State, exec (.stu hd d a w i) s = .next r ∧ r.me.csr.tcause = 0x07 ∧ r.me.csr.tval = eaM s a i w) := by
  have hcur := cur_of_access hr
  have hme := me_of_access hr
  have hx := execStu_passes hc hq hr
  refine ⟨fun hk => ⟨_, hx.trans (by rw [stuGo, if_pos hk]), ?_⟩, fun hk hi hit => ⟨_, hx.trans (by rw [stuGo, if_neg hk]), ?_⟩⟩
  · have hs := startStore_eq t t.cur [(x.pa, widthOf w, t.rx d)] false (some (lockOf x.pa)) none false
    rw [← State.modMe] at hs
    dsimp only
    rw [hs, State.modMe_modMe]
    refine ⟨?_, ⟨t.storeEntry t.me t.cur [(x.pa, widthOf w, t.rx d)] false (some (lockOf x.pa)) none false, ?_, rfl, rfl⟩, rfl, ?_⟩
    · simp [finish, finishAt, Hart.forgetWalks]
    · simp [finish, finishAt, Hart.forgetWalks]
    · simp [finish, State.succ]
  · obtain ⟨h1, h2, -⟩ := takeTrap_saves 0x07 0 (eaM s a i w) t.me.pc t (by rw [hcur, hi]) (by rw [Hart.inTrap_of_unwalked hme, hit])
    exact ⟨h1, h2⟩

/-- Settles O13: the turns of a lock (held, taken, waited for, another) for LDL, and the two cases of STU. -/
theorem poolLocks : Obligations.PoolLocks := by
  intro hd d a w u i s t x hc hq
  have hcl : s.clear hd [.x a] [.x d] := clear_mono s hd _ _ _ _ hc (by simp) (by simp)
  have hcs : s.clear hd [.x d, .x a] [] := clear_mono s hd _ _ _ _ hc (by simp) (by simp)
  exact ⟨fun hs hl hr => ldl_of_passes hcl hq hs hl hr, fun hr => stu_of_passes hcs hq hr⟩

end Sys2Proof.Proofs

/-! PROOFS. Full bits and tokens (R183 to R187, R287, R288). -/

namespace Sys2Proof.Machine

set_option Elab.async false
open Claims

/-! ### Full bits (R183, R287) -/

@[simp] theorem Hart.stx_markX_same (h : Hart) (r : Reg) (q : RegSt) (hr : r ≠ 0) : (h.markX r q).stx r = q := by
  unfold Hart.markX Hart.stx
  rw [if_neg hr, if_neg hr, Table.get_set_same]

theorem Hart.stx_markX_other (h : Hart) (r p : Reg) (q : RegSt) (hp : r ≠ p) : (h.markX r q).stx p = h.stx p := by
  unfold Hart.markX Hart.stx
  by_cases hr : r = 0
  · rw [if_pos hr]
  · rw [if_neg hr, Table.get_set_other _ _ _ _ _ hp]

/-- A hart that completes an instruction keeps its registers and their states. -/
theorem finish_me (ik : Code) (hd : Head) (s : State) : (finish ik hd s).me =
    { s.me.forgetWalks with
      pc := (loopEndCheck (s.succ ik) s.me.loops).2, loops := (loopEndCheck (s.succ ik) s.me.loops).1, safe := hd.safe, wait := none } := by
  rw [finish, finishAt, State.modMe_me]

@[simp] theorem finish_core (ik : Code) (hd : Head) (s : State) (c : Nat) : (finish ik hd s).core c = s.core c := rfl
@[simp] theorem finish_myCore (ik : Code) (hd : Head) (s : State) : (finish ik hd s).myCore = s.myCore := rfl

theorem finish_stv (ik : Code) (hd : Head) (s : State) (r : Reg) : (finish ik hd s).stv r = s.stv r := by
  unfold State.stv State.long
  rw [finish_core, finish_myCore, finish_me]
  rfl

/-- A vector register marked VOID, and the others. -/
theorem stv_setVoid_same (s : State) (d : Reg) : (s.setVoid (.v d)).stv d = .void := by
  cases hl : s.long <;> simp only [State.setVoid, State.stv, State.long] at *
  · simp [hl]
  · simp [hl]

theorem stv_setVoid_other (s : State) (d r : Reg) (h : r ≠ d) : (s.setVoid (.v d)).stv r = s.stv r := by
  cases hl : s.long <;> simp only [State.setVoid, State.stv, State.long] at *
  · simp [hl, Table.get_set_other _ _ _ _ _ (Ne.symm h)]
  · simp [hl, Table.get_set_other _ _ _ _ _ (Ne.symm h)]

theorem pc_setVoid (s : State) (q : RegRef) : (s.setVoid q).me.pc = s.me.pc ∧ (s.setVoid q).me.loops = s.me.loops ∧
    (s.setVoid q).me.x = s.me.x ∧ (s.setVoid q).me.v = s.me.v := by
  cases q <;> simp only [State.setVoid]
  · simp
  · split <;> simp

theorem rw_setVoid (s : State) (q : RegRef) (c : Nat) (r : Reg) : ((s.setVoid q).core c).rw r = (s.core c).rw r := by
  cases q <;> simp only [State.setVoid]
  · simp
  · split
    · by_cases hc : s.myCore = c
      · subst hc; simp [Core.rw]
      · rw [State.modCore_core_other _ _ _ _ hc]
    · simp

/-! ### Tokens (R185 to R187) -/

/-- A sum of rising powers of two has just their bits. -/
theorem foldl_two_pow (l : List Nat) (h : l.Pairwise (· < ·)) (j : Nat) :
    (l.foldl (fun n k => n + 2 ^ k) 0).testBit j = decide (j ∈ l) ∧ ∀ b, (∀ k ∈ l, k < b) → l.foldl (fun n k => n + 2 ^ k) 0 < 2 ^ b := by
  induction l using List.reverseRecOn generalizing j with
  | nil => simp
  | append_singleton r k ih =>
    obtain ⟨hr, -, hk⟩ := List.pairwise_append.mp h
    have hlt : r.foldl (fun n k => n + 2 ^ k) 0 < 2 ^ k := (ih hr 0).2 k (fun i hi => hk i hi k (by simp))
    rw [List.foldl_append]
    simp only [List.foldl_cons, List.foldl_nil]
    rw [Nat.add_comm]
    refine ⟨?_, fun b hb => ?_⟩
    · rcases Nat.lt_trichotomy j k with hj | hj | hj
      · rw [Nat.testBit_two_pow_add_gt hj, (ih hr j).1]
        simp [Nat.ne_of_lt hj]
      · subst hj
        rw [Nat.testBit_two_pow_add_eq, Nat.testBit_lt_two_pow hlt]
        simp
      · have hs : 2 ^ k + r.foldl (fun n k => n + 2 ^ k) 0 < 2 ^ j :=
          Nat.lt_of_lt_of_le (by rw [Nat.pow_succ]; omega) (Nat.pow_le_pow_right (by omega) hj)
        rw [Nat.testBit_lt_two_pow hs]
        have hn : j ∉ r := fun hm => absurd (hk j hm k (by simp)) (by omega)
        simp [hn, Nat.ne_of_gt hj]
    · have hkb : 2 ^ (k + 1) ≤ 2 ^ b := Nat.pow_le_pow_right (by omega) (hb k (by simp))
      rw [Nat.pow_succ] at hkb
      omega

theorem mem_tokensOf (m : BitVec 8) (k : BitVec 3) : k ∈ tokensOf m ↔ m.getLsbD k.toNat = true := by
  have h : ∀ k : BitVec 3, k ∈ ([0, 1, 2, 3, 4, 5, 6, 7] : List (BitVec 3)) := by decide
  rw [tokensOf, List.mem_filter]
  exact and_iff_right (h k)

theorem tokensOf_rising (m : BitVec 8) : (tokensOf m).Pairwise (fun a b => a.toNat < b.toNat) :=
  List.Pairwise.filter _ (by decide)

/-- The mask of some of a WAITTK's tokens, as TVAL holds it (R391). -/
theorem tokenMask_getLsbD (m : BitVec 8) (p : BitVec 3 → Bool) (j : BitVec 3) :
    (BitVec.ofNat 64 (((tokensOf m).filter p).foldl (fun n k => n + 2 ^ k.toNat) 0)).getLsbD j.toNat = (m.getLsbD j.toNat && p j) := by
  have hl : (((tokensOf m).filter p).map BitVec.toNat).Pairwise (· < ·) := by
    rw [List.pairwise_map]
    exact (tokensOf_rising m).filter p
  have hf := (foldl_two_pow _ hl j.toNat).1
  rw [List.foldl_map] at hf
  rw [BitVec.getLsbD_ofNat, hf]
  have hj : j.toNat < 64 := by omega
  rw [Bool.eq_iff_iff]
  simp only [hj, decide_true, Bool.true_and, decide_eq_true_eq, List.mem_map, List.mem_filter, mem_tokensOf, Bool.and_eq_true]
  refine ⟨fun ⟨k, hk, he⟩ => ?_, fun h => ⟨j, h, rfl⟩⟩
  rwa [BitVec.eq_of_toNat_eq he] at hk

/-- The lowest of a WAITTK's tokens with a property. -/
theorem find_tokensOf (m : BitVec 8) (p : BitVec 3 → Bool) (k : BitVec 3) (hk : m.getLsbD k.toNat = true) (hp : p k = true)
    (hlow : ∀ j : BitVec 3, m.getLsbD j.toNat = true → j.toNat < k.toNat → p j = false) : (tokensOf m).find? p = some k := by
  obtain ⟨as, bs, hs⟩ := List.append_of_mem ((mem_tokensOf m k).mpr hk)
  rw [List.find?_eq_some_iff_append]
  refine ⟨hp, as, bs, hs, fun a ha => ?_⟩
  have hr := tokensOf_rising m
  rw [hs] at hr
  have hlt : a.toNat < k.toNat := (List.pairwise_append.mp hr).2.2 a ha k (by simp)
  have hm : a ∈ tokensOf m := by rw [hs]; simp [ha]
  simp [hlow a ((mem_tokensOf m a).mp hm) hlt]

theorem appendGroup_none (s : State) (rs : List TapeRec) (h : s.me.recording = none) : s.appendGroup rs = s := by
  rw [State.appendGroup, h]

section
variable {ik : Code} {hd : Head} {m : BitVec 8} {s : State} (hx : s.cur.isCtx = false) (hl : s.me.lock = none) (hc : s.clear hd [] [])
include hx hl hc

theorem waitTokens_issues : waitTokens ik hd m s =
    if (tokensOf m).any (fun k => decide ((s.me.tok k).count ≠ 0)) then stallAt hd .stall true s
    else match (tokensOf m).find? (fun k => ((s.appendGroup [⟨barrierWord m, 0, 0, 0, none, none, none⟩]).me.tok k).fault) with
      | some k => raiseToken m k (s.appendGroup [⟨barrierWord m, 0, 0, 0, none, none, none⟩])
      | none => finish ik hd (s.appendGroup [⟨barrierWord m, 0, 0, 0, none, none, none⟩]) := by
  have ho : (if m = 0 then none else s.lockBar) = none := by
    simp [State.lockBar, hl]
  unfold waitTokens
  exact issueOwn_clear _ _ _ _ _ _ _ _ _ (Nat.zero_le _) (by simp [State.noCtx, hx]) ho hc

/-- A WAITTK one of whose tokens is not at 0. -/
theorem waitTokens_waits {k : BitVec 3} (hk : m.getLsbD k.toNat = true) (hn : (s.me.tok k).count ≠ 0) :
    waitTokens ik hd m s = stallAt hd .stall true s := by
  rw [waitTokens_issues hx hl hc, if_pos (List.any_eq_true.mpr ⟨k, (mem_tokensOf m k).mpr hk, by simpa using hn⟩)]

variable (hr : s.me.recording = none) (h0 : ∀ k : BitVec 3, m.getLsbD k.toNat = true → (s.me.tok k).count = 0)
include hr h0

theorem waitTokens_done (hf : ∀ k : BitVec 3, m.getLsbD k.toNat = true → (s.me.tok k).fault = false) :
    waitTokens ik hd m s = finish ik hd s := by
  have hf' : (tokensOf m).find? (fun k => (s.me.tok k).fault) = none :=
    List.find?_eq_none.mpr (fun k hk => by simp [hf k ((mem_tokensOf m k).mp hk)])
  rw [waitTokens_issues hx hl hc, if_neg, appendGroup_none s _ hr, hf']
  simpa using fun k hk => h0 k ((mem_tokensOf m k).mp hk)

theorem waitTokens_raises {k : BitVec 3} (hk : m.getLsbD k.toNat = true) (hf : (s.me.tok k).fault = true)
    (hlow : ∀ j : BitVec 3, m.getLsbD j.toNat = true → j.toNat < k.toNat → (s.me.tok j).fault = false) :
    waitTokens ik hd m s = raiseToken m k s := by
  rw [waitTokens_issues hx hl hc, if_neg, appendGroup_none s _ hr, find_tokensOf m (fun k => (s.me.tok k).fault) k hk hf hlow]
  simpa using fun k hk => h0 k ((mem_tokensOf m k).mp hk)

end

end Sys2Proof.Machine

namespace Sys2Proof.Proofs

set_option Elab.async false
open Machine Claims

/-- Settles O16: SETE and ISFULL of either file, TKQ and TKFLT. -/
theorem fullBitsAndTokens : Obligations.FullBitsAndTokens := by
  intro hd d a k s hx
  have hn : s.noCtx = true := by simp [State.noCtx, hx]
  refine ⟨fun hc => ⟨fun h0 => ⟨_, congrArg Host.Outcome.next (issue_clear _ _ _ _ _ _ _ _ (Nat.zero_le _) (by rw [hn]; rfl) hc), ?_⟩,
      fun h0 => ?_, ?_, fun hl => ?_, ?_, ?_⟩,
    fun hc hl => ⟨_, congrArg Host.Outcome.next (issue_clear _ _ _ _ _ _ _ _ (Nat.zero_le _) ?_ hc), ?_⟩⟩
  · rw [finish_me]
    have hm : (s.setVoid (fileReg 0 d)).me = s.me.markX d .void := State.modMe_me _ _
    obtain ⟨hp, hlp, -, -⟩ := pc_setVoid s (fileReg 0 d)
    refine ⟨?_, fun r => ?_, fun r hr => ?_, ?_⟩
    · exact (congrArg (fun h : Hart => h.stx d) hm).trans (Hart.stx_markX_same _ _ _ h0)
    · exact (congrArg (fun h : Hart => h.rx r) hm).trans (by rw [Hart.rx, Hart.markX_x]; rfl)
    · exact (congrArg (fun h : Hart => h.stx r) hm).trans (Hart.stx_markX_other _ _ _ _ (Ne.symm hr))
    · rw [finish_me, State.succ, State.succ, hp, hlp]
  · subst h0
    refine congrArg Host.Outcome.next ((issue_clear _ _ _ _ _ _ _ _ (Nat.zero_le _) (by rw [hn]; rfl) hc).trans ?_)
    rw [finish, State.succ, (pc_setVoid s _).1]
    exact State.modMe_modMe s _ _
  · refine congrArg Host.Outcome.next ((issue_clear _ _ _ _ _ _ _ _ (Nat.zero_le _) rfl hc).trans ?_)
    show writeRd _ _ _ (s.me.stx a).code s = _
    cases s.me.stx a <;> rfl
  · refine congrArg Host.Outcome.next ((issue_clear _ _ _ _ _ _ _ _ (Nat.zero_le _) ?_ hc).trans ?_)
    · simpa [State.fileOk, State.vregOk] using hl
    · show writeRd _ _ _ (s.stv a).code s = _
      cases s.stv a <;> rfl
  · refine congrArg Host.Outcome.next ((issue_clear _ _ _ _ _ _ _ _ (Nat.zero_le _) hn hc).trans ?_)
    cases hf : (s.me.tok k).fault <;> cases hm : (s.me.tok k).more <;> simp [hf, hm, b2n, writeRd]
  · exact congrArg Host.Outcome.next (issue_clear _ _ _ _ _ _ _ _ (Nat.zero_le _) hn hc)
  · simpa [hn, State.fileOk, State.vregOk] using hl
  · obtain ⟨-, -, -, hv⟩ := pc_setVoid s (.v d)
    refine ⟨?_, fun r hr => ?_, fun r => ?_, fun r => ?_⟩
    · exact (finish_stv _ _ _ _).trans (stv_setVoid_same s d)
    · exact (finish_stv _ _ _ _).trans (stv_setVoid_other s d r hr)
    · rw [finish_me]
      exact congrArg (fun t : Table Reg (BitVec 256) => t.get r 0) hv
    · exact rw_setVoid s (.v d) _ r

/-- Settles O17: the tokens of the mask are all at 0 without a fault, one is not at 0, or the lowest faulted one is raised. -/
theorem waitTokens : Obligations.WaitTokens := by
  refine ⟨fun hd m s hx hl hc hr h => ?_, fun hd m k s hx hl hc hk hn => ?_, fun hd m k s hx hl hc hr ht h0 hk hf hlow => ?_⟩
  · have h0 := fun k hk => (h k hk).1
    have hf := fun k hk => (h k hk).2
    exact ⟨congrArg Host.Outcome.next (waitTokens_done hx hl hc hr h0 hf),
      fun hp => congrArg Host.Outcome.next (waitTokens_done hx hl hp hr h0 hf)⟩
  · refine ⟨_, congrArg Host.Outcome.next (waitTokens_waits hx hl hc hk hn), ?_⟩
    rw [stallAt, State.modMe_me]
    exact ⟨rfl, rfl, fun _ => rfl, fun _ => rfl⟩
  · refine ⟨_, congrArg Host.Outcome.next (waitTokens_raises hx hl hc hr h0 hk hf hlow), ?_⟩
    obtain ⟨u, hu, hm⟩ : ∃ u : State, raiseToken m k s =
        trapVal 0x09 (BitVec.ofNat 64 (((tokensOf m).filter (fun k => (s.me.tok k).fault)).foldl (fun n k => n + 2 ^ k.toNat) 0)) u ∧
        u = s.modMe (fun h => ((h.modCsr (fun c => { c with tkfault := (h.tok k).word })).modBusy (fun b => b.discharge k)).modTok k
          (fun t => { t with fault := false, more := false })) := ⟨_, rfl, rfl⟩
    have hx' : u.cur.isCtx = false := by rw [hm]; exact hx
    have ht' : u.me.inTrap = false := by rw [hm, State.modMe_me]; exact ht
    obtain ⟨h1, h2, h3, -, -⟩ := takeTrap_saves 0x09 0 (BitVec.ofNat 64 (((tokensOf m).filter (fun k => (s.me.tok k).fault)).foldl
      (fun n k => n + 2 ^ k.toNat) 0)) u.me.pc u hx' ht'
    have htok (j : BitVec 3) : (trapVal 0x09 (BitVec.ofNat 64 (((tokensOf m).filter (fun k => (s.me.tok k).fault)).foldl
        (fun n k => n + 2 ^ k.toNat) 0)) u).me.tok j = u.me.tok j := by
      rw [trapVal, takeTrap_thread_me _ _ _ _ _ hx' ht', Hart.tok, Hart.entered_tokens, Hart.tokens_of_lockless u.giveUp_lockless]
      rfl
    have hpc : u.me.pc = s.me.pc := by rw [hm, State.modMe_me]; rfl
    have hsame : u.me.tok k = { s.me.tok k with fault := false, more := false } := by
      rw [hm, State.modMe_me]
      exact Table.get_set_same _ _ _ _
    rw [hu]
    refine ⟨h1, by rw [← hpc]; exact h3, ?_, by rw [htok, hsame], by rw [htok, hsame], fun j hj => ?_, fun j => ?_⟩
    · rw [trapVal, takeTrap_thread_me _ _ _ _ _ hx' ht', Hart.entered_tkfault, Hart.tkfault_of_lockless u.giveUp_lockless, hm, State.modMe_me]
      rfl
    · rw [htok, hm, State.modMe_me]
      exact Table.get_set_other _ _ _ _ _ (Ne.symm hj)
    · exact (congrArg (fun v : Word => v.getLsbD j.toNat) h2).trans (tokenMask_getLsbD m _ j)

end Sys2Proof.Proofs

/-! PROOFS. Contexts whose arrival combines other messages. -/

namespace Sys2Proof.Proofs

set_option Elab.async false
open Machine Claims

/-! ### A context whose arrival combines other messages

A message carries the list of the notices that it combines (R129), and its refusal answers each of them instead of its sender. Nothing in the statements
says that the arrival of a context combines none. -/

/-- The context that traps. -/
def trapper : HartId := ⟨.ctx, 0, 0⟩

/-- A notice combined. -/
def combined : Ack := ⟨⟨.thread, 8, 0⟩, 0, 7⟩

/-- A call of another core, with two notices combined in it. -/
def combiningCall : Msg :=
  { State.reset.newMsg ⟨.thread, 8, 0⟩ .rcall 0xFFFF 0 with id := 5, args := [0, 0, 0, 0, 0, 0, 0, 0], acks := [combined, combined] }

/-- A context that has that call as its arrival, with x1 VOID. -/
def combiningCtx : State :=
  { State.reset with cur := trapper }.modHart trapper (fun h =>
    { (h.markX 1 .void) with st := .running, ctx := { CtxInfo.none with arrival := some combiningCall } })

/-- The answers that stand on the reply channel after an instruction. -/
def repliesAfter (i : Instr) (s : State) : Nat := match exec i s with | .next t => t.dev.replies.length | _ => 0

theorem trap_replies : repliesAfter (.trap Head.plain 0) combiningCtx = 2 := by decide +kernel
theorem add_replies : repliesAfter (.add Head.plain 0 1 1) combiningCtx = 2 := by decide +kernel
theorem combiningCtx_replies : combiningCtx.dev.replies = [] := by decide +kernel

/-- An instruction of that context that answers with one reply answers with one alone. -/
theorem repliesAfter_one {i : Instr} {s t : State} {r : Reply} (h : exec i s = .next t) (hr : t.dev.replies = s.dev.replies ++ [r])
    (h0 : s.dev.replies = []) : repliesAfter i s = 1 := by
  simp [repliesAfter, h, hr, h0]

/-- Refutes O18: the NACK with which a TRAP ends a context whose arrival combines two notices answers both of them, not the sender once. -/
theorem not_trapEntry : ¬ Obligations.TrapEntry := by
  rintro ⟨-, -, h⟩
  obtain ⟨⟨t, r, hx, -, -, hr, -⟩, -⟩ := h Head.plain 0 combiningCall combiningCtx (by decide +kernel) ⟨rfl, by decide +kernel, by simp⟩
    (by decide +kernel) (by decide +kernel) (by decide +kernel) (by decide +kernel) (by decide +kernel) (by decide +kernel)
  exact absurd (trap_replies.symm.trans (repliesAfter_one hx hr combiningCtx_replies)) (by decide)

/-- Refutes O22: the NACK with which a VOID source ends a context whose arrival combines two notices answers both of them. -/
theorem not_issueChecks : ¬ Obligations.IssueChecks := by
  rintro ⟨h, -⟩
  obtain ⟨-, -, -, h⟩ := h Head.plain 0 1 1 0 combiningCtx rfl
  obtain ⟨t, r, hx, hr, -⟩ := h combiningCall (by decide +kernel) (by decide +kernel) (by decide +kernel) (by decide +kernel) (by decide +kernel)
    (by decide +kernel) (by decide +kernel) (.inl (by decide +kernel))
  exact absurd (add_replies.symm.trans (repliesAfter_one hx hr combiningCtx_replies)) (by decide)

end Sys2Proof.Proofs

/-! PROOFS. Returns from traps (R254), system instructions (R252 to R255), and the ends of handler contexts (R103, R282). -/

namespace Sys2Proof.Machine

set_option Elab.async false
open Claims

/-! ### TSTATUS (R389) -/

theorem toNat_tstatusOf (p q : Nat) (b : Bool) : (tstatusOf p q b).toNat = p % 4 + q % 4 * 4 + b2n b * 16 := by
  have hb : b2n b ≤ 1 := by cases b <;> decide
  rw [tstatusOf, BitVec.toNat_ofNat, Nat.mod_eq_of_lt (by omega)]

theorem priv_tstatusOf (p q : Nat) (b : Bool) : wbits (tstatusOf p q b) 0 2 = p % 4 := by
  rw [wbits, bits, toNat_tstatusOf]
  omega

theorem ppriv_tstatusOf (p q : Nat) (b : Bool) : wbits (tstatusOf p q b) 2 2 = q % 4 := by
  rw [wbits, bits, toNat_tstatusOf]
  omega

theorem inTrap_tstatusOf (p q : Nat) (b : Bool) : wbit (tstatusOf p q b) 4 = b := by
  rw [wbit, BitVec.getLsbD, toNat_tstatusOf, Nat.testBit_eq_decide_div_mod_eq]
  cases b <;> simp [b2n] <;> omega

/-- The loop stack of a save area, from its bottom (R254). -/
theorem loops_reverse (c : HartCsrs) (n : Nat) (h : n < min (wbits c.ldepth 0 3) 4) :
    c.loops.reverse[n]? = some ⟨c.lstart.get n 0, c.lend.get n 0, c.lcount.get n 0⟩ := by
  rw [HartCsrs.loops, List.reverse_reverse, List.getElem?_map, List.getElem?_range h]
  rfl

theorem length_loops (c : HartCsrs) : c.loops.length = min (wbits c.ldepth 0 3) 4 := by simp [HartCsrs.loops]

/-- What an instruction does that is issued below its level (R252). -/
theorem issue_below {ik : Code} {hd : Head} {level : Nat} {legal : Bool} {srcs dsts : List RegRef} {k : State → State} {s : State}
    (h : s.me.priv < level) : issue ik hd level legal srcs dsts k s = trapInstr 0x03 ik s := if_pos h

/-- A word fetched, as TVAL holds it, and the cause of a trap at it (R391). -/
theorem trapInstr_saves (c : BitVec 8) (ik : Code) (s : State) (hc : s.cur.isCtx = false) (ht : s.me.inTrap = false) :
    (trapInstr c ik s).me.csr.tcause = tcauseOf c 0 ∧ (trapInstr c ik s).me.csr.tval = ik.w.setWidth 64 ∧
    (trapInstr c ik s).me.csr.tepc.toNat = s.me.pc.toNat % 2 ^ 48 ∧ ∀ r, (trapInstr c ik s).me.rx r = s.me.rx r := by
  obtain ⟨h1, h2, h3, -, h5⟩ := takeTrap_saves c 0 (ik.w.setWidth 64) s.me.pc s hc ht
  exact ⟨h1, h2, h3, h5⟩

/-! ### The end of a handler context (R103) -/

theorem State.clearLock_dev (s : State) (i : HartId) : (s.clearLock i).dev = s.dev := by
  unfold State.clearLock State.dropLock
  split
  · rfl
  · split <;> rfl

theorem State.ungrant_dev (s : State) (i : HartId) : (s.ungrant i).dev = s.dev := by
  unfold State.ungrant
  split
  · rfl
  · exact s.clearLock_dev i

section
variable {h g : Hart} (e : h.lockless = g.lockless)
include e

theorem Hart.ctx_of_lockless : h.ctx = g.ctx := show h.lockless.ctx = g.lockless.ctx by rw [e]
theorem Hart.busy_of_lockless : h.busy = g.busy := show h.lockless.busy = g.lockless.busy by rw [e]

end

/-- The answer with which a context ends that has been called, or the end notice of a traveller (R103, R121, R282). -/
def Msg.ended (m : Msg) (v : Word) : Reply :=
  { m.answer (if m.kind = MsgKind.travel then ReplyKind.endNotice else ReplyKind.fill) with value := if m.rr then v else 0 }

/-- A hart that is idle again. -/
def Hart.idled (h : Hart) : Hart := { h with st := .idle, wait := none, ctx := CtxInfo.none, loops := [] }

/-- What a context gives as it ends: its answer, its refusal, or its next hop (R103, R120). -/
def State.parting (s : State) (m : Msg) (e : Ending) : State :=
  match e with
  | .reply v => s.reply (m.ended v)
  | .nack c t => s.nackMsg m c t
  | .hop n => s.send n false

/-- A context that nothing stands in the way of ends with what it gives for its arrival. -/
theorem endCtx_closes {s : State} {m : Msg} (e : Ending) (hm : s.me.ctx.arrival = some m) (hf : s.me.ctx.copyFault = none)
    (hc : s.me.copiesOut = false) (hs : s.me.busy.sb = []) (hl : s.me.busy.loads = []) (hp : ∀ n, e = .hop n → s.me.busy.posted = []) :
    ∃ u : State, s.endCtx s.cur e = (u.parting m e).modHart s.cur Hart.idled ∧ u.dev = s.dev ∧
      u.ground = s.ground ∧ ∀ h, h ≠ s.cur → u.hart h = s.hart h := by
  let w := (s.ungrant s.cur).modHart s.cur (fun h => { h with wait := some (.ending e), st := .halted })
  have hw : w.hart s.cur = { (s.ungrant s.cur).hart s.cur with wait := some (.ending e), st := .halted } := State.modHart_hart_same _ _ _
  have hk := s.ungrant_lockless s.cur
  have hctx : (w.hart s.cur).ctx = s.me.ctx := by rw [hw]; exact (Hart.ctx_of_lockless hk :)
  have hbusy : (w.hart s.cur).busy = s.me.busy := by rw [hw]; exact (Hart.busy_of_lockless hk :)
  have hout : (w.hart s.cur).endingOut e = false := by
    have hc' : (w.hart s.cur).copiesOut = false := by
      unfold Hart.copiesOut at hc ⊢
      rwa [hctx, hbusy]
    cases e with
    | hop n => simp [Hart.endingOut, hc', hbusy, hs, hl, hp n rfl]
    | _ => simp [Hart.endingOut, hc', hbusy, hs, hl]
  have hwait : (w.hart s.cur).wait = some (.ending e) := by rw [hw]
  refine ⟨w.clearLock s.cur, ?_, ?_, ?_, fun h hh => ?_⟩
  · show w.settle s.cur = _
    unfold State.settle
    rw [hwait]
    simp only [hout, Bool.false_eq_true, if_false, State.closeCtx, hctx, hm, hf]
    cases e <;> rfl
  · rw [State.clearLock_dev]
    exact s.ungrant_dev s.cur
  · rw [State.clearLock_ground]
    show (State.modHart _ _ _).ground = _
    rw [State.modHart_ground, State.ungrant_ground]
  · rw [State.clearLock_hart_other _ _ _ hh]
    exact (State.modHart_hart_other _ _ _ _ (Ne.symm hh)).trans (s.ungrant_hart_other s.cur h hh)

end Sys2Proof.Machine

namespace Sys2Proof.Proofs

set_option Elab.async false
open Machine Claims

/-- Settles O19: the return, the odd TEPC and the kernel's ERET. -/
theorem returnFromTrap : Obligations.ReturnFromTrap := by
  intro hd s hx hc
  have hn : s.noCtx = true := by simp [State.noCtx, hx]
  have issues (hp : 1 ≤ s.me.priv) : exec (.eret hd) s = .next (returnTrap hd (codeOf (.eret hd)) s) :=
    congrArg Host.Outcome.next (issue_clear _ _ _ _ _ _ _ _ hp hn hc)
  have h0 : wbit (setBits s.me.csr.tepc 48 16 0) 0 = wbit s.me.csr.tepc 0 := wbit_setBits_other _ _ _ _ _ (by omega) (by omega)
  refine ⟨fun hp hpp he => ?_, fun ht hp hpp ho => ?_, fun ht hp => ?_⟩
  · have hpp' : ¬ (s.me.priv = 1 ∧ wbits s.me.csr.tstatus 2 2 = 2) := fun h => hpp h.1 h.2
    refine ⟨_, (issues hp).trans (by simp only [returnTrap, if_neg hpp', h0, he, Bool.false_eq_true, if_false]; rfl), ?_⟩
    rw [State.modMe_me]
    have hlt : wbits s.me.csr.tstatus 2 2 < 4 := Nat.mod_lt _ (by decide)
    refine ⟨toNat_tepc _, ?_, inTrap_tstatusOf _ _ _, rfl, length_loops _, fun n hn' => ⟨_, loops_reverse _ n ?_, rfl, rfl, rfl⟩,
      fun _ => rfl, rfl, fun h hh => State.modMe_hart_other s h _ (Ne.symm hh)⟩
    · exact (priv_tstatusOf _ _ _).trans (Nat.mod_eq_of_lt hlt)
    · rw [← length_loops]
      exact hn'
  · have hpp' : ¬ (s.me.priv = 1 ∧ wbits s.me.csr.tstatus 2 2 = 2) := fun h => hpp h.1 h.2
    refine ⟨_, (issues hp).trans (by simp only [returnTrap, if_neg hpp', h0, ho, if_true]; rfl), ?_⟩
    obtain ⟨h1, h2, -⟩ := takeTrap_saves 0x04 0 (setBits s.me.csr.tepc 48 16 0) s.me.pc s hx ht
    exact ⟨h1, (congrArg BitVec.toNat h2).trans (toNat_tepc _)⟩
  · exact ⟨_, congrArg Host.Outcome.next (issue_below (by omega)), (trapInstr_saves 0x03 _ s hx ht).1⟩

/-- Settles O20: each system instruction past its checks. -/
theorem systemInstructions : Obligations.SystemInstructions := by
  intro hd a s hx hc
  have hn : s.noCtx = true := by simp [State.noCtx, hx]
  have h0 : s.clear hd [] [] := clear_mono s hd _ [] _ [] hc (by simp) (by simp)
  have pause : exec (.pause hd a) s = _ := congrArg Host.Outcome.next (issue_clear _ _ _ _ _ _ _ _ (Nat.zero_le _) rfl hc)
  refine ⟨congrArg Host.Outcome.next (issue_clear _ _ _ _ _ _ _ _ (Nat.zero_le _) hn h0), fun hp hl ht hs hk => ?halt, ⟨?exit, ?cExit⟩,
    fun h1 h2 => ?pauseZero, fun h1 => ?pauseOver, fun h1 h2 hst => ?pauseWaits, fun hv => ?long, fun hl hv => ?short, fun hl => ?shortAgain⟩
  case halt =>
    refine congrArg Host.Outcome.next ((issueOwn_clear _ _ _ _ _ _ _ _ _ hp hn (by simp [State.lockBar, hl]) h0).trans (if_pos ?_))
    simp [Hart.drained, ht, hs, hk]
  case exit =>
    refine congrArg Host.Outcome.next ((if_neg (by simp [hx])).trans ?_)
    exact issue_clear _ _ _ _ _ _ _ _ (Nat.zero_le _) rfl h0
  case cExit =>
    refine congrArg Host.Outcome.next ((if_neg (by simp [hx])).trans ?_)
    exact issue_clear _ _ _ _ _ _ _ _ (Nat.zero_le _) rfl ⟨rfl, by simp, by simp⟩
  case pauseZero =>
    refine ⟨_, pause.trans (by rw [if_pos (.inr (by simp [h2]))]), ?_⟩
    rw [finish_me, finish_me, State.modMe_me, State.succ, State.modMe_me, State.succ]
    exact ⟨rfl, fun _ => rfl, rfl⟩
  case pauseOver =>
    refine ⟨_, pause.trans (by rw [if_pos (.inl h1)]), ?_⟩
    rw [finish_me, finish_me, State.modMe_me, State.succ, State.modMe_me, State.succ]
    exact ⟨rfl, rfl, fun _ => rfl⟩
  case pauseWaits =>
    have hne : min (s.rx a).toNat 65535 ≠ 0 := by
      have : (s.rx a).toNat ≠ 0 := fun h => h2 (BitVec.eq_of_toNat_eq (by simpa using h))
      omega
    refine ⟨_, pause.trans (by rw [if_neg (by simp only [h1, hne, ne_eq, not_true_eq_false, or_self, not_false_eq_true])]), ?_⟩
    rw [stallAt, State.modMe_me, State.modMe_me]
    refine ⟨rfl, ?_⟩
    show s.clk + s.clusterClk s.myCore _ = _
    simp only [State.clusterClk, hst]
    omega
  case long =>
    refine ⟨_, congrArg Host.Outcome.next ((issue_clear _ _ _ _ _ _ _ _ (Nat.zero_le _) hn h0).trans (if_pos hv)), ?_, fun r => ⟨?_, ?_⟩, ?_, fun r => ?_⟩
    · simp [State.long]
    · simp [Core.rw]
    · rw [finish_stv]; simp [State.stv, State.long]
    · rw [finish_me, finish_me]; rfl
    · rw [finish_me]; rfl
  case short =>
    refine ⟨_, congrArg Host.Outcome.next ((issue_clear _ _ _ _ _ _ _ _ (Nat.zero_le _) hn h0).trans ((if_neg (by simp [hl])).trans (if_pos hv))),
      ?_, fun r => ?_, ?_⟩
    · simp [State.long]
    · simp [Core.rw]
    · rw [finish_me, finish_me]; rfl
  case shortAgain =>
    exact congrArg Host.Outcome.next ((issue_clear _ _ _ _ _ _ _ _ (Nat.zero_le _) hn h0).trans (if_pos (by simp [hl])))

/-- Settles O21: REPLY, HRET and both EXITs end the context with the answer to its arrival. -/
theorem contextEndings : Obligations.ContextEndings := by
  intro hd a m s hx hc hm ho hf hco hs hl
  have h8 : s.clear hd s.retSrcs [] := by
    refine clear_mono s hd _ _ _ _ hc ?_ (by simp)
    cases hr : m.rr <;> simp [State.retSrcs, hm, hr]
  have family {i : Instr} {v : Word} (hi : exec i s = .next (s.endCtx s.cur (.reply v))) :
      ∃ (t : State) (r : Reply), exec i s = .next t ∧ t.me.st = .idle ∧ t.me.ctx.arrival = none ∧ t.me.loops = [] ∧
        t.dev.replies = s.dev.replies ++ [r] ∧ (m.kind = .rcall → r.kind = .fill ∧ r.trav = none) ∧
        (m.kind = .travel → r.kind = .endNotice ∧ r.trav = some m.sentBy) ∧
        (m.rr = true → r.reg = some m.rreg ∧ r.value = v) ∧ (m.rr = false → r.reg = none ∧ r.value = 0) ∧ r.cmd = m.cmd ∧ r.msg = m.id ∧
        r.dst = m.src ∧ t.mem = s.mem ∧ ∀ h, h ≠ s.cur → t.hart h = s.hart h := by
    obtain ⟨u, hu, hd', hg, hh⟩ := endCtx_closes (.reply v) hm hf hco hs hl (by simp)
    have hcur : u.cur = s.cur := congrArg Ground.cur hg
    have hme : ((u.parting m (.reply v)).modHart s.cur Hart.idled).me = ((u.parting m (.reply v)).hart s.cur).idled := by
      show (State.modHart _ _ _).hart u.cur = _
      rw [hcur, State.modHart_hart_same]
    refine ⟨_, m.ended v, hi.trans (congrArg _ hu), by rw [hme]; rfl, by rw [hme]; rfl, by rw [hme]; rfl, ?_, fun hk => ?_, fun hk => ?_, fun hr => ?_,
      fun hr => ?_, rfl, rfl, rfl, ?_, fun h hn => ?_⟩
    · show (u.reply (m.ended v)).dev.replies = _
      rw [← hd']
      simp [State.reply, Msg.ended, Msg.answer, ho, State.modDev]
    · simp [Msg.ended, Msg.answer, hk]
    · simp [Msg.ended, Msg.answer, hk]
    · simp [Msg.ended, Msg.answer, hr]
    · simp [Msg.ended, Msg.answer, hr]
    · exact congrArg Ground.mem hg
    · rw [State.modHart_hart_other _ _ _ _ (Ne.symm hn)]
      exact hh h hn
  refine ⟨family ?_, family ?_, family ?_, fun hp => family ?_⟩
  · exact congrArg Host.Outcome.next (issue_clear _ _ _ _ _ _ _ _ (Nat.zero_le _) hx (clear_mono s hd _ _ _ _ hc (by simp) (by simp)))
  · exact congrArg Host.Outcome.next (issue_clear _ _ _ _ _ _ _ _ (Nat.zero_le _) hx h8)
  · exact congrArg Host.Outcome.next ((if_pos hx).trans (issue_clear _ _ _ _ _ _ _ _ (Nat.zero_le _) hx h8))
  · refine congrArg Host.Outcome.next ((if_pos hx).trans (issue_clear _ _ _ _ _ _ _ _ (Nat.zero_le _) hx ?_))
    refine clear_mono s Head.plain _ _ _ _ hp ?_ (by simp)
    cases hr : m.rr <;> simp [State.retSrcs, hm, hr]

end Sys2Proof.Proofs

/-! PROOFS. Vault control: ACT, PRE, PREA, VSTAT and VEVT (R50, R74, R78, R275 to R277). -/

namespace Sys2Proof.Machine

set_option Elab.async false
open Claims

/-! ### Vault control (R50, R74, R78, R275 to R277) -/

@[simp] theorem State.enter_me (s : State) (c b : Nat) (q : VReq) : (s.enter c b q).me = s.me := rfl
@[simp] theorem State.enter_mem (s : State) (c b : Nat) (q : VReq) : (s.enter c b q).mem = s.mem := rfl

theorem State.bank_modBank_same (s : State) (c b : Nat) (f : Bank → Bank) : (s.modBank c b f).bank c b = f (s.bank c b) := by
  simp [State.bank, State.modBank, Vault.modBank]

theorem State.bank_modBank_other (s : State) (c b c' b' : Nat) (f : Bank → Bank) (h : b' ≠ b) : (s.modBank c b f).bank c' b' = s.bank c' b' := by
  unfold State.bank State.modBank
  by_cases hc : c = c'
  · subst hc
    rw [State.modVault_vault_same, Vault.modBank, Table.get_set_other _ _ _ _ _ (Ne.symm h)]
  · rw [State.modVault_vault_other _ _ _ _ hc]

@[simp] theorem finishAt_mem (hd : Head) (n : Word) (s : State) : (finishAt hd n s).mem = s.mem := rfl

theorem State.bank_enter_same (s : State) (c b : Nat) (q : VReq) : ((s.enter c b q).bank c b).q = (s.bank c b).q ++ [q] := by
  have h : (s.enter c b q).bank c b = (s.modBank c b (fun bk => { bk with q := bk.q ++ [q] })).bank c b := rfl
  rw [h, State.bank_modBank_same]

theorem State.bank_enter_other (s : State) (c b b' : Nat) (q : VReq) (h : b' ≠ b) : (s.enter c b q).bank c b' = s.bank c b' := by
  have hr : (s.enter c b q).bank c b' = (s.modBank c b (fun bk => { bk with q := bk.q ++ [q] })).bank c b' := rfl
  rw [hr, State.bank_modBank_other _ _ _ _ _ _ h]

@[simp] theorem finish_bank (ik : Code) (hd : Head) (s : State) (c b : Nat) : (finish ik hd s).bank c b = s.bank c b := rfl

/-- A precharge entered in each of the first n banks. -/
def State.preFirst (s : State) (n : Nat) : State := (List.range n).foldl (fun s b => s.askBank s.myCore b .pre 0 0) s

theorem State.preFirst_succ (s : State) (n : Nat) :
    s.preFirst (n + 1) = (s.preFirst n).askBank (s.preFirst n).myCore n .pre 0 0 := by
  rw [State.preFirst, List.range_succ, List.foldl_append]
  rfl

theorem State.preFirst_kept (s : State) (n : Nat) : (s.preFirst n).myCore = s.myCore ∧ (s.preFirst n).me = s.me ∧ (s.preFirst n).mem = s.mem := by
  induction n with
  | zero => exact ⟨rfl, rfl, rfl⟩
  | succ n ih => rw [State.preFirst_succ]; exact ih

theorem State.preFirst_bank (s : State) (n b : Nat) :
    (n ≤ b → (s.preFirst n).bank s.myCore b = s.bank s.myCore b) ∧
    (b < n → ∃ q : VReq, ((s.preFirst n).bank s.myCore b).q = (s.bank s.myCore b).q ++ [q] ∧ q.kind = .pre) := by
  induction n with
  | zero => exact ⟨fun _ => rfl, fun h => absurd h (by omega)⟩
  | succ n ih =>
    rw [State.preFirst_succ, (s.preFirst_kept n).1, State.askBank]
    refine ⟨fun h => ?_, fun h => ?_⟩
    · rw [State.bank_enter_other _ _ _ _ _ (by omega), ih.1 (by omega)]
    · rcases Nat.lt_succ_iff_lt_or_eq.mp h with hb | rfl
      · rw [State.bank_enter_other _ _ _ _ _ (by omega)]
        exact ih.2 hb
      · rw [State.bank_enter_same, ih.1 (Nat.le_refl _)]
        exact ⟨_, rfl, rfl⟩

/-- The fields of a bank status word put together (R78). -/
def packStatus (row isOpen spare refresh hold repair spares band refPtr : Nat) : Word :=
  BitVec.ofNat 64 (row + isOpen * 2 ^ 12 + spare * 2 ^ 13 + refresh * 2 ^ 14 + hold * 2 ^ 15 + repair * 2 ^ 16 + spares * 2 ^ 17 + band * 2 ^ 24 +
    refPtr * 2 ^ 32)

section
variable {row o sp rf hl rp spares band ptr : Nat}

theorem toNat_packStatus : (packStatus row o sp rf hl rp spares band ptr).toNat =
    (row + o * 2 ^ 12 + sp * 2 ^ 13 + rf * 2 ^ 14 + hl * 2 ^ 15 + rp * 2 ^ 16 + spares * 2 ^ 17 + band * 2 ^ 24 + ptr * 2 ^ 32) % 2 ^ 64 := by
  rw [packStatus, BitVec.toNat_ofNat]

theorem wbit_eq (v : Word) (k : Nat) : wbit v k = decide (v.toNat / 2 ^ k % 2 = 1) := by
  rw [wbit, BitVec.getLsbD, Nat.testBit_eq_decide_div_mod_eq]

variable (hr : row < 2 ^ 12) (ho : o ≤ 1) (hs : sp ≤ 1) (hf : rf ≤ 1) (hh : hl ≤ 1) (hp : rp ≤ 1)
include hr ho hs hf hh hp

/-- The fields of a bank status word, read back. -/
theorem fields_packStatus :
    wbits (packStatus row o sp rf hl rp spares band ptr) 0 14 = row + o * 2 ^ 12 + sp * 2 ^ 13 ∧
    wbits (packStatus row o sp rf hl rp spares band ptr) 0 12 = row ∧
    wbit (packStatus row o sp rf hl rp spares band ptr) 12 = decide (o = 1) ∧
    wbit (packStatus row o sp rf hl rp spares band ptr) 13 = decide (sp = 1) ∧
    wbit (packStatus row o sp rf hl rp spares band ptr) 14 = decide (rf = 1) ∧
    wbit (packStatus row o sp rf hl rp spares band ptr) 15 = decide (hl = 1) ∧
    wbit (packStatus row o sp rf hl rp spares band ptr) 16 = decide (rp = 1) ∧
    (spares < 2 ^ 7 → band < 2 ^ 8 → ptr < 2 ^ 32 →
      (packStatus row o sp rf hl rp spares band ptr).toNat / 2 ^ 17 = spares + band * 2 ^ 7 + ptr * 2 ^ 15) := by
  simp only [wbit_eq, wbits, bits, toNat_packStatus, decide_eq_decide]
  refine ⟨?_, ?_, ?_, ?_, ?_, ?_, ?_, fun h1 h2 h3 => ?_⟩ <;> omega

end

theorem b2n_le (b : Bool) : b2n b ≤ 1 := by cases b <;> decide

theorem b2n_eq_one (b : Bool) : decide (b2n b = 1) = b := by cases b <;> decide

/-- The bank status word of a row that is open, or of none. -/
theorem bankStatus_eq (s : State) (c b : Nat) : s.bankStatus c b =
    packStatus (((s.bank c b).live s.clk).elim 0 (·.row)) (b2n ((s.bank c b).live s.clk).isSome) (b2n (((s.bank c b).live s.clk).elim false (·.spare)))
      (b2n (s.bank c b).refresh.isSome) (b2n (s.bank c b).hold.isSome) (b2n (s.bank c b).repair.isSome) (s.bank c b).map.length (s.band c (b / 4))
      (s.bank c b).refPtr := by
  simp only [State.bankStatus]
  generalize s.bank c b = bk
  cases bk.live s.clk <;> rfl

theorem live_none {bk : Bank} {clk : Nat} (h : bk.opened = none ∨ (bk.refresh.isSome = true ∧ bk.copyEnd ≤ clk)) : bk.live clk = none := by
  unfold Bank.live
  rcases h with h | ⟨h1, h2⟩
  · simp [h]
  · simp [h1, h2]

theorem live_some {bk : Bank} {clk : Nat} {r : RowRef} (h : bk.opened = some r) (hr : bk.refresh = none ∨ clk < bk.copyEnd) : bk.live clk = some r := by
  unfold Bank.live
  rcases hr with hr | hr
  · simp [h, hr]
  · simp [h, Nat.not_le.mpr hr]

theorem opened_of_live {bk : Bank} {clk : Nat} {r : RowRef} (h : bk.live clk = some r) : bk.opened = some r := by
  unfold Bank.live at h
  split at h
  · cases h
  · exact h

/-- What taking a record out of a vault's log gives and leaves (R74). -/
theorem takeLog_eq (s : State) (c : Nat) : (s.takeLog c).1 = (s.vault c).log.headD 0 ∧ ((s.takeLog c).2.vault c).log = (s.vault c).log.tail ∧
    (s.takeLog c).2.me = s.me ∧ (s.takeLog c).2.mem = s.mem ∧ (s.takeLog c).2.cur = s.cur := by
  unfold State.takeLog
  cases h : (s.vault c).log with
  | nil => simp [h]
  | cons r t => simp

end Sys2Proof.Machine

namespace Sys2Proof.Proofs

set_option Elab.async false
open Machine Claims

/-- R50, R275, R276: the row commands. -/
theorem rowCommands_holds : rowCommands := by
  intro hd a s t x
  have family {i : Instr} {act : Bool} (hr : reaches .vault 1 (s.rx a) s t x) (hc : s.clear hd [.x a] [])
      (hi : exec i s = .next (vaultDirect (codeOf i) hd act a s)) :
      ∃ r : State, exec i s = .next r ∧
        (∃ q : VReq, (r.bank (paCore x.pa) (bankOf (paOff x.pa))).q = (t.bank (paCore x.pa) (bankOf (paOff x.pa))).q ++ [q] ∧
          q.kind = (if act then .act else .pre) ∧ q.row = rowOf (paOff x.pa) ∧ q.line = paOff x.pa / 64) ∧
        (∀ b, b ≠ bankOf (paOff x.pa) → r.bank (paCore x.pa) b = t.bank (paCore x.pa) b) ∧ r.mem = t.mem ∧
        r.me.pc = (finish (codeOf i) hd t).me.pc ∧ ∀ q, r.me.rx q = s.me.rx q := by
    have hv : vaultDirect (codeOf i) hd act a s = finish (codeOf i) hd (t.askRow act x.pa) := by
      have hr' := hr
      unfold reaches at hr'
      rw [vaultDirect, issue_clear _ _ _ _ _ _ _ _ (Nat.zero_le _) rfl hc, withAccess, hr']
    refine ⟨_, hi.trans (congrArg Host.Outcome.next hv),
      ⟨⟨if act then .act else .pre, rowOf (paOff x.pa), paOff x.pa / 64, 0, 1, t.clk, 0, 0, 0, false, false⟩, ?_, rfl, rfl, rfl⟩,
      fun b hb => ?_, rfl, ?_, fun q => ?_⟩
    · exact State.bank_enter_same _ _ _ _
    · exact State.bank_enter_other _ _ _ _ _ hb
    · rw [finish_me, finish_me]; rfl
    · rw [finish_me]
      exact Hart.rx_of_unwalked (me_of_access hr) q
  refine ⟨fun hc hr => ⟨family hr hc (act := true) rfl, family hr hc (act := false) rfl⟩,
    fun hc => ⟨finish (codeOf (.prea hd)) hd (s.preFirst 32), ?_, fun b hb => ?_, ?_, ?_⟩⟩
  · exact congrArg Host.Outcome.next (issue_clear _ _ _ _ _ _ _ _ (Nat.zero_le _) rfl hc)
  · rw [finish_bank]
    exact (s.preFirst_bank 32 b).2 hb
  · exact ((finishAt_mem _ _ _).trans (s.preFirst_kept 32).2.2 :)
  · have hk : (s.preFirst 32).me = s.me := (s.preFirst_kept 32).2.1
    rw [finish_me, finish_me, State.succ, State.succ, hk]

/-- R74, R78, R277: the status of a bank and the event log. -/
theorem vaultStatus_holds : vaultStatus := by
  intro hd d a s
  refine ⟨fun hc h32 hrow => ⟨s.bankStatus s.myCore (s.rx a).toNat, ?_, ?_⟩, fun hc hx ht h32 => ?_, fun hc => ?_⟩
  · refine congrArg Host.Outcome.next ((issue_clear _ _ _ _ _ _ _ _ (Nat.zero_le _) rfl hc).trans (if_neg ?_))
    simp only [wbits, bits]
    omega
  · rw [bankStatus_eq]
    dsimp only
    generalize s.bank s.myCore (s.rx a).toNat = bk at *
    have hlt : (bk.live s.clk).elim 0 (·.row) < 2 ^ 12 := by
      cases h : bk.live s.clk with
      | none => simp
      | some r => exact hrow r (opened_of_live h)
    obtain ⟨h1, h2, h3, h4, h5, h6, h7, h8⟩ := fields_packStatus (spares := bk.map.length) (band := s.band s.myCore ((s.rx a).toNat / 4))
      (ptr := bk.refPtr) hlt (b2n_le (bk.live s.clk).isSome) (b2n_le ((bk.live s.clk).elim false (·.spare))) (b2n_le bk.refresh.isSome)
      (b2n_le bk.hold.isSome) (b2n_le bk.repair.isSome)
    refine ⟨fun h => ?_, fun r h hr => ?_, h5.trans (b2n_eq_one _), h6.trans (b2n_eq_one _), h7.trans (b2n_eq_one _), h8⟩
    · rw [h1, live_none h]; rfl
    · rw [h2, h3, h4, live_some h hr]
      exact ⟨rfl, b2n_eq_one _, b2n_eq_one _⟩
  · refine ⟨_, congrArg Host.Outcome.next ((issue_clear _ _ _ _ _ _ _ _ (Nat.zero_le _) rfl hc).trans (if_pos ?_)), ?_⟩
    · have := (s.rx a).isLt
      simp only [wbits, bits]
      omega
    · obtain ⟨h1, -, -, h4⟩ := trapInstr_saves 0x02 (codeOf (.vstat hd d a)) s hx ht
      exact ⟨h1, h4 d⟩
  · have hne : d ≠ d + 1 := by
      intro h
      bv_omega
    obtain ⟨h1, h2, h3, h4, h5⟩ := takeLog_eq s s.myCore
    refine ⟨finish (codeOf (.vevt hd d)) hd (((s.takeLog s.myCore).2.wx d ((s.takeLog s.myCore).1.extractLsb' 0 64)).wx (d + 1)
      ((s.takeLog s.myCore).1.extractLsb' 64 64)), ?_, ⟨fun hd0 => ?_, fun hd0 => ?_⟩, h2, fun r hr hr' => ?_, h4, ?_⟩
    · exact congrArg Host.Outcome.next (issue_clear _ _ _ _ _ _ _ _ (Nat.zero_le _) rfl hc)
    all_goals rw [finish_me, State.wx, State.modMe_me, State.wx, State.modMe_me, h3, h1]
    · exact (Hart.rx_wx_other _ _ _ _ (Ne.symm hne)).trans (Hart.rx_wx_same _ _ _ hd0)
    · exact Hart.rx_wx_same _ _ _ hd0
    · exact (Hart.rx_wx_other _ _ _ _ (Ne.symm hr')).trans (Hart.rx_wx_other _ _ _ _ (Ne.symm hr))
    · rw [finish_me]
      simp [State.succ, h3]

/-- Settles O23: the row commands, then the status of a bank and the event log. -/
theorem vaultInstructions : Obligations.VaultInstructions := ⟨rowCommands_holds, vaultStatus_holds⟩

end Sys2Proof.Proofs

/-! PROOFS. Messages sent, and remote accesses (R108, R136, R138, R278, R279). -/

namespace Sys2Proof.Machine

set_option Elab.async false
open Claims

/-! ### Messages sent (R108, R140) -/

/-- A message as it is sent by a hart of this device: with its number and its place in the count of its target. -/
def State.numbered (s : State) (m : Msg) : Msg :=
  { m with id := s.dev.nextMsg, seq := BitVec.ofNat 32 ((s.hart m.src).busy.sent.get (s.seqKey m.dev m.core) 0) }

/-- A state in which a message has been sent, and nothing else that an instruction that sends one is asked about has changed. -/
structure SentBy (m : Msg) (s t : State) : Prop where
  net : t.dev.net = s.dev.net ++ [s.numbered m]
  next : t.dev.nextMsg = s.dev.nextMsg + 1
  cur : t.cur = s.cur
  mem : t.mem = s.mem
  others : ∀ h, h ≠ s.cur → t.hart h = s.hart h
  pc : t.me.pc = s.me.pc
  loops : t.me.loops = s.me.loops
  x : t.me.x = s.me.x

/-- What a hart keeps of a message that it sends: its place in the count of its target, and, where it is tracked, the message under way. -/
def Hart.noteSent (h : Hart) (s : State) (m : Msg) (track : Bool) : Hart :=
  h.modBusy (fun b =>
    { b with sent := b.sent.set (s.seqKey m.dev m.core) (b.sent.get (s.seqKey m.dev m.core) 0 + 1),
             posted := if track then b.posted ++ [⟨s.dev.nextMsg, m.core, m.dev, m.reads, m.writes, m.epoch⟩] else b.posted })

/-- A message of a hart of this device to a device in reach, as it is sent. -/
theorem send_eq {s : State} {m : Msg} {track : Bool} (ho : m.org = .own) (hr : s.reachable m.dev = true) :
    s.send m track = ((s.modDev (fun d => { d with nextMsg := d.nextMsg + 1 })).modHart m.src (fun h => h.noteSent s m track)).modDev
      (fun d => { d with net := d.net ++ [s.numbered m] }) := by
  have hr1 : (s.modDev (fun d => { d with nextMsg := d.nextMsg + 1 })).reachable m.dev = true := hr
  have hr2 (f : Hart → Hart) : ((s.modDev (fun d => { d with nextMsg := d.nextMsg + 1 })).modHart m.src f).reachable m.dev = true := hr
  have hb : (m.org == Origin.own || m.org == Origin.protocol) = true := by rw [ho]; rfl
  simp only [State.send, hb, Bool.not_true, Bool.false_eq_true, if_false, hr1, if_true, hr2]
  rfl

theorem send_me {s : State} {m : Msg} {track : Bool} (hs : m.src = s.cur) (ho : m.org = .own) (hr : s.reachable m.dev = true) :
    (s.send m track).me = s.me.noteSent s m track := by
  rw [send_eq ho hr, hs]
  show (State.modDev _ _).hart s.cur = _
  rw [State.modDev_hart, State.modHart_hart_same]
  rfl

/-- A message of the issuing hart to a device in reach is sent. -/
theorem sentBy_send {s : State} {m : Msg} {track : Bool} (hs : m.src = s.cur) (ho : m.org = .own) (hr : s.reachable m.dev = true) :
    SentBy m s (s.send m track) ∧ (s.send m track).me.xSt = s.me.xSt ∧ (s.send m track).me.busy.acq = s.me.busy.acq ∧
    (s.send m track).me.busy.fills = s.me.busy.fills ∧ (s.send m track).me.busy.mbx = s.me.busy.mbx ∧ (s.send m track).me.wait = s.me.wait ∧
    (s.send m track).cores = s.cores := by
  have hme := send_me (track := track) hs ho hr
  refine ⟨⟨?_, ?_, ?_, ?_, fun h hh => ?_, by rw [hme]; rfl, by rw [hme]; rfl, by rw [hme]; rfl⟩, by rw [hme]; rfl, by rw [hme]; rfl, by rw [hme]; rfl,
    by rw [hme]; rfl, by rw [hme]; rfl, ?_⟩
  all_goals rw [send_eq ho hr]
  · rfl
  · rfl
  · rfl
  · rfl
  · rw [hs, State.modDev_hart, State.modHart_hart_other _ _ _ _ (Ne.symm hh), State.modDev_hart]
  · rfl

/-- A change of the issuing hart's own affairs besides. -/
theorem SentBy.modMe {m : Msg} {s t : State} (h : SentBy m s t) (f : Hart → Hart) (hp : ∀ x, (f x).pc = x.pc) (hl : ∀ x, (f x).loops = x.loops)
    (hx : ∀ x, (f x).x = x.x) : SentBy m s (t.modMe f) where
  net := h.net
  next := h.next
  cur := h.cur
  mem := h.mem
  others := fun i hi => (State.modMe_hart_other t i f (by rw [h.cur]; exact Ne.symm hi)).trans (h.others i hi)
  pc := by rw [State.modMe_me, hp, h.pc]
  loops := by rw [State.modMe_me, hl, h.loops]
  x := by rw [State.modMe_me, hx, h.x]

theorem SentBy.modCore {m : Msg} {s t : State} (h : SentBy m s t) (c : Nat) (f : Core → Core) : SentBy m s (t.modCore c f) :=
  ⟨h.net, h.next, h.cur, h.mem, h.others, h.pc, h.loops, h.x⟩

theorem SentBy.pend {m : Msg} {s t : State} (h : SentBy m s t) (r : Reg) (c : Nat) (d : BitVec 16) : SentBy m s (t.pend r c d) := by
  unfold State.pend
  split
  · exact h
  · exact h.modMe _ (fun x => by simp) (fun x => by simp) (fun x => by simp)

/-- A register that awaits its fill is PENDING; x0 stays FULL (R138). -/
theorem stx_pend_same (s : State) (r : Reg) (c : Nat) (d : BitVec 16) (hr : r ≠ 0) : (s.pend r c d).me.stx r = .pending := by
  rw [State.pend, if_neg hr, State.modMe_me]
  exact Hart.stx_markX_same _ _ _ hr

theorem stx_pend_other (s : State) (r q : Reg) (c : Nat) (d : BitVec 16) (hq : q ≠ r) : (s.pend r c d).me.stx q = s.me.stx q := by
  unfold State.pend
  split
  · rfl
  · rw [State.modMe_me]
    exact Hart.stx_markX_other _ _ _ _ (Ne.symm hq)

theorem acq_pend (s : State) (r : Reg) (c : Nat) (d : BitVec 16) : (s.pend r c d).me.busy.acq = s.me.busy.acq := by
  unfold State.pend
  split
  · rfl
  · rw [State.modMe_me]
    simp

/-- This device is always within its own reach (R130). -/
theorem reachable_self (s : State) : s.reachable s.dev.devnum = true := by simp [State.reachable, State.ownDev]

/-- An instruction that sends a message and completes. -/
theorem sends_of_sentBy {i : Instr} {hd : Head} {kind : MsgKind} {core : Nat} {p : Msg → Prop} {u s t : State} {m : Msg}
    (hx : exec i s = .next (finish (codeOf i) hd t)) (ht : SentBy m u t) (hc : u.cur = s.cur) (hk : m.kind = kind) (hm : m.core = core)
    (hs : m.src = s.cur) (ho : m.org = .own) (he : m.epoch = u.me.epoch) (ha : m.asid = u.me.asid) (hp : p (u.numbered m)) :
    sends i hd kind core p u s := by
  refine ⟨_, u.numbered m, hx, ht.net, ht.next, rfl, hk, hm, hs, ho, he, ha, ?_, hp, ht.mem, ?_, ?_, fun h hh => ?_⟩
  · show BitVec.ofNat 32 ((u.hart m.src).busy.sent.get (u.seqKey m.dev m.core) 0) = _
    rw [hs, hm, ← hc]
    rfl
  · rw [finish_me, finish_me, State.succ, State.succ, ht.pc, ht.loops]
  · rw [finish_me]
  · rw [← hc] at hh
    rw [finish, finishAt_hart_other _ _ _ _ (by rw [ht.cur]; exact hh), ht.others h hh]

/-! ### Remote access (R278, R279) -/

section
variable {ik : Code} {hd : Head} {srcs dsts : List RegRef} {r w : Bool} {a : Reg} {n : Nat} {go : Msg → State → State} {kind : MsgKind} {o : BitVec 2}
  {s t : State} {x : Xlat}

/-- The message of a remote access, but for what its form adds. -/
def State.accessMsg (t : State) (kind : MsgKind) (o : BitVec 2) (n : Nat) (x : Xlat) : Msg :=
  { t.newMsg t.cur kind t.dev.devnum (paCore x.pa) with addr := BitVec.ofNat 64 x.pa, size := n, ord := o, rel := ordRel o }

theorem remote_passes (hc : s.clear hd srcs dsts) (hq : s.me.acqWait = false) (hr : reaches (.remote r w) n (s.rx a) s t x) :
    remote ik hd srcs dsts r w a n go kind o s = finish ik hd (go (t.accessMsg kind o n x) t) := by
  unfold reaches at hr
  rw [remote, issue_clear _ _ _ _ _ _ _ _ (Nat.zero_le _) rfl hc, if_neg (by simp [hq]), withAccess, hr]
  rfl

end

/-- A message that is answered, sent (R136). -/
theorem sentBy_sendAsk {s : State} {m : Msg} {acq : Bool} (hs : m.src = s.cur) (ho : m.org = .own) (hr : s.reachable m.dev = true) :
    SentBy m s (s.sendAsk m acq) ∧ (s.sendAsk m acq).me.xSt = s.me.xSt ∧
    (s.sendAsk m acq).me.busy.acq = s.me.busy.acq ++ (if acq then [m.id] else []) := by
  obtain ⟨h, hx, ha, -⟩ := sentBy_send (track := true) hs ho hr
  unfold State.sendAsk
  cases acq
  · exact ⟨h, hx, by simpa using ha⟩
  · refine ⟨h.modMe _ (fun _ => rfl) (fun _ => rfl) (fun _ => rfl), ?_, ?_⟩
    · simpa using hx
    · simpa using ha

theorem acq_of_acqWait {h : Hart} (hq : h.acqWait = false) : h.busy.acq = [] := by
  simp only [Hart.acqWait, Bool.or_eq_false_iff, Bool.not_eq_false', List.isEmpty_iff] at hq
  exact hq.1.1

end Sys2Proof.Machine

namespace Sys2Proof.Proofs

set_option Elab.async false
open Machine Claims

section
variable {i : Instr} {hd : Head} {d a : Reg} {n : Nat} {o : BitVec 2} {kind : MsgKind} {s t : State} {x : Xlat} {acc : Acc} {m : Msg}
  {p : Msg → Prop}

/-- A remote access with a result: its message is sent, and rd is PENDING. -/
theorem asks_of_passes (hq : s.me.acqWait = false) (hr : reaches acc n (s.rx a) s t x)
    (hx : exec i s = .next (finish (codeOf i) hd ((t.sendAsk m (ordAcq o)).pend d m.core m.dev)))
    (hm : ∃ op data cmp, m = { t.accessMsg kind o n x with op := op, data := data, cmp := cmp, rr := true, rreg := d }) (hp : p (t.numbered m)) :
    sends i hd kind (paCore x.pa) (fun m => m.addr = BitVec.ofNat 64 x.pa ∧ m.size = n ∧ m.ord = o ∧ m.rr = true ∧ m.rreg = d ∧ p m) t s ∧
    ∃ r : State, exec i s = .next r ∧ (d ≠ 0 → r.me.stx d = .pending) ∧ (∀ q, q ≠ d → r.me.stx q = s.me.stx q) ∧
      (∀ q, r.me.rx q = s.me.rx q) ∧ (o.getLsbD 0 = true ↔ r.me.busy.acq ≠ []) := by
  have hcur := cur_of_access hr
  have hme := me_of_access hr
  obtain ⟨op, data, cmp, rfl⟩ := hm
  obtain ⟨hs, hst, hacq⟩ := sentBy_sendAsk (s := t) (m := { t.accessMsg kind o n x with op := op, data := data, cmp := cmp, rr := true, rreg := d })
    (acq := ordAcq o) rfl rfl (reachable_self t)
  have ht0 : t.me.busy.acq = [] := by
    have h : t.me.unwalked.busy.acq = s.me.unwalked.busy.acq := by rw [hme]
    exact h.trans (acq_of_acqWait hq)
  have hx0 (q : Reg) : t.me.stx q = s.me.stx q := by
    have h : t.me.unwalked.stx q = s.me.unwalked.stx q := by rw [hme]
    exact h
  refine ⟨sends_of_sentBy hx (hs.pend _ _ _) hcur rfl rfl hcur rfl rfl rfl ⟨rfl, rfl, rfl, rfl, rfl, hp⟩, _, hx, fun h0 => ?_, fun q hq' => ?_, fun q => ?_, ?_⟩
  · rw [finish_me]
    exact stx_pend_same _ _ _ _ h0
  · rw [finish_me]
    refine (stx_pend_other _ _ _ _ _ hq').trans (Eq.trans ?_ (hx0 q))
    unfold Hart.stx
    rw [hst]
  · rw [finish_me]
    have h := (hs.pend d (paCore x.pa) t.dev.devnum).x
    refine Eq.trans ?_ (Hart.rx_of_unwalked hme q)
    unfold Hart.rx
    rw [← h]
    rfl
  · rw [finish_me]
    show _ ↔ (State.me (State.pend _ _ _ _)).busy.acq ≠ []
    rw [acq_pend, hacq, ht0, List.nil_append]
    unfold ordAcq
    cases o.getLsbD 0 <;> simp

end

/-- The ten RAMOs are one instruction with an operation. -/
theorem exec_ramos {hd : Head} {d a : Reg} {w o : BitVec 2} {op : Nat} {ins : Instr} {s : State} (h : (ramos hd d a w o)[op]? = some ins) :
    exec ins s = .next (ramo (codeOf ins) hd op d a w o s) := by
  rcases op with _ | _ | _ | _ | _ | _ | _ | _ | _ | _ | op
  all_goals cases h
  all_goals rfl

/-- Settles O24: RLOAD, RSTORE and each of the ten RAMOs. -/
theorem remoteAccesses : Obligations.RemoteAccesses := by
  intro hd d a w o op ins s t x hq
  refine ⟨fun hc hr => ?rload, fun hc hr => ?rstore, fun hi hc hr => ?ramo⟩
  case rload =>
    exact asks_of_passes (n := widthOf w) hq hr (congrArg Host.Outcome.next (remote_passes hc hq hr)) ⟨_, _, _, rfl⟩ trivial
  case rstore =>
    have hcur := cur_of_access hr
    have hd' : t.rx d = s.rx d := Hart.rx_of_unwalked (me_of_access hr) d
    refine sends_of_sentBy (congrArg Host.Outcome.next (remote_passes hc hq hr)) (sentBy_send rfl rfl (reachable_self t)).1 hcur rfl rfl hcur rfl rfl rfl
      ⟨rfl, rfl, rfl, ?_⟩
    show (BitVec.ofNat 64 (bits (t.rx d).toNat 0 (8 * 2 ^ w.toNat))).toNat = _
    rw [hd', BitVec.toNat_ofNat, bits, Nat.pow_zero, Nat.div_one, Nat.mod_eq_of_lt]
    exact Nat.lt_of_le_of_lt (Nat.mod_le _ _) (s.rx d).isLt
  case ramo =>
    have hrx (q : Reg) : t.rx q = s.rx q := Hart.rx_of_unwalked (me_of_access hr) q
    have hc' : s.clear hd (if op = 9 then [.x d, .x a, .x (d + 1)] else [.x d, .x a]) [.x d] := by
      split
      · exact hc
      · exact clear_mono s hd _ _ _ _ hc (by simp) (by simp)
    refine asks_of_passes (n := widthOf w) hq hr ((exec_ramos hi).trans (congrArg Host.Outcome.next (remote_passes hc' hq hr))) ⟨_, _, _, rfl⟩ ⟨rfl, ?_⟩
    show if op = 9 then (if op = 9 then t.rx d else 0) = s.rx d ∧ (if op = 9 then t.rx (d + 1) else t.rx d) = s.rx (d + 1)
      else (if op = 9 then t.rx (d + 1) else t.rx d) = s.rx d
    by_cases h9 : op = 9
    · simp only [if_pos h9]
      exact ⟨hrx d, hrx (d + 1)⟩
    · simp only [if_neg h9]
      exact hrx d

end Sys2Proof.Proofs

/-! PROOFS. MIGRATE (R120, R121, R281) and the handler table (R113, R283). -/

namespace Sys2Proof.Machine

set_option Elab.async false
open Claims

/-! ### Travellers (R120, R121, R281) -/

/-- A message to a device in reach stands on the request channel, whoever sends it. -/
theorem net_send {s : State} {m : Msg} {track : Bool} (hr : s.reachable m.dev = true) :
    ∃ n : Msg, (s.send m track).dev.net = s.dev.net ++ [n] ∧ ∃ id seq, n = { m with id := id, seq := seq } := by
  refine ⟨{ m with id := s.dev.nextMsg, seq := (if (m.org == .own || m.org == .protocol) = true then (BitVec.ofNat 32
    ((s.hart m.src).busy.sent.get (s.seqKey m.dev m.core) 0)) else m.seq) }, ?_, _, _, rfl⟩
  have hr1 (f : Hart → Hart) : ((s.modDev (fun d => { d with nextMsg := d.nextMsg + 1 })).modHart m.src f).reachable m.dev = true := hr
  have hr2 : (s.modDev (fun d => { d with nextMsg := d.nextMsg + 1 })).reachable m.dev = true := hr
  unfold State.send
  cases hb : (m.org == Origin.own || m.org == Origin.protocol)
  · simp only [Bool.not_false, if_true, hr2]; rfl
  · simp only [Bool.not_true, Bool.false_eq_true, if_false, hr1, if_true, hr2]; rfl

/-- A small value's low bits are the value, and its high bits are zero. -/
theorem wbits_small {v : Word} (h : v.toNat < 64) : wbits v 6 58 = 0 ∧ wbits v 0 6 = v.toNat := by
  simp only [wbits, bits]
  omega

section
variable {hd : Head} {d a b : Reg} {dev : BitVec 16} {core : Nat} {s : State}
  (hid : coreId (s.rx a) = some (dev, core)) (hb : (s.rx b).toNat < 64) (hret : s.retiredHere dev core = false)
include hid hb hret

/-- The message of a MIGRATE of a thread. -/
def State.travelMsg (s : State) (dev : BitVec 16) (core : Nat) (idx : Nat) (d : Reg) : Msg :=
  { s.newMsg s.cur .travel dev core with hidx := idx, rr := d != 0, rreg := d, args := s.me.args, addr := s.ownId s.myCore, ord := 2, rel := true }

theorem migrateThread_goes {ik : Code} (hi : (s.core s.myCore).inflight < (s.core s.myCore).travMax) (hq : s.me.acqWait = false) :
    migrateThread ik hd d a b s = finish ik hd (((s.send (s.travelMsg dev core (s.rx b).toNat d) true).modCore s.myCore
      (fun c => { c with inflight := c.inflight + 1 })).pend d core dev) := by
  obtain ⟨h1, h2⟩ := wbits_small hb
  unfold migrateThread
  simp only [hid]
  rw [if_neg (by simp [h1, hret]), if_neg (by simp [hq, Nat.not_le.mpr hi]), h2]
  rfl

/-- The next hop of a traveller (R120). -/
def State.nextHop (s : State) (o : Msg) (dev : BitVec 16) (core : Nat) (idx : Nat) : Msg :=
  { s.newMsg s.cur .travel dev core with
    hidx := idx, src := o.src, srcDev := o.srcDev, rr := o.rr, rreg := o.rreg, epoch := o.epoch, args := s.me.args,
    addr := s.ownId s.myCore, hops := min (o.hops + 1) 255, ord := 2, rel := false, afterLoads := 0, afterSb := 0, relSb := [], relIds := [],
    org := o.org, sentBy := o.sentBy, seq := (Config.freeWord s.freeCtr).setWidth 32 }

theorem migrateHop_goes {ik : Code} {o : Msg} (ho : s.me.ctx.arrival = some o) :
    migrateHop ik a b s = (State.free s).2.endCtx s.cur (.hop (s.nextHop o dev core (s.rx b).toNat)) := by
  obtain ⟨h1, h2⟩ := wbits_small hb
  unfold migrateHop
  simp only [hid, ho]
  rw [if_neg (by simp [h1, hret]), show wbits ((State.free s).2.rx b) 0 6 = _ from h2]
  rfl

end

end Sys2Proof.Machine

namespace Sys2Proof.Proofs

set_option Elab.async false
open Machine Claims

/-- Settles O25: MIGRATE of a thread, and the next hop of a traveller context. -/
theorem migrate : Obligations.Migrate := by
  intro hd d a b dev core s hc hid hb hret hreach
  refine ⟨fun hx hi hq => ?thread, fun o hx hd0 htr ho hco hs hl hp hf => ?hop⟩
  case thread =>
    have he : exec (.migrate hd d a b) s = .next (finish (codeOf (.migrate hd d a b)) hd
        (((s.send (s.travelMsg dev core (s.rx b).toNat d) true).modCore s.myCore (fun c => { c with inflight := c.inflight + 1 })).pend d core dev)) := by
      refine congrArg Host.Outcome.next ((issueOwn_clear _ _ _ _ _ _ _ _ _ (Nat.zero_le _) (by simp [State.noCtx, hx]) (by simp [hx]) hc).trans ?_)
      rw [if_neg (by simp [hx])]
      exact migrateThread_goes hid hb hret hi hq
    obtain ⟨hsb, hst, -, -, -, -, hcores⟩ := sentBy_send (s := s) (m := s.travelMsg dev core (s.rx b).toNat d) (track := true) rfl rfl hreach
    refine ⟨sends_of_sentBy he ((hsb.modCore _ _).pend _ _ _) rfl rfl rfl rfl rfl rfl rfl ⟨rfl, rfl, rfl, rfl, rfl⟩, _, he, ?_, fun h0 => ?_⟩
    · have hcore (t : State) : (t.pend d core dev).core s.myCore = t.core s.myCore := by
        unfold State.pend
        split <;> rfl
      rw [finish_core, hcore, State.modCore_core_same]
      show (State.core _ _).inflight + 1 = _
      unfold State.core
      rw [hcores]
    · rw [finish_me]
      exact stx_pend_same _ _ _ _ h0
  case hop =>
    have he : exec (.migrate hd d a b) s = .next ((State.free s).2.endCtx s.cur (.hop (s.nextHop o dev core (s.rx b).toNat))) := by
      refine congrArg Host.Outcome.next ((issueOwn_clear _ _ _ _ _ _ _ _ _ (Nat.zero_le _) (by simp [Hart.isTraveller, htr]) (by simp [hd0]) hc).trans ?_)
      rw [if_pos hx]
      exact migrateHop_goes hid hb hret ho
    obtain ⟨u, hu, hdev, hg, -⟩ := endCtx_closes (s := (State.free s).2) (.hop (s.nextHop o dev core (s.rx b).toNat)) ho hf hco hs hl (fun _ _ => hp)
    have hr : u.reachable (s.nextHop o dev core (s.rx b).toNat).dev = true := by
      unfold State.reachable State.ownDev at *
      rw [hdev]
      exact hreach
    obtain ⟨n, hn, id, seq, rfl⟩ := net_send (track := false) hr
    have hcur : u.cur = s.cur := congrArg Ground.cur hg
    refine ⟨_, { s.nextHop o dev core (s.rx b).toNat with id := id, seq := seq }, he.trans (congrArg _ hu), ?_, rfl, rfl, rfl, rfl, rfl, rfl, rfl, rfl, rfl, ?_⟩
    · exact (hn.trans (by rw [hdev]) :)
    · have hcur' : (u.send (s.nextHop o dev core (s.rx b).toNat) false).cur = s.cur :=
        (congrArg Ground.cur (State.send_ground u _ _)).trans hcur
      show ((State.modHart _ _ _).hart (u.send (s.nextHop o dev core (s.rx b).toNat) false).cur).st = _
      rw [hcur']
      exact congrArg Hart.st (State.modHart_hart_same _ _ _)

/-- What an entry of the handler table is once it has been made BUSY for a hart (R113). -/
theorem enterBusy_leaves (n : Nat) (new : Option (Word × Word × Bool × Bool)) (s : State) :
    (((enterBusy n new s).core s.myCore).entry n).st = .busy ∧ (((enterBusy n new s).core s.myCore).entry n).next = some (s.cur, new) ∧
    (enterBusy n new s).me.wait = some (.entry n) ∧ (enterBusy n new s).me.pc = s.me.pc := by
  have hme : (enterBusy n new s).me = { s.me with wait := some (.entry n), safe := none } := by
    rw [enterBusy, stallAt, State.modMe_me]
    rfl
  have hcore : ((enterBusy n new s).core s.myCore).entry n = { (s.core s.myCore).entry n with st := .busy, next := some (s.cur, new) } := by
    rw [enterBusy, stallAt, State.modMe_core, State.modCore_core_same, Core.modEntry, Core.entry, Table.get_set_same]
  rw [hme, hcore]
  exact ⟨rfl, rfl, rfl, rfl⟩

section
variable {ik : Code} {hd : Head} {a : Reg} {act : Nat → State → State} {s : State}

theorem entryWrite_acts (hw : s.me.wait = none) (h64 : (s.rx a).toNat < 64) (hp : (s.rx a).toNat < 16 → s.me.priv = 2)
    (hb : (s.core s.myCore).htbase ≠ 0) (he : ((s.core s.myCore).entry (s.rx a).toNat).st ≠ .busy) :
    entryWrite ik hd a act s = act (s.rx a).toNat s := by
  have hp' : ¬ ((s.rx a).toNat < 16 ∧ s.me.priv < 2) := fun h => by have := hp h.1; omega
  unfold entryWrite
  simp only [hw]
  rw [if_neg (by simp [(wbits_small h64).1]), if_neg hp', if_neg hb, if_neg he]

theorem entryWrite_done {n : Nat} (hw : s.me.wait = some (.entryDone n)) : entryWrite ik hd a act s = finish ik hd s := by
  unfold entryWrite
  simp only [hw]

end

/-- A block that an instruction reads, once it is read. -/
theorem withBlock_read {va : Word} {align words : Nat} {k : List Byte → State → State} {s t : State} {blk : List Byte}
    (ha : va.toNat % align = 0) (hq : s.me.acqWait = false) (hl : s.me.busy.loads = [])
    (hr : s.blockRead (.instr s.cur) true va words = (t, .ok blk)) : withBlock va align words k s = k blk t := by
  unfold withBlock
  rw [if_neg (by simp [ha]), if_neg (by simp [hq, hl]), hr]

/-- Settles O26: HCLR and HSET make their entry BUSY, and complete once it has been written. -/
theorem handlerTableWrites : Obligations.HandlerTableWrites := by
  intro hd a b s hc hp h64 h16
  have hca : s.clear hd [.x a] [] := clear_mono s hd _ _ _ _ hc (by simp) (by simp)
  refine ⟨fun hw hb he => ⟨?_, fun t blk e ha hq hl hr hf => ?_⟩, fun hw => ⟨?_, ?_⟩⟩
  · refine ⟨enterBusy (s.rx a).toNat none s, ?_, enterBusy_leaves _ _ _⟩
    exact congrArg Host.Outcome.next ((issue_clear _ _ _ _ _ _ _ _ hp rfl hca).trans (entryWrite_acts hw h64 h16 hb he))
  · have hcur : t.cur = s.cur := by
      have h := congrArg Ground.cur (State.blockRead_ground s (.instr s.cur) true (s.rx b) 2)
      rwa [hr] at h
    obtain ⟨h1, h2, h3, h4⟩ := enterBusy_leaves (s.rx a).toNat (some e) t
    have hcore : t.myCore = s.myCore := congrArg HartId.home hcur
    rw [hcore] at h1 h2
    rw [hcur] at h2
    refine ⟨enterBusy (s.rx a).toNat (some e) t, ?_, h1, h2, h3, h4⟩
    refine congrArg Host.Outcome.next ((issue_clear _ _ _ _ _ _ _ _ hp rfl hc).trans ((entryWrite_acts hw h64 h16 hb he).trans ?_))
    exact (withBlock_read ha hq hl hr).trans (by simp only [hf])
  · exact congrArg Host.Outcome.next ((issue_clear _ _ _ _ _ _ _ _ hp rfl hc).trans (entryWrite_done hw))
  · exact congrArg Host.Outcome.next ((issue_clear _ _ _ _ _ _ _ _ hp rfl hca).trans (entryWrite_done hw))

end Sys2Proof.Proofs

/-! PROOFS. CANCEL of a graph whose count is short of its launches. -/

namespace Sys2Proof.Proofs

set_option Elab.async false
open Machine Claims

/-! ### Cancelling a graph whose count is short

The statement is about every state, those too in which the LIVE of an item is less than what lives of it. A graph with LIVE 1 and two launches
that have nothing live: the first to complete makes the graph DONE with CANCELLED, and the second then reports its status to an item that is no
longer CANCELLING. -/

/-- A launch of graph 0 with nothing live. -/
def spentLaunch : Launch := { Launch.unused with item := { Item.unused with used := true, st := .sealed, isSealed := true } }

/-- A thread whose unit is of launch 0, beneath graph, phase and job 0 of stack 0, the graph with LIVE 1; beside launch 0 two launches that have
nothing live; x1 holds the handle of the graph. -/
def miscounted : State :=
  (State.reset.modHart firstHart (fun h => { (h.wx 1 2) with st := .running, unit := some (0, 0, 0) })).modStk 0 (fun t =>
    { t with
      launches := [(0, { spentLaunch with item := { spentLaunch.item with live := 1 } }), (1, spentLaunch), (2, spentLaunch)]
      graphs := [(0, { Item.unused with used := true, live := 1 })]
      phases := [(0, { Item.unused with used := true, live := 1 })]
      jobs := [(0, { Item.unused with used := true, live := 1 })] })

theorem ownItem_of_toOption {s : State} {v : Word} {e : Nat × Nat × Nat} (h : (s.ownItem v).toOption = some e) : s.ownItem v = .ok e := by
  cases he : s.ownItem v with
  | error w => rw [he] at h; exact absurd h (by simp [Except.toOption])
  | ok x => rw [he] at h; exact congrArg Except.ok (Option.some.inj h)

theorem miscounted_names : (miscounted.ownItem (miscounted.rx 1)).toOption = some (0, 1, 0) := by decide +kernel

theorem miscounted_clear : miscounted.clear Head.plain [.x 1] [.x 5] := by
  refine ⟨rfl, ?_, ?_⟩ <;> simp only [List.mem_singleton, forall_eq] <;> decide +kernel

theorem miscounted_cancel : (match exec (.cancel Head.plain 5 1) miscounted with
    | .next t => (t.item 0 1 0).st == .done && (t.item 0 1 0).status == 2 | _ => false) = true := by decide +kernel

/-- Refutes O28: CANCEL of a graph whose LIVE counts one of two launches that are done leaves it DONE with status ERROR. -/
theorem not_workItems : ¬ Obligations.WorkItems := by
  intro h
  obtain ⟨hc, -⟩ := h Head.plain 5 1 miscounted ⟨by decide +kernel, by decide +kernel⟩ (by decide +kernel) miscounted_clear
  obtain ⟨⟨t, hx, -, hst, -⟩, -⟩ := (hc 0 1 0 (ownItem_of_toOption miscounted_names) (by decide)).2 (by decide +kernel)
  have hd := miscounted_cancel
  rw [hx] at hd
  simp only [Bool.and_eq_true, beq_iff_eq] at hd
  obtain ⟨hdone, herr⟩ := hd
  rcases hst with hst | ⟨-, hst⟩
  · rw [hdone] at hst; exact absurd hst (by decide)
  · rw [herr] at hst; exact absurd hst (by decide)

end Sys2Proof.Proofs

/-! PROOFS. Refused arrivals that combine notices, and a drain whose bank then serves the tile load of another hart. -/

namespace Sys2Proof.Proofs

set_option Elab.async false
open Machine Claims

/-! ### Arrivals that combine notices, refused

A refused message answers the sender of every notice that it combines (R129), whatever its kind. Nothing says that a message of another kind
combines none, and the statements promise one answer, to its sender. -/

/-- A message of thread 0 of core 8 to core 0, with two notices combined in it. -/
def combiningMsg (k : MsgKind) : Msg :=
  { State.reset.newMsg ⟨.thread, 8, 0⟩ k 0xFFFF 0 with id := 5, hidx := 16, addr := 1, size := 8, args := [0, 0, 0, 0, 0, 0, 0, 0], acks := [combined, combined] }

/-- Core 0 with that message alone in its queue. -/
def arrivedAlone (k : MsgKind) : State := State.reset.modCore 0 (fun c => { c with ondie := [combiningMsg k] })

theorem arrivedAlone_alone (k : MsgKind) : alone 0 (combiningMsg k) (arrivedAlone k) := by
  cases k <;> exact ⟨by decide +kernel, by decide +kernel, by decide +kernel, by decide +kernel, by unfold fromHere; decide +kernel, by decide +kernel⟩

theorem rload_replies : repliesAfter (.rloadRequest 0) (arrivedAlone .rload) = 2 := by decide +kernel
theorem rcall_replies : repliesAfter (.rcallRequest 0) (arrivedAlone .rcall) = 2 := by decide +kernel

/-- An event that answers an arrival adds one reply. -/
theorem repliesAfter_of_answers {i : Instr} {core : Nat} {m : Msg} {k : ReplyKind} {p : Reply → Prop} {q : State → Prop} {s : State}
    (h : answers i core m k p q s) (h0 : s.dev.replies = []) : repliesAfter i s = 1 := by
  obtain ⟨t, r, hx, -, -, hr, -⟩ := h
  exact repliesAfter_one hx hr h0

/-- Refutes O42: a misaligned RLOAD that combines two notices is refused with two answers. -/
theorem not_remoteRequests : ¬ Obligations.RemoteRequests := by
  intro h
  obtain ⟨-, -, hm, -⟩ := h 0 (combiningMsg .rload) (arrivedAlone .rload)
  have hr := repliesAfter_of_answers (hm (arrivedAlone_alone .rload) rfl (by decide)) (by decide +kernel)
  exact absurd (rload_replies.symm.trans hr) (by decide)

/-- Refutes O43: a call for an EMPTY entry that combines two notices is refused with two answers. -/
theorem not_calls : ¬ Obligations.Calls := by
  intro h
  obtain ⟨hc, -⟩ := h 0 (combiningMsg .rcall) (arrivedAlone .rcall)
  obtain ⟨-, he, -⟩ := hc trapper (.inl rfl) (arrivedAlone_alone .rcall) (by decide +kernel)
  have hr := repliesAfter_of_answers (he (by decide +kernel)) (by decide +kernel)
  exact absurd (rcall_replies.symm.trans hr) (by decide)

/-! ### A drain that lets its bank serve another hart's tile load

A write-buffer entry that asks its bank for its row lets the bank serve its oldest request, as the load of `not_loadsIssue` does. -/

/-- The line at whose bank the segment of the tile load waits. -/
def drainedLine : WLine := ⟨0x7F, [(0, 1)], [], [], 0⟩

/-- The bank of a tile load's segment, with that line alone in the write buffer of its vault. -/
def drainBesideTile : State := besideTile.modVault 0 (fun v => { v with wbuf := [drainedLine] })

theorem askedFor_drainBefore : askedFor drainBesideTile = [1] := by decide +kernel

theorem askedFor_drained : (match exec (.writeBufferDrain 0 0) drainBesideTile with | .next t => askedFor t | _ => []) = [2] := by decide +kernel

/-- Refutes O39: a drain whose bank has the segment of a thread's tile load ready to serve serves it, and the hart of that thread changes. -/
theorem not_memoryEvents : ¬ Obligations.MemoryEvents := by
  rintro ⟨-, hb, -⟩
  obtain ⟨-, hd⟩ := hb 0 0 drainedLine drainBesideTile rfl (by decide) (by decide)
    (fun m k hm hk => by
      cases m with
      | zero => exact absurd rfl hm
      | succ m => exact absurd hk (by rw [show (drainBesideTile.vault 0).wbuf = [drainedLine] from rfl]; simp))
    (by decide) (by decide)
  obtain ⟨t, hx, -, -, hh⟩ := hd (by decide +kernel) (by decide +kernel)
  have h2 := askedFor_drained
  rw [hx] at h2
  have h1 : askedFor t = [1] := by
    rw [askedFor, hh tileOwner]
    exact askedFor_drainBefore
  exact absurd (h2.symm.trans h1) (by decide)

end Sys2Proof.Proofs

/-! PROOFS. Resets, power-up and gating (R83, R84, R410 to R412). -/

namespace Sys2Proof

set_option Elab.async false

/-! ### Tables whose things are filtered, changed or renewed -/

theorem Table.get_filter {κ α : Type} [DecidableEq κ] (t : Table κ α) (p : κ → Bool) (k : κ) (d : α) :
    Table.get (List.filter (fun e => p e.1) t) k d = if p k then t.get k d else d := by
  induction t with
  | nil => simp [Table.get]
  | cons e r ih =>
    by_cases hk : e.1 = k
    · by_cases hp : p k <;> simp [Table.get, hk, hp, ih]
    · by_cases hp : p e.1 <;> simp [Table.get, hk, hp, ih]

theorem Table.get_map {κ α : Type} [DecidableEq κ] (t : Table κ α) (f : κ → α → α) (k : κ) (d : α) (h : f k d = d) :
    Table.get (t.map (fun e => (e.1, f e.1 e.2))) k d = f k (t.get k d) := by
  induction t with
  | nil => simp [Table.get, h]
  | cons e r ih => by_cases hk : e.1 = k <;> simp [Table.get, hk, ih]

theorem Table.get_append_of_not {κ α : Type} [DecidableEq κ] (t u : Table κ α) (k : κ) (d : α) (h : ∀ e ∈ t, e.1 ≠ k) :
    Table.get (t ++ u) k d = u.get k d := by
  induction t with
  | nil => rfl
  | cons e r ih =>
    simp only [List.cons_append, Table.get, h e (by simp), if_false]
    exact ih (fun x hx => h x (by simp [hx]))

theorem Table.get_append_default {κ α : Type} [DecidableEq κ] (t u : Table κ α) (k : κ) (d : α) (h : u.get k d = d) :
    Table.get (t ++ u) k d = t.get k d := by
  induction t with
  | nil => exact h
  | cons e r ih => by_cases hk : e.1 = k <;> simp [Table.get, hk, ih]

theorem Table.get_keys {κ α : Type} [DecidableEq κ] (keys : List κ) (f : κ → α) (k : κ) (d : α) :
    Table.get (keys.map (fun j => (j, f j))) k d = if k ∈ keys then f k else d := by
  induction keys with
  | nil => simp
  | cons j r ih =>
    by_cases hj : j = k
    · simp [Table.get, hj]
    · simp [Table.get, hj, Ne.symm hj, ih]

theorem Table.get_renew {α : Type} (t : Table Nat α) (keys : List Nat) (d : α) (f : α → α) (k : Nat) :
    (Machine.Table.renew t keys d f).get k d = if k ∈ keys then f (t.get k d) else t.get k d := by
  unfold Machine.Table.renew
  by_cases hk : k ∈ keys
  · rw [Table.get_append_of_not _ _ _ _ (fun e he hek => by
      have := (List.mem_filter.mp he).2
      rw [hek] at this
      simp [hk] at this), Table.get_keys, if_pos hk, if_pos hk]
  · rw [Table.get_append_default _ _ _ _ (by rw [Table.get_keys, if_neg hk]), Table.get_filter (p := fun j => !keys.contains j), if_neg hk]
    simp [hk]

end Sys2Proof

namespace Sys2Proof.Machine

set_option Elab.async false

/-! ### Resets (R83, R84, R95, R110, R175, R410) -/

theorem mem_units (n k c : Nat) (hn : 0 < n) : c ∈ (List.range n).map (n * k + ·) ↔ c / n = k := by
  simp only [List.mem_map, List.mem_range]
  constructor
  · rintro ⟨j, hj, rfl⟩
    rw [Nat.mul_add_div hn, Nat.div_eq_of_lt hj, Nat.add_zero]
  · rintro rfl
    exact ⟨c % n, Nat.mod_lt _ hn, Nat.div_add_mod c n⟩

theorem closeEnd_harts (s : State) : s.closeEnd.harts = s.harts ∧ s.closeEnd.cores = s.cores ∧ s.closeEnd.clusters = s.clusters ∧
    s.closeEnd.stks = s.stks ∧ ∃ n c, s.closeEnd.dev = { s.dev with ckptNum := n, closing := c } := by
  unfold State.closeEnd
  split
  · exact ⟨rfl, rfl, rfl, rfl, _, _, rfl⟩
  · exact ⟨rfl, rfl, rfl, rfl, _, _, rfl⟩

theorem closeEnd_vault (s : State) (c : Nat) : ∃ es, s.closeEnd.vault c = { s.vault c with ckpt := es } := by
  unfold State.closeEnd
  split
  · exact ⟨_, Table.get_map s.vaults (fun _ v => { v with ckpt := v.ckpt.filter (fun c => c.num == (s.dev.ckptNum + 1).toNat) }) c Vault.reset rfl⟩
  · exact ⟨_, rfl⟩

theorem closeUnless_leaves (s : State) (p : Nat × Nat → Bool) : (s.closeUnless p).harts = s.harts ∧ (s.closeUnless p).cores = s.cores ∧
    (s.closeUnless p).clusters = s.clusters ∧ (s.closeUnless p).stks = s.stks ∧
    ∃ n c, (s.closeUnless p).dev = { s.dev with ckptNum := n, closing := c } := by
  unfold State.closeUnless
  split
  · obtain ⟨h, hc, hl, hs, n, c, hd⟩ := closeEnd_harts (s.modDev (fun d => { d with closing := d.closing.map (fun ls => ls.filter (fun l => !p l)) }))
    exact ⟨h, hc, hl, hs, n, c, hd⟩
  · exact ⟨rfl, rfl, rfl, rfl, _, _, rfl⟩

theorem closeUnless_vault (s : State) (p : Nat × Nat → Bool) (c : Nat) : ∃ es, (s.closeUnless p).vault c = { s.vault c with ckpt := es } := by
  unfold State.closeUnless
  split
  · exact closeEnd_vault _ c
  · exact ⟨_, rfl⟩

theorem closeUnless_of_open (s : State) (p : Nat × Nat → Bool) (h : s.dev.closing = none) : s.closeUnless p = s := by
  simp [State.closeUnless, h]

@[simp] theorem closeUnless_mem (s : State) (p : Nat × Nat → Bool) : (s.closeUnless p).mem = s.mem :=
  congrArg Ground.mem (State.closeUnless_ground s p)

section
variable (s : State) (k : Nat)

theorem resetStack_hart (h : HartId) : (s.resetStack k).hart h = if stackOf h.home = k then (if h.kind = .mgmt then Hart.resetMgmt else Hart.reset) else s.hart h := by
  obtain ⟨hh, -⟩ := closeUnless_leaves s (fun l => stackOf l.1 == k)
  have := Table.get_filter s.harts (fun g => !(stackOf g.home == k)) h (if h.kind = .mgmt then Hart.resetMgmt else Hart.reset)
  unfold State.resetStack State.hart
  dsimp only
  rw [hh, this]
  by_cases hk : stackOf h.home = k <;> simp [hk]

theorem resetStack_core (c : Nat) (hc : c / 512 = k) : (s.resetStack k).core c = (s.core c).afterReset s.dev.cfg.travmax.toNat := by
  obtain ⟨-, hcs, -, -, n, e, hd⟩ := closeUnless_leaves s (fun l => stackOf l.1 == k)
  unfold State.resetStack State.core
  dsimp only
  rw [Table.get_renew, if_pos ((mem_units 512 k c (by decide)).mpr hc), hcs, hd]

theorem resetStack_cluster (c : Nat) (hc : c / 64 = k) : (s.resetStack k).cluster c = (s.cluster c).afterReset s.clk := by
  obtain ⟨-, -, hcs, -⟩ := closeUnless_leaves s (fun l => stackOf l.1 == k)
  unfold State.resetStack State.cluster
  dsimp only
  rw [Table.get_renew, if_pos ((mem_units 64 k c (by decide)).mpr hc), hcs, show (s.closeUnless fun l => stackOf l.1 == k).clk = s.clk from
    congrArg Ground.clk (State.closeUnless_ground s _)]

theorem resetStack_vault (c : Nat) (hc : c / 512 = k) : ∃ es, (s.resetStack k).vault c = Vault.afterReset { s.vault c with ckpt := es } s.dev.cfg.mat.toNat := by
  obtain ⟨-, -, -, -, n, e, hd⟩ := closeUnless_leaves s (fun l => stackOf l.1 == k)
  obtain ⟨es, hv⟩ := closeUnless_vault s (fun l => stackOf l.1 == k) c
  refine ⟨es, ?_⟩
  unfold State.resetStack
  unfold State.vault at hv ⊢
  dsimp only
  rw [Table.get_renew, if_pos ((mem_units 512 k c (by decide)).mpr hc), hv, hd]

/-- What the reset of a stack keeps of the device. -/
theorem resetStack_dev : (s.resetStack k).dev.fwA = s.dev.fwA ∧ (s.resetStack k).dev.fwB = s.dev.fwB ∧ (s.resetStack k).dev.cfg = s.dev.cfg ∧
    (s.resetStack k).dev.layerFail = s.dev.layerFail := by
  obtain ⟨-, -, -, -, n, e, hd⟩ := closeUnless_leaves s (fun l => stackOf l.1 == k)
  unfold State.resetStack
  dsimp only
  rw [hd]
  exact ⟨rfl, rfl, rfl, rfl⟩

theorem resetStack_read_kept (a : Nat) (ha : region a = 0 ∨ 8 ≤ region a) : (s.resetStack k).mem.read a = s.mem.read a := by
  unfold State.resetStack
  dsimp only
  rw [closeUnless_mem]
  refine read_filter _ _ _ (fun b => ?_)
  rcases ha with ha | ha
  · simp [ha]
  · have : paStack a = none := by
      unfold paStack
      split <;> first | omega | rfl
    simp [this]

theorem resetStack_read_pool (a : Nat) (ha : region a = 1) (hk : paCluster a / 64 = k) : (s.resetStack k).mem.read a = 0 := by
  unfold State.resetStack
  dsimp only
  rw [closeUnless_mem]
  refine read_filter_out _ _ _ (fun b => ?_)
  simp [paStack, ha, hk]

end

/-- The four stacks reset one after another. -/
theorem resetAll_keeps {α : Type} (f : State → α) (h : ∀ s k, f (s.resetStack k) = f s) (s : State) :
    f (allStacks.foldl (fun s k => s.resetStack k) s) = f s := by
  simp [allStacks, h]

theorem resetAll_hart (s : State) (h : HartId) (hk : h.kind ≠ .mgmt) (hh : stackOf h.home < 4) :
    (allStacks.foldl (fun s k => s.resetStack k) s).hart h = Hart.reset := by
  have : stackOf h.home = 0 ∨ stackOf h.home = 1 ∨ stackOf h.home = 2 ∨ stackOf h.home = 3 := by omega
  rcases this with e | e | e | e <;> simp [allStacks, resetStack_hart, e, hk]

theorem bootSlot_isNone (a b : Option Nat) (tie : Bool) : (bootSlot a b tie).isNone = (a.isNone && b.isNone) := by
  cases a <;> cases b <;> simp [bootSlot]
  split
  · rfl
  · split <;> rfl

theorem resetDevice_leaves (s : State) : (∀ h, h.kind ≠ .mgmt → stackOf h.home < 4 → s.resetDevice.hart h = Hart.reset) ∧
    s.resetDevice.dev.cfg = s.dev.cfg ∧ s.resetDevice.dev.recovery = ((s.dev.fwA.isNone && s.dev.fwB.isNone) || s.dev.layerFail.isSome) ∧
    (∃ tie, s.resetDevice.dev.fwActive = bootSlot s.dev.fwA s.dev.fwB tie) ∧
    (∀ a, region a = 0 ∨ 8 ≤ region a → s.resetDevice.mem.read a = s.mem.read a) ∧ s.resetDevice.dev.ckptEn = false ∧ s.resetDevice.dev.devnum = 0xFFFF ∧
    s.resetDevice.dev.fwA = s.dev.fwA ∧ s.resetDevice.dev.fwB = s.dev.fwB := by
  have hA := resetAll_keeps (·.dev.fwA) (fun s k => (resetStack_dev s k).1) s.free.2
  have hB := resetAll_keeps (·.dev.fwB) (fun s k => (resetStack_dev s k).2.1) s.free.2
  have hC := resetAll_keeps (·.dev.cfg) (fun s k => (resetStack_dev s k).2.2.1) s.free.2
  have hL := resetAll_keeps (·.dev.layerFail) (fun s k => (resetStack_dev s k).2.2.2) s.free.2
  refine ⟨fun h hk hh => resetAll_hart s.free.2 h hk hh, hC, ?_, ?_, fun a ha => ?_, rfl, rfl, hA, hB⟩
  · unfold State.resetDevice
    dsimp only
    rw [hA, hB, hL, bootSlot_isNone]
    rfl
  · unfold State.resetDevice
    dsimp only
    rw [hA, hB]
    exact ⟨_, rfl⟩
  · exact resetAll_keeps (fun s => s.mem.read a) (fun s k => resetStack_read_kept s k a ha) s.free.2

theorem get_foldl_set {α : Type} (f : Nat → α) (ks : List Nat) (t : Table Nat α) (k : Nat) (d : α) (hk : k ∈ ks) :
    (ks.foldl (fun t k => t.set k (f k)) t).get k d = f k := by
  induction ks using List.reverseRecOn with
  | nil => simp at hk
  | append_singleton ks j ih =>
    rw [List.foldl_append, List.foldl_cons, List.foldl_nil]
    by_cases hj : j = k
    · rw [hj, Table.get_set_same]
    · rw [Table.get_set_other _ _ _ _ _ hj]
      exact ih (by simpa [Ne.symm hj] using hk)

theorem layerOrder_of_stack (k : Nat) (hk : k < 4) : (layerOrder.filter (fun n => n / 8 == k)).map (· % 8) = [0, 1, 2, 3, 4, 5, 6, 7] := by
  have : k = 0 ∨ k = 1 ∨ k = 2 ∨ k = 3 := by omega
  rcases this with rfl | rfl | rfl | rfl <;> decide

/-- The vaults of a stack as one of its layers loses its power. -/
theorem get_gated (vs : Table Nat Vault) (k layer c : Nat) :
    Table.get (vs.map (fun (e : Nat × Vault) => if stackOf e.1 = k then (e.1, e.2.gateLayer layer) else e)) c Vault.reset =
      if stackOf c = k then (Table.get vs c Vault.reset).gateLayer layer else Table.get vs c Vault.reset := by
  have hm := Table.get_map vs (fun c v => if stackOf c = k then v.gateLayer layer else v) c Vault.reset (by split <;> rfl)
  rw [← hm]
  congr 1
  refine List.map_congr_left (fun e _ => ?_)
  split <;> rfl

theorem gateLayer_vault (s : State) (k layer c : Nat) : ∃ es, (layerPowerGateEffect k layer s).vault c =
    { (if stackOf c = k then (s.vault c).gateLayer layer else s.vault c) with ckpt := es } := by
  obtain ⟨es, hv⟩ := closeUnless_vault { s with vaults := s.vaults.map (fun (e : Nat × Vault) => if stackOf e.1 = k then (e.1, e.2.gateLayer layer) else e) }
    (fun l => stackOf l.1 == k && bankOf (l.2 * 64) / 4 == layer) c
  refine ⟨es, hv.trans ?_⟩
  unfold State.vault
  dsimp only
  rw [get_gated]

theorem gateLayer_vault_other (s : State) (k layer c : Nat) (hs : s.dev.closing = none) (hc : stackOf c ≠ k) :
    (layerPowerGateEffect k layer s).vault c = s.vault c := by
  have ho := closeUnless_of_open { s with vaults := s.vaults.map (fun (e : Nat × Vault) => if stackOf e.1 = k then (e.1, e.2.gateLayer layer) else e) }
    (fun l => stackOf l.1 == k && bankOf (l.2 * 64) / 4 == layer) hs
  refine (congrArg (fun t : State => t.vault c) ho).trans ?_
  unfold State.vault
  dsimp only
  rw [get_gated, if_neg hc]

end Sys2Proof.Machine

namespace Sys2Proof.Proofs

set_option Elab.async false
open Machine Claims

theorem layerUpNext_up (s : State) (n : Nat) (r : List Nat) (hb : s.dev.bringUp = n :: r) (hf : s.dev.layerFail ≠ some n) :
    s.layerUpNext = (s.modStk (n / 8) (fun t => { t with ready := t.ready ++ [n % 8] })).modDev (fun d => { d with bringUp := r }) := by
  simp [State.layerUpNext, hb, hf]

theorem layerUpNext_fails (s : State) (n : Nat) (r : List Nat) (hb : s.dev.bringUp = n :: r) (hf : s.dev.layerFail = some n) :
    s.layerUpNext = (s.modDev (fun d => { d with bringUp := [], recovery := true })).mctpAnswer false .pldmMonitor := by
  simp [State.layerUpNext, hb, hf]

theorem step_of_bringUp (s : State) (h : s.dev.bringUp ≠ []) : step s = noted (.next s.layerUpNext) := by
  have : s.beforeTurn = some s.layerUpNext := by
    unfold State.beforeTurn
    rw [if_pos (by simpa using h)]
  simp [step, this]

theorem powerUp_stack (k : Nat) (hk : k < 4) (fail : Option Nat) (s : State) :
    ((powerUpEffect fail s).stk k).ready = [] ∧ ((powerUpEffect fail s).stk k).gated = [] := by
  have hm : k ∈ allStacks := by
    simp only [allStacks, List.mem_cons]
    omega
  unfold powerUpEffect State.stk
  dsimp only
  rw [get_foldl_set _ allStacks _ k _ hm]
  exact ⟨rfl, rfl⟩

theorem powerUp_leaves (k : Nat) (hk : k < 4) (fail : Option Nat) (s : State) :
    let t := powerUpEffect fail s
    (∀ a, region a < 8 → t.mem.read a = 0) ∧ (∀ a, 8 ≤ region a → t.mem.read a = s.mem.read a) ∧
      (t.stk k).ready = [] ∧ (t.stk k).gated = [] ∧ (t.dev.bringUp.filter (fun n => n / 8 == k)).map (· % 8) = [0, 1, 2, 3, 4, 5, 6, 7] ∧
      t.dev.layerFail = fail ∧ ((s.dev.fwA.isSome = true ∨ s.dev.fwB.isSome = true) → t.dev.recovery = false) := by
  obtain ⟨-, -, hr, -, hm, -⟩ := resetDevice_leaves (s.modDev (fun d => { d with layerFail := none }))
  obtain ⟨hr1, hg1⟩ := powerUp_stack k hk fail s
  refine ⟨fun a ha => ?_, fun a ha => ?_, hr1, hg1, layerOrder_of_stack k hk, rfl, fun hf => ?_⟩
  · exact read_filter_out _ _ _ (fun b => by simpa using ha)
  · exact (read_filter _ _ _ (fun b => by simpa using ha)).trans (hm a (.inr ha))
  · refine hr.trans ?_
    show (s.dev.fwA.isNone && s.dev.fwB.isNone || false) = false
    rw [← Option.not_isSome, ← Option.not_isSome]
    rcases hf with hf | hf <;> simp [hf]

/-- Settles O53: each event of power and reset, by what it leaves of the tables of the state. -/
theorem powerEvents : Obligations.PowerEvents := by
  intro k layer cl s hk
  refine ⟨⟨_, rfl, resetStack_read_pool s k, resetStack_read_kept s k, fun h hm hh => by rw [resetStack_hart, if_pos hh, if_neg hm],
      fun h hh => by rw [resetStack_hart, if_neg hh], fun c hc => ?_, fun c hc => by rw [resetStack_cluster s k c hc]; exact ⟨rfl, rfl, rfl⟩⟩, ?_,
    fun fail hf => ?_, fun n r hb hn => ⟨fun hf => ?_, fun hf => ?_⟩, fun hl hg => ?_, fun hg hc he hs => ?_, ?_, ?_⟩
  · obtain ⟨es, hv⟩ := resetStack_vault s k c hc
    rw [resetStack_core s k c hc, hv]
    exact ⟨rfl, rfl, rfl, rfl, rfl, rfl, rfl⟩
  · obtain ⟨hh, hc, hr, ⟨tie, hb⟩, hm, he, hd, -⟩ := resetDevice_leaves s
    refine ⟨s.resetDevice, rfl, hh, hc, fun ha hb' => ?_, fun hf => ?_, fun a b ha hb' => ?_, fun a ha => hm a (.inl ha), he, hd⟩
    · rw [hb, hr, ha, hb']
      exact ⟨rfl, rfl⟩
    · rw [hr, ← Option.not_isSome, ← Option.not_isSome]
      rcases hf with hf | hf <;> simp [hf]
    · rw [hb, ha, hb']
      refine ⟨fun h => ?_, fun h => ?_⟩
      · simp [bootSlot, h, Nat.not_lt.mpr (Nat.le_of_lt h)]
      · simp [bootSlot, h]
  · refine ⟨powerUpEffect fail s, ?_, powerUp_leaves k hk fail s⟩
    cases fail with
    | none => rfl
    | some n => exact congrArg Host.Outcome.next (if_pos (by simpa using hf n rfl))
  · refine ⟨s.layerUpNext, step_of_bringUp s (by simp [hb]), ?_⟩
    rw [layerUpNext_up s n r hb hf, ← hn]
    simp [State.modDev, State.modStk, State.stk]
  · refine ⟨s.layerUpNext, ⟨false, .pldmMonitor, (s.modDev (fun d => { d with bringUp := [], recovery := true })).mctpBody .pldmMonitor, some n⟩,
      step_of_bringUp s (by simp [hb]), ?_⟩
    rw [layerUpNext_fails s n r hb hf]
    simp [State.mctpAnswer, State.modDev, State.free, State.stk, hf]
  · refine ⟨layerPowerGateEffect k layer s, congrArg Host.Outcome.next (if_pos (by simp [layerPowerGateReady, hk, hl, hg])), ?_, ?_, fun c hc l => ?_,
      fun hcl c hc => ?_, ?_⟩
    · simp [layerPowerGateEffect, State.modStk, State.stk]
    · simp [layerPowerGateEffect, State.modStk]
    · obtain ⟨es, hv⟩ := gateLayer_vault s k layer c
      rw [hv, if_pos hc]
      simp [Vault.gateLayer]
    · exact gateLayer_vault_other s k layer c hcl hc
    · exact (closeUnless_leaves _ _).1
  · refine ⟨clusterPowerGateEffect cl s, congrArg Host.Outcome.next (if_pos ?_), ?_, fun a ha hc' => ?_, fun a ha => ?_, rfl⟩
    · simpa [clusterPowerGateReady, hg, he, hs] using hc
    · simp [clusterPowerGateEffect, State.modCluster, State.cluster]
    · exact read_filter_out _ _ _ (fun b => by simp [ha, hc'])
    · exact read_filter _ _ _ (fun b => by simpa only [Bool.not_and, Bool.or_eq_true, Bool.not_eq_true', beq_eq_false_iff_ne, ← not_and_or] using ha)
  · refine ⟨_, rfl, ?_, fun l hl => ?_, rfl⟩
    · simp [powerUngateEffect, State.modStk, State.stk]
    · simp [powerUngateEffect, State.modStk, State.stk, hl]
  · refine ⟨_, rfl, ?_, rfl⟩
    simp [powerUngateEffect, State.modCluster, State.cluster]

end Sys2Proof.Proofs

/-! PROOFS. The CSR instructions (R261 to R264). -/

namespace Sys2Proof

set_option Elab.async false

theorem Table.get_set {κ α : Type} [DecidableEq κ] (t : Table κ α) (k j : κ) (v d : α) :
    (t.set k v).get j d = if k = j then v else t.get j d := by
  split
  · next h => rw [h, Table.get_set_same]
  · next h => exact Table.get_set_other t k j v d h

end Sys2Proof

namespace Sys2Proof.Machine

set_option Elab.async false
open Claims

/-! ### What a write of a CSR stores (R261 to R264) -/

/-- A field kept at its place is the word under the mask of the field. -/
theorem ofNat_wbits_mul (v : Word) (lo n : Nat) :
    BitVec.ofNat 64 (wbits v lo n * 2 ^ lo) = v &&& BitVec.ofNat 64 (2 ^ (lo + n) - 2 ^ lo) := by
  have hm : 2 ^ (lo + n) - 2 ^ lo = (2 ^ n - 1) * 2 ^ lo := by rw [Nat.sub_mul, Nat.pow_add, Nat.mul_comm (2 ^ lo), Nat.one_mul]
  refine BitVec.eq_of_getLsbD_eq (fun i hi => ?_)
  rw [BitVec.getLsbD_and, BitVec.getLsbD_ofNat, BitVec.getLsbD_ofNat, hm, Nat.testBit_mul_two_pow, Nat.testBit_mul_two_pow, testBit_wbits,
    Nat.testBit_two_pow_sub_one]
  by_cases hl : lo ≤ i
  · rw [show lo + (i - lo) = i by omega]
    simp [hl, hi, Bool.and_comm]
  · simp [hl]

/-- A function of the CSRs of a hart that stores the bits of a mask in one CSR and leaves every other as it was. -/
def StoresCsr (n m : Nat) (v : Word) (f : HartCsrs → HartCsrs) : Prop :=
  ∀ (s : State) (g : Hart → Hart), (g s.me).csr = f s.me.csr → (g s.me).reqClk = s.me.reqClk →
    (s.modMe g).csrRead s.cur n = v &&& BitVec.ofNat 64 m ∧ ∀ k, k ≠ n → (s.modMe g).csrRead s.cur k = s.csrRead s.cur k

/-- The CSRs of the issuing hart put in the place of its own. -/
def State.withCsrs (s : State) (c : HartCsrs) : State := s.modMe (fun h => { h with csr := c })

theorem withCsrs_hart (s : State) (c : HartCsrs) : (s.withCsrs c).hart s.cur = { s.me with csr := c } := State.modMe_me s _

/-- A read of a CSR of the issuing hart takes of the hart its CSRs and the clk of its request. -/
theorem csrRead_modMe (s : State) (g : Hart → Hart) (c : HartCsrs) (k : Nat) (hc : (g s.me).csr = c) (hr : (g s.me).reqClk = s.me.reqClk) :
    (s.modMe g).csrRead s.cur k = (s.withCsrs c).csrRead s.cur k := by
  have h1 : (s.modMe g).hart s.cur = g s.me := State.modMe_me s g
  simp only [State.csrRead, State.preemptWord, Hart.asid, h1, withCsrs_hart, hc, hr]
  rfl

theorem csrRead_me (s : State) (k : Nat) : s.csrRead s.cur k = (s.withCsrs s.me.csr).csrRead s.cur k := by
  simp only [State.csrRead, State.preemptWord, Hart.asid, withCsrs_hart]
  rfl

/-- A function of the CSRs stores in one CSR where the read of it gives the masked value, and that of any other what it gave. -/
theorem storesCsr_of {n m : Nat} {v : Word} {f : HartCsrs → HartCsrs}
    (hn : ∀ (s : State) (c : HartCsrs), (s.withCsrs (f c)).csrRead s.cur n = v &&& BitVec.ofNat 64 m)
    (hk : ∀ (s : State) (c : HartCsrs) (k : Nat), k ≠ n → (s.withCsrs (f c)).csrRead s.cur k = (s.withCsrs c).csrRead s.cur k) : StoresCsr n m v f :=
  fun s g hc hr => ⟨(csrRead_modMe s g _ n hc hr).trans (hn s _),
    fun k h => (csrRead_modMe s g _ k hc hr).trans ((hk s _ k h).trans (csrRead_me s k).symm)⟩

theorem and_full (v : Word) : v &&& BitVec.ofNat 64 (2 ^ 64 - 1) = v := BitVec.and_allOnes

theorem ofNat_low (v : Word) (n : Nat) : BitVec.ofNat 64 (wbits v 0 n) = v &&& BitVec.ofNat 64 (2 ^ n - 1) := by
  simpa using ofNat_wbits_mul v 0 n

/-! #### The CSRs of which the spec gives a mask -/

theorem stores_tkfault (v : Word) : StoresCsr 0x008 (2 ^ 64 - 1) v (fun c => { c with tkfault := v }) := by
  refine storesCsr_of (fun s c => ?_) (fun s c k hk => ?_)
  · simp (disch := omega) only [State.csrRead, withCsrs_hart, if_neg]
    exact (and_full v).symm
  · simp only [State.csrRead, State.preemptWord, Hart.asid, withCsrs_hart, if_neg hk]
    rfl

theorem stores_tval (v : Word) : StoresCsr 0x104 (2 ^ 64 - 1) v (fun c => { c with tval := v }) := by
  refine storesCsr_of (fun s c => ?_) (fun s c k hk => ?_)
  · simp (disch := omega) only [State.csrRead, withCsrs_hart, if_neg]
    exact (and_full v).symm
  · simp only [State.csrRead, State.preemptWord, Hart.asid, withCsrs_hart, if_neg hk]
    rfl

theorem stores_tscratch (v : Word) : StoresCsr 0x105 (2 ^ 64 - 1) v (fun c => { c with tscratch := v }) := by
  refine storesCsr_of (fun s c => ?_) (fun s c k hk => ?_)
  · simp (disch := omega) only [State.csrRead, withCsrs_hart, if_neg]
    exact (and_full v).symm
  · simp only [State.csrRead, State.preemptWord, Hart.asid, withCsrs_hart, if_neg hk]
    rfl

theorem stores_tepc (v : Word) : StoresCsr 0x102 (2 ^ 48 - 1) v (fun c => { c with tepc := BitVec.ofNat 64 (wbits v 0 48) }) := by
  refine storesCsr_of (fun s c => ?_) (fun s c k hk => ?_)
  · simp (disch := omega) only [State.csrRead, withCsrs_hart, if_neg]
    exact ofNat_low v 48
  · simp only [State.csrRead, State.preemptWord, Hart.asid, withCsrs_hart, if_neg hk]
    rfl

theorem stores_tcause (v : Word) : StoresCsr 0x103 (2 ^ 16 - 1) v (fun c => { c with tcause := BitVec.ofNat 64 (wbits v 0 16) }) := by
  refine storesCsr_of (fun s c => ?_) (fun s c k hk => ?_)
  · simp (disch := omega) only [State.csrRead, withCsrs_hart, if_neg]
    exact ofNat_low v 16
  · simp only [State.csrRead, State.preemptWord, Hart.asid, withCsrs_hart, if_neg hk]
    rfl

theorem stores_tvec (v : Word) : StoresCsr 0x101 (2 ^ 48 - 2) v (fun c => { c with tvec := BitVec.ofNat 64 (wbits v 1 47 * 2) }) := by
  refine storesCsr_of (fun s c => ?_) (fun s c k hk => ?_)
  · simp (disch := omega) only [State.csrRead, withCsrs_hart, if_neg]
    exact ofNat_wbits_mul v 1 47
  · simp only [State.csrRead, State.preemptWord, Hart.asid, withCsrs_hart, if_neg hk]
    rfl

theorem stores_repset (v : Word) : StoresCsr 0x10A (2 ^ 48 - 2 ^ 11) v (fun c => { c with repset := BitVec.ofNat 64 (wbits v 11 37 * 2048) }) := by
  refine storesCsr_of (fun s c => ?_) (fun s c k hk => ?_)
  · simp (disch := omega) only [State.csrRead, withCsrs_hart, if_neg]
    exact ofNat_wbits_mul v 11 37
  · simp only [State.csrRead, State.preemptWord, Hart.asid, withCsrs_hart, if_neg hk]
    rfl

theorem stores_pbase (v : Word) {n : Nat} (h : 0x010 ≤ n ∧ n ≤ 0x01F) :
    StoresCsr n (2 ^ 48 - 1) v (fun c => { c with pbase := c.pbase.set (n - 0x010) (BitVec.ofNat 64 (wbits v 0 48)) }) := by
  refine storesCsr_of (fun s c => ?_) (fun s c k hk => ?_)
  · simp (disch := omega) only [State.csrRead, withCsrs_hart, if_neg, if_pos, Table.get_set_same]
    exact ofNat_low v 48
  · by_cases h1 : k < 0x010
    · simp only [State.csrRead, withCsrs_hart, if_pos h1]
      rfl
    by_cases h2 : k ≤ 0x01F
    · simp only [State.csrRead, State.preemptWord, Hart.asid, withCsrs_hart, Table.get_set_other _ (n - 0x010) (k - 0x010) _ _ (by omega)]
      rfl
    · simp only [State.csrRead, State.preemptWord, Hart.asid, withCsrs_hart, if_neg h2]
      rfl

theorem stores_plen (v : Word) {n : Nat} (h : 0x020 ≤ n ∧ n ≤ 0x02F) :
    StoresCsr n (2 ^ 16 - 1) v (fun c => { c with plen := c.plen.set (n - 0x020) (BitVec.ofNat 64 (wbits v 0 16)) }) := by
  refine storesCsr_of (fun s c => ?_) (fun s c k hk => ?_)
  · simp (disch := omega) only [State.csrRead, withCsrs_hart, if_neg, if_pos, Table.get_set_same]
    exact ofNat_low v 16
  · by_cases h1 : k ≤ 0x01F
    · simp only [State.csrRead, withCsrs_hart, if_pos h1]
      rfl
    by_cases h2 : k ≤ 0x02F
    · simp only [State.csrRead, State.preemptWord, Hart.asid, withCsrs_hart, Table.get_set_other _ (n - 0x020) (k - 0x020) _ _ (by omega)]
      rfl
    · simp only [State.csrRead, State.preemptWord, Hart.asid, withCsrs_hart, if_neg h2]
      rfl

theorem stores_lstart (v : Word) {n : Nat} (h : 0x030 ≤ n ∧ n ≤ 0x033) :
    StoresCsr n (2 ^ 48 - 2) v (fun c => { c with lstart := c.lstart.set (n - 0x030) (BitVec.ofNat 64 (wbits v 1 47 * 2)) }) := by
  refine storesCsr_of (fun s c => ?_) (fun s c k hk => ?_)
  · simp (disch := omega) only [State.csrRead, withCsrs_hart, if_neg, if_pos, Table.get_set_same]
    exact ofNat_wbits_mul v 1 47
  · by_cases h1 : k ≤ 0x02F
    · simp only [State.csrRead, withCsrs_hart, if_pos h1]
      rfl
    by_cases h2 : k ≤ 0x033
    · simp only [State.csrRead, State.preemptWord, Hart.asid, withCsrs_hart, Table.get_set_other _ (n - 0x030) (k - 0x030) _ _ (by omega)]
      rfl
    · simp only [State.csrRead, State.preemptWord, Hart.asid, withCsrs_hart, if_neg h2]
      rfl

theorem stores_lend (v : Word) {n : Nat} (h : 0x034 ≤ n ∧ n ≤ 0x037) :
    StoresCsr n (2 ^ 48 - 2) v (fun c => { c with lend := c.lend.set (n - 0x034) (BitVec.ofNat 64 (wbits v 1 47 * 2)) }) := by
  refine storesCsr_of (fun s c => ?_) (fun s c k hk => ?_)
  · simp (disch := omega) only [State.csrRead, withCsrs_hart, if_neg, if_pos, Table.get_set_same]
    exact ofNat_wbits_mul v 1 47
  · by_cases h1 : k ≤ 0x033
    · simp only [State.csrRead, withCsrs_hart, if_pos h1]
      rfl
    by_cases h2 : k ≤ 0x037
    · simp only [State.csrRead, State.preemptWord, Hart.asid, withCsrs_hart, Table.get_set_other _ (n - 0x034) (k - 0x034) _ _ (by omega)]
      rfl
    · simp only [State.csrRead, State.preemptWord, Hart.asid, withCsrs_hart, if_neg h2]
      rfl

theorem stores_lcount (v : Word) {n : Nat} (h : 0x038 ≤ n ∧ n ≤ 0x03B) :
    StoresCsr n (2 ^ 64 - 1) v (fun c => { c with lcount := c.lcount.set (n - 0x038) (v) }) := by
  refine storesCsr_of (fun s c => ?_) (fun s c k hk => ?_)
  · simp (disch := omega) only [State.csrRead, withCsrs_hart, if_neg, if_pos, Table.get_set_same]
    exact (and_full v).symm
  · by_cases h1 : k ≤ 0x037
    · simp only [State.csrRead, withCsrs_hart, if_pos h1]
      rfl
    by_cases h2 : k ≤ 0x03B
    · simp only [State.csrRead, State.preemptWord, Hart.asid, withCsrs_hart, Table.get_set_other _ (n - 0x038) (k - 0x038) _ _ (by omega)]
      rfl
    · simp only [State.csrRead, State.preemptWord, Hart.asid, withCsrs_hart, if_neg h2]
      rfl

/-- What a change of a hart does that stores the bits of a mask of a word in one CSR: beside the CSRs it discards at most what was fetched ahead. -/
def WritesCsr (n m : Nat) (v : Word) (g : Hart → Hart) : Prop :=
  ∃ f, StoresCsr n m v f ∧ ((∀ h, g h = { h with csr := f h.csr }) ∨ ∀ h, g h = { h with csr := f h.csr, fetched := [] })

/-- A write of a CSR whose mask the spec gives, at a level that may read it. -/
theorem csrWrite_masked (s : State) (id : HartId) (priv : Nat) {n m : Nat} (v : Word) (hm : csrMask n = some m) (hp : n = 0x10A → 1 ≤ priv) :
    ∃ g, s.csrWrite id priv n v = .ok (s.modHart id g) ∧ WritesCsr n m v g := by
  unfold csrMask at hm
  split_ifs at hm with h1 h2 h3 h4 h5 <;> obtain rfl := Option.some.inj hm
  · rcases h1 with rfl | rfl | rfl | h
    · refine ⟨_, ?_, _, stores_tkfault v, .inl fun _ => rfl⟩
      simp (disch := omega) only [State.csrWrite, if_neg, if_true]
      rfl
    · refine ⟨_, ?_, _, stores_tval v, .inl fun _ => rfl⟩
      simp (disch := omega) only [State.csrWrite, if_neg, if_true]
      rfl
    · refine ⟨_, ?_, _, stores_tscratch v, .inl fun _ => rfl⟩
      simp (disch := omega) only [State.csrWrite, if_neg, if_true]
      rfl
    · refine ⟨_, ?_, _, stores_lcount v h, .inl fun _ => rfl⟩
      simp (disch := omega) only [State.csrWrite, if_neg, if_pos]
      rfl
  · rcases h2 with h | rfl
    · refine ⟨_, ?_, _, stores_pbase v h, .inl fun _ => rfl⟩
      simp (disch := omega) only [State.csrWrite, if_neg, if_pos]
      rfl
    · refine ⟨_, ?_, _, stores_tepc v, .inl fun _ => rfl⟩
      simp (disch := omega) only [State.csrWrite, if_neg, if_true]
      rfl
  · rcases h3 with h | rfl
    · refine ⟨_, ?_, _, stores_plen v h, .inl fun _ => rfl⟩
      simp (disch := omega) only [State.csrWrite, if_neg, if_pos]
      rfl
    · refine ⟨_, ?_, _, stores_tcause v, .inl fun _ => rfl⟩
      simp (disch := omega) only [State.csrWrite, if_neg, if_true]
      rfl
  · rcases h4 with ⟨ha, hb⟩ | rfl
    · by_cases h : n ≤ 0x033
      · refine ⟨_, ?_, _, stores_lstart v ⟨ha, h⟩, .inl fun _ => rfl⟩
        simp (disch := omega) only [State.csrWrite, if_neg, if_pos]
        rfl
      · refine ⟨_, ?_, _, stores_lend v ⟨by omega, hb⟩, .inl fun _ => rfl⟩
        simp (disch := omega) only [State.csrWrite, if_neg, if_pos]
        rfl
    · refine ⟨_, ?_, _, stores_tvec v, .inl fun _ => rfl⟩
      simp (disch := omega) only [State.csrWrite, if_neg, if_true]
      rfl
  · subst h5
    refine ⟨_, ?_, _, stores_repset v, .inr fun _ => rfl⟩
    simp (disch := omega) only [State.csrWrite, if_neg, if_true, atLevel, if_pos (hp rfl)]
    rfl

end Sys2Proof.Machine

namespace Sys2Proof.Proofs

set_option Elab.async false
open Machine Claims

/-! ### The CSR instructions of a thread (R261 to R263) -/

theorem csrLegal_thread (n : Nat) : csrLegal false n = (csrInfo n).isSome := by
  unfold csrLegal
  cases csrInfo n <;> rfl

theorem csrLevel_thread {n : Nat} {i : CsrInfo} (h : csrInfo n = some i) : csrLevel false n = i.rd := by
  simp [csrLevel, csrLegal_thread, h]

section
variable {ik : Code} {hd : Head} {d a : Reg} {c : BitVec 12} {always : Bool} {f : Word → Word → Word} {s : State} {i : CsrInfo}
  (hx : s.cur.isCtx = false)
include hx

theorem csrOp_issues (hc : s.clear hd [.x a] [.x d]) (hb : s.me.csrBusy c.toNat = false) (hi : csrInfo c.toNat = some i) (hp : i.rd ≤ s.me.priv) :
    csrOp ik hd d a c always f s =
      if always || s.rx a != 0 then
        match s.csrWrite s.cur s.me.priv c.toNat (f (s.csrRead s.cur c.toNat) (s.rx a)) with
        | .trap => trapInstr 0x03 ik s
        | .wait => stall s
        | .ok t => writeRd ik hd d (s.csrRead s.cur c.toNat) t
      else writeRd ik hd d (s.csrRead s.cur c.toNat) s := by
  exact (issue_clear _ _ _ _ _ _ _ _ (by rw [hx, csrLevel_thread hi]; exact hp) (by rw [hx, csrLegal_thread, hi]; rfl) hc).trans
    (if_neg (by simp [hb]))

/-- A CSR instruction that writes. -/
theorem csrOp_writes {t : State} (hc : s.clear hd [.x a] [.x d]) (hb : s.me.csrBusy c.toNat = false) (hi : csrInfo c.toNat = some i)
    (hp : i.rd ≤ s.me.priv) (ha : always = true ∨ s.rx a ≠ 0)
    (hw : s.csrWrite s.cur s.me.priv c.toNat (f (s.csrRead s.cur c.toNat) (s.rx a)) = .ok t) :
    csrOp ik hd d a c always f s = writeRd ik hd d (s.csrRead s.cur c.toNat) t := by
  rw [csrOp_issues hx hc hb hi hp, if_pos (by simpa using ha), hw]

/-- CSRBIS and CSRBIC of 0. -/
theorem csrOp_reads (hc : s.clear hd [.x a] [.x d]) (hb : s.me.csrBusy c.toNat = false) (hi : csrInfo c.toNat = some i)
    (hp : i.rd ≤ s.me.priv) (ha : s.rx a = 0) : csrOp ik hd d a c false f s = writeRd ik hd d (s.csrRead s.cur c.toNat) s := by
  rw [csrOp_issues hx hc hb hi hp, if_neg (by simp [ha])]

theorem csrOp_unknown (hi : csrInfo c.toNat = none) : csrOp ik hd d a c always f s = trapInstr 0x01 ik s := by
  have hl : csrLegal s.cur.isCtx c.toNat = false := by rw [hx, csrLegal_thread, hi]; rfl
  unfold csrOp issue issueOwn
  rw [hl, if_neg (by simp [csrLevel, hl]), if_pos (by rfl)]

theorem csrOp_below (hi : csrInfo c.toNat = some i) (hp : s.me.priv < i.rd) : csrOp ik hd d a c always f s = trapInstr 0x03 ik s :=
  issue_below (by rw [hx, csrLevel_thread hi]; exact hp)

end

theorem readOnlyCsrs : (List.range 4096).all (fun n => (csrInfo n).all (fun i => i.wr != 3 || [4, 5, 6, 0x208, 0x20B].contains n)) = true := by
  decide +kernel

/-- A read-only CSR keeps its value. -/
theorem csrWrite_readOnly {n : Nat} {i : CsrInfo} (s : State) (id : HartId) (priv : Nat) (v : Word) (hn : n < 4096) (hi : csrInfo n = some i)
    (hw : i.wr = 3) (h5 : n ≠ 5) (h6 : n ≠ 6) : s.csrWrite id priv n v = .ok s := by
  have h := List.all_eq_true.mp readOnlyCsrs n (List.mem_range.mpr hn)
  have hn : n = 0x004 ∨ n = 0x208 ∨ n = 0x20B := by
    simpa [hi, hw, h5, h6] using h
  rcases hn with rfl | rfl | rfl
  · simp (disch := omega) only [State.csrWrite, if_neg]
    rfl
  · simp (disch := omega) only [State.csrWrite, if_neg]
  · simp (disch := omega) only [State.csrWrite, if_neg]

theorem csrWrite_machine {n : Nat} (s : State) (id : HartId) {priv : Nat} (v : Word) (hn : n ∈ [0x007, 0x109, 0x201, 0x207]) (hp : priv < 2) :
    s.csrWrite id priv n v = .trap := by
  have hl (t : State) : atLevelTrap priv 2 t = .trap := if_neg (Nat.not_le.mpr hp)
  simp only [List.mem_cons, List.not_mem_nil, or_false] at hn
  rcases hn with rfl | rfl | rfl | rfl <;> simp (disch := omega) only [State.csrWrite, if_neg, if_true, hl]

/-- What a CSR instruction that stores under a mask leaves. -/
theorem writeRd_stores {ik : Code} {hd : Head} {d : Reg} {n m : Nat} {v old : Word} {g : Hart → Hart} (s : State) (hg : WritesCsr n m v g) :
    let t := writeRd ik hd d old (s.modMe g)
    t.csrRead s.cur n = v &&& BitVec.ofNat 64 m ∧ (d ≠ 0 → t.me.rx d = old) ∧ (∀ r, r ≠ d → t.me.rx r = s.me.rx r) ∧
      (∀ k, k ≠ n → t.csrRead s.cur k = s.csrRead s.cur k) ∧ t.mem = s.mem ∧ t.me.pc = (finish ik hd s).me.pc ∧ ∀ h, h ≠ s.cur → t.hart h = s.hart h := by
  obtain ⟨f, hf, hg⟩ := hg
  have hw : ∃ l, g s.me = { s.me with csr := f s.me.csr, fetched := l } := by
    rcases hg with h | h
    · exact ⟨_, h _⟩
    · exact ⟨_, h _⟩
  obtain ⟨l, hl⟩ := hw
  obtain ⟨G, hG⟩ : ∃ G, writeRd ik hd d old (s.modMe g) = s.modMe G := by
    unfold writeRd finish finishAt State.wx
    rw [State.modMe_modMe, State.modMe_modMe]
    exact ⟨_, rfl⟩
  have hme : (writeRd ik hd d old (s.modMe g)).me = G s.me := by rw [hG, State.modMe_me]
  have hm := writeRd_me ik hd d old (s.modMe g)
  simp only [State.succ, State.modMe_me, hl] at hm
  obtain ⟨h1, h2⟩ := hf s G (by rw [← hme, hm]; exact Hart.wx_csr _ d old) (by rw [← hme, hm]; exact Hart.wx_reqClk _ d old)
  refine ⟨by rw [hG]; exact h1, fun hd0 => ?_, fun r hr => ?_, fun k hk => by rw [hG]; exact h2 k hk, by rw [hG]; rfl, ?_, fun h hh => ?_⟩
  · rw [hm]
    exact Hart.rx_wx_same _ d old hd0
  · rw [hm]
    exact Hart.rx_wx_other _ d r old (Ne.symm hr)
  · rw [hm, finish_me]
    rfl
  · rw [hG]
    exact State.modMe_hart_other s h G (Ne.symm hh)

/-- A CSR instruction that raises a cause. -/
theorem csr_traps {i : Instr} {k : BitVec 8} {s : State} (hx : s.cur.isCtx = false) (ht : s.me.inTrap = false)
    (he : exec i s = .next (trapInstr k (codeOf i) s)) :
    ∃ t : State, exec i s = .next t ∧ t.me.csr.tcause = k.setWidth 64 ∧ t.me.csr.tepc.toNat = s.me.pc.toNat % 2 ^ 48 ∧ ∀ r, t.me.rx r = s.me.rx r := by
  obtain ⟨h1, -, h3, h4⟩ := trapInstr_saves k (codeOf i) s hx ht
  exact ⟨_, he, h1.trans (tcauseOf_zero k), h3, h4⟩

/-- Settles O30: a CSR instruction gives rd what the CSR read and writes it; the writes under a mask are those of `csrWrite_masked`. -/
theorem csrInstructions : Obligations.CsrInstructions := by
  intro hd d a c s hx hc hb
  dsimp only
  have hstores (i : CsrInfo) (hi : csrInfo c.toNat = some i) (hp : i.rd ≤ s.me.priv) (m : Nat) (hm : csrMask c.toNat = some m) (v : Word) :
      ∃ g, s.csrWrite s.cur s.me.priv c.toNat v = .ok (s.modMe g) ∧ WritesCsr c.toNat m v g :=
    csrWrite_masked s s.cur s.me.priv v hm (fun h => by
      rw [h] at hi
      exact (congrArg CsrInfo.rd (Option.some.inj hi)).le.trans hp)
  refine ⟨fun i hi hp => ⟨fun h0 => ?_, fun hw h5 h6 => ?_, fun m hm => ⟨?_, fun h0 => ⟨?_, ?_⟩⟩⟩, fun ht => ⟨fun hi => ?_, fun i hi hp => ?_, fun hn hp => ?_⟩⟩
  · exact ⟨congrArg Host.Outcome.next (csrOp_reads hx hc hb hi hp h0), congrArg Host.Outcome.next (csrOp_reads hx hc hb hi hp h0)⟩
  · exact congrArg Host.Outcome.next (csrOp_writes hx hc hb hi hp (.inl rfl) (csrWrite_readOnly s _ _ _ c.isLt hi hw h5 h6))
  · obtain ⟨g, hw, hg⟩ := hstores i hi hp m hm (s.rx a)
    exact ⟨_, congrArg Host.Outcome.next (csrOp_writes hx hc hb hi hp (.inl rfl) hw), writeRd_stores s hg⟩
  · obtain ⟨g, hw, hg⟩ := hstores i hi hp m hm (s.csrRead s.cur c.toNat ||| s.rx a)
    exact ⟨_, congrArg Host.Outcome.next (csrOp_writes hx hc hb hi hp (.inr h0) hw), writeRd_stores s hg⟩
  · obtain ⟨g, hw, hg⟩ := hstores i hi hp m hm (s.csrRead s.cur c.toNat &&& ~~~s.rx a)
    exact ⟨_, congrArg Host.Outcome.next (csrOp_writes hx hc hb hi hp (.inr h0) hw), writeRd_stores s hg⟩
  · exact ⟨csr_traps hx ht (congrArg Host.Outcome.next (csrOp_unknown hx hi)), csr_traps hx ht (congrArg Host.Outcome.next (csrOp_unknown hx hi)),
      csr_traps hx ht (congrArg Host.Outcome.next (csrOp_unknown hx hi))⟩
  · exact ⟨csr_traps hx ht (congrArg Host.Outcome.next (csrOp_below hx hi hp)), csr_traps hx ht (congrArg Host.Outcome.next (csrOp_below hx hi hp)),
      csr_traps hx ht (congrArg Host.Outcome.next (csrOp_below hx hi hp))⟩
  · obtain ⟨i, hi, hr⟩ : ∃ i, csrInfo c.toNat = some i ∧ i.rd = 0 := by
      simp only [List.mem_cons, List.not_mem_nil, or_false] at hn
      rcases hn with h | h | h | h <;> exact ⟨_, congrArg csrInfo h, rfl⟩
    refine csr_traps hx ht (congrArg Host.Outcome.next ?_)
    rw [csrOp_issues hx hc hb hi (by omega), if_pos (by rfl), csrWrite_machine s _ _ hn hp]

end Sys2Proof.Proofs

/-! PROOFS. Transactions (R154, R155, R292 to R294). -/

namespace Sys2Proof.Machine

set_option Elab.async false
open Claims

/-! ### Transactions (R154, R155, R292 to R294) -/

/-- The lock requests of a commit, sent to its vaults one after another. -/
theorem xactMsgs_sent (x : Xact) (vs : List Nat) (s : State) :
    let t := vs.foldl (fun s c => s.xactMsg s.cur x c 0) s
    t.me.busy.xact = s.me.busy.xact ∧ t.me.wait = s.me.wait ∧ t.me.pc = s.me.pc ∧ t.mem = s.mem ∧
      ∃ ms : List Msg, t.dev.net = s.dev.net ++ ms ∧ ms.map (·.core) = vs ∧ ∀ m ∈ ms, m.kind = .xact ∧ m.sub = 0 ∧ m.src = s.cur := by
  induction vs generalizing s with
  | nil => exact ⟨rfl, rfl, rfl, rfl, [], by simp, rfl, by simp⟩
  | cons c vs ih =>
    let m : Msg := { s.newMsg s.cur .xact s.dev.devnum c with sub := 0, bytes := x.cells c }
    have hr : s.reachable m.dev = true := reachable_self s
    have hs : s.xactMsg s.cur x c 0 = s.send m false := rfl
    have hme : (s.send m false).me = s.me.noteSent s m false := send_me rfl rfl hr
    obtain ⟨hsent, -⟩ := sentBy_send (track := false) (s := s) (m := m) rfl rfl hr
    obtain ⟨h1, h2, h3, h4, ms, h5, h6, h7⟩ := ih (s.send m false)
    rw [List.foldl_cons, hs]
    rw [hme] at h1 h2 h3
    refine ⟨h1, h2, h3, h4.trans hsent.mem, s.numbered m :: ms, ?_, ?_, fun n hn => ?_⟩
    · rw [h5, hsent.net, List.append_assoc]
      rfl
    · rw [List.map_cons, h6]
      rfl
    · rcases List.mem_cons.mp hn with rfl | hn
      · exact ⟨rfl, rfl, rfl⟩
      · obtain ⟨hk, hb, hc⟩ := h7 n hn
        exact ⟨hk, hb, hc.trans hsent.cur⟩

/-- The least of a list of numbers, found by a fold. -/
theorem foldl_min_eq {α : Type} (f : α → Nat) (l : List α) (a p : Nat) (hm : p = a ∨ ∃ x ∈ l, p = f x) (ha : p ≤ a) (hl : ∀ x ∈ l, p ≤ f x) :
    l.foldl (fun m x => min m (f x)) a = p := by
  induction l generalizing a with
  | nil => simpa [eq_comm] using hm
  | cons y l ih =>
    rw [List.foldl_cons]
    refine ih (min a (f y)) ?_ (Nat.le_min.mpr ⟨ha, hl y (by simp)⟩) (fun x hx => hl x (by simp [hx]))
    have hy := hl y (by simp)
    rcases hm with rfl | ⟨x, hx, rfl⟩
    · exact .inl (by omega)
    · rcases List.mem_cons.mp hx with rfl | hx
      · exact .inl (by omega)
      · exact .inr ⟨x, hx, rfl⟩

/-- The result of a commit that some vaults refused names the lowest of them. -/
theorem result_of_refused {x : Xact} {p : Nat × Bool} (hp : p ∈ x.refused) (hl : ∀ r ∈ x.refused, p.1 ≤ r.1) :
    x.result = BitVec.ofNat 64 ((if x.refused.any (·.2) then 5 else 1) + p.1 * 256) := by
  unfold Xact.result
  cases hr : x.refused with
  | nil => simp [hr] at hp
  | cons r t =>
    rw [hr] at hp hl
    dsimp only
    rw [foldl_min_eq Prod.fst t r.1 p.1 ?_ (hl r (by simp)) (fun x hx => hl x (by simp [hx]))]
    rcases List.mem_cons.mp hp with rfl | hp
    · exact .inl rfl
    · exact .inr ⟨p, hp, rfl⟩

theorem State.modMe_congr {s : State} {f g : Hart → Hart} (h : f s.me = g s.me) : s.modMe f = s.modMe g := congrArg (s.setHart s.cur) h

theorem noCtx_of {s : State} (h : s.cur.isCtx = false) : s.noCtx = true := by
  simp [State.noCtx, h]

end Sys2Proof.Machine

namespace Sys2Proof.Proofs

set_option Elab.async false
open Machine Claims

/-- A thread that waits for the outcome of its commit. -/
def asking (hd : Head) (x : Xact) (s : State) : State :=
  (stallAt hd .commit false s).modMe (fun h => h.modBusy (fun b => { b with xact := some { x with committing := true, asked := vaultsOf x.ents } }))

theorem asking_me (hd : Head) (x : Xact) (s : State) : (asking hd x s).me.busy.xact = some { x with committing := true, asked := vaultsOf x.ents } ∧
    (asking hd x s).me.wait = some .commit ∧ (asking hd x s).me.pc = s.me.pc := by
  unfold asking stallAt
  rw [State.modMe_modMe, State.modMe_me]
  exact ⟨rfl, rfl, rfl⟩

section
variable {hd : Head} {d : Reg} {s : State} (hx : s.cur.isCtx = false) (hc : s.clear hd [] [.x d])
include hx hc

theorem xcommit_none (h : s.me.busy.xact = none) : exec (.xcommit hd d) s = .next (xcommitEnd (codeOf (.xcommit hd d)) hd d 4 s) := by
  refine congrArg Host.Outcome.next ((issue_clear _ _ _ _ _ _ _ _ (Nat.zero_le _) (noCtx_of hx) hc).trans ?_)
  simp only [h]

/-- XCOMMIT of an open transaction, its destination clear. -/
theorem xcommit_some {x : Xact} (h : s.me.busy.xact = some x) : exec (.xcommit hd d) s = .next (
      if x.committing then (if x.settled then xcommitEnd (codeOf (.xcommit hd d)) hd d x.result s else s)
      else if x.interrupted then xcommitEnd (codeOf (.xcommit hd d)) hd d 3 s
      else if x.overflow then xcommitEnd (codeOf (.xcommit hd d)) hd d 2 s
      else if s.me.acqWait || !s.performed s.cur 5 false then stall s
      else if (vaultsOf x.ents).isEmpty then xcommitEnd (codeOf (.xcommit hd d)) hd d 0 s
      else (vaultsOf x.ents).foldl (fun s c => s.xactMsg s.cur x c 0) (asking hd x s)) := by
  refine congrArg Host.Outcome.next ((issue_clear _ _ _ _ _ _ _ _ (Nat.zero_le _) (noCtx_of hx) hc).trans ?_)
  simp only [h]
  rfl

/-- A commit that sends the locks of its transaction. -/
theorem xcommit_asks {x : Xact} (h : s.me.busy.xact = some x) (h1 : x.committing = false) (h2 : x.interrupted = false) (h3 : x.overflow = false)
    (hq : s.me.acqWait = false) (hp : s.performed s.cur 5 false = true) (hne : x.ents ≠ []) :
    ∃ (t : State) (z : Xact), exec (.xcommit hd d) s = .next t ∧ t.me.wait = some .commit ∧ t.me.pc = s.me.pc ∧
      t.me.busy.xact = some z ∧ z.committing = true ∧ z.asked = (x.ents.map (fun e => paCore e.pa)).eraseDups ∧
      (∃ ms : List Msg, t.dev.net = s.dev.net ++ ms ∧ ms.map (·.core) = z.asked ∧ ∀ m ∈ ms, m.kind = .xact ∧ m.sub = 0 ∧ m.src = s.cur) ∧
      t.mem = s.mem := by
  have hv : (vaultsOf x.ents).isEmpty = false := by
    obtain ⟨e, es, he⟩ := List.exists_cons_of_ne_nil hne
    simp [vaultsOf, he, List.eraseDups_cons]
  have he := xcommit_some hx hc h
  rw [if_neg (by simp [h1]), if_neg (by simp [h2]), if_neg (by simp [h3]), if_neg (by simp [hq, hp]), if_neg (by simp [hv])] at he
  obtain ⟨g1, g2, g3, g4, ms, g5, g6, g7⟩ := xactMsgs_sent x (vaultsOf x.ents) (asking hd x s)
  obtain ⟨a1, a2, a3⟩ := asking_me hd x s
  exact ⟨_, _, he, g2.trans a2, g3.trans a3, g1.trans a1, rfl, rfl, ⟨ms, g5, g6, g7⟩, g4⟩

end

section
variable {hd : Head} {a b : Reg} {w : BitVec 2} {s u : State} {x : Xact} {y : Xlat} (hx : s.cur.isCtx = false) (hc : s.clear hd [.x a, .x b] [])
include hx hc

/-- XSTORE in a transaction adds its store, or leaves a mark where it does not fit. -/
theorem xstore_adds (h : s.me.busy.xact = some x) (hr : reaches (.remote false true) (2 ^ w.toNat) (s.rx a) s u y) :
    exec (.xstore hd a b w) s = .next (finish (codeXstore hd a b w) hd (u.modMe (fun h => h.modBusy (fun bz =>
      { bz with xact := some (x.add ⟨y.pa, 2 ^ w.toNat, s.rx b, y.ent⟩) })))) := by
  have hm := me_of_access hr
  have hu : u.me.busy.xact = some x := (show u.me.unwalked.busy.xact = s.me.unwalked.busy.xact by rw [hm]).trans h
  have ho : (if s.me.busy.xact.isNone then some (0x01 : BitVec 8) else none) = none := by simp [h]
  have hb : u.rx b = s.rx b := Hart.rx_of_unwalked hm b
  refine congrArg Host.Outcome.next ((issueOwn_clear _ _ _ _ _ _ _ _ _ (Nat.zero_le _) (noCtx_of hx) ho hc).trans ?_)
  unfold reaches at hr
  unfold withAccess widthOf
  rw [hr]
  dsimp only
  rw [hb]
  refine congrArg (finish _ hd) (State.modMe_congr ?_)
  dsimp only [Hart.modBusy]
  rw [hu]
  rfl

end

/-- Settles O29: each instruction of a transaction, by the state in which it finds the transaction. -/
theorem transactions : Obligations.Transactions := by
  intro hd d a b w s hx hc
  have hd' : s.clear hd [] [.x d] := clear_mono s hd _ [] _ [.x d] hc (by simp) (by simp)
  have hab : s.clear hd [.x a, .x b] [] := clear_mono s hd _ [.x a, .x b] _ [] hc (by simp) (by simp)
  have h0 : s.clear hd [] [] := clear_mono s hd _ [] _ [] hc (by simp) (by simp)
  dsimp only
  refine ⟨⟨_, congrArg Host.Outcome.next (issue_clear _ _ _ _ _ _ _ _ (Nat.zero_le _) (noCtx_of hx) h0), ⟨Xact.empty, ?_, rfl, rfl, rfl, rfl⟩, ?_, rfl, ?_⟩,
    congrArg Host.Outcome.next (issue_clear _ _ _ _ _ _ _ _ (Nat.zero_le _) (noCtx_of hx) h0), fun x u y h hr => ?_, fun h ht => ?_, fun h => ?_, fun x h => ⟨?_, ?_, ?_, ?_, ?_⟩⟩
  · refine (congrArg (fun h : Hart => h.busy.xact) (finish_me _ _ _)).trans ?_
    rw [State.modMe_me]
    rfl
  · refine (congrArg Hart.x (finish_me _ _ _)).trans ?_
    rw [State.modMe_me]
    rfl
  · rw [finish_me, finish_me, State.succ, State.succ, State.modMe_me]
    rfl
  · refine ⟨_, x.add ⟨y.pa, 2 ^ w.toNat, s.rx b, y.ent⟩, xstore_adds hx hab h hr, ?_, (mem_of_access hr :), ?_, ?_, fun hi => ?_, fun hi ho => ?_, fun hi h1 h2 => ?_⟩
    · rw [finish_me, State.modMe_me]
      rfl
    · rw [finish_me, State.modMe_me]
      exact show u.me.unwalked.x = s.me.unwalked.x by rw [me_of_access hr]
    · rw [finish_me, finish_me, State.succ, State.succ, State.modMe_me]
      rfl
    · simp [Xact.add, hi]
    · have : 16 ≤ x.ents.length ∨ 8 < (vaultsOf (x.ents ++ [⟨y.pa, 2 ^ w.toNat, s.rx b, y.ent⟩])).length := by simpa [vaultsOf] using ho
      simp [Xact.add, hi, this]
    · have : ¬(16 ≤ x.ents.length ∨ 8 < (vaultsOf (x.ents ++ [⟨y.pa, 2 ^ w.toNat, s.rx b, y.ent⟩])).length) := by
        simpa [vaultsOf, not_or, Nat.not_le, Nat.not_lt] using ⟨h1, h2⟩
      exact ⟨⟨y.pa, 2 ^ w.toNat, s.rx b, y.ent⟩, by simp [Xact.add, hi, this]⟩
  · have he : exec (.xstore hd a b w) s = .next (trapInstr 0x01 (codeXstore hd a b w) s) := by
      refine congrArg Host.Outcome.next ?_
      unfold issueOwn
      rw [if_neg (Nat.not_lt_zero _), if_neg (by simp [noCtx_of hx]), if_neg (by rw [hc.1]; simp), h]
      rfl
    exact ⟨_, he, (trapInstr_saves 0x01 _ s hx ht).1.trans (tcauseOf_zero _)⟩
  · exact xcommit_none hx hd' h
  · exact fun h1 h2 => (xcommit_some hx hd' h).trans (by simp [h1, h2]; rfl)
  · exact fun h1 h2 h3 => (xcommit_some hx hd' h).trans (by simp [h1, h2, h3]; rfl)
  · refine fun h1 h2 h3 hq hp => ⟨fun he => (xcommit_some hx hd' h).trans (by simp [h1, h2, h3, hq, hp, he, vaultsOf]; rfl), xcommit_asks hx hd' h h1 h2 h3 hq hp⟩
  · refine fun h1 h2 h3 h4 => (xcommit_some hx hd' h).trans ?_
    have hs : x.settled = true := by simp [Xact.settled, h2, h3, h4]
    have hr : x.result = 0 := by simp [Xact.result, h2]
    simp only [h1, hs, hr, if_true]
    rfl
  · refine fun p hp h1 hl hn => (xcommit_some hx hd' h).trans ?_
    have hs : x.settled = true := by simp [Xact.settled, hn, List.ne_nil_of_mem hp]
    simp only [h1, hs, result_of_refused hp hl, if_true]
    rfl

end Sys2Proof.Proofs

/-! PROOFS. Mailbox counters (R122 to R124, R284 to R286). -/

namespace Sys2Proof.Machine

set_option Elab.async false
open Claims

/-! ### Mailbox counters (R122 to R124, R284 to R286) -/

/-! What an instruction leaves as it finishes. -/

section
variable (ik : Code) (hd : Head) (t : State)

theorem finish_rx (q : Reg) : (finish ik hd t).me.rx q = t.me.rx q := by rw [finish_me]; rfl

theorem finish_stx (q : Reg) : (finish ik hd t).me.stx q = t.me.stx q := by rw [finish_me]; rfl

theorem finish_csr : (finish ik hd t).me.csr = t.me.csr := by rw [finish_me]; rfl

theorem finish_wait : (finish ik hd t).me.wait = none := congrArg Hart.wait (finish_me ik hd t)

theorem finish_busy : (finish ik hd t).me.busy = { t.me.busy with walked := t.me.busy.walked.filter (fun w => w.cmd.isSome) } :=
  congrArg Hart.busy (finish_me ik hd t)

/-- Where an instruction goes on depends on its hart's pc and loop stack alone. -/
theorem finish_pc_of {s t : State} (hp : t.me.pc = s.me.pc) (hl : t.me.loops = s.me.loops) : (finish ik hd t).me.pc = (finish ik hd s).me.pc := by
  rw [congrArg Hart.pc (finish_me ik hd t), congrArg Hart.pc (finish_me ik hd s), State.succ, State.succ, hp, hl]

end

section
variable {s : State} {n : CounterName} {v : Word} (h : s.counterName v = some n)
include h

theorem counterName_region : region v.toNat = 2 := by
  unfold State.counterName at h
  split at h
  · cases h
  · rename_i hn
    exact (not_or.mp hn).1 |> not_not.mp

theorem counterName_eq : n = ⟨v.extractLsb' 28 16, wbits v 8 11, wbits v 2 6⟩ := by
  unfold State.counterName at h
  split at h
  · cases h
  · exact (Option.some.inj h).symm

theorem withCounter_named (k : CounterName → State → State) : withCounter v k s = k n s := by simp only [withCounter, h]

end

theorem withCounter_malformed {s : State} {v : Word} (h : s.counterName v = none) (k : CounterName → State → State) :
    withCounter v k s = trapVal 0x05 v s := by simp only [withCounter, h]

/-- A counter's name under the common device number is still that of a counter (R10, R13). -/
theorem region_counterPa (s : State) {pa : Nat} (h : region pa = 2) : region (s.counterPa pa) = 2 := by
  unfold State.counterPa
  split
  · simp only [region, bits]
    omega
  · exact h

/-- A value of 32 bits is at or beyond a target on the circle of counts (R123). -/
theorem mbxDone_iff (c t : BitVec 32) : mbxDone c t = true ↔ (c - t).toNat < 2 ^ 31 := by
  rw [mbxDone, Bool.not_eq_true', BitVec.msb_eq_decide, decide_eq_false_iff_not, Nat.not_le]

/-- The one line of a counter (R13). -/
theorem region_of_line {pa l : Nat} (hp : region pa = 2) (ha : pa % 4 = 0) (hl : l ∈ linesOf [(pa, 4)]) : region (l * 64) = 2 := by
  have h1 : (pa % 64 + 4 + 63) / 64 = 1 := by omega
  simp only [linesOf, List.flatMap_cons, List.flatMap_nil, List.append_nil, h1, List.mem_eraseDups, List.mem_map, List.mem_range] at hl
  obtain ⟨k, hk, rfl⟩ := hl
  simp only [region, bits] at hp ⊢
  omega

theorem counterName_aligned {s : State} {n : CounterName} {v : Word} (h : s.counterName v = some n) : v.toNat % 4 = 0 := by
  have hr := counterName_region h
  unfold State.counterName at h
  split at h
  · cases h
  · rename_i hn
    by_contra ha
    refine (not_or.mp hn).2 ?_
    have hb : bits v.toNat 0 2 ≠ 0 := by
      simp only [bits]
      omega
    simp [State.malformed, hr, hb]

theorem counterPa_aligned (s : State) {pa : Nat} (h : pa % 4 = 0) : s.counterPa pa % 4 = 0 := by
  unfold State.counterPa
  split
  · omega
  · exact h

/-- A load of a mailbox counter asks no bank: its entry is all that it changes (R285). -/
theorem startLoad_counter {s : State} {id : HartId} {dst : LoadDst} {pa : Nat} {acq : Bool} (h : ∀ l ∈ linesOf [(pa, 4)], region (l * 64) = 2) :
    ∃ e : LoadEnt, s.startLoad id dst [(pa, 4)] false acq = s.modHart id (fun h => h.modBusy (fun b =>
      { b with loads := b.loads ++ [e], loadNext := b.loadNext + 1 })) ∧ e.parts = [(pa, 4)] ∧ e.dst = dst := by
  have hl (r : Nat) (hr : r ≠ 2) : (linesOf [(pa, 4)]).filter (fun l => decide (region (l * 64) = r)) = [] := by
    rw [List.filter_eq_nil_iff]
    intro l hm
    simp [h l hm, Ne.symm hr]
  have h0 : linesOf [] = [] := rfl
  unfold State.startLoad
  dsimp only
  cases forwardAll (s.hart id).busy.sb [(pa, 4)] <;>
    simp only [hl 0 (by decide), hl 1 (by decide), h0, List.filter_nil, List.foldl_nil, List.isEmpty_nil, if_true] <;> exact ⟨_, rfl, rfl, rfl⟩

/-! #### Waits of the own counters (R123, R286) -/

/-- An own wait at the end of a list without another is the watch of the slot. -/
theorem find_own_last {l : List MbxWait} {w : MbxWait} (hl : ∀ x ∈ l, x.own = false) (hw : w.own = true) : (l ++ [w]).find? (·.own) = some w := by
  rw [List.find?_append, List.find?_eq_none.mpr (fun x hx => by simp [hl x hx])]
  simp [hw]

section
variable (val : MbxWait → BitVec 32) (h : Hart)

/-- What the end of a wait leaves of its hart. -/
theorem mbxEnds_keeps (w : MbxWait) (v : Word) (c t : BitVec 8) : (h.mbxEnds w v c t).wait = h.wait ∧ (h.mbxEnds w v c t).pc = h.pc ∧
    (h.mbxEnds w v c t).loops = h.loops ∧ (h.mbxEnds w v c t).busy.mbx = h.busy.mbx.filter (fun x => x != w) := by
  unfold Hart.mbxEnds
  dsimp only
  split
  · unfold Hart.fill
    split <;> simp [Hart.modBusy]
  · exact ⟨rfl, rfl, rfl, rfl⟩

theorem ownWaits_keeps (n : Nat) : (h.ownWaits val n).wait = h.wait ∧ (h.ownWaits val n).pc = h.pc ∧ (h.ownWaits val n).loops = h.loops := by
  induction n generalizing h with
  | zero => exact ⟨rfl, rfl, rfl⟩
  | succ n ih =>
    unfold Hart.ownWaits
    cases h.ownWatch with
    | none => exact ⟨rfl, rfl, rfl⟩
    | some w =>
      dsimp only
      split
      · obtain ⟨h1, h2, h3⟩ := ih (h.mbxSatisfied w ((val w).setWidth 64))
        obtain ⟨k1, k2, k3, -⟩ := mbxEnds_keeps h w ((val w).setWidth 64) 0 0
        exact ⟨h1.trans k1, h2.trans k2, h3.trans k3⟩
      · exact ⟨rfl, rfl, rfl⟩

theorem ownWaits_idle (n : Nat) (ho : h.ownWatch = none) : h.ownWaits val n = h := by
  cases n with
  | zero => rfl
  | succ n => simp only [Hart.ownWaits, ho]

theorem ownWaits_stands {w : MbxWait} (n : Nat) (ho : h.ownWatch = some w) (hd : mbxDone (val w) w.target = false) : h.ownWaits val n = h := by
  cases n with
  | zero => rfl
  | succ n => simp only [Hart.ownWaits, ho, hd, Bool.false_eq_true, if_false]

/-- The one own wait of a hart, satisfied as it is entered. -/
theorem ownWaits_last {l : List MbxWait} {w : MbxWait} (n : Nat) (hm : h.busy.mbx = l ++ [w]) (hl : ∀ x ∈ l, x.own = false) (hw : w.own = true)
    (hd : mbxDone (val w) w.target = true) : h.ownWaits val (n + 1) = h.mbxSatisfied w ((val w).setWidth 64) := by
  have ho : h.ownWatch = some w := by rw [Hart.ownWatch, hm]; exact find_own_last hl hw
  simp only [Hart.ownWaits, ho, hd, if_true]
  refine ownWaits_idle val _ n ?_
  rw [Hart.ownWatch, Hart.mbxSatisfied, (mbxEnds_keeps h w _ 0 0).2.2.2, hm]
  refine List.find?_eq_none.mpr (fun x hx => ?_)
  obtain ⟨hx, hne⟩ := List.mem_filter.mp hx
  rcases List.mem_append.mp hx with hx | hx
  · simp [hl x hx]
  · simp [List.mem_singleton.mp hx] at hne

end

/-- The wait of an own counter, as MBX.WAIT enters it. -/
def ownWait (s : State) (name : Word) (target : BitVec 32) (reg : Option Reg) : MbxWait := ⟨name, target, reg, s.clk, true, 0, none⟩

/-- A hart with a wait entered. -/
def Hart.withWait (h : Hart) (w : MbxWait) : Hart := h.modBusy (fun b => { b with mbx := b.mbx ++ [w] })

/-- The count of the counter that a wait names. -/
def State.countOf (s : State) (w : MbxWait) : BitVec 32 := (s.core w.counter.core).counter w.counter.idx

theorem startWait_own {s : State} {n : CounterName} {name : Word} {target : BitVec 32} {reg : Option Reg} (h : s.ownCounter n s.myCore = true) :
    s.startWait n name target reg = s.modMe (fun h => (h.withWait (ownWait s name target reg)).ownWaits s.countOf (h.busy.mbx.length + 1)) := by
  unfold State.startWait
  rw [if_pos h, State.modMe_modMe]
  refine State.modMe_congr ?_
  exact congrArg (Hart.ownWaits s.countOf (s.me.withWait (ownWait s name target reg))) (List.length_append (as := s.me.busy.mbx) (bs := [ownWait s name target reg]))

end Sys2Proof.Machine

namespace Sys2Proof.Proofs

set_option Elab.async false
open Machine Claims

section
variable {hd : Head} {d a b : Reg} {n : CounterName} {s : State} (hc : s.clear hd [.x a, .x b] [.x d]) (hq : s.me.acqWait = false)
  (hn : s.counterName (s.rx a) = some n)
include hc hq hn

theorem mbxAdd_sends : exec (.mbxAdd hd a b) s =
    .next (finish (codeOf (.mbxAdd hd a b)) hd (s.send (s.addMsg n (s.rx a) (wbits (s.rx b) 0 32) false) true)) := by
  refine congrArg Host.Outcome.next ((issue_clear _ _ _ _ _ _ _ _ (Nat.zero_le _) rfl (clear_mono s hd _ [.x a, .x b] _ [] hc (by simp) (by simp))).trans ?_)
  rw [if_neg (by simp [hq]), withCounter_named hn]

theorem bfree_sends (ho : s.ownDev n.dev = true) (hk : stackOf n.core = stackOf s.myCore) : exec (.bfree hd a) s =
    .next (finish (codeOf (.bfree hd a)) hd (s.send (s.addMsg n (s.rx a) 1 true) true)) := by
  refine congrArg Host.Outcome.next ((issue_clear _ _ _ _ _ _ _ _ (Nat.zero_le _) rfl (clear_mono s hd _ [.x a] _ [] hc (by simp) (by simp))).trans ?_)
  rw [if_neg (by simp [hq]), withCounter_named hn, if_neg (by simp [ho, hk])]

theorem mbxSet_stores (ho : s.ownCounter n s.myCore = true) : exec (.mbxSet hd a b) s =
    .next (finish (codeOf (.mbxSet hd a b)) hd (s.startStore s.cur [(s.counterPa (s.rx a).toNat, 4, s.rx b)] false none none false)) := by
  refine congrArg Host.Outcome.next ((issue_clear _ _ _ _ _ _ _ _ (Nat.zero_le _) rfl (clear_mono s hd _ [.x a, .x b] _ [] hc (by simp) (by simp))).trans ?_)
  rw [if_neg (by simp [hq]), withCounter_named hn, if_neg (by simp [ho])]

theorem mbxRead_own (ho : s.ownCounter n s.myCore = true) : exec (.mbxRead hd d a) s =
    .next (finish (codeOf (.mbxRead hd d a)) hd (s.startLoad s.cur (.x d false) [(s.counterPa (s.rx a).toNat, 4)] false false)) := by
  refine congrArg Host.Outcome.next ((issue_clear _ _ _ _ _ _ _ _ (Nat.zero_le _) rfl (clear_mono s hd _ [.x a] _ [.x d] hc (by simp) (by simp))).trans ?_)
  rw [if_neg (by simp [hq]), withCounter_named hn, if_pos ho]

theorem mbxRead_other (ho : s.ownCounter n s.myCore = false) : exec (.mbxRead hd d a) s =
    .next (finish (codeOf (.mbxRead hd d a)) hd ((s.send (s.counterMsg s.cur n 0 0 (some d) 0) true).pend d n.core n.dev)) := by
  refine congrArg Host.Outcome.next ((issue_clear _ _ _ _ _ _ _ _ (Nat.zero_le _) rfl (clear_mono s hd _ [.x a] _ [.x d] hc (by simp) (by simp))).trans ?_)
  rw [if_neg (by simp [hq]), withCounter_named hn, if_neg (by simp [ho])]

/-- R122, R284, R285: what the mailbox instructions send, store and load. -/
theorem mbxSends_holds (hr : s.reachable n.dev = true) : mbxSends hd d a b n s := by
  refine ⟨?_, fun ho hk => ?_, fun ho => ⟨?_, ?_⟩, fun ho => ⟨?_, ?_⟩⟩
  · have hs := (sentBy_send (track := true) (s := s) (m := s.addMsg n (s.rx a) (wbits (s.rx b) 0 32) false) rfl rfl hr).1
    refine sends_of_sentBy (mbxAdd_sends hc hq hn) hs rfl rfl rfl rfl rfl rfl rfl ⟨rfl, rfl, ?_, rfl, rfl⟩
    show (BitVec.ofNat 64 (wbits (s.rx b) 0 32)).toNat = _
    simp only [wbits, bits, BitVec.toNat_ofNat]
    omega
  · have hs := (sentBy_send (track := true) (s := s) (m := s.addMsg n (s.rx a) 1 true) rfl rfl hr).1
    exact sends_of_sentBy (bfree_sends hc hq hn ho hk) hs rfl rfl rfl rfl rfl rfl rfl ⟨rfl, rfl, rfl, rfl, rfl⟩
  · have hs := startStore_eq s s.cur [(s.counterPa (s.rx a).toNat, 4, s.rx b)] false none none false
    rw [← State.modMe] at hs
    refine ⟨_, s.storeEntry s.me s.cur [(s.counterPa (s.rx a).toNat, 4, s.rx b)] false none none false, mbxSet_stores hc hq hn ho, ?_, rfl, ?_, ?_⟩
    · rw [hs, finish_me, State.modMe_me]
      simp [Hart.forgetWalks]
    · rw [hs]
      rfl
    · rw [hs, finish_me, finish_me, State.succ, State.succ, State.modMe_me]
      rfl
  · obtain ⟨e, he, hp, hdst⟩ := startLoad_counter (s := s) (id := s.cur) (dst := .x d false) (acq := false) (pa := s.counterPa (s.rx a).toNat)
      (fun l hl => region_of_line (region_counterPa s (counterName_region hn)) (counterPa_aligned s (counterName_aligned hn)) hl)
    rw [← State.modMe] at he
    refine ⟨_, e, mbxRead_own hc hq hn ho, ?_, hp, hdst, ?_, ?_⟩
    · rw [he, finish_me, State.modMe_me]
      simp [Hart.forgetWalks]
    · rw [he]
      rfl
    · rw [he, finish_me, finish_me, State.succ, State.succ, State.modMe_me]
      rfl
  · have hs := (sentBy_send (track := true) (s := s) (m := s.counterMsg s.cur n 0 0 (some d) 0) rfl rfl hr).1
    exact sends_of_sentBy (mbxRead_other hc hq hn ho) (hs.pend d n.core n.dev) rfl rfl rfl rfl rfl rfl rfl ⟨rfl, rfl, rfl, rfl⟩
  · obtain ⟨-, hx, -⟩ := sentBy_send (track := true) (s := s) (m := s.counterMsg s.cur n 0 0 (some d) 0) rfl rfl hr
    refine ⟨_, mbxRead_other hc hq hn ho, fun hd0 => ?_, fun q hqd => ?_⟩
    · rw [finish_me]
      exact stx_pend_same _ d n.core n.dev hd0
    · rw [finish_me]
      refine (stx_pend_other _ d q n.core n.dev hqd).trans ?_
      exact congrArg (fun x => if q = 0 then RegSt.full else Table.get x q .full) hx

end

section
variable {hd : Head} {d a b : Reg} {n : CounterName} {s : State} (hc : s.clear hd [.x a, .x b] [.x d])
  (hx : s.cur.isCtx = false) (hl : s.me.lock = none)
include hc hx hl

theorem mbxWait_issues : exec (.mbxWait hd d a b) s = .next (
    match s.me.busy.mbxEnd with
    | some (c, t) => if c = 0 then finish (codeOf (.mbxWait hd d a b)) hd (s.modMe Hart.endWait) else takeTrap c t (s.rx a) s.me.pc (s.modMe Hart.endWait)
    | none =>
      if s.me.busy.mbx.any (fun w => w.reg.isNone) then stallAt hd .mbx true s
      else if s.me.acqWait then stall s
      else withCounter (s.rx a) (fun n s =>
        if s.ownCounter n s.myCore && s.ownWaitHeld (s.rx a) then stallAt hd .stall true s
        else if d = 0 then (stallAt hd .mbx true s).startWait n (s.rx a) ((s.rx b).setWidth 32) none
        else
          let s := (s.modMe (fun h => h.markX d .pending))
          finish (codeOf (.mbxWait hd d a b)) hd ((s.modMe (fun h => h.modBusy (fun b => { b with fills := b.fills ++ [⟨d, n.core, n.dev⟩] }))).startWait n (s.rx a)
            ((s.rx b).setWidth 32) (some d))) s) := by
  have ho : (if d = 0 then s.lockBar else none) = none := by simp [State.lockBar, hl]
  exact congrArg Host.Outcome.next (issueOwn_clear _ _ _ _ _ _ _ _ _ (Nat.zero_le _) (noCtx_of hx) ho hc)

end

theorem stx_wx_same (h : Hart) (r : Reg) (v : Word) : (h.wx r v).stx r = .full := by
  unfold Hart.wx Hart.stx
  split
  · rfl
  · exact Table.get_set_same _ _ _ _

theorem stx_wx_other (h : Hart) (r q : Reg) (v : Word) (hq : r ≠ q) : (h.wx r v).stx q = h.stx q := by
  unfold Hart.wx Hart.stx
  split
  · rfl
  · split
    · rfl
    · exact Table.get_set_other _ _ _ _ _ hq

theorem rx_markX (h : Hart) (r q : Reg) (t : RegSt) : (h.markX r t).rx q = h.rx q := by
  rw [Hart.rx, Hart.rx, Hart.markX_x]

/-- A thread whose register awaits the end of its wait. -/
def awaiting (s : State) (d : Reg) (n : CounterName) : State :=
  (s.modMe (fun h => h.markX d .pending)).modMe (fun h => h.modBusy (fun b => { b with fills := b.fills ++ [⟨d, n.core, n.dev⟩] }))

theorem awaiting_me (s : State) (d : Reg) (n : CounterName) : (awaiting s d n).me =
    (s.me.markX d .pending).modBusy (fun b => { b with fills := b.fills ++ [⟨d, n.core, n.dev⟩] }) := by
  rw [awaiting, State.modMe_modMe, State.modMe_me]

section
variable {hd : Head} {d a b : Reg} {n : CounterName} {s : State} (hc : s.clear hd [.x a, .x b] [.x d])
  (hx : s.cur.isCtx = false) (hl : s.me.lock = none) (hq : s.me.acqWait = false) (hn : s.counterName (s.rx a) = some n)
  (he : s.me.busy.mbxEnd = none) (hw : ∀ w ∈ s.me.busy.mbx, w.reg ≠ none) (hh : s.ownCounter n s.myCore = true → s.ownWaitHeld (s.rx a) = false)
include hc hx hl hq hn he hw hh

/-- MBX.WAIT enters its wait. -/
theorem mbxWait_enters : exec (.mbxWait hd d a b) s = .next (
    if d = 0 then (stallAt hd .mbx true s).startWait n (s.rx a) ((s.rx b).setWidth 32) none
    else finish (codeOf (.mbxWait hd d a b)) hd ((awaiting s d n).startWait n (s.rx a) ((s.rx b).setWidth 32) (some d))) := by
  have hm (r : Reg) : (s.modMe (fun h => h.markX d .pending)).rx r = s.rx r := by
    rw [State.rx, State.modMe_me]
    exact rx_markX _ _ _ _
  refine (mbxWait_issues hc hx hl).trans (congrArg Host.Outcome.next ?_)
  simp only [he]
  rw [if_neg (by simpa using hw), if_neg (by simp [hq]), withCounter_named hn, if_neg (by simpa using hh)]
  simp only [hm]
  rfl

end

section
variable {hd : Head} {d a b : Reg} {n : CounterName} {s : State} {w : MbxWait} {u : State}

theorem awaiting_keeps (hd0 : d ≠ 0) : (awaiting s d n).me.stx d = .pending ∧ (awaiting s d n).me.busy.mbx = s.me.busy.mbx ∧
    (awaiting s d n).me.pc = s.me.pc ∧ (awaiting s d n).me.loops = s.me.loops ∧ (∀ q, (awaiting s d n).me.rx q = s.me.rx q) ∧
    (∀ q, q ≠ d → (awaiting s d n).me.stx q = s.me.stx q) ∧ (awaiting s d n).core = s.core ∧ (awaiting s d n).myCore = s.myCore ∧
    (awaiting s d n).mem = s.mem := by
  rw [awaiting_me]
  refine ⟨Hart.stx_markX_same _ _ _ hd0, by simp [Hart.modBusy], by simp [Hart.modBusy], by simp [Hart.modBusy], fun q => rx_markX _ _ _ _,
    fun q hq => Hart.stx_markX_other _ _ _ _ (Ne.symm hq), rfl, rfl, rfl⟩

/-- The thread whose wait stands behind another, or is not satisfied yet, and goes on. -/
theorem startWait_stands {name : Word} {target : BitVec 32} {reg : Option Reg} (ho : s.ownCounter n s.myCore = true)
    (hs : ∃ x, (s.me.busy.mbx ++ [ownWait s name target reg]).find? (·.own) = some x ∧ mbxDone (s.countOf x) x.target = false) :
    s.startWait n name target reg = s.modMe (fun h => h.withWait (ownWait s name target reg)) := by
  obtain ⟨x, hx, hd⟩ := hs
  rw [startWait_own ho]
  exact State.modMe_congr (ownWaits_stands s.countOf _ _ hx hd)

/-- The thread whose wait is the first of its slot and satisfied. -/
theorem startWait_ends {name : Word} {target : BitVec 32} {reg : Option Reg} (ho : s.ownCounter n s.myCore = true) (hf : ∀ x ∈ s.me.busy.mbx, x.own = false)
    (hd : mbxDone (s.countOf (ownWait s name target reg)) target = true) :
    s.startWait n name target reg = s.modMe (fun h => (h.withWait (ownWait s name target reg)).mbxSatisfied (ownWait s name target reg)
      ((s.countOf (ownWait s name target reg)).setWidth 64)) := by
  rw [startWait_own ho]
  exact State.modMe_congr (ownWaits_last s.countOf _ _ rfl hf rfl hd)

/-- The wait of another core's counter. -/
def otherWait (s : State) (n : CounterName) (name : Word) (target : BitVec 32) (reg : Option Reg) : MbxWait :=
  ⟨name, target, reg, s.clk, false, (s.counterMsg s.cur n 1 target reg s.clk).id, none⟩

theorem startWait_other {name : Word} {target : BitVec 32} {reg : Option Reg} (ho : s.ownCounter n s.myCore = false) :
    s.startWait n name target reg = (s.modMe (fun h => h.withWait (otherWait s n name target reg))).send (s.counterMsg s.cur n 1 target reg s.clk) false := by
  unfold State.startWait
  rw [if_neg (by simp [ho])]
  rfl

/-- The counter that a wait of a name names. -/
theorem ownWait_counter {name : Word} (target : BitVec 32) (reg : Option Reg) (hn : s.counterName name = some n) : (ownWait s name target reg).counter = n :=
  (counterName_eq hn).symm

/-- The count that a message asks for stands in its low 32 bits. -/
theorem counterMsg_target (t : BitVec 32) (reg : Option Reg) (k i : Nat) : (s.counterMsg s.cur n k t reg i).data.toNat % 2 ^ 32 = t.toNat := by
  show (BitVec.ofNat 64 (t.toNat + n.idx * 2 ^ 32)).toNat % 2 ^ 32 = _
  rw [BitVec.toNat_ofNat]
  have := t.isLt
  omega

theorem awaiting_own : (awaiting s d n).ownCounter n (awaiting s d n).myCore = s.ownCounter n s.myCore := rfl

/-- A register that awaits an own counter: the wait stands. -/
theorem awaiting_stands {name : Word} {target : BitVec 32} (hd0 : d ≠ 0) (ho : s.ownCounter n s.myCore = true)
    (hs : ∃ x, (s.me.busy.mbx ++ [ownWait s name target (some d)]).find? (·.own) = some x ∧ mbxDone (s.countOf x) x.target = false) :
    (awaiting s d n).startWait n name target (some d) = (awaiting s d n).modMe (fun h => h.withWait (ownWait s name target (some d))) := by
  obtain ⟨-, k2, -⟩ := awaiting_keeps (s := s) (n := n) hd0
  exact startWait_stands (s := awaiting s d n) ho (by rw [k2]; exact hs)

/-- A register that awaits an own counter which has come far enough: it is filled at once. -/
theorem awaiting_filled {name : Word} {target : BitVec 32} (hd0 : d ≠ 0) (ho : s.ownCounter n s.myCore = true) (hf : ∀ x ∈ s.me.busy.mbx, x.own = false)
    (hd : mbxDone (s.countOf (ownWait s name target (some d))) target = true) :
    ∃ h : Hart, (awaiting s d n).startWait n name target (some d) = (awaiting s d n).modMe (fun _ => h) ∧ h.stx d = .full ∧
      h.rx d = (s.countOf (ownWait s name target (some d))).setWidth 64 ∧ h.pc = s.me.pc ∧ h.loops = s.me.loops ∧
      ∀ q, q ≠ d → h.rx q = s.me.rx q ∧ h.stx q = s.me.stx q := by
  obtain ⟨k1, k2, k3, k4, k5, k6, -⟩ := awaiting_keeps (s := s) (n := n) hd0
  have e := startWait_ends (s := awaiting s d n) (name := name) (target := target) (reg := some d) ho (by rw [k2]; exact hf) hd
  let w : MbxWait := ownWait s name target (some d)
  let g : Hart := ((awaiting s d n).me.withWait w).modBusy (fun b => { b with mbx := b.mbx.filter (fun x => x != w) })
  have hg : g.stx d = .pending := k1
  refine ⟨_, e.trans (State.modMe_congr rfl), ?_⟩
  show (g.fill d _).stx d = _ ∧ (g.fill d _).rx d = _ ∧ (g.fill d _).pc = _ ∧ (g.fill d _).loops = _ ∧ ∀ q, q ≠ d → (g.fill d _).rx q = _ ∧ (g.fill d _).stx q = _
  rw [Hart.fill, if_pos hg]
  refine ⟨stx_wx_same _ _ _, Hart.rx_wx_same _ _ _ hd0, (Hart.wx_pc _ _ _).trans k3, (Hart.wx_loops _ _ _).trans k4, fun q hq => ⟨?_, ?_⟩⟩
  · exact (Hart.rx_wx_other _ _ _ _ (Ne.symm hq)).trans (k5 q)
  · exact (stx_wx_other _ _ _ _ (Ne.symm hq)).trans (k6 q hq)

/-- A thread that waits at itself for a counter. -/
theorem startWait_stays {name : Word} {target : BitVec 32} (hr : s.reachable n.dev = true) :
    let t := (stallAt hd .mbx true s).startWait n name target none
    t.me.wait = some .mbx ∧ t.me.pc = s.me.pc ∧ (s.ownCounter n s.myCore = true → (∀ x ∈ s.me.busy.mbx, x.own = false) →
      mbxDone (s.countOf (ownWait s name target none)) target = true → t.me.busy.mbxEnd = some (0, 0)) := by
  have hm : (stallAt hd .mbx true s).me.wait = some .mbx ∧ (stallAt hd .mbx true s).me.pc = s.me.pc ∧
      (stallAt hd .mbx true s).me.busy.mbx = s.me.busy.mbx := by
    rw [stallAt, State.modMe_me]
    exact ⟨rfl, rfl, rfl⟩
  obtain ⟨m1, m2, m3⟩ := hm
  cases ho : s.ownCounter n s.myCore with
  | true =>
    refine ⟨?_, ?_, fun _ hf hdn => ?_⟩
    · rw [startWait_own (s := stallAt hd .mbx true s) ho, State.modMe_me]
      exact (ownWaits_keeps _ _ _).1.trans m1
    · rw [startWait_own (s := stallAt hd .mbx true s) ho, State.modMe_me]
      exact (ownWaits_keeps _ _ _).2.1.trans m2
    · rw [startWait_ends (s := stallAt hd .mbx true s) ho (by rw [m3]; exact hf) hdn, State.modMe_me]
      rfl
  | false =>
    have hs := sentBy_send (track := false) (s := (stallAt hd .mbx true s).modMe (fun h => h.withWait (otherWait (stallAt hd .mbx true s) n name target none)))
      (m := (stallAt hd .mbx true s).counterMsg s.cur n 1 target none s.clk) rfl rfl hr
    obtain ⟨hs, -, -, -, -, hw, -⟩ := hs
    have e : (stallAt hd .mbx true s).startWait n name target none = _ := startWait_other (s := stallAt hd .mbx true s) ho
    dsimp only
    rw [e]
    refine ⟨hw.trans ?_, hs.pc.trans ?_, by simp⟩
    · rw [State.modMe_me]; exact m1
    · rw [State.modMe_me]; exact m2

theorem Hart.entered_mbxEnd (c t : BitVec 8) (v e : Word) (h : Hart) : (h.entered c t v e).busy.mbxEnd = h.busy.mbxEnd := rfl

/-- A trap leaves the result of MBX.WAIT as it is. -/
theorem takeTrap_mbxEnd {c t : BitVec 8} {v e : Word} {s : State} (hx : s.cur.isCtx = false) (ht : s.me.inTrap = false)
    (hm : s.me.busy.mbxEnd = none) : (takeTrap c t v e s).me.busy.mbxEnd = none := by
  have hb : s.giveUp.me.busy = s.me.busy := Hart.busy_of_lockless (State.giveUp_lockless s)
  rw [takeTrap_thread_me _ _ _ _ _ hx ht, Hart.entered_mbxEnd, hb, hm]

/-- The end of a MBX.WAIT, once used. -/
theorem endWait_keeps (s : State) : (s.modMe Hart.endWait).me.pc = s.me.pc ∧ (s.modMe Hart.endWait).me.loops = s.me.loops ∧
    (s.modMe Hart.endWait).me.x = s.me.x ∧ (s.modMe Hart.endWait).me.csr = s.me.csr ∧ (s.modMe Hart.endWait).me.busy.mbxEnd = none ∧
    (s.modMe Hart.endWait).me.inTrap = s.me.inTrap := by
  rw [State.modMe_me]
  exact ⟨rfl, rfl, rfl, rfl, rfl, rfl⟩

/-- A thread whose register awaits its wait, and which goes on. -/
theorem finish_waits {ik : Code} {t : State} (h1 : t.me.stx d = .pending) (h2 : t.me.busy.mbx = s.me.busy.mbx ++ [w]) (h3 : t.me.pc = s.me.pc)
    (h4 : t.me.loops = s.me.loops) (h5 : ∀ q, t.me.rx q = s.me.rx q) :
    (finish ik hd t).me.stx d = .pending ∧ (finish ik hd t).me.busy.mbx = s.me.busy.mbx ++ [w] ∧
    (finish ik hd t).me.pc = (finish ik hd s).me.pc ∧ ∀ q, (finish ik hd t).me.rx q = s.me.rx q :=
  ⟨(finish_stx _ _ t d).trans h1, (congrArg HartBusy.mbx (finish_busy _ _ t)).trans h2, finish_pc_of _ _ h3 h4, fun q => (finish_rx _ _ t q).trans (h5 q)⟩

/-- A register that awaits another core's counter: the message that asks for it is sent, and the wait stands. -/
theorem awaiting_asks {name : Word} {target : BitVec 32} (hd0 : d ≠ 0) (ho : s.ownCounter n s.myCore = false) (hr : s.reachable n.dev = true) :
    ∃ (t : State) (m : Msg) (w : MbxWait), (awaiting s d n).startWait n name target (some d) = t ∧ t.me.stx d = .pending ∧ t.me.busy.mbx = s.me.busy.mbx ++ [w] ∧
      t.me.pc = s.me.pc ∧ t.me.loops = s.me.loops ∧ (∀ q, t.me.rx q = s.me.rx q) ∧ t.mem = s.mem ∧ t.dev.net = s.dev.net ++ [m] ∧
      m.kind = .mbxwatch ∧ m.core = n.core ∧ m.dev = n.dev ∧ m.data.toNat % 2 ^ 32 = target.toNat ∧ m.sub = 1 ∧ w.target = target ∧ w.reg = some d := by
  obtain ⟨k1, k2, k3, k4, k5, -⟩ := awaiting_keeps (s := s) (n := n) hd0
  let m : Msg := (awaiting s d n).counterMsg s.cur n 1 target (some d) s.clk
  let u : State := (awaiting s d n).modMe (fun h => h.withWait (otherWait (awaiting s d n) n name target (some d)))
  have hu : u.me = (awaiting s d n).me.withWait _ := State.modMe_me _ _
  obtain ⟨hs, hxs, -, -, hmx, -⟩ := sentBy_send (track := false) (s := u) (m := m) rfl rfl hr
  have hst : (u.send m false).me.stx d = u.me.stx d := congrArg (fun x => if d = 0 then RegSt.full else Table.get x d .full) hxs
  have hrx (q : Reg) : (u.send m false).me.rx q = u.me.rx q := congrArg (fun x => if q = 0 then 0 else Table.get x q 0) hs.x
  refine ⟨_, u.numbered m, otherWait (awaiting s d n) n name target (some d), startWait_other (s := awaiting s d n) ho, ?_, ?_, ?_, ?_, fun q => ?_, hs.mem, hs.net, rfl, rfl, rfl, ?_, rfl, rfl, rfl⟩
  · exact hst.trans ((congrArg (fun h => Hart.stx h d) hu).trans k1)
  · exact hmx.trans ((congrArg (fun h : Hart => h.busy.mbx) hu).trans (congrArg (· ++ _) k2))
  · exact hs.pc.trans ((congrArg Hart.pc hu).trans k3)
  · exact hs.loops.trans ((congrArg Hart.loops hu).trans k4)
  · exact (hrx q).trans ((congrArg (fun h => Hart.rx h q) hu).trans (k5 q))
  · exact counterMsg_target (s := awaiting s d n) (n := n) target (some d) 1 s.clk

section
variable (hc : s.clear hd [.x a, .x b] [.x d]) (hx : s.cur.isCtx = false) (hl : s.me.lock = none)
include hc hx hl

/-- A MBX.WAIT whose wait has ended goes on. -/
theorem mbxWait_goesOn (he : s.me.busy.mbxEnd = some (0, 0)) : ∃ r : State, exec (.mbxWait hd d a b) s = .next r ∧
    r.me.pc = (finish (codeOf (.mbxWait hd d a b)) hd s).me.pc ∧ r.me.wait = none ∧
    r.me.busy.mbxEnd = none ∧ r.me.x = s.me.x ∧ r.me.csr = s.me.csr ∧ r.mem = s.mem ∧ ∀ h, h ≠ s.cur → r.hart h = s.hart h := by
  obtain ⟨e1, e2, e3, e4, e5, -⟩ := endWait_keeps s
  refine ⟨finish (codeOf (.mbxWait hd d a b)) hd (s.modMe Hart.endWait), ?_, finish_pc_of _ _ e1 e2, finish_wait _ _ _,
    (congrArg HartBusy.mbxEnd (finish_busy _ _ _)).trans e5, (congrArg Hart.x (finish_me _ _ _)).trans e3, (finish_csr _ _ _).trans e4, rfl, fun h hh => ?_⟩
  · refine (mbxWait_issues hc hx hl).trans (congrArg Host.Outcome.next ?_)
    simp only [he, if_true]
  · exact (finishAt_hart_other _ _ (s.modMe Hart.endWait) _ hh).trans (State.modMe_hart_other s h _ (Ne.symm hh))

/-- A MBX.WAIT whose wait has ended with a cause raises it. -/
theorem mbxWait_raises {c t : BitVec 8} (he : s.me.busy.mbxEnd = some (c, t)) (hc0 : c ≠ 0) (ht : s.me.inTrap = false) :
    ∃ r : State, exec (.mbxWait hd d a b) s = .next r ∧
      r.me.csr.tcause = (0 : BitVec 48) ++ t ++ c ∧ r.me.csr.tval = s.rx a ∧ r.me.busy.mbxEnd = none := by
  obtain ⟨-, -, -, -, e5, e6⟩ := endWait_keeps s
  obtain ⟨h1, h2, -⟩ := takeTrap_saves c t (s.rx a) s.me.pc (s.modMe Hart.endWait) hx (e6.trans ht)
  refine ⟨takeTrap c t (s.rx a) s.me.pc (s.modMe Hart.endWait), ?_, h1, h2, takeTrap_mbxEnd hx (e6.trans ht) e5⟩
  refine (mbxWait_issues hc hx hl).trans (congrArg Host.Outcome.next ?_)
  simp only [he, if_neg hc0]

end

/-- R123, R286: MBX.WAIT, by what it finds of its slot's waits and of its counter. -/
theorem mbxWaits_holds (hc : s.clear hd [.x a, .x b] [.x d]) (hx : s.cur.isCtx = false) (hl : s.me.lock = none) (hq : s.me.acqWait = false)
    (hn : s.counterName (s.rx a) = some n) (hr : s.reachable n.dev = true) : mbxWaits hd d a b n s := by
  refine ⟨fun he hw hrd => ?_, fun _ he => mbxWait_goesOn hc hx hl he, fun c t _ he hc0 ht => mbxWait_raises hc hx hl he hc0 ht⟩
  have hh (ho : s.ownCounter n s.myCore = true) : s.ownWaitHeld (s.rx a) = false := by
    obtain ⟨h1, h2⟩ := hrd ho
    simp only [State.ownWaitHeld, h1, Bool.or_eq_false_iff, List.any_eq_false, Bool.not_eq_true]
    exact ⟨rfl, fun e he p hp => beq_false_of_ne (h2 e he p hp)⟩
  have hen := mbxWait_enters hc hx hl hq hn he hw hh
  have hcount (reg : Option Reg) : s.countOf (ownWait s (s.rx a) ((s.rx b).setWidth 32) reg) = (s.core n.core).counter n.idx := by
    rw [State.countOf, ownWait_counter _ _ hn]
  refine ⟨fun hd0 ho => ?_, fun hd0 ho hs => ?_, fun hd0 ho hf hdn => ?_, fun hd0 => ?_⟩
  · obtain ⟨t, m, w, e, k1, k2, k3, k4, k5, hmem, hnet, m1, m2, m3, m4, m5, w1, w2⟩ :=
      awaiting_asks (name := s.rx a) (target := (s.rx b).setWidth 32) hd0 (by simpa using ho) hr
    obtain ⟨f1, f2, f3, f4⟩ := finish_waits (hd := hd) (ik := codeOf (.mbxWait hd d a b)) k1 k2 k3 k4 k5
    rw [if_neg hd0, e] at hen
    exact ⟨_, m, w, hen, f1, hnet, m1, m2, m3, m4, m5, f2, w1, w2, f3, hmem, f4⟩
  · obtain ⟨k1, k2, k3, k4, k5, k6, k7, k8, k9⟩ := awaiting_keeps (s := s) (n := n) hd0
    have hst : ∃ x, (s.me.busy.mbx ++ [ownWait s (s.rx a) ((s.rx b).setWidth 32) (some d)]).find? (·.own) = some x ∧ mbxDone (s.countOf x) x.target = false := by
      rcases hs with ⟨hf, hnd⟩ | ⟨w, hw, hnd⟩
      · refine ⟨_, find_own_last hf rfl, ?_⟩
        rw [hcount, Bool.eq_false_iff]
        exact fun h => hnd ((mbxDone_iff _ _).mp h)
      · refine ⟨w, by rw [List.find?_append, hw]; rfl, ?_⟩
        rw [Bool.eq_false_iff]
        exact fun h => absurd ((mbxDone_iff _ _).mp h) (Nat.not_lt.mpr hnd)
    let w : MbxWait := ownWait s (s.rx a) ((s.rx b).setWidth 32) (some d)
    have hu : ((awaiting s d n).modMe (fun h => h.withWait w)).me = (awaiting s d n).me.withWait w := State.modMe_me _ _
    obtain ⟨f1, f2, f3, f4⟩ := finish_waits (hd := hd) (ik := codeOf (.mbxWait hd d a b)) ((congrArg (fun h => Hart.stx h d) hu).trans k1)
      ((congrArg (fun h : Hart => h.busy.mbx) hu).trans (congrArg (· ++ [w]) k2)) ((congrArg Hart.pc hu).trans k3) ((congrArg Hart.loops hu).trans k4)
      (fun q => (congrArg (fun h => Hart.rx h q) hu).trans (k5 q))
    rw [if_neg hd0, awaiting_stands hd0 ho hst] at hen
    exact ⟨_, w, hen, f1, f2, rfl, rfl, rfl, f3, k9, f4⟩
  · obtain ⟨h, e, h1, h2, h3, h4, h5⟩ := awaiting_filled (n := n) (name := s.rx a) (target := (s.rx b).setWidth 32) hd0 ho hf
      (by rw [hcount]; exact (mbxDone_iff _ _).mpr hdn)
    have hu : ((awaiting s d n).modMe (fun _ => h)).me = h := State.modMe_me _ _
    rw [if_neg hd0, e] at hen
    refine ⟨_, hen, (finish_stx _ _ _ d).trans ((congrArg (fun h => Hart.stx h d) hu).trans h1),
      (finish_rx _ _ _ d).trans ((congrArg (fun h => Hart.rx h d) hu).trans (h2.trans (by rw [hcount]))),
      finish_pc_of _ _ ((congrArg Hart.pc hu).trans h3) ((congrArg Hart.loops hu).trans h4), rfl, fun q hqd => ⟨?_, ?_⟩⟩
    · exact (finish_rx _ _ _ q).trans ((congrArg (fun h => Hart.rx h q) hu).trans (h5 q hqd).1)
    · exact (finish_stx _ _ _ q).trans ((congrArg (fun h => Hart.stx h q) hu).trans (h5 q hqd).2)
  · obtain ⟨h1, h2, h3⟩ := startWait_stays (hd := hd) (name := s.rx a) (target := (s.rx b).setWidth 32) hr
    rw [if_pos hd0] at hen
    exact ⟨_, hen, h1, h2, fun ho hf hdn => h3 ho hf (by rw [hcount]; exact (mbxDone_iff _ _).mpr hdn)⟩

end

/-- Settles O27: the counters that MBX instructions send to, store and load, and the waits of MBX.WAIT. -/
theorem mailboxes : Obligations.Mailboxes := by
  intro hd d a b s hc hq
  refine ⟨fun n hn hr => ⟨mbxSends_holds hc hq hn hr, fun hx hl => mbxWaits_holds hc hx hl hq hn hr⟩, fun hn hx ht i hi => ?_⟩
  have he : exec i s = .next (trapVal 0x05 (s.rx a) s) := by
    have hheld (x : State) (k : CounterName → State → State) : (if s.me.acqWait then x else withCounter (s.rx a) k s) = trapVal 0x05 (s.rx a) s := by
      rw [if_neg (by simp [hq]), withCounter_malformed hn]
    have hab : s.clear hd [.x a, .x b] [] := clear_mono s hd _ _ _ [] hc (by simp) (by simp)
    have ha (ds : List RegRef) (hds : ds ⊆ [.x d]) : s.clear hd [.x a] ds := clear_mono s hd _ [.x a] _ ds hc (by simp) hds
    simp only [List.mem_cons, List.not_mem_nil, or_false] at hi
    rcases hi with rfl | rfl | rfl | rfl
    · refine congrArg Host.Outcome.next ((issue_clear _ _ _ _ _ _ _ _ (Nat.zero_le _) rfl hab).trans ?_)
      exact hheld _ _
    · refine congrArg Host.Outcome.next ((issue_clear _ _ _ _ _ _ _ _ (Nat.zero_le _) rfl (ha [] (by simp))).trans ?_)
      exact hheld _ _
    · refine congrArg Host.Outcome.next ((issue_clear _ _ _ _ _ _ _ _ (Nat.zero_le _) rfl hab).trans ?_)
      exact hheld _ _
    · refine congrArg Host.Outcome.next ((issue_clear _ _ _ _ _ _ _ _ (Nat.zero_le _) rfl (ha [.x d] (by simp))).trans ?_)
      exact hheld _ _
  obtain ⟨h1, h2, -, -, h5⟩ := takeTrap_saves 0x05 0 (s.rx a) s.me.pc s hx ht
  exact ⟨_, he, h1.trans (tcauseOf_zero _), h2, h5⟩

end Sys2Proof.Proofs

/-! PROOFS. The frame of the scalar instructions (R204, R240, R301, R389). -/

namespace Sys2Proof.Machine

set_option Elab.async false
open Claims

/-! ### The frame of the scalar instructions (R204, R240, R301, R389) -/

/-- What of a hart no scalar instruction changes: all but its x registers, pc, loop stack, wait, safe point, state, answered walks, open
transaction, and the CSRs that a trap or a float instruction writes. -/
def Hart.unscalar (h : Hart) : Hart :=
  { h with x := [], xSt := [], pc := 0, loops := [], wait := none, safe := none, st := .idle, csr := otherCsrs h.csr
           busy := { h.busy with walked := [], xact := none } }

/-- A hart after a scalar instruction with destination `d`. -/
structure Hart.ScalarNext (d : Reg) (h g : Hart) : Prop where
  regs : ∀ r, r ≠ d → g.rx r = h.rx r ∧ g.stx r = h.stx r
  rest : g.unscalar = h.unscalar
  trap : g.inTrap = h.inTrap → g.st = h.st → g.csr.tepc = h.csr.tepc ∧ g.csr.tstatus = h.csr.tstatus

/-- A state after a scalar instruction: its hart has gone on, waits, or has trapped, where a second trap tells management. -/
def ScalarOut (d : Reg) (s t : State) : Prop :=
  ∃ g, s.me.ScalarNext d g ∧ (t = s.modMe (fun _ => g) ∨ t = (s.modMe (fun _ => g)).machineCheck s.myCore 0)

/-- A hart whose registers and trap state stand. -/
theorem Hart.ScalarNext.of_same {d : Reg} {h g : Hart} (hx : g.x = h.x) (hs : g.xSt = h.xSt) (hr : g.unscalar = h.unscalar)
    (he : g.csr.tepc = h.csr.tepc) (ht : g.csr.tstatus = h.csr.tstatus) : h.ScalarNext d g :=
  ⟨fun r _ => ⟨by rw [Hart.rx, Hart.rx, hx], by rw [Hart.stx, Hart.stx, hs]⟩, hr, fun _ _ => ⟨he, ht⟩⟩

theorem Hart.ScalarNext.trans {d : Reg} {h g k : Hart} (hg : h.ScalarNext d g) (hk : g.csr = k.csr) (hx : k.x = g.x) (hs : k.xSt = g.xSt)
    (hst : k.st = g.st) (hr : k.unscalar = g.unscalar) : h.ScalarNext d k := by
  refine ⟨fun r hrd => ?_, hr.trans hg.rest, fun hi ht => ?_⟩
  · rw [Hart.rx, Hart.stx, hx, hs]
    exact hg.regs r hrd
  · rw [← hk]
    rw [Hart.inTrap, ← hk] at hi
    exact hg.trap hi (hst.symm.trans ht)

theorem Hart.ScalarNext.refl (d : Reg) (h : Hart) : h.ScalarNext d h := .of_same rfl rfl rfl rfl rfl

/-- A hart that is frozen. -/
theorem Hart.ScalarNext.of_frozen {d : Reg} {h : Hart} : h.ScalarNext d { h.forgetWalks with st := .frozen } := .of_same rfl rfl rfl rfl rfl

theorem Hart.wx_keeps (h : Hart) (d : Reg) (v : Word) : (h.wx d v).csr = h.csr ∧ (h.wx d v).st = h.st ∧ (h.wx d v).unscalar = h.unscalar := by
  unfold Hart.wx
  split <;> exact ⟨rfl, rfl, rfl⟩

/-- A write of the destination. -/
theorem Hart.ScalarNext.wx {d : Reg} {h g : Hart} (hg : h.ScalarNext d g) (v : Word) : h.ScalarNext d (g.wx d v) := by
  have ⟨hc, hs, hr⟩ := g.wx_keeps d v
  refine ⟨fun r hrd => ⟨?_, ?_⟩, hr.trans hg.rest, fun hi ht => ?_⟩
  · exact (Hart.rx_wx_other g _ _ _ (Ne.symm hrd)).trans (hg.regs r hrd).1
  · exact (Proofs.stx_wx_other g _ _ _ (Ne.symm hrd)).trans (hg.regs r hrd).2
  · rw [hc]
    rw [Hart.inTrap, hc] at hi
    exact hg.trap hi (hs.symm.trans ht)

section
variable {d : Reg} {s t : State}

theorem ScalarOut.of_modMe {f : Hart → Hart} (h : s.me.ScalarNext d (f s.me)) : ScalarOut d s (s.modMe f) :=
  ⟨f s.me, h, .inl (State.modMe_congr rfl)⟩

/-- A trap of a thread at a new instruction. -/
theorem takeTrap_scalarOut (c st : BitVec 8) (v e : Word) (hf : s.fresh) (hx : s.cur.isCtx = false) : ScalarOut d s (takeTrap c st v e s) := by
  cases ht : s.me.inTrap with
  | false =>
    rw [takeTrap_enters _ _ _ _ _ hf hx ht]
    refine .of_modMe ⟨fun _ _ => ⟨rfl, rfl⟩, rfl, fun hi _ => ?_⟩
    exact absurd (hi.symm.trans (inTrap_tstatusOf _ _ true)) (by simp [ht])
  | true =>
    rw [takeTrap_freezes _ _ _ _ _ hf hx ht]
    refine ⟨{ s.me.forgetWalks with st := .frozen }, .of_frozen, .inr (congrArg (State.machineCheck · _ _) (State.modMe_congr rfl))⟩

theorem stallAt_scalarOut (hd : Head) (w : Wait) (b : Bool) : ScalarOut d s (stallAt hd w b s) :=
  .of_modMe (.of_same rfl rfl rfl rfl rfl)

/-- A hart that has done its work goes on at its successor. -/
theorem finishAt_scalarOut {f : Hart → Hart} (hd : Head) (n : Word) (h : s.me.ScalarNext d (f s.me)) : ScalarOut d s (finishAt hd n (s.modMe f)) := by
  rw [finishAt, State.modMe_modMe]
  exact .of_modMe (h.trans rfl rfl rfl rfl rfl)

theorem jump_scalarOut {f : Hart → Hart} (hd : Head) (n : Word) (h : s.me.ScalarNext d (f s.me)) : ScalarOut d s (jump hd n (s.modMe f)) := by
  rw [jump, State.modMe_modMe]
  exact .of_modMe (h.trans rfl rfl rfl rfl rfl)

theorem finishAt_stays (hd : Head) (n : Word) : ScalarOut d s (finishAt hd n s) := by
  rw [finishAt]
  exact .of_modMe (.of_same rfl rfl rfl rfl rfl)

theorem jump_stays (hd : Head) (n : Word) : ScalarOut d s (jump hd n s) := by
  rw [jump]
  exact .of_modMe (.of_same rfl rfl rfl rfl rfl)

theorem writeRd_scalarOut (ik : Code) (hd : Head) (v : Word) : ScalarOut d s (writeRd ik hd d v s) :=
  finishAt_scalarOut hd _ (.wx (.refl d _) v)

/-- A float instruction adds its flags and writes its destination. -/
theorem writeF_scalarOut (ik : Code) (hd : Head) (r : Nat × Flags) : ScalarOut d s (writeF ik hd d r s) := by
  have hg : s.me.ScalarNext d (s.me.modCsr (fun c => { c with fcsr := addFlags c.fcsr r.2 })) := .of_same rfl rfl rfl rfl rfl
  rw [writeF, writeRd, finish, State.wx, addFcsr, State.modMe_modMe]
  exact finishAt_scalarOut hd _ (hg.wx _)

end

section
variable {d : Reg} {s : State} (hf : s.fresh) (hx : s.cur.isCtx = false)
include hf hx

/-- The gate of a scalar instruction: a trap, a wait, or its effect. -/
theorem issue_scalarOut (ik : Code) (hd : Head) (srcs dsts : List RegRef) (k : State → State) (h : ScalarOut d s (k s)) :
    ScalarOut d s (issue ik hd 0 true srcs dsts k s) := by
  rw [issue]
  rcases issueOwn_cases ik hd 0 true none srcs dsts k s with ⟨-, e⟩ | ⟨-, -, e⟩ | e | ⟨_, -, e⟩ | ⟨_, -, e⟩ | ⟨_, -, e⟩ | ⟨-, e⟩ <;> rw [e]
  case inr.inr.inr.inr.inr.inl => exact stallAt_scalarOut hd _ _
  case inr.inr.inr.inr.inr.inr => exact h
  all_goals exact takeTrap_scalarOut _ _ _ _ hf hx

theorem regReg_scalarOut (ik : Code) (hd : Head) (a b : Reg) (f : Word → Word → Word) : ScalarOut d s (regReg ik hd d a b f s) :=
  issue_scalarOut hf hx _ _ _ _ _ (writeRd_scalarOut _ _ _)

theorem regRegRd_scalarOut (ik : Code) (hd : Head) (a b : Reg) (f : Word → Word → Word → Word) : ScalarOut d s (regRegRd ik hd d a b f s) :=
  issue_scalarOut hf hx _ _ _ _ _ (writeRd_scalarOut _ _ _)

theorem regOne_scalarOut (ik : Code) (hd : Head) (a : Reg) (f : Word → Word) : ScalarOut d s (regOne ik hd d a f s) :=
  issue_scalarOut hf hx _ _ _ _ _ (writeRd_scalarOut _ _ _)

theorem regNone_scalarOut (ik : Code) (hd : Head) (f : Word → Word) : ScalarOut d s (regNone ik hd d f s) :=
  issue_scalarOut hf hx _ _ _ _ _ (writeRd_scalarOut _ _ _)

theorem fp1_scalarOut (ik : Code) (hd : Head) (a : Reg) (f : FEnv → Word → Nat × Flags) : ScalarOut d s (fp1 ik hd d a f s) :=
  issue_scalarOut hf hx _ _ _ _ _ (writeF_scalarOut _ _ _)

theorem fp2_scalarOut (ik : Code) (hd : Head) (a b : Reg) (f : FEnv → Word → Word → Nat × Flags) : ScalarOut d s (fp2 ik hd d a b f s) :=
  issue_scalarOut hf hx _ _ _ _ _ (writeF_scalarOut _ _ _)

theorem fp3_scalarOut (ik : Code) (hd : Head) (a b c : Reg) (np nc : Bool) : ScalarOut d s (fp3 ik hd d a b c np nc s) :=
  issue_scalarOut hf hx _ _ _ _ _ (writeF_scalarOut _ _ _)

theorem jumpLink_scalarOut (ik : Code) (hd : Head) (off : Word) : ScalarOut d s (jumpLink ik hd d off s) :=
  issue_scalarOut hf hx _ _ _ _ _ (jump_scalarOut _ _ (.wx (.refl d _) _))

theorem jumpReg_scalarOut (ik : Code) (hd : Head) (a : Reg) (off : Word) : ScalarOut d s (jumpReg ik hd d a off s) := by
  refine issue_scalarOut hf hx _ _ _ _ _ ?_
  show ScalarOut d s (if _ then _ else _)
  split
  · exact takeTrap_scalarOut _ _ _ _ hf hx
  · split
    · exact takeTrap_scalarOut _ _ _ _ hf hx
    · exact jump_scalarOut _ _ (.wx (.refl d _) _)

theorem branch_scalarOut (ik : Code) (hd : Head) (a b : Reg) (off : Word) (f : Word → Word → Bool) : ScalarOut d s (branch ik hd a b off f s) := by
  refine issue_scalarOut hf hx _ _ _ _ _ ?_
  split
  · exact jump_stays hd _
  · exact finishAt_stays hd _

theorem loopPush_scalarOut (ik : Code) (hd : Head) (off : BitVec 12) (n : Word) : ScalarOut d s (loopPush ik hd off n s) := by
  unfold loopPush
  split
  · exact takeTrap_scalarOut _ _ _ _ hf hx
  · split
    · exact finishAt_stays hd _
    · exact finishAt_scalarOut hd _ (.of_same rfl rfl rfl rfl rfl)

end

end Sys2Proof.Machine

namespace Sys2Proof.Proofs

set_option Elab.async false
open Machine Claims

/-- What a scalar instruction answers, from what its meaning gives. -/
theorem scalarOut_of_next {d : Reg} {s t u : State} (h : ScalarOut d s u) (e : (.next u : Host.Outcome State Fault Refusal) = .next t) :
    ScalarOut d s t := Host.Outcome.next.inj e ▸ h

/-- Every scalar instruction changes its hart alone, and there what a scalar instruction may (the cases in the order of `scalarDest`). -/
theorem scalarOut_exec {i : Instr} {d : Reg} {s t : State} (h : scalarDest i = some d) (hx : s.cur.isCtx = false) (hf : s.fresh)
    (e : exec i s = .next t) : ScalarOut d s t := by
  unfold scalarDest at h
  split at h <;> cases h
  iterate 35 exact scalarOut_of_next (regReg_scalarOut hf hx _ _ _ _ _) e
  · exact scalarOut_of_next (regRegRd_scalarOut hf hx _ _ _ _ _) e
  iterate 10 exact scalarOut_of_next (regOne_scalarOut hf hx _ _ _ _) e
  iterate 2 exact scalarOut_of_next (regNone_scalarOut hf hx _ _ _) e
  · exact scalarOut_of_next (regOne_scalarOut hf hx _ _ _ _) e
  · exact scalarOut_of_next (jumpLink_scalarOut hf hx _ _ _) e
  · exact scalarOut_of_next (jumpReg_scalarOut hf hx _ _ _ _) e
  iterate 9 exact scalarOut_of_next (regOne_scalarOut hf hx _ _ _ _) e
  iterate 12 exact scalarOut_of_next (fp2_scalarOut hf hx _ _ _ _ _) e
  iterate 6 exact scalarOut_of_next (fp1_scalarOut hf hx _ _ _ _) e
  iterate 4 exact scalarOut_of_next (fp3_scalarOut hf hx _ _ _ _ _ _ _) e
  iterate 6 exact scalarOut_of_next (branch_scalarOut hf hx _ _ _ _ _ _) e
  iterate 2 exact scalarOut_of_next (issue_scalarOut hf hx _ _ _ _ _ (loopPush_scalarOut hf hx _ _ _ _)) e
  iterate 4 exact scalarOut_of_next (regOne_scalarOut hf hx _ _ _ _) e
  iterate 4 exact scalarOut_of_next (regReg_scalarOut hf hx _ _ _ _ _) e
  iterate 3 exact scalarOut_of_next (regOne_scalarOut hf hx _ _ _ _) e
  iterate 2 exact scalarOut_of_next (regReg_scalarOut hf hx _ _ _ _ _) e
  · exact scalarOut_of_next (jumpLink_scalarOut hf hx _ _ _) e
  iterate 2 exact scalarOut_of_next (branch_scalarOut hf hx _ _ _ _ _ _) e
  iterate 2 exact scalarOut_of_next (jumpReg_scalarOut hf hx _ _ _ _) e

/-- A snapshot, with the notice of a machine check, leaves all but its stack as it was. -/
theorem machineCheck_frame (s : State) (c : Nat) (v : Word) : ∃ k, s.machineCheck c v = { s with stks := k } := by
  unfold State.machineCheck State.snapshot
  split <;> exact ⟨_, rfl⟩

/-- What a state after a scalar instruction is, its stacks apart. -/
theorem scalarOut_state {d : Reg} {s t : State} (h : ScalarOut d s t) :
    ∃ g k, s.me.ScalarNext d g ∧ t = { s.modMe (fun _ => g) with stks := k } := by
  obtain ⟨g, hg, rfl | rfl⟩ := h
  · exact ⟨g, s.stks, hg, rfl⟩
  · obtain ⟨k, e⟩ := machineCheck_frame (s.modMe (fun _ => g)) s.myCore 0
    exact ⟨g, k, hg, e⟩

/-- Settles O59: every scalar instruction changes its own hart alone, which goes on, waits or enters its handler. -/
theorem scalarFrame : Obligations.ScalarFrame := by
  intro i d s t h hx hf e
  obtain ⟨g, k, hg, rfl⟩ := scalarOut_state (scalarOut_exec h hx hf e)
  have hme : State.me { s.modMe (fun _ => g) with stks := k } = g := State.modMe_me s (fun _ => g)
  have rest {α : Type} (F : Hart → α) : F g.unscalar = F s.me.unscalar := congrArg F hg.rest
  rw [hme]
  exact ⟨rfl, fun _ => rfl, fun h hh => State.modMe_hart_other s h (fun _ => g) (Ne.symm hh), rfl, rfl, rfl, rfl, rfl, rfl, rfl, hg.regs, rfl, rest Hart.v, rest Hart.vSt,
    rest Hart.csr, rest (·.busy.tokens), rest (·.busy.queues), rest (·.busy.sb), rest (·.busy.loads), rest Hart.lease, rest Hart.lock,
    rest Hart.epoch, rest Hart.unit, hg.trap⟩

end Sys2Proof.Proofs

/-! PROOFS. Bytes that a write buffer takes (R79, R80). -/

namespace Sys2Proof.Machine

set_option Elab.async false
open Claims

/-! ### Bytes that their home accepts (R13, R79, R80) -/

/-- The bytes of a packet lie in one region, at places that follow one another. -/
theorem homePa_add {pa n k : Nat} (hn : pa % 4096 + n ≤ 4096) (hk : k < n) :
    region (pa + k) = region pa ∧ homePa (pa + k) = homePa pa + k := by
  have hr : region (pa + k) = region pa := by simp only [region, bits]; omega
  refine ⟨hr, ?_⟩
  simp only [homePa, hr, bits]
  split <;> omega

/-- Every line of a packet lies in its region. -/
theorem region_linesOf {pa n l : Nat} (hn : pa % 4096 + n ≤ 4096) (hl : l ∈ linesOf [(pa, n)]) : region (l * 64) = region pa := by
  simp only [linesOf, List.flatMap_cons, List.flatMap_nil, List.append_nil, List.mem_eraseDups, List.mem_map, List.mem_range] at hl
  obtain ⟨k, hk, rfl⟩ := hl
  simp only [region, bits]
  omega

/-- A byte within one line has that line alone. -/
theorem mem_linesOf_one {pa n l : Nat} (hn : pa % 64 + n ≤ 64) (hl : l ∈ linesOf [(pa, n)]) : l = pa / 64 := by
  simp only [linesOf, List.flatMap_cons, List.flatMap_nil, List.append_nil, List.mem_eraseDups, List.mem_map, List.mem_range] at hl
  obtain ⟨k, hk, rfl⟩ := hl
  omega

theorem homePa_vault {a : Nat} (h : region a = 0) : homePa a = a := by
  rw [homePa, if_neg (by omega)]

theorem readByte_other {s : State} {a : Nat} (h : region a ≠ 0) : s.readByte a = s.mem.read (homePa a) := by
  rw [State.readByte, if_neg h]

/-- A write to a home without a write buffer. -/
theorem readByte_writeMem {s : State} {pa k : Nat} {bs : List Byte} (hr : region (pa + k) ≠ 0) (hh : homePa (pa + k) = homePa pa + k) (hk : k < bs.length) :
    (s.writeMem pa bs).readByte (pa + k) = bs[k] := by
  rw [readByte_other hr, State.writeMem_mem, hh]
  exact read_write_same _ _ _ _ hk

/-- A write to memory leaves every other byte. -/
theorem readByte_writeMem_apart {s : State} {a pa : Nat} {bs : List Byte} (h : apart a pa bs.length) : (s.writeMem pa bs).readByte a = s.readByte a := by
  have hm : (s.writeMem pa bs).mem.read (homePa a) = s.mem.read (homePa a) := read_write_other _ _ _ _ h
  by_cases hr : region a = 0
  · rw [homePa_vault hr] at hm
    rw [State.readByte, State.readByte, if_pos hr, if_pos hr, State.writeMem_vault, hm]
  · rw [readByte_other hr, readByte_other hr, hm]

/-! #### The write buffer -/

/-- The byte that a list of bytes by offset gives for an offset. -/
def cellAt (t : List (Nat × Byte)) (k : Nat) : Option Byte := (t.find? (fun b => b.1 == k)).map (·.2)

theorem WLine.byte_eq (l : WLine) (k : Nat) : l.byte k = cellAt l.bytes k := rfl

theorem cellAt_set (t : List (Nat × Byte)) (k j : Nat) (v : Byte) : cellAt (Table.set t k v) j = if k = j then some v else cellAt t j := by
  induction t with
  | nil =>
    by_cases h : k = j
    · simp [cellAt, Table.set, h]
    · simp [cellAt, Table.set, h]
  | cons e r ih =>
    obtain ⟨i, w⟩ := e
    simp only [Table.set]
    by_cases hi : i = k
    · subst hi
      by_cases h : i = j
      · simp [cellAt, h]
      · simp [cellAt, h]
    · rw [if_neg hi]
      by_cases h : i = j
      · subst h
        rw [if_neg (Ne.symm hi)]
        simp [cellAt]
      · simp only [cellAt, List.find?_cons, beq_false_of_ne h] at ih ⊢
        exact ih

/-- A run of bytes as bytes by offset. -/
def runAt (o n : Nat) (f : Nat → Byte) : List (Nat × Byte) := (List.range n).map (fun i => (o + i, f i))

theorem cellAt_mergeBytes (old : List (Nat × Byte)) (f : Nat → Byte) (o n k : Nat) :
    cellAt (mergeBytes old (runAt o n f)) k = if o ≤ k ∧ k < o + n then some (f (k - o)) else cellAt old k := by
  induction n with
  | zero =>
    rw [if_neg (by omega)]
    rfl
  | succ n ih =>
    rw [runAt, List.range_succ, List.map_append, mergeBytes, List.foldl_append]
    show cellAt (Table.set (mergeBytes old (runAt o n f)) (o + n) (f n)) k = _
    rw [cellAt_set, ih]
    by_cases hk : o + n = k
    · rw [if_pos hk, if_pos (by omega)]
      congr 2
      omega
    · rw [if_neg hk]
      by_cases h : o ≤ k ∧ k < o + n
      · rw [if_pos h, if_pos (by omega)]
      · rw [if_neg h, if_neg (by omega)]

/-- Bytes within one line are cut into that line alone. -/
theorem splitLines_one (bs : List Byte) (off : Nat) (h : off % 64 + bs.length ≤ 64) (h0 : bs ≠ []) :
    splitLines off bs = [(off / 64, runAt (off % 64) bs.length (fun i => bs.getD i 0))] := by
  induction bs generalizing off with
  | nil => exact absurd rfl h0
  | cons b r ih =>
    cases r with
    | nil => simp [splitLines, runAt]
    | cons c r =>
      simp only [List.length_cons] at h
      have e := ih (off + 1) (by simp only [List.length_cons]; omega) (by simp)
      have h1 : (off + 1) / 64 = off / 64 := by omega
      have h2 : (off + 1) % 64 = off % 64 + 1 := by omega
      rw [splitLines, e, h1, h2]
      simp only [if_true, runAt, List.length_cons]
      rw [List.range_succ_eq_map (n := r.length + 1), List.map_cons, List.map_map]
      congr 3
      refine List.map_congr_left (fun i _ => ?_)
      simp only [Function.comp, Nat.succ_eq_add_one, List.getD_cons_succ]
      rw [Nat.add_right_comm, Nat.add_assoc]

/-- The first line into which bytes are cut is that of the first byte. -/
theorem splitLines_cons (b : Byte) (r : List Byte) (off : Nat) :
    ∃ ys t, splitLines off (b :: r) = (off / 64, ys) :: t ∧
      ((splitLines (off + 1) r = t ∧ ∀ e ∈ t.head?, e.1 ≠ off / 64) ∨ ∃ zs, splitLines (off + 1) r = (off / 64, zs) :: t) := by
  rw [splitLines]
  split
  · rename_i l ys t hs
    split
    · rename_i hl
      exact ⟨_, t, by rw [hl], .inr ⟨ys, by rw [hs, hl]⟩⟩
    · rename_i hl
      exact ⟨_, _, rfl, .inl ⟨hs, fun e he => by cases he; exact hl⟩⟩
  · rename_i hs
    exact ⟨_, _, rfl, .inl ⟨hs, fun e he => by cases he⟩⟩

/-- The lines into which bytes are cut: how many, and which. -/
theorem splitLines_lines (bs : List Byte) (off : Nat) :
    (splitLines off bs).length ≤ (if bs = [] then 0 else (off % 64 + bs.length + 63) / 64) ∧
    ∀ e ∈ splitLines off bs, off / 64 ≤ e.1 ∧ e.1 * 64 < off + bs.length := by
  induction bs generalizing off with
  | nil => simp [splitLines]
  | cons b r ih =>
    obtain ⟨hl, hm⟩ := ih (off + 1)
    obtain ⟨ys, t, e, ht⟩ := splitLines_cons b r off
    have hmem (p : Nat × List (Nat × Byte)) (hp : p ∈ t) : p ∈ splitLines (off + 1) r := by
      rcases ht with ⟨ht, -⟩ | ⟨zs, ht⟩ <;> rw [ht] <;> simp [hp]
    rw [if_neg (by simp), List.length_cons, e, List.length_cons]
    refine ⟨?_, fun p hp => ?_⟩
    · cases r with
      | nil =>
        have h0 : t = [] := by
          rcases ht with ⟨ht, -⟩ | ⟨zs, ht⟩
          · exact ht.symm
          · cases ht
        rw [h0, List.length_nil, List.length_nil]
        omega
      | cons c r =>
        rw [if_neg (by simp), List.length_cons] at hl
        rcases ht with ⟨ht, hne⟩ | ⟨zs, ht⟩
        · obtain ⟨ys', t', e', -⟩ := splitLines_cons c r (off + 1)
          have hline : (off + 1) / 64 ≠ off / 64 := hne ((off + 1) / 64, ys') (by rw [← ht, e']; rfl)
          rw [ht] at hl
          rw [List.length_cons]
          omega
        · rw [ht, List.length_cons] at hl
          rw [List.length_cons]
          omega
    · rcases List.mem_cons.mp hp with rfl | hp
      · dsimp only
        omega
      · have := hm p (hmem p hp)
        omega

section
variable {v : Vault} {line : Nat} {bs : List (Nat × Byte)} {who : Writer}

/-- The line of the write buffer that takes the bytes. -/
theorem bufLine_accept_same (off : Nat) (ho : off / 64 = line) :
    ((v.accept line bs who).bufLine off).map WLine.bytes = some (mergeBytes (((v.bufLine off).map WLine.bytes).getD []) bs) := by
  subst ho
  unfold Vault.accept Vault.bufLine
  split
  · rename_i h
    simp only
    generalize v.wbuf = ls at h
    induction ls with
    | nil => simp at h
    | cons l r ih =>
      by_cases hl : l.line = off / 64
      · simp [hl]
      · simp only [List.any_cons, beq_false_of_ne hl, Bool.false_or] at h
        simp only [List.map_cons, List.find?_cons, if_neg hl, beq_false_of_ne hl]
        exact ih h
  · rename_i h
    have hn : v.wbuf.find? (fun l => l.line == off / 64) = none := by
      rw [List.find?_eq_none]
      simpa using h
    simp [List.find?_append, hn]

/-- The other lines of the write buffer. -/
theorem bufLine_accept_other (off : Nat) (ho : off / 64 ≠ line) : (v.accept line bs who).bufLine off = v.bufLine off := by
  unfold Vault.accept Vault.bufLine
  split
  · simp only
    generalize v.wbuf = ls
    induction ls with
    | nil => rfl
    | cons l r ih =>
      by_cases hl : l.line = line
      · have h1 : line ≠ off / 64 := fun h => ho h.symm
        simp only [List.map_cons, if_pos hl, List.find?_cons]
        rw [show (l.line == off / 64) = false from beq_false_of_ne (hl ▸ h1)]
        exact ih
      · simp only [List.map_cons, if_neg hl, List.find?_cons]
        split
        · rfl
        · exact ih
  · rw [List.find?_append]
    cases v.wbuf.find? (fun l => l.line == off / 64) with
    | none => simp [Ne.symm ho]
    | some _ => rfl

theorem accept_locks : (v.accept line bs who).locks = v.locks := by
  unfold Vault.accept
  split <;> rfl

theorem accept_wbuf_length : (v.accept line bs who).wbuf.length ≤ v.wbuf.length + 1 := by
  unfold Vault.accept
  split
  · simp
  · simp

end

section
variable {s : State} {core line : Nat} {bs : List (Nat × Byte)} {who : Writer}

/-- A line accepted while nothing is logged. -/
theorem acceptLine_unlogged (hc : s.dev.ckptEn = false) : s.acceptLine core line bs who = s.modVault core (fun v => v.accept line bs who) := by
  rw [State.acceptLine, State.ckptNote]
  dsimp only
  rw [if_neg (by simp [hc])]

/-- The bytes of a vault as its write buffer and its memory give them. -/
theorem readByte_vault {a : Nat} (h : region a = 0) :
    s.readByte a = (cellAt ((((s.vault (paCore a)).bufLine (paOff a)).map WLine.bytes).getD []) (paOff a % 64)).getD (s.mem.read a) := by
  rw [State.readByte, if_pos h]
  cases (s.vault (paCore a)).bufLine (paOff a) <;> rfl

theorem readByte_acceptLine_same {a : Nat} {f : Nat → Byte} {o n : Nat} (hc : s.dev.ckptEn = false) (hr : region a = 0) (hp : paCore a = core)
    (hl : paOff a / 64 = line) :
    (s.acceptLine core line (runAt o n f) who).readByte a = if o ≤ paOff a % 64 ∧ paOff a % 64 < o + n then f (paOff a % 64 - o) else s.readByte a := by
  rw [acceptLine_unlogged hc, readByte_vault hr, hp, State.modVault_vault_same, bufLine_accept_same _ hl, Option.getD_some, cellAt_mergeBytes]
  split
  · rfl
  · rw [readByte_vault hr, hp]
    rfl

theorem readByte_acceptLine_other {a : Nat} (hc : s.dev.ckptEn = false) (h : region a ≠ 0 ∨ paCore a ≠ core ∨ paOff a / 64 ≠ line) :
    (s.acceptLine core line bs who).readByte a = s.readByte a := by
  rw [acceptLine_unlogged hc]
  by_cases hr : region a = 0
  · rw [readByte_vault hr, readByte_vault hr]
    by_cases hp : paCore a = core
    · rw [hp, State.modVault_vault_same, bufLine_accept_other _ (by tauto)]
      rfl
    · rw [State.modVault_vault_other _ _ _ _ (Ne.symm hp)]
      rfl
  · rw [readByte_other hr, readByte_other hr]
    rfl

/-- Lines for which there is room, and which no commit holds, are accepted one after another. -/
theorem acceptLines_isSome {ls : List (Nat × List (Nat × Byte))} {s : State} (hc : s.dev.ckptEn = false) (hh : ∀ e ∈ ls, s.lineHeld core e.1 = false)
    (hn : (s.vault core).wbuf.length + ls.length ≤ wbufSize) :
    ∃ t, s.acceptLines core ls who = some t ∧ t = { s with vaults := t.vaults } := by
  induction ls generalizing s with
  | nil => exact ⟨s, rfl, rfl⟩
  | cons e r ih =>
    obtain ⟨l, bs⟩ := e
    rw [List.length_cons] at hn
    have hv : (s.acceptLine core l bs who).vault core = (s.vault core).accept l bs who := by
      rw [acceptLine_unlogged hc, State.modVault_vault_same]
    have hs : s.acceptLine core l bs who = { s with vaults := (s.acceptLine core l bs who).vaults } := by rw [acceptLine_unlogged hc]; rfl
    obtain ⟨t, ht, hf⟩ := ih (s := s.acceptLine core l bs who) (by rw [hs]; exact hc)
      (fun e he => by rw [State.lineHeld, hv, accept_locks]; exact hh e (by simp [he]))
      (by rw [hv]; have := accept_wbuf_length (v := s.vault core) (line := l) (bs := bs) (who := who); omega)
    refine ⟨t, ?_, by rw [hf, hs]⟩
    rw [State.acceptLines, if_pos, ht]
    rw [State.takesLine, hh (l, bs) (by simp), State.bufRoom, decide_eq_true (by omega)]
    simp

end

end Sys2Proof.Machine

/-! PROOFS. Requests of the host and of management (R148, R407 to R411). -/

namespace Sys2Proof.Machine

set_option Elab.async false
open Claims

/-! ### Requests of the host and of management (R148, R407 to R411) -/

/-- The turns of a pool's banks change nothing but the ports that they granted last. -/
theorem poolTurns_frame {s u : State} {port : Nat} {ls : List Nat} (h : s.poolTurns port ls = some u) : u = { s with clusters := u.clusters } := by
  induction ls generalizing s with
  | nil => cases h; rfl
  | cons l r ih =>
    simp only [State.poolTurns] at h
    split at h
    · exact ih h
    · split at h
      · exact (ih h :)
      · cases h

/-- Turns that a pool's banks grant are granted whatever the vaults hold. -/
theorem poolTurns_isSome_of {s : State} {v : Table Nat Vault} {port : Nat} {ls : List Nat} (h : (s.poolTurns port ls).isSome = true) :
    ∃ u, ({ s with vaults := v } : State).poolTurns port ls = some u := by
  rw [← Option.isSome_iff_exists]
  induction ls generalizing s with
  | nil => rfl
  | cons l r ih =>
    rw [State.poolTurns] at h ⊢
    by_cases hr : region (l * 64) ≠ 1
    · rw [if_pos hr] at h ⊢
      exact ih h
    · rw [if_neg hr] at h ⊢
      have hg : State.poolGrants { s with vaults := v } = s.poolGrants := rfl
      rw [hg]
      split at h
      · rename_i hg
        rw [if_pos hg]
        exact (ih h :)
      · cases h

/-- Lines outside a pool need no turn. -/
theorem poolTurns_outside {s : State} {port : Nat} {ls : List Nat} (h : ∀ l ∈ ls, region (l * 64) ≠ 1) : s.poolTurns port ls = some s := by
  induction ls with
  | nil => rfl
  | cons l r ih => rw [State.poolTurns, if_pos (h l (by simp)), ih (fun k hk => h k (by simp [hk]))]

/-- A write of a packet to a pool or to host memory whose banks grant it. -/
theorem storeBytes_stores {s u : State} {port pa : Nat} {bs : List Byte} {who : Writer} (hr : region pa ≠ 0)
    (h : s.poolTurns port (linesOf [(pa, bs.length)]) = some u) : s.storeBytes port pa bs who = some (u.writeMem pa bs) := by
  rw [State.storeBytes, if_neg (by tauto), State.acceptBytes, if_neg hr, h]
  rfl

section
variable {src pa : Nat} {bs : List Byte} {s : State} (hm : s.malformed pa = false) (hb : s.hostBehind src pa = false)
include hm hb

/-- A host write stores its bytes at a port and as a writer of its home. -/
theorem hostWrite_eq (hr : region pa = 0 ∨ region pa = 1 ∨ 8 ≤ region pa) :
    ∃ port who, (region pa ≠ 0 → port = agentPort 0) ∧ s.hostWrite src pa bs = s.storeBytes port pa bs who := by
  unfold State.hostWrite
  rw [if_neg (by simp [hb]), if_neg (by omega), if_neg (by omega), if_neg (by simp [hm])]
  rcases hr with h0 | h1 | h8
  · exact ⟨_, _, fun h => absurd h0 h, if_pos h0⟩
  · rw [if_neg (by omega)]
    exact ⟨_, _, fun _ => rfl, if_pos h1⟩
  · rw [if_neg (by omega), if_neg (by omega)]
    exact ⟨_, _, fun _ => rfl, if_pos h8⟩

end

section
variable {src pa : Nat} {bs : List Byte} {s : State} (hp : pa < 2 ^ 48) (hn : pa % 4096 + bs.length ≤ 4096)
include hp hn

theorem hostWrite_exec {t : State} (h : s.hostWrite src pa bs = some t) : exec (.hostWrite src pa bs) s = .next t := by
  have hk : packetOk pa bs.length = true := by rw [packetOk, decide_eq_true hp, decide_eq_true hn]; rfl
  show Host.Outcome.next _ = _
  rw [if_pos hk, h]
  rfl

end

section
variable {src pa : Nat} {bs : List Byte} {s : State} (hp : pa < 2 ^ 48) (hn : pa % 4096 + bs.length ≤ 4096) (hm : s.malformed pa = false)
  (hb : s.hostBehind src pa = false)
include hp hn hm hb

/-- A host write to a pool or to host memory. -/
theorem hostWrite_memory (hr : 8 ≤ region pa ∨ (region pa = 1 ∧ (s.poolTurns (agentPort 0) (linesOf [(pa, bs.length)])).isSome = true)) :
    ∃ t : State, exec (.hostWrite src pa bs) s = .next t ∧ (∀ k, k < bs.length → some (t.readByte (pa + k)) = bs[k]?) ∧
      (∀ a, apart a pa bs.length → t.readByte a = s.readByte a) ∧ t.harts = s.harts := by
  have hr0 : region pa ≠ 0 := by omega
  obtain ⟨u, hu⟩ : ∃ u, s.poolTurns (agentPort 0) (linesOf [(pa, bs.length)]) = some u := by
    rcases hr with h8 | ⟨-, h1⟩
    · exact ⟨s, poolTurns_outside (fun l hl => by rw [region_linesOf hn hl]; omega)⟩
    · exact Option.isSome_iff_exists.mp h1
  have hf := poolTurns_frame hu
  obtain ⟨port, who, hport, he⟩ := hostWrite_eq (src := src) (bs := bs) hm hb (by omega)
  rw [hport hr0, storeBytes_stores hr0 hu] at he
  refine ⟨u.writeMem pa bs, hostWrite_exec hp hn he, fun k hk => ?_, fun a ha => ?_, by rw [hf]; rfl⟩
  · obtain ⟨h1, h2⟩ := homePa_add hn hk
    rw [readByte_writeMem (by omega) h2 hk, List.getElem?_eq_getElem hk]
  · rw [readByte_writeMem_apart ha, State.readByte_of_still (State.poolTurns_still _ _ _ _ hu)]

/-- A host write within one line of a vault that can accept it. -/
theorem hostWrite_vault (hr : region pa = 0) (hl : pa % 64 + bs.length ≤ 64) (hlt : pa < 2 ^ 39) (ha : accepts (paCore pa) s)
    (hh : s.heldAt pa bs.length = false) (hd : s.lineRead (paCore pa) (paOff pa / 64) = false) :
    ∃ t : State, exec (.hostWrite src pa bs) s = .next t ∧ (∀ k, k < bs.length → some (t.readByte (pa + k)) = bs[k]?) ∧
      (∀ a, proper a → apart a pa bs.length → t.readByte a = s.readByte a) ∧ t.harts = s.harts := by
  obtain ⟨hroom, hck⟩ := ha
  obtain ⟨port, who, -, he⟩ := hostWrite_eq (src := src) (bs := bs) hm hb (.inl hr)
  have hst : s.storeBytes port pa bs who = s.acceptLines (paCore pa) (splitLines (paOff pa) bs) who := by
    rw [State.storeBytes, if_neg, State.acceptBytes, if_pos hr]
    rintro ⟨-, he⟩
    obtain ⟨l, hl', hread⟩ := List.any_eq_true.mp he
    rw [mem_linesOf_one hl hl', show paOff (pa / 64 * 64) / 64 = paOff pa / 64 by simp only [paOff, bits]; omega] at hread
    rw [hd] at hread
    cases hread
  by_cases h0 : bs = []
  · subst h0
    exact ⟨s, hostWrite_exec hp hn (he.trans hst), fun k hk => absurd hk (by simp), fun _ _ _ => rfl, rfl⟩
  have hpos : 0 < bs.length := List.length_pos_iff.mpr h0
  have ho : paOff pa % 64 = pa % 64 := by simp only [paOff, bits]; omega
  have hone : splitLines (paOff pa) bs = [(paOff pa / 64, runAt (pa % 64) bs.length (fun i => bs.getD i 0))] := by
    rw [splitLines_one bs _ (by omega) h0, ho]
  have htake : s.takesLine (paCore pa) (paOff pa / 64) = true := by
    have hfree : s.lineHeld (paCore pa) (paOff pa / 64) = false := by
      simp only [State.heldAt, hr, decide_true, Bool.true_and, List.any_eq_false] at hh
      simpa using hh 0 (by simp only [List.mem_range]; omega)
    rw [State.takesLine, hfree, hroom]
    simp
  let t : State := s.acceptLine (paCore pa) (paOff pa / 64) (runAt (pa % 64) bs.length (fun i => bs.getD i 0)) who
  have hx (a : Nat) (hpa : proper a) (hra : region a = 0) (hc : paCore a = paCore pa) (hline : paOff a / 64 = paOff pa / 64) : a / 64 = pa / 64 := by
    have := hpa hra
    simp only [paCore, paOff, bits] at hc hline
    omega
  refine ⟨t, hostWrite_exec hp hn (he.trans ?_), fun k hk => ?_, fun a hpa hap => ?_, by simp only [t]; rw [acceptLine_unlogged hck]; rfl⟩
  · rw [hst, hone, State.acceptLines, if_pos htake, State.acceptLines]
  · have hr' : region (pa + k) = 0 := (homePa_add hn hk).1.trans hr
    have hoff : paOff (pa + k) % 64 = pa % 64 + k := by simp only [paOff, bits]; omega
    rw [readByte_acceptLine_same hck hr' (by simp only [paCore, bits]; omega) (by simp only [paOff, bits]; omega), hoff, if_pos (by omega),
      show pa % 64 + k - pa % 64 = k by omega, List.getD_eq_getElem?_getD, List.getElem?_eq_getElem hk]
    rfl
  · by_cases hsame : region a = 0 ∧ paCore a = paCore pa ∧ paOff a / 64 = paOff pa / 64
    · obtain ⟨hra, hc, hline⟩ := hsame
      have hdiv := hx a hpa hra hc hline
      have hoff : paOff a % 64 = a % 64 := by simp only [paOff, bits]; omega
      rw [readByte_acceptLine_same hck hra hc hline, hoff, if_neg]
      rw [apart, homePa_vault hra, homePa_vault hr] at hap
      omega
    · exact readByte_acceptLine_other hck (by tauto)

end

section
variable {src pa n : Nat} {s : State}

/-- Lines outside the vaults ask no bank. -/
theorem askAll_outside {who : Reader} {parts : List (Nat × Nat)} (h : ∀ l ∈ linesOf parts, region (l * 64) ≠ 0) : s.askAll who parts = s := by
  unfold State.askAll
  generalize linesOf parts = ls at h
  induction ls with
  | nil => rfl
  | cons l r ih =>
    rw [List.foldl_cons, if_pos (by simp [h l (by simp)])]
    exact ih (fun k hk => h k (by simp [hk]))

/-- A reader whose reads are dropped: the banks of one vault forget it. -/
theorem dropReads_unread (core : Nat) (who : Reader) (he : s.dev.early = []) :
    ∃ v, s.dropReads core who = { s with vaults := v } ∧ ∀ c, ((s.dropReads core who).vault c).wbuf = (s.vault c).wbuf := by
  have hf : s.forgetEarly who = s := by simp [State.forgetEarly, he]
  have hd : s.dropReads core who = if (s.vault core).reads who then s.modVault core (fun v => v.drop who) else s := by
    rw [State.dropReads, hf]
  rw [hd]
  split
  · refine ⟨_, rfl, fun c => ?_⟩
    by_cases hc : core = c
    · subst hc
      rw [State.modVault_vault_same]
      rfl
    · rw [State.modVault_vault_other _ _ _ _ hc]
  · exact ⟨s.vaults, rfl, fun _ => rfl⟩

theorem badWord_of_wbuf {t : State} (hb : t.bad = s.bad) (hw : ∀ c, (t.vault c).wbuf = (s.vault c).wbuf) : t.badWord pa n = s.badWord pa n := by
  simp only [State.badWord, State.wordBuffered, State.bufBad, Vault.bufLine, hb, hw]

theorem readAs_unread {who : Reader} (he : s.dev.early = []) : s.readAs who pa n = s.readBytes pa n := by
  simp [State.readAs, State.readBytes, he]

/-- R148: a host read whose bytes are served, or stand in a pool or in host memory. -/
theorem hostRead_answers (hp : pa < 2 ^ 48) (hn : pa % 4096 + n ≤ 4096) (hm : s.malformed pa = false) (hh : s.hostPosted src = false)
    (hb : s.badWord pa n = none) (he : s.dev.early = [])
    (hr : 8 ≤ region pa ∨ (region pa = 1 ∧ (s.poolTurns (agentPort 0) (linesOf [(pa, n)])).isSome = true) ∨
      (region pa = 0 ∧ served (.host src pa) [(pa, n)] s)) :
    ∃ t : State, exec (.hostRead src pa n) s = .next t ∧ t.dev.hostReads = s.dev.hostReads ++ [(src, pa, s.readBytes pa n)] ∧ t.mem = s.mem := by
  have hline (l : Nat) (hl : l ∈ linesOf [(pa, n)]) : region (l * 64) = region pa := region_linesOf hn hl
  have hask : s.askAll (.host src pa) [(pa, n)] = s ∧ s.readReady (.host src pa) [(pa, n)] = true ∧ s.heldAt pa n = false := by
    rcases Nat.eq_zero_or_pos (region pa) with h0 | hpos
    · rcases hr with h8 | ⟨h1, -⟩ | ⟨-, hs1, hs2, hs3⟩
      · omega
      · omega
      · exact ⟨hs1, hs2, hs3 (pa, n) (by simp)⟩
    · refine ⟨askAll_outside (fun l hl => by rw [hline l hl]; omega), ?_, by simp [State.heldAt, Nat.ne_of_gt hpos]⟩
      simp only [State.readReady, List.all_eq_true]
      intro l hl
      have hne : region (l * 64) ≠ 0 := by rw [hline l hl]; omega
      simp [hne]
  obtain ⟨hask, hready, hheld⟩ := hask
  obtain ⟨v, hv, hw⟩ := dropReads_unread (s := s) (paCore pa) (.host src pa) he
  have hturn : ∃ u, (s.dropReads (paCore pa) (.host src pa)).poolTurns (agentPort 0) (linesOf [(pa, n)]) = some u := by
    rcases hr with h8 | ⟨-, h1⟩ | ⟨h0, -⟩
    · exact ⟨_, poolTurns_outside (fun l hl => by rw [hline l hl]; omega)⟩
    · rw [hv]
      exact poolTurns_isSome_of h1
    · exact ⟨_, poolTurns_outside (fun l hl => by rw [hline l hl]; omega)⟩
  obtain ⟨u, hu⟩ := hturn
  have hf := poolTurns_frame hu
  have hbad : (s.dropReads (paCore pa) (.host src pa)).badWord pa n = none := (badWord_of_wbuf (by rw [hv]) hw).trans hb
  refine ⟨u.hostAnswer src pa (s.readBytes pa n), ?_, ?_, ?_⟩
  · have hk : packetOk pa n = true := by rw [packetOk, decide_eq_true hp, decide_eq_true hn]; rfl
    have hg : s.hostRead src pa n = some (u.hostAnswer src pa (s.readBytes pa n)) := by
      unfold State.hostRead
      rw [if_neg (by simp [hh]), if_neg (by omega), if_neg (by simp [hm]), if_neg (by omega)]
      simp only [hask, hheld, hready, hbad, hu, readAs_unread he]
      rfl
    show Host.Outcome.next _ = _
    rw [if_pos hk, hg]
    rfl
  · rw [State.hostAnswer, State.modDev_dev, hf, hv]
  · show u.mem = s.mem
    rw [hf, hv]

end

/-- What an AtomicOp leaves (R407). -/
theorem atomicNew_eq {op : BitVec 2} (h : op.toNat < 3) (m old v c : Nat) : atomicNew op m old v c =
    if op = 0 then (old + v) % 2 ^ (8 * m) else if op = 1 then v % 2 ^ (8 * m) else if old = c % 2 ^ (8 * m) then v % 2 ^ (8 * m) else old := by
  have h2 : op = 0 ∨ op = 1 ∨ op = 2 := by
    have hcase : ∀ x : BitVec 2, x.toNat < 3 → x = 0 ∨ x = 1 ∨ x = 2 := by decide
    exact hcase op h
  rcases h2 with rfl | rfl | rfl <;> rfl

/-- Bytes written outside the vaults are read back as the number that they hold. -/
theorem readNum_writeMem {s : State} {pa m v : Nat} (hr : ∀ k, k < m → region (pa + k) ≠ 0 ∧ homePa (pa + k) = homePa pa + k) :
    (s.writeMem pa (bytesOf m v)).readNum pa m = v % 2 ^ (8 * m) := by
  have hb : (s.writeMem pa (bytesOf m v)).readBytes pa m = bytesOf m v := by
    refine List.ext_getElem (by simp [State.readBytes, bytesOf_length]) (fun k h1 h2 => ?_)
    have hk : k < m := by simpa [State.readBytes] using h1
    simp only [State.readBytes, List.getElem_map, List.getElem_range]
    exact readByte_writeMem (hr k hk).1 (hr k hk).2 h2
  rw [State.readNum, hb, ofBytes_bytesOf, Nat.pow_mul]

theorem readNum_lt (s : State) (pa m : Nat) : s.readNum pa m < 2 ^ (8 * m) := by
  have h := ofBytes_lt (s.readBytes pa m)
  rw [show (s.readBytes pa m).length = m by simp [State.readBytes]] at h
  rw [State.readNum, Nat.pow_mul]
  exact h

/-- R407: an AtomicOp of the host. -/
theorem hostAtomicop_answers {src pa : Nat} {s : State} (op : BitVec 2) (w : BitVec 1) (v cmp : Word) (h3 : op.toNat < 3) (hr : 12 ≤ region pa)
    (hp : pa < 2 ^ 48) (m : Nat) (hm : m = if w = 1 then 8 else 4) (ha : pa % m = 0) :
    ∃ t : State, exec (.hostAtomicop src op w pa v cmp) s = .next t ∧ t.dev.hostReads = s.dev.hostReads ++ [(src, pa, bytesOf m (s.readNum pa m))] ∧
      t.readNum pa m = (if op = 0 then (s.readNum pa m + v.toNat) % 2 ^ (8 * m) else if op = 1 then v.toNat % 2 ^ (8 * m)
        else if s.readNum pa m = cmp.toNat % 2 ^ (8 * m) then v.toNat % 2 ^ (8 * m) else s.readNum pa m) ∧
      ∀ a, apart a pa m → t.readByte a = s.readByte a := by
  have hm8 : m = 8 ∨ m = 4 := by rw [hm]; split <;> simp
  have hadd (k : Nat) (hk : k < m) : region (pa + k) ≠ 0 ∧ homePa (pa + k) = homePa pa + k := by
    have h4 : pa % 4096 + m ≤ 4096 := by rcases hm8 with rfl | rfl <;> omega
    obtain ⟨h1, h2⟩ := homePa_add h4 hk
    exact ⟨by omega, h2⟩
  have hready : hostAtomicopReady op w pa = true := by
    rw [hostAtomicopReady, ← hm, decide_eq_true hr, decide_eq_true hp, decide_eq_true ha, decide_eq_true h3]
    rfl
  refine ⟨hostAtomicopEffect src op w pa v cmp s, ?_, ?_, ?_, fun a hap => ?_⟩
  · show Host.Outcome.next (if _ then _ else _) = _
    rw [if_pos hready]
  · rw [hostAtomicopEffect, ← hm]
    rfl
  · rw [hostAtomicopEffect, ← hm, ← atomicNew_eq h3]
    refine (readNum_writeMem hadd).trans (Nat.mod_eq_of_lt ?_)
    rw [atomicNew_eq h3]
    split
    · exact Nat.mod_lt _ (Nat.two_pow_pos _)
    · split
      · exact Nat.mod_lt _ (Nat.two_pow_pos _)
      · split
        · exact Nat.mod_lt _ (Nat.two_pow_pos _)
        · exact readNum_lt _ _ _
  · rw [hostAtomicopEffect, ← hm]
    exact readByte_writeMem_apart (by rw [bytesOf_length]; exact hap)

end Sys2Proof.Machine

namespace Sys2Proof.Proofs

set_option Elab.async false
open Machine Claims

theorem exec_when {f : State → State} {b : Bool} {s : State} (h : b = true) : when b f s = .next (f s) := by
  rw [when, h]
  rfl

theorem exec_unless {f : State → State} {b : Bool} {s : State} (h : b = false) : when b f s = .next s := by
  rw [when, h]
  rfl

/-- R409 to R411: a management request is answered over its interface, in recovery only one of firmware update. -/
theorem mctp_answers (s : State) (i3c : Bool) (r : MctpReq) :
    (s.dev.recovery = false ∨ r = .pldmUpdate → (∀ c, r = .spdmCert c → c < 8) →
      ∃ (t : State) (a : MctpAnswer), exec (.mctpRequest ⟨i3c, r⟩) s = .next t ∧ t.dev.mctp = s.dev.mctp ++ [a] ∧ a.i3c = i3c ∧ a.req = r ∧
        (r = .pldmMonitor → a.failed = s.dev.layerFail) ∧ (∀ c, r = .spdmCert c → a.body = Config.certificate c) ∧ t.mem = s.mem) ∧
    (s.dev.recovery = true → r ≠ .pldmUpdate → exec (.mctpRequest ⟨i3c, r⟩) s = .next s) := by
  have he : exec (.mctpRequest ⟨i3c, r⟩) s = when (s.mctpServed r) (fun s => s.mctpAnswer i3c r) s := rfl
  refine ⟨fun hs hc => ?_, fun hrec hr => he.trans (exec_unless (by simp [State.mctpServed, hrec, hr]))⟩
  have hserved : s.mctpServed r = true := by
    have hrec : (!s.dev.recovery || r == .pldmUpdate) = true := by simpa using hs
    unfold State.mctpServed
    rw [hrec, Bool.true_and]
    split
    · exact decide_eq_true (hc _ rfl)
    · rfl
  refine ⟨s.mctpAnswer i3c r, ⟨i3c, r, s.mctpBody r, if r = .pldmMonitor then s.dev.layerFail else none⟩, he.trans (exec_when hserved), rfl, rfl, rfl,
    fun h => if_pos h, fun c h => ?_, rfl⟩
  rw [h]
  rfl

/-- R410: an image that verifies goes to the slot that does not run. -/
theorem firmware_written (s : State) (f : FwImage) :
    (f.rsaOk = true → f.slhOk = true → s.dev.fwMin ≤ f.version → ∃ t : State, exec (.firmwareUpdate f) s = .next t ∧
      (s.dev.fwActive = some false → t.dev.fwB = some f.version ∧ t.dev.fwA = s.dev.fwA) ∧
      (s.dev.fwActive ≠ some false → t.dev.fwA = some f.version ∧ t.dev.fwB = s.dev.fwB) ∧ t.dev.fwActive = s.dev.fwActive) ∧
    (f.rsaOk = false ∨ f.slhOk = false ∨ f.version < s.dev.fwMin → exec (.firmwareUpdate f) s = .next s) := by
  refine ⟨fun h1 h2 h3 => ⟨firmwareUpdateEffect f s, exec_when (by simp [State.imageOk, h1, h2, h3]), ?_⟩, fun h => exec_unless ?_⟩
  · by_cases ha : s.dev.fwActive = some false
    · simp [firmwareUpdateEffect, ha]
    · simp [firmwareUpdateEffect, ha]
  · rcases h with h | h | h
    · simp [State.imageOk, h]
    · simp [State.imageOk, h]
    · simp [State.imageOk, Nat.not_le.mpr h]

/-- R411: a configuration record that verifies is in force. -/
theorem config_inForce (s : State) (c : ConfigRec) :
    (c.rsaOk = true → c.slhOk = true → ∃ t : State, exec (.configRecord c) s = .next t ∧ t.dev.cfg = c ∧ t.mem = s.mem) ∧
    (c.rsaOk = false ∨ c.slhOk = false → exec (.configRecord c) s = .next s) := by
  have he : exec (.configRecord c) s = when (c.rsaOk && c.slhOk) (fun s => s.modDev (fun d => { d with cfg := c })) s := rfl
  refine ⟨fun h1 h2 => ⟨_, he.trans (exec_when (by simp [h1, h2])), rfl, rfl⟩, fun h => he.trans (exec_unless ?_)⟩
  rcases h with h | h <;> simp [h]

/-- Settles O52: the host's writes, reads and AtomicOps, management requests, firmware and configuration. -/
theorem hostEvents : Obligations.HostEvents := by
  intro src pa n bs s
  refine ⟨fun hp hn hm hb => ⟨fun hr => hostWrite_memory hp hn hm hb hr, fun hr hl hlt ha hh hd => hostWrite_vault hp hn hm hb hr hl hlt ha hh hd⟩,
    fun hp hn hm hh hb he hr => hostRead_answers hp hn hm hh hb he hr, fun op w v cmp h3 hr hp => ?_, fun i3c r => mctp_answers s i3c r,
    fun f => firmware_written s f, fun c => config_inForce s c⟩
  exact fun ha => hostAtomicop_answers op w v cmp h3 hr hp _ rfl ha

end Sys2Proof.Proofs

/-! PROOFS. Registers, intervals, snapshots and notices. -/

namespace Sys2Proof.Machine

set_option Elab.async false
open Claims

/-! ### Registers, checkpoint intervals, snapshots and notices (R75, R107, R110, R378 to R380, R394, R396, R403 to R405, R413) -/

/-! #### Hardware queues -/

section
variable {s : State} {q p k : Nat} {f : Hq → Hq}

theorem hq_modHq_same : (s.modHq q f).hq q = f (s.hq q) := by
  rw [State.hq, State.modHq, State.modStk_stk_same, Table.get_set_same]
  rfl

theorem hq_modHq_other (h : p ≠ q) : (s.modHq q f).hq p = s.hq p := by
  rw [State.hq, State.modHq]
  by_cases hk : q / 16 = p / 16
  · rw [← hk, State.modStk_stk_same, Table.get_set_other _ _ _ _ _ (by omega), State.hq, hk]
  · rw [State.modStk_stk_other _ _ _ _ hk]
    rfl

/-- A stack that keeps its queues. -/
theorem hq_modStk {g : Stack → Stack} (h : ∀ t, (g t).hqs = t.hqs) : (s.modStk k g).hq p = s.hq p := by
  rw [State.hq, State.hq]
  by_cases hk : k = p / 16
  · subst hk
    rw [State.modStk_stk_same, h]
  · rw [State.modStk_stk_other _ _ _ _ hk]

theorem hq_notify {n : Notice} : (s.notify k n).hq p = s.hq p := hq_modStk (fun _ => rfl)

/-- A queue that stops with a cause (R379). -/
def Hq.failed (c : Nat) (h : Hq) : Hq := { h with st := 2, ecause := BitVec.ofNat 8 c, flushed := 0 }

theorem hq_queueError_same (c : Nat) : (s.queueError q c).hq q = (s.hq q).failed c := by
  simp only [State.queueError]
  rw [hq_notify]
  split
  · refine (hq_modStk ?_).trans hq_modHq_same
    exact fun _ => rfl
  · exact hq_modHq_same

theorem hq_queueError_other (c : Nat) (h : p ≠ q) : (s.queueError q c).hq p = s.hq p := by
  simp only [State.queueError]
  rw [hq_notify]
  split
  · refine (hq_modStk ?_).trans (hq_modHq_other h)
    exact fun _ => rfl
  · exact hq_modHq_other h

/-- Whether a queue has more records than its ring holds. -/
def Hq.over (h : Hq) : Prop := h.st = 1 ∧ h.size < (h.tail - h.head).toNat

theorem tailCheck_over (h : (s.hq q).over) : s.tailCheck q = s.queueError q 0x02 := if_pos h

theorem tailCheck_fits (h : ¬(s.hq q).over) : s.tailCheck q = s := if_neg h

theorem hq_tailCheck_other (h : p ≠ q) : (s.tailCheck q).hq p = s.hq p := by
  by_cases ho : (s.hq q).over
  · rw [tailCheck_over ho, hq_queueError_other _ h]
  · rw [tailCheck_fits ho]

/-- What the check of a tail leaves of its queue. -/
theorem hq_tailCheck_same (s : State) (q : Nat) : (s.tailCheck q).hq q = (s.hq q).failed 2 ∧ (s.hq q).over ∨ (s.tailCheck q).hq q = s.hq q ∧ ¬(s.hq q).over := by
  by_cases ho : (s.hq q).over
  · exact .inl ⟨by rw [tailCheck_over ho, hq_queueError_same], ho⟩
  · exact .inr ⟨by rw [tailCheck_fits ho], ho⟩

theorem tailCheck_mem : (s.tailCheck q).mem = s.mem := by
  by_cases ho : (s.hq q).over
  · rw [tailCheck_over ho]
    simp only [State.queueError]
    split <;> rfl
  · rw [tailCheck_fits ho]

/-- HQCTL as it is written: LOG stays while EN is 1, and is clamped otherwise (R380). -/
def Hq.logOf (h : Hq) (v : Word) : Nat := if wbit h.ctl 0 then wbits h.ctl 4 4 else min (max (wbits v 4 4) 2) 14

def Hq.written (h : Hq) (v : Word) : Hq :=
  { h with ctl := BitVec.ofNat 64 (wbits v 0 4 + h.logOf v * 16 + wbits v 8 11 * 256), st := if h.st = 2 then 2 else wbits v 0 1 }

theorem hqctlSet_eq (v : Word) : s.hqctlSet q v = (s.modHq q (Hq.written · v)).tailCheck q := rfl

theorem Hq.logOf_lt (h : Hq) (v : Word) : h.logOf v < 16 := by
  unfold Hq.logOf
  split
  · exact Nat.mod_lt _ (by decide)
  · omega

theorem Hq.written_ctl (h : Hq) (v : Word) : wbit (h.written v).ctl 0 = wbit v 0 ∧ wbits (h.written v).ctl 4 4 = h.logOf v ∧
    wbits (h.written v).ctl 8 11 = wbits v 8 11 := by
  have hl := h.logOf_lt v
  have h1 : wbits v 0 4 < 16 := Nat.mod_lt _ (by decide)
  have h2 : wbits v 8 11 < 2048 := Nat.mod_lt _ (by decide)
  have hn : (h.written v).ctl.toNat = wbits v 0 4 + h.logOf v * 16 + wbits v 8 11 * 256 := by
    show (BitVec.ofNat 64 _).toNat = _
    rw [BitVec.toNat_ofNat, Nat.mod_eq_of_lt (by omega)]
  have h3 : wbits v 0 4 = v.toNat % 16 := by simp [wbits, bits]
  refine ⟨?_, ?_, ?_⟩
  · rw [wbit_zero, wbit_zero, hn, h3]
    congr 1
    rw [eq_iff_iff]
    omega
  · rw [wbits, hn, bits]
    omega
  · rw [wbits, hn, bits]
    omega

end

/-! #### PREEMPT and the slots -/

/-- PREEMPT with REQ and KILL written (R396). -/
theorem preempt_written (p : Word) (req kill : Bool) (n : Nat) :
    wbit (setBits (setBits p 0 2 (b2n req + 2 * b2n kill)) 2 2 n) 0 = req ∧ wbit (setBits (setBits p 0 2 (b2n req + 2 * b2n kill)) 2 2 n) 1 = kill := by
  have h0 : wbit (setBits p 0 2 (b2n req + 2 * b2n kill)) 0 = (b2n req + 2 * b2n kill).testBit 0 := wbit_setBits_same p 0 2 _ 0 (by omega) (by omega)
  have h1 : wbit (setBits p 0 2 (b2n req + 2 * b2n kill)) 1 = (b2n req + 2 * b2n kill).testBit 1 := wbit_setBits_same p 0 2 _ 1 (by omega) (by omega)
  rw [wbit_setBits_other _ 2 2 n 0 (by omega) (by omega), wbit_setBits_other _ 2 2 n 1 (by omega) (by omega), h0, h1]
  cases req <;> cases kill <;> decide

theorem preemptSet1_hart_other {s : State} {h g : HartId} {req kill : Bool} (hg : g ≠ h) : (s.preemptSet1 h req kill).hart g = s.hart g :=
  State.modHart_hart_other s h g _ (Ne.symm hg)

/-- What a slot's PREEMPT takes. -/
theorem preemptSet1_hart (s : State) (h : HartId) (req kill : Bool) :
    wbit ((s.preemptSet1 h req kill).hart h).csr.preempt 0 = req ∧ wbit ((s.preemptSet1 h req kill).hart h).csr.preempt 1 = kill ∧
    ((s.preemptSet1 h req kill).hart h).x = (s.hart h).x ∧
    ((s.preemptSet1 h req kill).hart h).reqClk = (if (req || kill) && !(wbits (s.hart h).csr.preempt 0 2 != 0) then s.clk else (s.hart h).reqClk) := by
  have e : (s.preemptSet1 h req kill).hart h = _ := State.modHart_hart_same s h _
  rw [e]
  exact ⟨(preempt_written _ _ _ _).1, (preempt_written _ _ _ _).2, rfl, rfl⟩

/-- A slot whose REQ is set stays as it is when the threads of its core are asked. -/
structure Asked (h : HartId) (kill : Bool) (x : Table Reg Word) (clk : Nat) (s : State) : Prop where
  req : wbit (s.hart h).csr.preempt 0 = true
  kill : wbit (s.hart h).csr.preempt 1 = kill
  regs : (s.hart h).x = x
  clk : (s.hart h).reqClk = clk

theorem Asked.preemptSet1 {h g : HartId} {kill : Bool} {x : Table Reg Word} {clk : Nat} {s : State} (a : Asked h kill x clk s) :
    Asked h kill x clk (s.preemptSet1 g true (wbit (s.hart g).csr.preempt 1)) := by
  by_cases hg : h = g
  · subst hg
    obtain ⟨h1, h2, h3, h4⟩ := preemptSet1_hart s h true (wbit (s.hart h).csr.preempt 1)
    refine ⟨h1, h2.trans a.kill, h3.trans a.regs, h4.trans ?_⟩
    have hw : wbits (s.hart h).csr.preempt 0 2 ≠ 0 := by
      have := a.req
      rw [wbit_zero, decide_eq_true_eq] at this
      rw [wbits, bits]
      omega
    rw [if_neg (by simp [hw]), a.clk]
  · have e : (s.preemptSet1 g true (wbit (s.hart g).csr.preempt 1)).hart h = s.hart h := preemptSet1_hart_other hg
    exact ⟨by rw [e]; exact a.req, by rw [e]; exact a.kill, by rw [e]; exact a.regs, by rw [e]; exact a.clk⟩

/-- REQ of one slot of a core, where a unit holds it and has not been taken. -/
def State.askOne (s : State) (h : HartId) : State :=
  if (s.hart h).occupied && !(s.hart h).isTaken then s.preemptSet1 h true (wbit (s.hart h).csr.preempt 1) else s

theorem request_eq (s : State) (h : HartId) : s.request h = if (s.core h.core).long then (threadsOf h.core).foldl State.askOne s else s.askOne h := rfl

theorem Asked.askOne {h g : HartId} {kill : Bool} {x : Table Reg Word} {clk : Nat} {s : State} (a : Asked h kill x clk s) :
    Asked h kill x clk (s.askOne g) := by
  unfold State.askOne
  split
  · exact a.preemptSet1
  · exact a

theorem Asked.askAll {h : HartId} {kill : Bool} {x : Table Reg Word} {clk : Nat} {s : State} (a : Asked h kill x clk s) (ts : List HartId) :
    Asked h kill x clk (ts.foldl State.askOne s) := by
  induction ts generalizing s with
  | nil => exact a
  | cons t r ih => exact ih a.askOne

theorem Asked.request {h g : HartId} {kill : Bool} {x : Table Reg Word} {clk : Nat} {s : State} (a : Asked h kill x clk s) :
    Asked h kill x clk (s.request g) := by
  rw [request_eq]
  split
  · exact a.askAll _
  · exact a.askOne

/-- R396: REQ of a slot that holds a unit. -/
theorem preemptSet_req {s : State} {h : HartId} (ho : h.kind = .thread → (s.hart h).occupied = true) :
    let t := s.preemptSet h true (wbit (s.hart h).csr.preempt 1)
    wbit (t.hart h).csr.preempt 0 = true ∧ wbit (t.hart h).csr.preempt 1 = wbit (s.hart h).csr.preempt 1 ∧
      (wbits (s.hart h).csr.preempt 0 2 = 0 → (t.hart h).reqClk = s.clk) ∧ (t.hart h).x = (s.hart h).x ∧
      ((s.core h.core).long = false → ∀ g, g ≠ h → t.hart g = s.hart g) := by
  obtain ⟨h1, h2, h3, h4⟩ := preemptSet1_hart s h true (wbit (s.hart h).csr.preempt 1)
  have a : Asked h _ _ _ (s.preemptSet1 h true (wbit (s.hart h).csr.preempt 1)) := ⟨h1, h2, h3, h4⟩
  have hclk (hw : wbits (s.hart h).csr.preempt 0 2 = 0) :
      (if (true || wbit (s.hart h).csr.preempt 1) && !(wbits (s.hart h).csr.preempt 0 2 != 0) then s.clk else (s.hart h).reqClk) = s.clk := by
    simp [hw]
  dsimp only
  rw [State.preemptSet, if_neg (by simp only [Bool.and_eq_true, beq_iff_eq, Bool.not_eq_true']; intro hk; rw [ho hk.1] at hk; exact absurd hk.2 (by simp))]
  by_cases hk : h.kind = .thread
  · dsimp only
    rw [if_pos (by simp [hk])]
    have b := a.request (g := h)
    refine ⟨b.req, b.kill, fun hw => b.clk.trans (hclk hw), b.regs, fun hl g hg => ?_⟩
    have hl' : ((s.preemptSet1 h true (wbit (s.hart h).csr.preempt 1)).core h.core).long = false := hl
    rw [request_eq, if_neg (by simp [hl']), State.askOne]
    split
    · rw [preemptSet1_hart_other hg, preemptSet1_hart_other hg]
    · rw [preemptSet1_hart_other hg]
  · dsimp only
    rw [if_neg (by simp [hk])]
    exact ⟨h1, h2, fun hw => h4.trans (hclk hw), h3, fun _ g hg => preemptSet1_hart_other hg⟩

/-- R396: KILL of a slot that holds a unit. -/
theorem preemptSet_kill {s : State} {h : HartId} (ho : h.kind = .thread → (s.hart h).occupied = true) (hr : wbit (s.hart h).csr.preempt 0 = false) :
    let t := s.preemptSet h (wbit (s.hart h).csr.preempt 0) true
    wbit (t.hart h).csr.preempt 1 = true ∧ wbit (t.hart h).csr.preempt 0 = false ∧ (t.hart h).x = (s.hart h).x ∧ ∀ g, g ≠ h → t.hart g = s.hart g := by
  obtain ⟨h1, h2, h3, -⟩ := preemptSet1_hart s h false true
  dsimp only
  rw [State.preemptSet, if_neg (by simp only [Bool.and_eq_true, beq_iff_eq, Bool.not_eq_true']; intro hk; rw [ho hk.1] at hk; exact absurd hk.2 (by simp)), hr]
  exact ⟨h2, h1, h3, fun g hg => preemptSet1_hart_other hg⟩

/-- The registers of an empty slot stay as they are. -/
theorem preemptSet_empty {s : State} {h : HartId} (hk : h.kind = .thread) (ho : (s.hart h).occupied = false) (req kill : Bool) : s.preemptSet h req kill = s := by
  rw [State.preemptSet, if_pos (by simp [hk, ho])]

/-! #### HTBASE -/

theorem HEntry.image_length (e : HEntry) : e.image.length = 16 := by simp [HEntry.image, bytesOf_length]

/-- The images of the entries of a handler table. -/
theorem images_length (t : Table Nat HEntry) : (((List.range 64).map (fun n => (t.get n HEntry.empty).image)).flatten).length = 1024 := by
  have hc : ((List.range 64).map (fun n => (t.get n HEntry.empty).image)).map List.length = List.replicate 64 16 := by
    rw [List.map_map, List.eq_replicate_iff]
    refine ⟨by simp, fun b hb => ?_⟩
    obtain ⟨n, -, rfl⟩ := List.mem_map.mp hb
    exact HEntry.image_length _
  rw [List.length_flatten, hc]
  rfl

/-- R110: a base that the vault takes, with the images of the entries. -/
theorem htbaseSet_takes {s : State} {core : Nat} {v : Word} (h : wbits v 10 38 * 1024 = 0 ∨ region (wbits v 10 38 * 1024) ≠ 0 ∨ paCore (wbits v 10 38 * 1024) ≠ core ∨
      ((s.vault core).wbuf = [] ∧ s.dev.ckptEn = false ∧ s.heldAt (wbits v 10 38 * 1024) 1024 = false ∧ ∀ l, s.lineRead core l = false)) :
    ∃ t : State, s.htbaseSet core v = some t ∧ (t.core core).htbase = BitVec.ofNat 64 (wbits v 10 38 * 1024) ∧ (t.core core).ht = (s.core core).ht := by
  generalize hbase : wbits v 10 38 * 1024 = base at h
  let u : State := s.modCore core (fun c => { c with htbase := BitVec.ofNat 64 base })
  have hu : u.core core = { s.core core with htbase := BitVec.ofNat 64 base } := State.modCore_core_same s core _
  by_cases hn : base = 0 ∨ region base ≠ 0 ∨ paCore base ≠ core
  · refine ⟨u, ?_, by rw [hu], by rw [hu]⟩
    simp only [State.htbaseSet, hbase]
    rw [if_pos hn]
  · obtain ⟨hw, hc, hh, hl⟩ : (s.vault core).wbuf = [] ∧ s.dev.ckptEn = false ∧ s.heldAt base 1024 = false ∧ ∀ l, s.lineRead core l = false := by tauto
    obtain ⟨hb0, hr, hp⟩ : base ≠ 0 ∧ region base = 0 ∧ paCore base = core := by tauto
    let bs : List Byte := ((List.range 64).map (fun n => ((s.core core).ht.get n HEntry.empty).image)).flatten
    have hlen : bs.length = 1024 := images_length _
    obtain ⟨hcount, hlines⟩ := splitLines_lines bs (paOff base)
    have hbase64 : paOff base % 64 = 0 := by
      simp only [paOff, bits]
      omega
    have hne : bs ≠ [] := fun h => by rw [h] at hlen; simp at hlen
    rw [if_neg hne, hlen, hbase64] at hcount
    have hfree (e : Nat × List (Nat × Byte)) (he : e ∈ splitLines (paOff base) bs) : u.lineHeld core e.1 = false := by
      have hm := hlines e he
      rw [hlen] at hm
      simp only [State.heldAt, hr, decide_true, Bool.true_and, List.any_eq_false] at hh
      have hk := hh (e.1 - paOff base / 64) (by rw [List.mem_range, hbase64]; omega)
      rw [hp, show paOff base / 64 + (e.1 - paOff base / 64) = e.1 by omega] at hk
      exact (Bool.not_eq_true _).mp hk
    obtain ⟨t, ht, hf⟩ := acceptLines_isSome (s := u) (core := core) (who := agentWriter core) hc hfree (by
      rw [show u.vault core = s.vault core from rfl, hw, List.length_nil, show wbufSize = 64 from rfl]
      omega)
    have htc : t.core core = u.core core := by rw [hf]; rfl
    refine ⟨t, ?_, by rw [htc, hu], by rw [htc, hu]⟩
    simp only [State.htbaseSet, hbase]
    rw [if_neg hn, State.storeBytes, if_neg, State.acceptBytes, if_pos hr, hp]
    · exact ht
    · rintro ⟨-, he⟩
      obtain ⟨l, -, hread⟩ := List.any_eq_true.mp he
      rw [hp] at hread
      exact Bool.false_ne_true ((hl _).symm.trans hread)

/-! #### Checkpoint intervals (R404) -/

/-- The lines that stand in the write buffers of all vaults. -/
def State.bufferedLines (s : State) : List (Nat × Nat) := s.vaults.flatMap (fun (e : Nat × Vault) => e.2.wbuf.map (fun l => (e.1, l.line)))

theorem mem_bufferedLines {s : State} {c n : Nat} : (c, n) ∈ s.bufferedLines ↔ ∃ e ∈ s.vaults, e.1 = c ∧ ∃ w ∈ e.2.wbuf, w.line = n := by
  simp only [State.bufferedLines, List.mem_flatMap, List.mem_map, Prod.mk.injEq]
  constructor
  · rintro ⟨e, he, w, hw, h1, h2⟩
    exact ⟨e, he, h1, w, hw, h2⟩
  · rintro ⟨e, he, h1, w, hw, h2⟩
    exact ⟨e, he, w, hw, h1, h2⟩

theorem bufferedLines_nil {s : State} : s.bufferedLines = [] ↔ ∀ e ∈ s.vaults, e.2.wbuf = [] := by
  simp only [State.bufferedLines, List.flatMap_eq_nil_iff, List.map_eq_nil_iff]

theorem vault_newInterval (s : State) (c : Nat) : s.newInterval.vault c = { s.vault c with ckptLines := [] } := by
  show Table.get (s.vaults.map _) c Vault.reset = _
  exact Table.get_map s.vaults (fun _ v => { v with ckptLines := [] }) c Vault.reset rfl

/-- What the close of an interval leaves (R404). -/
structure Closed (s t : State) : Prop where
  clk : t.dev.ckptClk = s.clk
  bufs : ∀ c, (t.vault c).ckptLines = [] ∧ (t.vault c).wbuf = (s.vault c).wbuf
  mem : t.mem = s.mem
  done : (∀ e ∈ s.vaults, e.2.wbuf = []) → t.dev.ckptNum = s.dev.ckptNum + 1 ∧ t.dev.closing = none ∧
    ∀ c, (t.vault c).ckpt = (s.vault c).ckpt.filter (fun e => e.num == (s.dev.ckptNum + 1).toNat)
  waits : (∃ e ∈ s.vaults, e.2.wbuf ≠ []) → t.dev.ckptNum = s.dev.ckptNum ∧ (∀ c, (t.vault c).ckpt = (s.vault c).ckpt) ∧
    ∃ ls, t.dev.closing = some ls ∧ ∀ c n, (c, n) ∈ ls ↔ ∃ e ∈ s.vaults, e.1 = c ∧ ∃ w ∈ e.2.wbuf, w.line = n

theorem closeInterval_closed {s : State} (h : s.dev.closing = none) : Closed s s.closeInterval := by
  let u : State := s.newInterval.modDev (fun d => { d with closing := some s.bufferedLines, ckptClk := s.clk })
  have hu (c : Nat) : u.vault c = { s.vault c with ckptLines := [] } := vault_newInterval s c
  have hc : s.closeInterval = u.closeEnd := by
    rw [State.closeInterval, if_neg (by simp [h])]
    rfl
  rw [hc]
  by_cases hb : s.bufferedLines = []
  · have he : u.dev.closing = some [] := congrArg some hb
    have hv (c : Nat) : u.closeEnd.vault c =
        { s.vault c with ckptLines := [], ckpt := (s.vault c).ckpt.filter (fun c => c.num == (s.dev.ckptNum + 1).toNat) } := by
      rw [State.closeEnd, if_pos he]
      refine (Table.get_map u.vaults (fun _ v => { v with ckpt := v.ckpt.filter (fun c => c.num == (s.dev.ckptNum + 1).toNat) }) c Vault.reset rfl).trans ?_
      show ({ u.vault c with ckpt := (u.vault c).ckpt.filter _ } : Vault) = _
      rw [hu]
    refine ⟨?_, fun c => ⟨by rw [hv], by rw [hv]⟩, ?_, fun _ => ⟨?_, ?_, fun c => by rw [hv]⟩, ?_⟩
    · rw [State.closeEnd, if_pos he]
      rfl
    · rw [State.closeEnd, if_pos he]
      rfl
    · rw [State.closeEnd, if_pos he]
      rfl
    · rw [State.closeEnd, if_pos he]
      rfl
    · rintro ⟨e, he, hne⟩
      exact absurd (bufferedLines_nil.mp hb e he) hne
  · have he : u.dev.closing ≠ some [] := fun h => hb (Option.some.inj h)
    rw [State.closeEnd, if_neg he]
    refine ⟨rfl, fun c => ⟨by rw [hu], by rw [hu]⟩, rfl, fun hn => absurd (bufferedLines_nil.mpr hn) hb, fun _ => ?_⟩
    exact ⟨rfl, fun c => by rw [hu], _, rfl, fun c n => mem_bufferedLines⟩

/-- CKPTCTL written without CLOSE (R403). -/
theorem ckptctlSet_leaves {s : State} {v : Word} (h : wbit v 21 = false) :
    (s.ckptctlSet v).dev.ckptEn = wbit v 0 ∧ (s.ckptctlSet v).dev.ckptUs = max (wbits v 1 20) 1 ∧ (s.ckptctlSet v).dev.ckptNum = s.dev.ckptNum ∧
    (wbit v 0 = true → s.dev.ckptEn = false → (s.ckptctlSet v).dev.ckptClk = s.clk ∧ ∀ c, ((s.ckptctlSet v).vault c).ckpt = []) ∧
    (s.ckptctlSet v).mem = s.mem := by
  simp only [State.ckptctlSet, h, Bool.false_and, Bool.false_eq_true, if_false]
  by_cases hs : (wbit v 0 && !s.dev.ckptEn) = true
  · rw [if_pos hs]
    refine ⟨rfl, rfl, rfl, fun _ _ => ⟨if_pos hs, fun c => ?_⟩, rfl⟩
    exact congrArg Vault.ckpt (Table.get_map s.vaults (fun _ v => { v with ckpt := [], ckptLines := [] }) c Vault.reset rfl)
  · rw [if_neg hs]
    exact ⟨rfl, rfl, rfl, fun h1 h2 => absurd (by simp [h1, h2]) hs, rfl⟩

/-! #### Snapshots, notices and clusters -/

/-- R405: a snapshot latches the blocks of its stack, unless one has not been read. -/
theorem snapSet_takes {s : State} {k : Nat} (h : (s.stk k).snap = false) :
    ((s.snapSet k 1).stk k).snap = true ∧ ((s.snapSet k 1).stk k).snapDone = true ∧ ((s.snapSet k 1).stk k).snapHeld = some (s.latch k) := by
  let u : State := s.modStk k (fun t => { t with snapDone := false })
  have hk : u.stk k = { s.stk k with snapDone := false } := State.modStk_stk_same s k _
  have hl : u.latch k = s.latch k := by
    simp only [State.latch, hk]
    rfl
  have hs : s.snapSet k 1 = u.modStk k (fun t => { t with snap := true, snapDone := true, snapHeld := some (s.latch k) }) := by
    rw [State.snapSet, if_pos (by decide), State.snapshot, if_neg (by rw [hk]; simp [h]), hl]
  rw [hs, State.modStk_stk_same]
  exact ⟨rfl, rfl, rfl⟩

theorem snapSet_kept {s : State} {k : Nat} (h : (s.stk k).snap = true) :
    ((s.snapSet k 1).stk k).snap = true ∧ ((s.snapSet k 1).stk k).snapDone = false ∧ ((s.snapSet k 1).stk k).snapHeld = (s.stk k).snapHeld := by
  let u : State := s.modStk k (fun t => { t with snapDone := false })
  have hk : u.stk k = { s.stk k with snapDone := false } := State.modStk_stk_same s k _
  have hs : s.snapSet k 1 = u := by
    rw [State.snapSet, if_pos (by decide), State.snapshot, if_pos (by rw [hk]; exact h)]
  rw [hs, hk]
  exact ⟨h, rfl, rfl⟩

/-- R413: a cluster takes a step from 8 to 16, and 16 for any other. -/
theorem clkstepSet_step (s : State) (cl : Nat) (v : Word) :
    ((s.clkstepSet cl v).cluster cl).step = if 8 ≤ wbits v 0 5 ∧ wbits v 0 5 ≤ 16 then wbits v 0 5 else 16 := by
  rw [State.clkstepSet, State.modCluster_cluster_same]

end Sys2Proof.Machine

namespace Sys2Proof.Proofs

set_option Elab.async false
open Machine Claims

/-- R378: the doorbell. -/
theorem hqtail_rings {q : Nat} (v : Word) (s : State) (hq : q < 64) :
    ∃ t : State, exec (.hqtail q v) s = .next t ∧ (t.hq q).tail = v.setWidth 32 ∧ (t.hq q).head = (s.hq q).head ∧ (t.hq q).ctl = (s.hq q).ctl ∧
      ((s.hq q).st ≠ 1 ∨ (v.setWidth 32 - (s.hq q).head).toNat ≤ 2 ^ wbits (s.hq q).ctl 4 4 → (t.hq q).st = (s.hq q).st) ∧
      ((s.hq q).st = 1 → ¬(v.setWidth 32 - (s.hq q).head).toNat ≤ 2 ^ wbits (s.hq q).ctl 4 4 → (t.hq q).st = 2 ∧ (t.hq q).ecause = 2) ∧
      (∀ p, p ≠ q → t.hq p = s.hq p) ∧ t.mem = s.mem := by
  let u : State := s.modHq q (fun h => { h with tail := v.setWidth 32 })
  have hu : u.hq q = { s.hq q with tail := v.setWidth 32 } := hq_modHq_same
  have he : exec (.hqtail q v) s = when (queueOk q) (fun s => s.hqtailSet q v) s := rfl
  refine ⟨s.hqtailSet q v, he.trans (exec_when (decide_eq_true hq)), ?_⟩
  rw [show s.hqtailSet q v = u.tailCheck q from rfl]
  have ho : (u.hq q).over ↔ (s.hq q).st = 1 ∧ ¬(v.setWidth 32 - (s.hq q).head).toNat ≤ 2 ^ wbits (s.hq q).ctl 4 4 := by
    rw [hu, Nat.not_le]
    rfl
  have hother (p : Nat) (hp : p ≠ q) : (u.tailCheck q).hq p = s.hq p := (hq_tailCheck_other hp).trans (hq_modHq_other hp)
  rcases hq_tailCheck_same u q with ⟨e, hov⟩ | ⟨e, hov⟩
  · rw [e, hu]
    rw [ho] at hov
    exact ⟨rfl, rfl, rfl, fun h => absurd h (by tauto), fun _ _ => ⟨rfl, rfl⟩, hother, tailCheck_mem⟩
  · rw [e, hu]
    rw [ho] at hov
    exact ⟨rfl, rfl, rfl, fun _ => rfl, fun h1 h2 => absurd ⟨h1, h2⟩ hov, hother, tailCheck_mem⟩

/-- R379, R380: HQCTL. -/
theorem hqctl_writes (q : Nat) (v : Word) (s : State) :
    let t := s.hqctlSet q v
    wbit (t.hq q).ctl 0 = wbit v 0 ∧ (t.hq q).head = (s.hq q).head ∧ (t.hq q).tail = (s.hq q).tail ∧
      wbits (t.hq q).ctl 4 4 = (s.hq q).logOf v ∧ wbits (t.hq q).ctl 8 11 = wbits v 8 11 ∧ ((s.hq q).st = 2 → (t.hq q).st = 2) ∧
      ((s.hq q).st ≠ 2 → wbit v 0 = true → (s.hq q).tail = (s.hq q).head → (t.hq q).st = 1) ∧
      ((s.hq q).st ≠ 2 → wbit v 0 = false → (t.hq q).st = 0) ∧ ∀ p, p ≠ q → t.hq p = s.hq p := by
  let u : State := s.modHq q (Hq.written · v)
  have hu : u.hq q = (s.hq q).written v := hq_modHq_same
  obtain ⟨c1, c2, c3⟩ := (s.hq q).written_ctl v
  have h01 : wbits v 0 1 = if wbit v 0 then 1 else 0 := by
    rw [wbit_zero, wbits, bits]
    simp only [pow_zero, Nat.div_one, pow_one, decide_eq_true_eq]
    split <;> omega
  have hst : ((s.hq q).written v).st = if (s.hq q).st = 2 then 2 else wbits v 0 1 := rfl
  have hother (p : Nat) (hp : p ≠ q) : (u.tailCheck q).hq p = s.hq p := (hq_tailCheck_other hp).trans (hq_modHq_other hp)
  dsimp only
  rw [hqctlSet_eq]
  rcases hq_tailCheck_same u q with ⟨e, hov⟩ | ⟨e, hov⟩
  · rw [e, hu]
    rw [hu] at hov
    obtain ⟨h1, h2⟩ := hov
    refine ⟨c1, rfl, rfl, c2, c3, fun _ => rfl, fun _ _ h => ?_, fun hn hw => ?_, hother⟩
    · have h3 : ((s.hq q).written v).tail = ((s.hq q).written v).head := h
      rw [h3, BitVec.sub_self] at h2
      exact absurd h2 (by simp)
    · rw [hst, if_neg hn, h01, hw] at h1
      exact absurd h1 (by simp)
  · rw [e, hu]
    refine ⟨c1, rfl, rfl, c2, c3, fun h => if_pos h, fun hn hw _ => ?_, fun hn hw => ?_, hother⟩
    · rw [hst, if_neg hn, h01, hw]
      rfl
    · rw [hst, if_neg hn, h01, hw]
      rfl

/-- R394: a halted slot restarts. -/
theorem restart_runs {s : State} {h : HartId} (hs : (s.hart h).st = .halted) :
    ((s.restart h).hart h).st = .running ∧ ((s.restart h).hart h).pc = (s.hart h).pc ∧ ((s.restart h).hart h).x = (s.hart h).x := by
  have e : (s.restart h).hart h = _ := State.modHart_hart_same s h _
  rw [e, if_pos hs]
  exact ⟨rfl, rfl, rfl⟩

/-- R107: the spill registers. -/
theorem spillConfig_takes {s : State} {core : Nat} (v : Word) (hn : (s.core core).spillNext = none) :
    ((s.core core).ring = [] →
      (∃ t : State, exec (.spillConfigWrite core true v) s = .next t ∧ (t.core core).spillBase = (s.core core).spillBase ∧
        (t.core core).spillQuota = min (wbits v 0 16) (2 ^ 22 - (s.core core).spillBase)) ∧
      (∃ t : State, exec (.spillConfigWrite core false v) s = .next t ∧ (t.core core).spillBase = wbits v 6 22 ∧
        (t.core core).spillQuota = min (s.core core).spillQuota (2 ^ 22 - wbits v 6 22))) ∧
    ((s.core core).ring ≠ [] → ∃ t : State, exec (.spillConfigWrite core true v) s = .next t ∧ (t.core core).spillQuota = (s.core core).spillQuota ∧
      (t.core core).spillNext = some ((s.core core).spillBase, wbits v 0 16)) := by
  refine ⟨fun hr => ⟨⟨_, rfl, ?_⟩, ⟨_, rfl, ?_⟩⟩, fun hr => ⟨_, rfl, ?_⟩⟩
  · simp only [State.spillSet, hn, hr, Option.getD_none, List.isEmpty_nil, if_true, State.spillApply, State.modCore_core_same]
    exact ⟨trivial, trivial⟩
  · simp only [State.spillSet, hn, hr, Option.getD_none, List.isEmpty_nil, if_true, State.spillApply, State.modCore_core_same]
    exact ⟨rfl, rfl⟩
  · have he : (s.core core).ring.isEmpty = false := by simpa using hr
    simp only [State.spillSet, hn, he, Option.getD_none, Bool.false_eq_true, if_false, if_true, State.modCore_core_same]
    exact ⟨trivial, trivial⟩

/-- R379, R380: HQCTL and HQSTAT of a queue. -/
theorem hq_events {q : Nat} (v : Word) (s : State) (hq : q < 64) :
    (wbit v 0 = true → ∃ t : State, exec (.hqEnable q v) s = .next t ∧ wbit (t.hq q).ctl 0 = true ∧ (t.hq q).head = (s.hq q).head ∧
      (t.hq q).tail = (s.hq q).tail ∧ wbits (t.hq q).ctl 4 4 = (s.hq q).logOf v ∧ wbits (t.hq q).ctl 8 11 = wbits v 8 11 ∧
      ((s.hq q).st = 2 → (t.hq q).st = 2) ∧ ((s.hq q).st ≠ 2 → (s.hq q).tail = (s.hq q).head → (t.hq q).st = 1) ∧ (∀ p, p ≠ q → t.hq p = s.hq p)) ∧
    (wbit v 0 = false → ∃ t : State, exec (.hqDisable q v) s = .next t ∧ wbit (t.hq q).ctl 0 = false ∧ (t.hq q).head = (s.hq q).head ∧
      ((s.hq q).st = 2 → (t.hq q).st = 2) ∧ ((s.hq q).st ≠ 2 → (t.hq q).st = 0) ∧ ∀ p, p ≠ q → t.hq p = s.hq p) ∧
    ((s.hq q).st = 2 → ∃ t : State, exec (.hqstatClr q) s = .next t ∧ (t.hq q).st = 0 ∧ (t.hq q).head = (s.hq q).tail ∧ (t.hq q).flushed = 0 ∧
      ∀ p, p ≠ q → t.hq p = s.hq p) := by
  obtain ⟨h1, h2, h3, h4, h5, h6, h7, h8, h9⟩ := hqctl_writes q v s
  have hok : queueOk q = true := decide_eq_true hq
  have e1 : exec (.hqEnable q v) s = when (queueOk q && wbit v 0) (fun s => s.hqctlSet q v) s := rfl
  have e2 : exec (.hqDisable q v) s = when (queueOk q && !wbit v 0) (fun s => s.hqctlSet q v) s := rfl
  have e3 : exec (.hqstatClr q) s = when (queueOk q) (fun s => s.hqstatClear q) s := rfl
  refine ⟨fun hw => ⟨_, e1.trans (exec_when (by rw [hok, hw]; rfl)), h1.trans hw, h2, h3, h4, h5, h6, fun hn => h7 hn hw, h9⟩,
    fun hw => ⟨_, e2.trans (exec_when (by rw [hok, hw]; rfl)), h1.trans hw, h2, h6, fun hn => h8 hn hw, h9⟩, fun hs => ?_⟩
  have e : (s.hqstatClear q).hq q = _ := hq_modHq_same
  rw [if_pos hs] at e
  exact ⟨_, e3.trans (exec_when hok), by rw [e], by rw [e], by rw [e], fun p hp => hq_modHq_other hp⟩

/-- R262, R413: a register written at management level. -/
theorem registerWrite_takes (cl : Nat) (v : Word) (s : State) (pa : Nat) :
    ((region pa ≠ 4 ∨ pa % 8 ≠ 0 ∨ mmioReg pa = none) → exec (.registerWrite pa v) s = .fault (.noSuchRegister pa)) ∧
    (region pa = 4 → pa % 8 = 0 → mmioReg pa = some (.clkstep cl) → ∃ t : State, exec (.registerWrite pa v) s = .next t ∧
      (t.cluster cl).step = (if 8 ≤ wbits v 0 5 ∧ wbits v 0 5 ≤ 16 then wbits v 0 5 else 16) ∧ t.mem = s.mem) := by
  have he : exec (.registerWrite pa v) s = execRegisterWrite pa v s := rfl
  refine ⟨fun hpa => ?_, fun hr ha hm => ⟨s.clkstepSet cl v, ?_, clkstepSet_step s cl v, rfl⟩⟩
  · have hn : (if region pa = 4 ∧ pa % 8 = 0 then mmioReg pa else none) = none := by
      split
      · tauto
      · rfl
    rw [he, execRegisterWrite, hn]
  · have hn : (if region pa = 4 ∧ pa % 8 = 0 then mmioReg pa else none) = some (.clkstep cl) := by rw [if_pos ⟨hr, ha⟩, hm]
    rw [he, execRegisterWrite, hn]
    rfl

/-- R403, R404: the closes of an interval. -/
theorem closes {core : Nat} {s : State} (hen : s.dev.ckptEn = true) :
    (s.dev.closing.isSome = true → exec .ckptClose s = .next s) ∧
    (s.dev.closing = none → exec .ckptClose s = .next s.closeInterval ∧
      (s.dev.ckptClk + s.dev.ckptUs * 1050 ≤ s.clk → exec .intervalTimer s = .next s.closeInterval) ∧
      (7 * s.dev.ckptLen * 65536 ≤ 8 * 128 * (s.vault core).ckpt.length → exec (.logThreshold core) s = .next s.closeInterval)) := by
  have e1 : exec .ckptClose s = when s.dev.ckptEn State.closeInterval s := rfl
  have e2 : exec .intervalTimer s = when (intervalTimerReady s) State.closeInterval s := rfl
  have e3 : exec (.logThreshold core) s = when (logThresholdReady core s) State.closeInterval s := rfl
  refine ⟨fun hcl => (e1.trans (exec_when hen)).trans (congrArg Host.Outcome.next (if_pos hcl)), fun _ => ⟨e1.trans (exec_when hen), fun ht => ?_, fun hl => ?_⟩⟩
  · refine e2.trans (exec_when ?_)
    rw [intervalTimerReady, hen, Bool.true_and]
    exact decide_eq_true ht
  · refine e3.trans (exec_when ?_)
    rw [logThresholdReady, hen, Bool.true_and]
    exact decide_eq_true hl

/-- R118: the oldest notice of a stack is delivered. -/
theorem notice_delivered {k : Nat} {s : State} {n : Notice} {r : List Notice} (hn : (s.stk k).notices = n :: r) :
    ∃ t : State, exec (.supervisorNotice k) s = .next t ∧ (t.stk k).notices = r ∧ (t.stk k).delivered = (s.stk k).delivered ++ [n] := by
  have he : exec (.supervisorNotice k) s = when (!(s.stk k).notices.isEmpty) (supervisorNoticeEffect k) s := rfl
  refine ⟨supervisorNoticeEffect k s, he.trans (exec_when (by rw [hn]; rfl)), ?_⟩
  simp only [supervisorNoticeEffect, hn, State.modStk_stk_same]
  exact ⟨trivial, trivial⟩

/-- Settles O50: queues, slots, the registers of cores and clusters, intervals, snapshots and notices. -/
theorem registerEvents : Obligations.RegisterEvents := by
  intro q core cl k h v s
  refine ⟨fun hq => ⟨hqtail_rings v s hq, hq_events v s hq⟩, fun ho => ⟨_, rfl, preemptSet_req ho⟩,
    fun hk ho => ⟨congrArg Host.Outcome.next (preemptSet_empty hk ho _ _), congrArg Host.Outcome.next (preemptSet_empty hk ho _ _)⟩,
    fun ho hr => ⟨_, rfl, preemptSet_kill ho hr⟩, fun hs => ⟨_, rfl, restart_runs hs⟩, fun hb => ?_, ⟨_, rfl, ?_⟩, ⟨_, rfl, ?_⟩, ⟨_, rfl, ?_⟩,
    fun hn => spillConfig_takes v hn, ⟨_, rfl, clkstepSet_step s cl v, fun c hc => State.modCluster_cluster_other s cl c _ (Ne.symm hc), rfl⟩,
    fun pa => (registerWrite_takes cl v s pa).1, fun pa => (registerWrite_takes cl v s pa).2, fun hc => ⟨_, rfl, ckptctlSet_leaves hc⟩,
    fun he => ⟨(closes (core := core) he).1, fun hcl => ?_⟩,
    fun hs => ⟨_, rfl, snapSet_takes hs⟩, fun hs => ⟨_, rfl, snapSet_kept hs⟩, fun n r hn => notice_delivered hn⟩
  · obtain ⟨t, ht, h1, h2⟩ := htbaseSet_takes hb
    exact ⟨t, congrArg Host.Outcome.next (by rw [ht]; rfl), h1, h2⟩
  · have e : (s.msgerrClear h).hart h = _ := State.modHart_hart_same s h _
    exact ⟨by rw [e]; rfl, by rw [e]; rfl, fun g hg => State.modHart_hart_other s h g _ (Ne.symm hg)⟩
  · rw [State.vaultevtSet, State.modVault_vault_same]
    exact ⟨rfl, rfl, rfl⟩
  · rw [State.aqstatSet, State.modCore_core_same]
    exact ⟨rfl, rfl, rfl, rfl⟩
  · have hc := closeInterval_closed hcl
    obtain ⟨h1, h2, h3⟩ := (closes (core := core) he).2 hcl
    exact ⟨⟨_, h1, hc.clk, hc.bufs, hc.mem, hc.done, hc.waits⟩, fun ht => ⟨_, h2 ht, hc.clk, hc.bufs, hc.mem, hc.done, hc.waits⟩,
      fun hl => ⟨_, h3 hl, hc.clk, hc.bufs, hc.mem, hc.done, hc.waits⟩⟩

end Sys2Proof.Proofs

/-! PROOFS. Errors, retirement, rollback, lockstep and links (R400 to R404, R408). -/

namespace Sys2Proof.Machine

set_option Elab.async false
open Claims

/-! ### Errors, retirement, rollback, lockstep and links (R400 to R404, R408) -/

/-- What the cancelling of items and the killing of units leave as it is: NUM, what is to be rolled back, which clusters are halted, the notices
of the stacks, and what each vault has logged. -/
structure Standing where
  num : BitVec 32
  rolls : List (Nat × RollCause)
  halted : Nat → Bool
  notices : Nat → List Notice
  logs : List (Nat × List CkptEnt)

def State.standing (s : State) : Standing :=
  ⟨s.dev.ckptNum, s.dev.rolls, fun c => (s.cluster c).halted, fun k => (s.stk k).notices, s.vaults.map (fun e => (e.1, e.2.ckpt))⟩

theorem standing_logs (s : State) : s.standing.logs = s.vaults.map (fun e => (e.1, e.2.ckpt)) := rfl

section
variable {s t : State} (h : t.standing = s.standing)
include h

theorem ckptNum_of_standing : t.dev.ckptNum = s.dev.ckptNum := congrArg Standing.num h
theorem rolls_of_standing : t.dev.rolls = s.dev.rolls := congrArg Standing.rolls h
theorem halted_of_standing (c : Nat) : (t.cluster c).halted = (s.cluster c).halted := congrFun (congrArg Standing.halted h) c
theorem notices_of_standing (k : Nat) : (t.stk k).notices = (s.stk k).notices := congrFun (congrArg Standing.notices h) k

end

@[simp] theorem modHart_standing (s : State) (h : HartId) (f : Hart → Hart) : (s.modHart h f).standing = s.standing := rfl
@[simp] theorem modCore_standing (s : State) (c : Nat) (f : Core → Core) : (s.modCore c f).standing = s.standing := rfl

theorem modDev_standing (s : State) (f : Device → Device) (hn : (f s.dev).ckptNum = s.dev.ckptNum) (hr : (f s.dev).rolls = s.dev.rolls) :
    (s.modDev f).standing = s.standing := by
  simp only [State.standing, State.modDev_dev, hn, hr]
  rfl

theorem modCluster_standing (s : State) (c : Nat) (f : Cluster → Cluster) (hf : ∀ x, (f x).halted = x.halted) : (s.modCluster c f).standing = s.standing := by
  have h : (fun k => ((s.modCluster c f).cluster k).halted) = fun k => (s.cluster k).halted := by
    funext k
    by_cases hk : c = k
    · subst hk
      rw [State.modCluster_cluster_same, hf]
    · rw [State.modCluster_cluster_other _ _ _ _ hk]
  show Standing.mk _ _ (fun k => ((s.modCluster c f).cluster k).halted) _ _ = _
  rw [h]
  rfl

theorem modStk_standing (s : State) (k : Nat) (f : Stack → Stack) (hf : ∀ x, (f x).notices = x.notices) : (s.modStk k f).standing = s.standing := by
  have h : (fun j => ((s.modStk k f).stk j).notices) = fun j => (s.stk j).notices := by
    funext j
    by_cases hk : k = j
    · subst hk
      rw [State.modStk_stk_same, hf]
    · rw [State.modStk_stk_other _ _ _ _ hk]
  show Standing.mk _ _ _ (fun j => ((s.modStk k f).stk j).notices) _ = _
  rw [h]
  rfl

/-- A listed thing that is replaced by one of the same kind. -/
theorem Table.map_set {κ α β : Type} [DecidableEq κ] (t : Table κ α) (k : κ) (v d : α) (g : α → β) (hg : g v = g (t.get k d)) (hh : t.has k = true) :
    (t.set k v).map (fun e => (e.1, g e.2)) = t.map (fun e => (e.1, g e.2)) := by
  induction t with
  | nil => simp [Table.has] at hh
  | cons e r ih =>
    obtain ⟨j, w⟩ := e
    simp only [Table.set, Table.get, Table.has] at hg hh ⊢
    by_cases hj : j = k
    · subst hj
      rw [if_pos rfl] at hg ⊢
      rw [List.map_cons, List.map_cons, hg]
    · rw [if_neg hj] at hg ⊢
      rw [List.map_cons, List.map_cons, ih hg (by simpa [hj] using hh)]

theorem Table.has_of_get {κ α : Type} [DecidableEq κ] (t : Table κ α) (k : κ) (d : α) (h : t.get k d ≠ d) : t.has k = true := by
  induction t with
  | nil => exact absurd rfl h
  | cons e r ih =>
    obtain ⟨j, w⟩ := e
    simp only [Table.get, Table.has] at h ⊢
    by_cases hj : j = k
    · simp [hj]
    · rw [if_neg hj] at h
      simp [hj, ih h]

@[simp] theorem dropReads_standing (s : State) (c : Nat) (w : Reader) : (s.dropReads c w).standing = s.standing := by
  have hf : (s.forgetEarly w).standing = s.standing := by
    unfold State.forgetEarly
    split
    · exact modDev_standing _ _ rfl rfl
    · rfl
  rw [← hf]
  unfold State.dropReads
  generalize s.forgetEarly w = u
  dsimp only
  split
  · rename_i hr
    have hh : u.vaults.has c = true := Table.has_of_get _ _ Vault.reset (fun e => by
      rw [show u.vault c = Vault.reset from e] at hr
      exact absurd hr (by simp [Vault.reads, Vault.reset]))
    have hm := Table.map_set u.vaults c ((u.vault c).drop w) Vault.reset Vault.ckpt rfl hh
    show Standing.mk _ _ _ _ ((u.vaults.set c ((u.vault c).drop w)).map _) = _
    rw [hm]
    rfl
  · rfl

/-- A state changed in turn for each of a list, every change leaving something as it is. -/
theorem foldl_keeps {α β : Type} (F : State → β) (f : State → α → State) (hf : ∀ s a, F (f s a) = F s) (l : List α) (s : State) : F (l.foldl f s) = F s := by
  induction l generalizing s with
  | nil => rfl
  | cons a r ih => exact (ih _).trans (hf s a)

@[simp] theorem reply_standing (s : State) (r : Reply) : (s.reply r).standing = s.standing := by
  unfold State.reply
  split <;> exact modDev_standing _ _ rfl rfl

@[simp] theorem nackMsg_standing (s : State) (m : Msg) (c t : BitVec 8) : (s.nackMsg m c t).standing = s.standing := by
  unfold State.nackMsg State.replyAll
  split
  · exact reply_standing _ _
  · exact foldl_keeps State.standing _ (fun s _ => reply_standing s _) _ _

@[simp] theorem send_standing (s : State) (m : Msg) (b : Bool) : (s.send m b).standing = s.standing := by
  have h0 : (s.modDev (fun d => { d with nextMsg := d.nextMsg + 1 })).standing = s.standing := modDev_standing _ _ rfl rfl
  have hnet (u : State) (m : Msg) (hu : u.standing = s.standing) : (u.modDev (fun d => { d with net := d.net ++ [m] })).standing = s.standing :=
    (modDev_standing _ _ rfl rfl).trans hu
  have hnack (u : State) (m : Msg) (hu : u.standing = s.standing) : (u.nackMsg m 0x0D 0).standing = s.standing := (nackMsg_standing _ _ _ _).trans hu
  have hout (u : State) (m : Msg) (hu : u.standing = s.standing) :
      (if u.reachable m.dev then u.modDev (fun d => { d with net := d.net ++ [m] }) else u.nackMsg m 0x0D 0).standing = s.standing := by
    split
    · exact hnet u m hu
    · exact hnack u m hu
  refine hout _ _ ?_
  split
  · exact h0
  · exact h0

@[simp] theorem withdraw_standing (s : State) (h : HartId) : (s.withdraw h).standing = s.standing :=
  foldl_keeps State.standing _ (fun s _ => send_standing s _ _) _ _

@[simp] theorem dropLock_standing (s : State) (h : HartId) (k : Nat × Nat × Nat) : (s.dropLock h k).standing = s.standing := by
  unfold State.dropLock
  split
  · exact modCluster_standing _ _ _ (fun _ => rfl)
  · exact modCluster_standing _ _ _ (fun _ => rfl)

@[simp] theorem clearLock_standing (s : State) (h : HartId) : (s.clearLock h).standing = s.standing := by
  unfold State.clearLock
  split
  · rfl
  · exact dropLock_standing s h _

theorem drainSlot_standing (s : State) (c n : Nat) : (s.drainSlot c n).standing = s.standing := by
  rw [State.drainSlot, modCluster_standing, State.modSlot, modCluster_standing]
  · exact fun _ => rfl
  · exact fun _ => rfl

@[simp] theorem dropLease_standing (s : State) (h : HartId) : (s.dropLease h).standing = s.standing := by
  unfold State.dropLease
  split
  · rfl
  · exact drainSlot_standing s _ _

@[simp] theorem dropAsked_standing (s : State) (h : HartId) : (s.dropAsked h).standing = s.standing :=
  (foldl_keeps State.standing _ (fun s _ => dropReads_standing s _ _) _ _).trans (dropReads_standing _ _ _)

@[simp] theorem killUnit_standing (s : State) (h : HartId) (c : BitVec 8) : (s.killUnit h c).standing = s.standing := by
  simp only [State.killUnit]
  rw [modHart_standing, modCluster_standing, modCore_standing, dropAsked_standing, dropLease_standing, clearLock_standing, withdraw_standing]
  exact fun _ => rfl

theorem modItem_standing (s : State) (k t i : Nat) (f : Item → Item) : (s.modItem k t i f).standing = s.standing := by
  unfold State.modItem
  exact modStk_standing _ _ _ (fun x => by split <;> rfl)

theorem settleItem_standing (n : Nat) (s : State) (k i : Nat) : (s.settleItem k n i).standing = s.standing := by
  induction n generalizing s i with
  | zero =>
    rw [State.settleItem]
    dsimp only
    split
    · rfl
    · exact modItem_standing _ _ _ _ _
  | succ n ih =>
    rw [State.settleItem]
    dsimp only
    split
    · rfl
    · exact (ih _ _).trans ((modItem_standing _ _ _ _ _).trans (modItem_standing _ _ _ _ _))

theorem cancelLaunch_standing (s : State) (k l : Nat) : (s.cancelLaunch k l).standing = s.standing := by
  unfold State.cancelLaunch
  refine (settleItem_standing 3 _ k l).trans ((foldl_keeps State.standing _ (fun s h => killUnit_standing s h 0) _ _).trans
    ((foldl_keeps State.standing _ (fun s h => ?_) _ _).trans ?_))
  · exact modHart_standing _ _ _
  · exact modStk_standing _ _ _ (fun _ => rfl)

theorem cancelItem_standing (s : State) (k t i : Nat) : (s.cancelItem k t i).standing = s.standing := by
  have mark (tb : Nat) (ids : List Nat) (s : State) : (ids.foldl (fun s i => s.modItem k tb i (fun x => { x with st := .cancelling })) s).standing = s.standing :=
    foldl_keeps State.standing _ (fun s j => modItem_standing s k tb j _) ids s
  have settle (n : Nat) (ids : List Nat) (s : State) : (ids.foldl (fun s i => s.settleItem k n i) s).standing = s.standing :=
    foldl_keeps State.standing _ (fun s j => settleItem_standing n s k j) ids s
  unfold State.cancelItem
  refine (settle _ _ _).trans ((settle _ _ _).trans ((settle _ _ _).trans ((foldl_keeps State.standing _ (fun s l => cancelLaunch_standing s k l) _ _).trans ?_)))
  exact (mark _ _ _).trans ((mark _ _ _).trans ((mark _ _ _).trans (mark _ _ _)))

theorem cancelContext_standing (s : State) (c : Nat) : (s.cancelContext c).standing = s.standing := by
  refine foldl_keeps State.standing _ (fun s k => ?_) _ _
  refine foldl_keeps State.standing _ (fun s p => ?_) _ _
  split
  · rfl
  · exact cancelItem_standing _ _ _ _

/-! #### Rollback -/

theorem killUnit_wait (s : State) (h : HartId) (c : BitVec 8) : ((s.killUnit h c).hart h).wait = some (.killed c) := by
  simp only [State.killUnit]
  rw [State.modHart_hart_same]

/-- A line written back is read as it was logged (R404). -/
theorem readByte_writeBack {s : State} {e : CkptEnt} {n : Nat} (hr : region e.pa = 0) (ha : e.pa % 64 = 0) (hl : e.old.length = 64) (hn : n < 64) :
    some ((s.writeBack e).readByte (e.pa + n)) = e.old[n]? := by
  have hr' : region (e.pa + n) = 0 := by
    simp only [region, bits] at hr ⊢
    omega
  have hcore : paCore (e.pa + n) = paCore e.pa := by simp only [paCore, bits]; omega
  have hline : paOff (e.pa + n) / 64 = paOff e.pa / 64 := by simp only [paOff, bits]; omega
  have hbuf : ((s.writeBack e).vault (paCore (e.pa + n))).bufLine (paOff (e.pa + n)) = none := by
    rw [hcore, Vault.bufLine, hline, List.find?_eq_none]
    intro l hl
    simp only [State.writeBack] at hl
    rw [State.writeMem_vault, State.modVault_vault_same] at hl
    have := (List.mem_filter.mp hl).2
    simpa using this
  have hmem : (s.writeBack e).mem.read (e.pa + n) = e.old[n] := by
    simp only [State.writeBack]
    rw [State.writeMem_mem, homePa_vault hr]
    exact read_write_same _ _ _ _ (by omega)
  rw [State.readByte, if_pos hr', hbuf, List.getElem?_eq_getElem (by omega)]
  exact congrArg some hmem

theorem writeBack_standing_num (s : State) (e : CkptEnt) : (s.writeBack e).dev.ckptNum = s.dev.ckptNum := by
  have h := ckptNum_of_standing (dropReads_standing s (paCore e.pa) (.drain (paOff e.pa / 64)))
  rw [← h]
  rfl

theorem writeBack_hart (s : State) (e : CkptEnt) (h : HartId) : (s.writeBack e).hart h = s.hart h := by
  simp only [State.writeBack]
  rw [State.writeMem_hart, State.modVault_hart, State.dropReads_hart]

/-- The stacks that hold a context's launches are told (R404). -/
def State.tell (s : State) (ks : List Nat) : State := ks.foldl (fun s k => s.notify k (.rollback s.dev.ckptNum.toNat)) s

theorem tell_frame (ks : List Nat) (s : State) : (s.tell ks).dev = s.dev ∧ (∀ h, (s.tell ks).hart h = s.hart h) ∧ (∀ a, (s.tell ks).readByte a = s.readByte a) := by
  induction ks generalizing s with
  | nil => exact ⟨rfl, fun _ => rfl, fun _ => rfl⟩
  | cons k r ih => exact ih (s.notify k (.rollback s.dev.ckptNum.toNat))

theorem mem_notices_notify {s : State} {k j : Nat} {n m : Notice} (h : m ∈ (s.stk j).notices ∨ (k = j ∧ m = n)) : m ∈ ((s.notify k n).stk j).notices := by
  rw [State.notify]
  by_cases hk : k = j
  · subst hk
    rw [State.modStk_stk_same]
    simpa using h
  · rw [State.modStk_stk_other _ _ _ _ hk]
    tauto

theorem mem_notices_tell {ks : List Nat} {s : State} {j : Nat}
    (h : .rollback s.dev.ckptNum.toNat ∈ (s.stk j).notices ∨ j ∈ ks) : Notice.rollback s.dev.ckptNum.toNat ∈ ((s.tell ks).stk j).notices := by
  induction ks generalizing s with
  | nil => exact h.resolve_right (by simp)
  | cons k r ih =>
    refine ih (s := s.notify k (.rollback s.dev.ckptNum.toNat)) ?_
    rcases h with h | h
    · exact .inl (mem_notices_notify (.inl h))
    · rcases List.mem_cons.mp h with rfl | h
      · exact .inl (mem_notices_notify (.inr ⟨rfl, rfl⟩))
      · exact .inr h

/-- The lines that the vaults have logged for some address spaces, written back newest first (R404). -/
def State.writeLogs (s : State) (asids : List (BitVec 12)) : State :=
  s.vaults.foldl (fun (t : State) (e : Nat × Vault) => (e.2.ckpt.reverse.filter (fun c => asids.contains c.asid)).foldl (fun t c => t.writeBack c) t) s

section
variable {s : State} {ccb core : Nat} {v : Vault} {e : CkptEnt} {h : HartId}

/-- The state of a rollback whose context's items are cancelled and whose unit is killed. -/
def State.rolling (s : State) (ccb : Nat) (h : HartId) : State := (s.cancelContext ccb).killUnit h 0

theorem rolling_standing : (s.rolling ccb h).standing = s.standing := (killUnit_standing _ _ _).trans (cancelContext_standing _ _)

theorem rolling_vaults (hv : s.vaults = [(core, v)]) (hc : v.ckpt = [e]) : ∃ w : Vault, (s.rolling ccb h).vaults = [(core, w)] ∧ w.ckpt = [e] := by
  have hm : (s.rolling ccb h).vaults.map (fun e => (e.1, e.2.ckpt)) = [(core, [e])] := by
    rw [← standing_logs, rolling_standing, standing_logs, hv, List.map_cons, List.map_nil, hc]
  obtain ⟨⟨c, w⟩, hl, he⟩ := List.map_eq_singleton_iff.mp hm
  obtain ⟨rfl, hw⟩ := Prod.mk.inj he
  exact ⟨w, hl, hw⟩

/-- A rollback of a context with one unit, and with one line logged for one of its address spaces. -/
theorem rollbackEffect_eq (hv : s.vaults = [(core, v)]) (hc : v.ckpt = [e]) (ha : e.asid ∈ s.rollAsids ccb) (hh : s.contextHarts ccb = [h]) :
    rollbackEffect ccb s = (((s.rolling ccb h).writeBack e).tell (allStacks.filter (fun k => !(s.contextLaunches k ccb).isEmpty))).modDev
      (fun d => { d with rolls := d.rolls.filter (fun e => e.1 != ccb) }) := by
  obtain ⟨w, hw, hwc⟩ := rolling_vaults (ccb := ccb) (h := h) hv hc
  have hb : (s.rolling ccb h).writeLogs (s.rollAsids ccb) = (s.rolling ccb h).writeBack e := by
    rw [State.writeLogs, hw, List.foldl_cons, List.foldl_nil, hwc, List.reverse_singleton, List.filter_cons_of_pos (by simpa using ha)]
    rfl
  rw [← hb, rollbackEffect, hh]
  rfl

end

/-! #### Lockstep -/

theorem mem_of_ground {s t : State} (h : t.ground = s.ground) : t.mem = s.mem := congrArg Ground.mem h

theorem haltCluster_halted (s : State) (cl c : Nat) : ((s.haltCluster cl).cluster c).halted = (decide (c = cl) || (s.cluster c).halted) := by
  have hf (u : State) (l : List HartId) (f : Hart → Hart) : (l.foldl (fun s h => s.modHart h f) u).cluster c = u.cluster c :=
    foldl_keeps (fun s => s.cluster c) (fun s h => s.modHart h f) (fun _ _ => rfl) l u
  rw [State.haltCluster, hf]
  by_cases hc : cl = c
  · subst hc
    rw [State.modCluster_cluster_same]
    simp
  · rw [State.modCluster_cluster_other _ _ _ _ hc]
    simp [Ne.symm hc]

/-- The contexts under lockstep cancelled, to be rolled back (R402). -/
def State.rollLockstep (s : State) (cs : List Nat) : State := cs.foldl (fun s c => (s.cancelContext c).noteRoll c .lockstep) s

theorem noteRoll_rolls (s : State) (c : Nat) (why : RollCause) :
    (∃ w, (c, w) ∈ (s.noteRoll c why).dev.rolls) ∧ ∀ p ∈ s.dev.rolls, p ∈ (s.noteRoll c why).dev.rolls := by
  rw [State.noteRoll, State.modDev_dev]
  split
  · rename_i h
    obtain ⟨⟨d, w⟩, hm, he⟩ := List.any_eq_true.mp h
    have hd : d = c := by simpa using he
    subst hd
    exact ⟨⟨w, hm⟩, fun p hp => hp⟩
  · exact ⟨⟨why, by simp⟩, fun p hp => by simp [hp]⟩

theorem noteRoll_frame (s : State) (c : Nat) (why : RollCause) : (∀ k, (s.noteRoll c why).cluster k = s.cluster k) ∧
    (∀ k, (s.noteRoll c why).stk k = s.stk k) ∧ (s.noteRoll c why).mem = s.mem := ⟨fun _ => rfl, fun _ => rfl, rfl⟩

theorem rollLockstep_cons (s : State) (d : Nat) (r : List Nat) :
    s.rollLockstep (d :: r) = ((s.cancelContext d).noteRoll d .lockstep).rollLockstep r := by
  rw [State.rollLockstep, List.foldl_cons, State.rollLockstep]

theorem rollLockstep_keeps (cs : List Nat) (s : State) : (∀ c, ((s.rollLockstep cs).cluster c).halted = (s.cluster c).halted) ∧
    (∀ k, ((s.rollLockstep cs).stk k).notices = (s.stk k).notices) ∧ (∀ p ∈ s.dev.rolls, p ∈ (s.rollLockstep cs).dev.rolls) ∧
    (∀ c ∈ cs, ∃ w, (c, w) ∈ (s.rollLockstep cs).dev.rolls) ∧ (s.rollLockstep cs).mem = s.mem := by
  induction cs generalizing s with
  | nil => exact ⟨fun _ => rfl, fun _ => rfl, fun _ h => h, fun c h => by simp at h, rfl⟩
  | cons d r ih =>
    obtain ⟨h1, h2, h3, h4, h5⟩ := ih ((s.cancelContext d).noteRoll d .lockstep)
    have hs := cancelContext_standing s d
    have hm : (s.cancelContext d).mem = s.mem := mem_of_ground (State.cancelContext_ground s d)
    obtain ⟨n1, n2⟩ := noteRoll_rolls (s.cancelContext d) d .lockstep
    obtain ⟨f1, f2, f3⟩ := noteRoll_frame (s.cancelContext d) d .lockstep
    rw [rollLockstep_cons]
    refine ⟨fun c => ?_, fun k => ?_, fun p hp => h3 p (n2 p ?_), fun c hc => ?_, ?_⟩
    · rw [h1, f1, halted_of_standing hs]
    · rw [h2, f2, notices_of_standing hs]
    · rw [rolls_of_standing hs]
      exact hp
    · rcases List.mem_cons.mp hc with rfl | hc
      · obtain ⟨w, hw⟩ := n1
        exact ⟨w, h3 _ hw⟩
      · exact h4 c hc
    · rw [h5, f3, hm]

theorem mem_notices_machineCheck (s : State) (c : Nat) (v : Word) : .machineCheck c v ∈ ((s.machineCheck c v).stk (stackOf c)).notices := by
  have h : .machineCheck c v ∈ ((s.notify (stackOf c) (.machineCheck c v)).stk (stackOf c)).notices := mem_notices_notify (.inr ⟨rfl, rfl⟩)
  rw [State.machineCheck, State.snapshot]
  split
  · exact h
  · rw [State.modStk_stk_same]
    exact h

theorem machineCheck_cluster (s : State) (c : Nat) (v : Word) (k : Nat) : (s.machineCheck c v).cluster k = s.cluster k := by
  obtain ⟨ks, h⟩ := Proofs.machineCheck_frame s c v
  rw [h]
  rfl

/-- The two clusters of a pair halt, and management is told (R402). -/
def State.pairHalts (s : State) (cl : Nat) : State := ((s.haltCluster cl).haltCluster (cl + 1)).machineCheck (8 * cl) 0

theorem pairHalts_leaves (s : State) (cl : Nat) : ((s.pairHalts cl).cluster cl).halted = true ∧ ((s.pairHalts cl).cluster (cl + 1)).halted = true ∧
    .machineCheck (8 * cl) 0 ∈ ((s.pairHalts cl).stk (stackOf (8 * cl))).notices ∧ (s.pairHalts cl).mem = s.mem := by
  have hhalt (c : Nat) : ((s.pairHalts cl).cluster c).halted = (decide (c = cl + 1) || (decide (c = cl) || (s.cluster c).halted)) := by
    rw [State.pairHalts, machineCheck_cluster, haltCluster_halted, haltCluster_halted]
  refine ⟨by rw [hhalt]; simp, by rw [hhalt]; simp, mem_notices_machineCheck _ _ _, ?_⟩
  exact mem_of_ground ((State.machineCheck_ground _ _ _).trans ((State.haltCluster_ground _ _).trans (State.haltCluster_ground _ _)))

/-! #### Links -/

theorem modPort_port (s : State) (p : Nat) (f : Port → Port) : (s.modPort p f).dev.ports.get p Port.reset = f (s.dev.ports.get p Port.reset) := by
  rw [State.modPort, State.modDev_dev, Table.get_set_same]

/-- An answer to a message on its way leaves the net and the links. -/
theorem reply_net (s : State) (r : Reply) : (s.reply r).dev.net = s.dev.net ∧ (s.reply r).dev.ports = s.dev.ports ∧ (s.reply r).dev.devnum = s.dev.devnum ∧
    (s.reply r).mem = s.mem := by
  rw [State.reply]
  split <;> exact ⟨rfl, rfl, rfl, rfl⟩

theorem nackMsg_net (s : State) (m : Msg) (c t : BitVec 8) : (s.nackMsg m c t).dev.net = s.dev.net ∧ (s.nackMsg m c t).dev.ports = s.dev.ports ∧
    (s.nackMsg m c t).dev.devnum = s.dev.devnum ∧ (s.nackMsg m c t).mem = s.mem := by
  have h (F : State → List Msg × Table Nat Port × BitVec 16 × Memory) (hF : ∀ s r, F (State.reply s r) = F s) : F (s.nackMsg m c t) = F s := by
    unfold State.nackMsg State.replyAll
    split
    · exact hF _ _
    · exact foldl_keeps F _ (fun s _ => hF s _) _ _
  have e := h (fun s => (s.dev.net, s.dev.ports, s.dev.devnum, s.mem)) (fun s r => by
    obtain ⟨h1, h2, h3, h4⟩ := reply_net s r
    rw [h1, h2, h3, h4])
  simpa only [Prod.mk.injEq] using e

/-- The messages that nothing reaches any more are answered (R130, R408). -/
def State.unreached (s : State) : State :=
  (s.dev.net.filter (fun m => !s.reachable m.dev)).foldl (fun s m => s.nackMsg m 0x0D 0)
    (s.modDev (fun d => { d with net := d.net.filter (fun m => s.reachable m.dev) }))

theorem nackAll_net (l : List Msg) (s : State) : (l.foldl (fun s m => s.nackMsg m 0x0D 0) s).dev.net = s.dev.net ∧
    (l.foldl (fun s m => s.nackMsg m 0x0D 0) s).dev.ports = s.dev.ports ∧ (l.foldl (fun s m => s.nackMsg m 0x0D 0) s).dev.devnum = s.dev.devnum ∧
    (l.foldl (fun s m => s.nackMsg m 0x0D 0) s).mem = s.mem := by
  induction l generalizing s with
  | nil => exact ⟨rfl, rfl, rfl, rfl⟩
  | cons m r ih =>
    obtain ⟨h1, h2, h3, h4⟩ := nackMsg_net s m 0x0D 0
    obtain ⟨k1, k2, k3, k4⟩ := ih (s.nackMsg m 0x0D 0)
    rw [List.foldl_cons]
    exact ⟨k1.trans h1, k2.trans h2, k3.trans h3, k4.trans h4⟩

theorem unreached_leaves (s : State) : s.unreached.dev.ports = s.dev.ports ∧ (∀ m ∈ s.unreached.dev.net, s.unreached.reachable m.dev = true) ∧
    s.unreached.mem = s.mem := by
  obtain ⟨h1, h2, h3, h4⟩ := nackAll_net (s.dev.net.filter (fun m => !s.reachable m.dev))
    (s.modDev (fun d => { d with net := d.net.filter (fun m => s.reachable m.dev) }))
  refine ⟨h2, fun m hm => ?_, h4⟩
  have hn : s.unreached.dev.net = s.dev.net.filter (fun m => s.reachable m.dev) := h1
  have hr : s.unreached.reachable m.dev = s.reachable m.dev := by
    rw [State.reachable, State.reachable, State.ownDev, State.ownDev, State.unreached, h2, h3]
    rfl
  rw [hn] at hm
  rw [hr]
  exact (List.mem_filter.mp hm).2

/-- A link that goes down. -/
theorem linkDown_leaves (p : Nat) (s : State) :
    (linkDownEffect p s).dev.ports.get p Port.reset = { s.dev.ports.get p Port.reset with st := 0, peer := 0xFFFF } ∧
    (∀ m ∈ (linkDownEffect p s).dev.net, (linkDownEffect p s).reachable m.dev = true) ∧ (linkDownEffect p s).mem = s.mem := by
  have he : linkDownEffect p s = (s.modPort p (fun t => { t with st := 0, peer := 0xFFFF })).unreached := by
    rw [linkDownEffect, State.unreached]
  obtain ⟨h1, h2, h3⟩ := unreached_leaves (s.modPort p (fun t => { t with st := 0, peer := 0xFFFF }))
  rw [he]
  refine ⟨?_, h2, h3⟩
  rw [h1]
  exact modPort_port s p _

end Sys2Proof.Machine

namespace Sys2Proof.Proofs

set_option Elab.async false
open Machine Claims

/-- R401: a counted error. -/
theorem error_counted (u : UnitId) (s : State) :
    let ts := (s.dev.errors.get u [] ++ [s.clk]).filter (fun t => decide (s.clk ≤ t + s.dev.cfg.win * 1050000000))
    ∃ t : State, exec (.errorEvent u) s = .next t ∧ t.dev.errors.get u [] = ts ∧ (u ∈ t.dev.lasting ↔ u ∈ s.dev.lasting ∨ s.dev.cfg.thresh ≤ ts.length) ∧
      (∀ w, w ≠ u → (w ∈ t.dev.lasting ↔ w ∈ s.dev.lasting)) ∧ t.mem = s.mem := by
  intro ts
  have hl : (errorEventEffect u s).dev.lasting =
      if decide (s.dev.cfg.thresh ≤ ts.length) && !s.dev.lasting.contains u then s.dev.lasting ++ [u] else s.dev.lasting := rfl
  refine ⟨errorEventEffect u s, rfl, Table.get_set_same _ _ _ _, ?_, fun w hw => ?_, rfl⟩
  · rw [hl]
    by_cases hth : s.dev.cfg.thresh ≤ ts.length
    · by_cases hu : u ∈ s.dev.lasting
      · simp [hth, hu]
      · simp [hth, hu]
    · simp [hth]
  · rw [hl]
    split
    · simp [hw]
    · rfl

/-- R404: the rollback of a context with one unit and one logged line. -/
theorem rollback_writesBack {s : State} {ccb core : Nat} {why : RollCause} {v : Vault} {e : CkptEnt} {h : HartId} (hr : (ccb, why) ∈ s.dev.rolls)
    (hcl : s.dev.closing = none) (hv : s.vaults = [(core, v)]) (hc : v.ckpt = [e]) (ha : e.asid ∈ s.rollAsids ccb) (hreg : region e.pa = 0)
    (h64 : e.pa % 64 = 0) (hlen : e.old.length = 64) (hrep : (s.bank core (bankOf (paOff e.pa))).underRepair (rowOf (paOff e.pa)) = false)
    (hh : s.contextHarts ccb = [h]) (hw : (s.hart h).writesDone = true) :
    ∃ t : State, exec (.rollback ccb why) s = .next t ∧ (∀ w, (ccb, w) ∉ t.dev.rolls) ∧ (∀ n, n < 64 → some (t.readByte (e.pa + n)) = e.old[n]?) ∧
      (t.hart h).wait = some (.killed 0) ∧ (∀ k, k < 4 → s.contextLaunches k ccb ≠ [] → .rollback s.dev.ckptNum.toNat ∈ (t.stk k).notices) := by
  have he : exec (.rollback ccb why) s = when (rollbackReady ccb why s) (rollbackEffect ccb) s := rfl
  have hready : rollbackReady ccb why s = true := by
    simp only [rollbackReady, hcl, hh, hv, List.all_cons, List.all_nil, hw, hc, hrep, Option.isNone_none, Bool.and_true, Bool.not_false, Bool.or_true]
    simpa using hr
  let u : State := (s.rolling ccb h).writeBack e
  obtain ⟨f1, f2, f3⟩ := tell_frame (allStacks.filter (fun k => !(s.contextLaunches k ccb).isEmpty)) u
  have hnum : u.dev.ckptNum = s.dev.ckptNum := (writeBack_standing_num _ _).trans (ckptNum_of_standing rolling_standing)
  refine ⟨_, he.trans (exec_when hready), ?_⟩
  rw [rollbackEffect_eq hv hc ha hh]
  refine ⟨fun w hm => ?_, fun n hn => ?_, ?_, fun k hk hl => ?_⟩
  · have := (List.mem_filter.mp hm).2
    simp at this
  · exact (congrArg some (f3 _)).trans (readByte_writeBack hreg h64 hlen hn)
  · refine (congrArg Hart.wait ((f2 h).trans (writeBack_hart _ _ h))).trans ?_
    exact killUnit_wait _ _ _
  · have hmem : k ∈ allStacks.filter (fun k => !(s.contextLaunches k ccb).isEmpty) := by
      rw [List.mem_filter]
      refine ⟨by simp only [allStacks, List.mem_cons, List.not_mem_nil, or_false]; omega, by simpa using hl⟩
    rw [← hnum]
    exact mem_notices_tell (.inr hmem)

/-- R402: a compared commit that differs halts both clusters. -/
theorem lockstep_halts {s : State} {cl : Nat} (hlt : cl < 256) (he : cl % 2 = 0) (hd : ∃ x ∈ (s.cluster cl).trail, x.due ≤ s.clk ∧ x.lead ≠ x.trail) :
    ∃ t : State, exec (.lockstepMismatch cl) s = .next t ∧ (t.cluster cl).halted = true ∧ (t.cluster (cl + 1)).halted = true ∧
      .machineCheck (8 * cl) 0 ∈ (t.stk (stackOf (8 * cl))).notices ∧ (∀ ccb ∈ s.lockstepIn cl, ∃ why, (ccb, why) ∈ t.dev.rolls) ∧ t.mem = s.mem := by
  have hex : exec (.lockstepMismatch cl) s = when (lockstepMismatchReady cl s) (lockstepMismatchEffect cl) s := rfl
  have hready : lockstepMismatchReady cl s = true := by
    obtain ⟨x, hx, hdue, hne⟩ := hd
    have ha : (s.cluster cl).trail.any (fun t => decide (t.due ≤ s.clk) && t.lead != t.trail) = true :=
      List.any_eq_true.mpr ⟨x, hx, by simp [hdue, hne]⟩
    rw [lockstepMismatchReady, ha]
    simp [hlt, he]
  obtain ⟨h1, h2, -, h4, h5⟩ := rollLockstep_keeps (s.lockstepIn cl) (s.pairHalts cl)
  obtain ⟨k1, k2, k3, k4⟩ := pairHalts_leaves s cl
  exact ⟨_, hex.trans (exec_when hready), (h1 cl).trans k1, (h1 (cl + 1)).trans k2, by rw [← h2] at k3; exact k3, h4, h5.trans k4⟩

theorem lockstep_agrees {s : State} {cl : Nat} (h : ∀ x ∈ (s.cluster cl).trail, s.clk < x.due ∨ x.lead = x.trail) :
    exec (.lockstepMismatch cl) s = .next s := by
  have hex : exec (.lockstepMismatch cl) s = when (lockstepMismatchReady cl s) (lockstepMismatchEffect cl) s := rfl
  refine hex.trans (exec_unless ?_)
  have ha : (s.cluster cl).trail.any (fun t => decide (t.due ≤ s.clk) && t.lead != t.trail) = false := by
    rw [List.any_eq_false]
    intro x hx
    rcases h x hx with h | h
    · simp [Nat.not_le.mpr h]
    · simp [h]
  rw [lockstepMismatchReady, ha, Bool.and_false]

/-- R400, R401, R408: what happens to a link. -/
theorem link_events (p : Nat) (s : State) :
    let port (t : State) : Port := t.dev.ports.get p Port.reset
    (∃ t : State, exec (.linkRetry p) s = .next t ∧ port t = { port s with retry := (port s).retry + 1 } ∧ t.mem = s.mem) ∧
    (∃ t : State, exec (.linkDown p) s = .next t ∧ port t = { port s with st := 0, peer := 0xFFFF } ∧ (∀ m ∈ t.dev.net, t.reachable m.dev = true) ∧ t.mem = s.mem) ∧
    (∀ n, .lane p n ∈ s.dev.lasting → 2 ≤ (port s).st.toNat → ∃ t : State, exec (.linkRetrain p) s = .next t ∧ port t = { port s with st := 1, narrow := true } ∧ t.mem = s.mem) ∧
    (∀ peer, (port s).st = 1 → ∃ t : State, exec (.portUp p peer) s = .next t ∧ port t = { port s with st := if (port s).narrow then 3 else 2, peer := peer } ∧ t.mem = s.mem) ∧
    (∀ peer, (port s).st ≠ 1 → exec (.portUp p peer) s = .next s) := by
  intro port
  have e3 : exec (.linkRetrain p) s = when (linkRetrainReady p s) (fun s => s.modPort p (fun t => { t with st := 1, narrow := true })) s := rfl
  have e4 (peer : BitVec 16) : exec (.portUp p peer) s =
    when ((s.dev.ports.get p Port.reset).st == 1) (fun s => s.modPort p (fun t => { t with st := if t.narrow then 3 else 2, peer := peer })) s := rfl
  refine ⟨⟨_, rfl, modPort_port _ _ _, rfl⟩, ⟨linkDownEffect p s, rfl, ?_⟩, fun n hn hs => ⟨_, e3.trans (exec_when ?_), modPort_port _ _ _, rfl⟩,
    fun peer hs => ⟨_, (e4 peer).trans (exec_when (by simpa using hs)), modPort_port _ _ _, rfl⟩, fun peer hs => (e4 peer).trans (exec_unless (by simpa using hs))⟩
  · exact linkDown_leaves p s
  · rw [linkRetrainReady, Bool.and_eq_true]
    exact ⟨decide_eq_true hs, List.any_eq_true.mpr ⟨_, hn, by simp⟩⟩

/-- Settles O51: errors, retirement, rollback, lockstep and links. -/
theorem reliabilityEvents : Obligations.ReliabilityEvents := by
  intro u core cl p s
  have e1 (x : UnitId) : exec (.unitRetire x) s = when (unitRetireReady x s) (unitRetireEffect x) s := rfl
  have e2 (ccb : Nat) (why : RollCause) : exec (.rollback ccb why) s = when (rollbackReady ccb why s) (rollbackEffect ccb) s := rfl
  refine ⟨error_counted u s, fun hl hi => ⟨_, (e1 _).trans (exec_when ?_), ?_, rfl⟩, fun hl hi => ⟨_, (e1 _).trans (exec_when ?_), ?_, rfl⟩,
    fun ccb why v e h hr hcl hv hc ha _ _ hreg _ h64 hlen hrep hh hw => rollback_writesBack hr hcl hv hc ha hreg h64 hlen hrep hh hw,
    fun ccb why hr => (e2 ccb why).trans (exec_unless ?_), fun hlt he hd => lockstep_halts hlt he hd, fun h => lockstep_agrees h, link_events p s⟩
  · simpa [unitRetireReady, hi] using hl
  · simp only [unitRetireEffect]
    rw [State.modCore_core_same]
  · simpa [unitRetireReady, hi] using hl
  · simp only [unitRetireEffect]
    rw [State.modCluster_cluster_same]
  · have hn : s.dev.rolls.contains (ccb, why) = false := by simpa using hr
    rw [rollbackReady, hn]
    rfl

end Sys2Proof.Proofs

/-! PROOFS. Vector lanes of the integer types (R304 to R308). -/

namespace Sys2Proof.Machine

set_option Elab.async false
open Claims

/-! ### The lanes of a packed register -/

theorem packLanes_cons (w x : Nat) (ls : List Nat) : packLanes w (x :: ls) = x % 2 ^ w + packLanes w ls * 2 ^ w := rfl

theorem packLanes_lt (w : Nat) (ls : List Nat) : packLanes w ls < 2 ^ (w * ls.length) := by
  induction ls with
  | nil => exact Nat.two_pow_pos _
  | cons x ls ih =>
    have hx := Nat.mod_lt x (Nat.two_pow_pos w)
    rw [packLanes_cons, List.length_cons, Nat.mul_succ, Nat.pow_add]
    calc x % 2 ^ w + packLanes w ls * 2 ^ w < 2 ^ w + packLanes w ls * 2 ^ w := Nat.add_lt_add_right hx _
      _ = (packLanes w ls + 1) * 2 ^ w := by ring
      _ ≤ 2 ^ (w * ls.length) * 2 ^ w := Nat.mul_le_mul_right _ ih

theorem lane_packLanes (w : Nat) (ls : List Nat) (k : Nat) : lane w (packLanes w ls) k = ls.getD k 0 % 2 ^ w := by
  induction ls generalizing k with
  | nil => simp [lane, packLanes]
  | cons x ls ih =>
    rw [packLanes_cons]
    cases k with
    | zero => simp [lane, Nat.add_mul_mod_self_right]
    | succ k =>
      have h : (x % 2 ^ w + packLanes w ls * 2 ^ w) / 2 ^ w = packLanes w ls := by
        rw [Nat.add_mul_div_right _ _ (Nat.two_pow_pos w), Nat.div_eq_of_lt (Nat.mod_lt _ (Nat.two_pow_pos w)), Nat.zero_add]
      rw [lane, Nat.mul_succ, Nat.add_comm (w * k), Nat.pow_add, ← Nat.div_div_eq_div_mul, h]
      exact ih k

theorem bits_eq_lane (w v k : Nat) : bits v (k * w) w = lane w v k := by rw [bits, lane, Nat.mul_comm]

theorem lane_lt (w v k : Nat) : lane w v k < 2 ^ w := Nat.mod_lt _ (Nat.two_pow_pos w)

@[simp] theorem length_lanesOf (w n v : Nat) : (lanesOf w n v).length = n := by simp [lanesOf]

theorem getElem_lanesOf {w n v k : Nat} (h : k < (lanesOf w n v).length) : (lanesOf w n v)[k] = lane w v k := by
  simp [lanesOf, bits_eq_lane]

@[simp] theorem State.length_lanes (s : State) (w : Nat) (r : Reg) : (s.lanes w r).length = s.vbits / w := length_lanesOf _ _ _

theorem State.getElem_lanes {s : State} {w : Nat} {r : Reg} {k : Nat} (h : k < (s.lanes w r).length) : (s.lanes w r)[k] = lane w (s.vval r) k :=
  getElem_lanesOf h

/-- A register of either mode is made of whole lanes. -/
theorem lanes_fill (s : State) (t : BitVec 3) : laneW t * (s.vbits / laneW t) = s.vbits := by
  unfold State.vbits laneW
  split <;> split <;> rfl

/-- A flag of a list of results is raised where one of them raises it. -/
theorem getLsbD_flags (rs : List (Nat × Flags)) (f : Flags) (j : Nat) :
    (rs.foldl (fun f r => f ||| r.2) f).getLsbD j = true ↔ f.getLsbD j = true ∨ ∃ r ∈ rs, r.2.getLsbD j = true := by
  induction rs generalizing f with
  | nil => simp
  | cons r rs ih => simp [ih, or_assoc]

/-! ### A vector instruction past its checks (R173, R175) -/

/-- What does not depend on what the units of the clusters do is the same once the unit's grant is used up. -/
theorem granted_frame {α : Sort*} (F : State → α) (h : ∀ s c f, F (State.modCluster s c f) = F s) (s : State) : F (granted s) = F s := by
  unfold granted
  split
  · exact h s _ _
  · rfl

theorem granted_me (s : State) : (granted s).me = s.me := granted_frame State.me (fun _ _ _ => rfl) s
theorem granted_long (s : State) : (granted s).long = s.long := granted_frame State.long (fun _ _ _ => rfl) s
theorem granted_vbits (s : State) : (granted s).vbits = s.vbits := granted_frame State.vbits (fun _ _ _ => rfl) s
theorem granted_vval (s : State) : (granted s).vval = s.vval := granted_frame State.vval (fun _ _ _ => rfl) s
theorem granted_vEnv (s : State) : (granted s).vEnv = s.vEnv := granted_frame State.vEnv (fun _ _ _ => rfl) s
theorem granted_mem (s : State) : (granted s).mem = s.mem := granted_frame State.mem (fun _ _ _ => rfl) s
theorem granted_lanes (s : State) : (granted s).lanes = s.lanes := granted_frame State.lanes (fun _ _ _ => rfl) s
theorem granted_rx (s : State) : (granted s).rx = s.rx := granted_frame State.rx (fun _ _ _ => rfl) s
theorem granted_clear (s : State) (hd : Head) (a b : List RegRef) : (granted s).clear hd a b = s.clear hd a b :=
  granted_frame (fun s => State.clear s hd a b) (fun _ _ _ => rfl) s

theorem vready_mono {s : State} {rs qs : List Reg} (h : vready s rs) (hq : ∀ r ∈ qs, r ∈ rs) : vready s qs :=
  ⟨h.1, fun hl => ⟨(h.2 hl).1, fun r hr => (h.2 hl).2 r (hq r hr)⟩⟩

theorem vregOk_of_vready {s : State} {rs : List Reg} (h : vready s rs) : rs.all s.vregOk = true := by
  rw [List.all_eq_true]
  intro r hr
  unfold State.vregOk
  cases hl : s.long with
  | false => rfl
  | true => simpa using (h.2 hl).2 r hr

theorem taken_of_vready {s : State} {rs : List Reg} (h : vready s rs) :
    (!s.long || (s.cluster (clusterOf s.myCore)).lvuNow == some s.cur) = true := by
  cases hl : s.long with
  | false => rfl
  | true => simp [(h.2 hl).1]

/-- A vector instruction of a type of its own, its registers clear, has its effect with the unit's grant used up. -/
theorem vecIssue_clear {ik : Code} {hd : Head} {legal mem : Bool} {xs vs dsts : List RegRef} {named : List Reg} {body : State → State} {s : State}
    (hl : legal = true) (hr : vready s named) (hm : mem = true → s.me.acqWait = false) (hc : s.clear hd (xs ++ vs) dsts) :
    vecIssue ik hd legal mem xs vs dsts named body s = body (granted s) := by
  have hleg : ((granted s).noCtx && legal && named.all (granted s).vregOk) = true := by
    rw [granted_frame State.noCtx (fun _ _ _ => rfl) s, granted_frame State.vregOk (fun _ _ _ => rfl) s, vregOk_of_vready hr, hl]
    simp [State.noCtx, hr.1]
  have hmem : (mem && (granted s).me.acqWait) = false := by
    rw [granted_me]
    cases mem with
    | false => rfl
    | true => exact hm rfl
  unfold vecIssue vecIssueOwn
  refine (issueOwn_clear _ _ _ _ _ _ _ _ _ (Nat.zero_le _) hleg rfl ((granted_clear s hd _ _).mpr hc)).trans ?_
  rw [hmem, granted_long, taken_of_vready hr]
  rfl

/-! ### A vector register written (R220, R300) -/

section
variable (ik : Code) (hd : Head) (d : Reg) (v : Nat) (f : Flags) (s : State)

theorem wvec_me : (s.wvec d v).me = if s.long then s.me else s.me.wv d (BitVec.ofNat 256 v) := by
  unfold State.wvec
  split
  · rfl
  · exact State.modMe_me _ _

theorem wvec_core : (s.wvec d v).core s.myCore = if s.long then (s.core s.myCore).ww d (BitVec.ofNat 16384 v) else s.core s.myCore := by
  unfold State.wvec
  split
  · exact State.modCore_core_same _ _ _
  · rfl

theorem writeV_me : (writeV ik hd d v f s).me =
    { (s.wvec d v).me.forgetWalks with
      pc := (loopEndCheck ((addVcsr f (s.wvec d v)).succ ik) (s.wvec d v).me.loops).2
      loops := (loopEndCheck ((addVcsr f (s.wvec d v)).succ ik) (s.wvec d v).me.loops).1
      safe := hd.safe
      wait := none
      csr := { (s.wvec d v).me.csr with vcsr := addFlags (s.wvec d v).me.csr.vcsr f } } := by
  rw [writeV, finish_me, addVcsr, State.modMe_me]
  rfl

theorem writeV_core : (writeV ik hd d v f s).core s.myCore = (s.wvec d v).core s.myCore := rfl
theorem writeV_myCore : (writeV ik hd d v f s).myCore = s.myCore := by
  unfold writeV State.wvec
  split <;> rfl

theorem writeV_mem : (writeV ik hd d v f s).mem = s.mem := by
  unfold writeV State.wvec
  split <;> rfl

theorem writeV_v : (writeV ik hd d v f s).me.v = if s.long then s.me.v else s.me.v.set d (BitVec.ofNat 256 v) := by
  rw [writeV_me, wvec_me]
  split <;> rfl

theorem writeV_long : (writeV ik hd d v f s).long = s.long := by
  unfold State.long
  rw [writeV_myCore, writeV_core, wvec_core]
  split <;> rfl

theorem writeV_vbits : (writeV ik hd d v f s).vbits = s.vbits := by rw [State.vbits, State.vbits, writeV_long]

theorem writeV_vval_same (hv : v < 2 ^ s.vbits) : (writeV ik hd d v f s).vval d = v := by
  rw [State.vval, writeV_long]
  rw [State.vbits] at hv
  split
  case isTrue h =>
    rw [if_pos h] at hv
    rw [writeV_myCore, writeV_core, wvec_core, if_pos h, Core.rw, Core.ww, Table.get_set_same, BitVec.toNat_ofNat, Nat.mod_eq_of_lt hv]
  case isFalse h =>
    rw [if_neg h] at hv
    rw [Hart.rv, writeV_v, if_neg h, Table.get_set_same, BitVec.toNat_ofNat, Nat.mod_eq_of_lt hv]

theorem writeV_vval_other {r : Reg} (hr : r ≠ d) : (writeV ik hd d v f s).vval r = s.vval r := by
  rw [State.vval, writeV_long, State.vval]
  split
  case isTrue h => rw [writeV_myCore, writeV_core, wvec_core, if_pos h, Core.rw, Core.ww, Table.get_set_other _ _ _ _ _ (Ne.symm hr)]; rfl
  case isFalse h => rw [Hart.rv, writeV_v, if_neg h, Table.get_set_other _ _ _ _ _ (Ne.symm hr)]; rfl

theorem writeV_stv_same : (writeV ik hd d v f s).stv d = .full := by
  rw [State.stv, writeV_long]
  split
  case isTrue h => rw [writeV_myCore, writeV_core, wvec_core, if_pos h, Core.ww, Table.get_set_same]
  case isFalse h =>
    rw [writeV_me, wvec_me, if_neg h]
    exact Table.get_set_same _ _ _ _

theorem writeV_x : (writeV ik hd d v f s).me.x = s.me.x := by
  rw [writeV_me, wvec_me]
  split <;> rfl

theorem writeV_fcsr : (writeV ik hd d v f s).me.csr.fcsr = s.me.csr.fcsr := by
  rw [writeV_me, wvec_me]
  split <;> rfl

theorem writeV_vcsr : (writeV ik hd d v f s).me.csr.vcsr = addFlags s.me.csr.vcsr f := by
  rw [writeV_me, wvec_me]
  split <;> rfl

theorem writeV_pc : (writeV ik hd d v f s).me.pc = (finish ik hd s).me.pc := by
  have hm : (addVcsr f (s.wvec d v)).me = (s.wvec d v).me.modCsr (fun c => { c with vcsr := addFlags c.vcsr f }) := State.modMe_me _ _
  refine finish_pc_of ik hd ?_ ?_ <;>
  · rw [hm, wvec_me]
    split <;> rfl

end

/-- What `vecs` asks of the lanes: packed lanes and their flags are those of a lane function. -/
def LanesAre (w n v : Nat) (f : Flags) (g : Nat → Nat × Flags) : Prop :=
  v < 2 ^ (w * n) ∧ (∀ k, k < n → lane w v k = (g k).1 % 2 ^ w) ∧ ∀ j, f.getLsbD j = true ↔ ∃ k, k < n ∧ (g k).2.getLsbD j = true

/-- An instruction that writes packed lanes with the unit's grant used up does what `vecs` says. -/
theorem vecs_of_writeV {i : Instr} {hd : Head} {d : Reg} {w : Nat} {g : Nat → Nat × Flags} {s : State} {v : Nat} {f : Flags}
    (hi : exec i s = .next (writeV (codeOf i) hd d v f (granted s))) (hw : w * (s.vbits / w) = s.vbits)
    (hv : LanesAre w (s.vbits / w) v f g) : vecs i hd d w g s := by
  obtain ⟨hlt, hl, hf⟩ := hv
  rw [hw, ← granted_vbits] at hlt
  refine ⟨_, hi, fun k hk => ?_, ⟨f, ?_, fun j _ => hf j⟩, writeV_stv_same _ _ _ _ _ _, fun r hr => ?_, ?_, ?_, ?_, ?_, finish_wait _ _ _⟩
  · rw [writeV_vval_same _ _ _ _ _ _ hlt]; exact hl k hk
  · rw [writeV_vcsr, granted_me]
  · rw [writeV_vval_other _ _ _ _ _ _ hr, granted_vval]
  · rw [writeV_x, granted_me]
  · rw [writeV_fcsr, granted_me]
  · rw [writeV_mem, granted_mem]
  · rw [writeV_pc]; exact finish_pc_of _ _ (by rw [granted_me]) (by rw [granted_me])

/-- Two results that a lane of w bits does not tell apart. -/
def SameLane (w : Nat) (p q : Nat × Flags) : Prop := p.1 % 2 ^ w = q.1 % 2 ^ w ∧ p.2 = q.2

theorem SameLane.rfl {w : Nat} {p : Nat × Flags} : SameLane w p p := ⟨Eq.refl _, Eq.refl _⟩

theorem gather_lanesAre {w n : Nat} {rs : List (Nat × Flags)} {g : Nat → Nat × Flags} (hn : rs.length = n)
    (hg : ∀ k (h : k < rs.length), SameLane w rs[k] (g k)) : LanesAre w n (gather w rs).1 (gather w rs).2 g := by
  subst hn
  refine ⟨?_, fun k hk => ?_, fun j => ?_⟩
  · simpa [gather] using packLanes_lt w (rs.map (·.1))
  · rw [gather, lane_packLanes, List.getD_eq_getElem _ _ (by simpa using hk), List.getElem_map]
    exact (hg k hk).1
  · rw [gather, getLsbD_flags]
    simp only [show ((0 : Flags).getLsbD j = true) ↔ False by simp, false_or]
    constructor
    · rintro ⟨r, hr, hj⟩
      obtain ⟨k, hk, rfl⟩ := List.getElem_of_mem hr
      exact ⟨k, hk, (hg k hk).2 ▸ hj⟩
    · rintro ⟨k, hk, hj⟩
      exact ⟨rs[k], List.getElem_mem hk, (hg k hk).2 ▸ hj⟩

section
variable {i : Instr} {hd : Head} {d a b : Reg} {t : BitVec 3} {legal : Bool} {g : Nat → Nat × Flags} {s : State}

theorem vecs_vec1 {f : FEnv → Nat → Nat × Flags} (hi : exec i s = .next (vec1 (codeOf i) hd d a t legal f s)) (hl : legal = true)
    (hr : vready s [d, a]) (hc : s.clear hd [.v a] [.v d])
    (hg : ∀ k, SameLane (laneW t) (f s.vEnv (lane (laneW t) (s.vval a) k)) (g k)) : vecs i hd d (laneW t) g s := by
  refine vecs_of_writeV (hi.trans (congrArg Host.Outcome.next (vecIssue_clear hl hr (by simp) hc))) (lanes_fill s t) ?_
  rw [granted_lanes, granted_vEnv]
  refine gather_lanesAre (by simp) fun k hk => ?_
  rw [List.getElem_map, State.getElem_lanes]
  exact hg k

theorem vecs_vec2 {f : FEnv → Nat → Nat → Nat × Flags} (hi : exec i s = .next (vec2 (codeOf i) hd d a b t legal f s)) (hl : legal = true)
    (hr : vready s [d, a, b]) (hc : s.clear hd [.v a, .v b] [.v d])
    (hg : ∀ k, SameLane (laneW t) (f s.vEnv (lane (laneW t) (s.vval a) k) (lane (laneW t) (s.vval b) k)) (g k)) :
    vecs i hd d (laneW t) g s := by
  refine vecs_of_writeV (hi.trans (congrArg Host.Outcome.next (vecIssue_clear hl hr (by simp) hc))) (lanes_fill s t) ?_
  rw [granted_lanes, granted_vEnv]
  refine gather_lanesAre (by simp) fun k hk => ?_
  rw [List.getElem_zipWith, State.getElem_lanes, State.getElem_lanes]
  exact hg k

theorem vecs_vec3 {f : FEnv → Nat → Nat → Nat → Nat × Flags} (hi : exec i s = .next (vec3 (codeOf i) hd d a b t legal f s))
    (hl : legal = true) (hr : vready s [d, a, b]) (hc : s.clear hd [.v a, .v b] [.v d]) (hz : s.clear hd [.v d] [])
    (hg : ∀ k, SameLane (laneW t) (f s.vEnv (lane (laneW t) (s.vval a) k) (lane (laneW t) (s.vval b) k) (lane (laneW t) (s.vval d) k)) (g k)) :
    vecs i hd d (laneW t) g s := by
  have hc3 : s.clear hd [.v a, .v b, .v d] [.v d] := ⟨hc.1, fun r hm => ?_, hc.2.2⟩
  · refine vecs_of_writeV (hi.trans (congrArg Host.Outcome.next (vecIssue_clear hl hr (by simp) hc3))) (lanes_fill s t) ?_
    rw [granted_lanes, granted_vEnv]
    refine gather_lanesAre (by simp) fun k hk => ?_
    simp only [List.getElem_zipWith, List.getElem_zip, State.getElem_lanes]
    exact hg k
  · rcases List.mem_append.mp (show r ∈ [.v a, .v b] ++ [.v d] from hm) with h | h
    · exact hc.2.1 r h
    · exact hz.2.1 r h

end

end Sys2Proof.Machine
namespace Sys2Proof.Machine

set_option Elab.async false
open Claims

/-! ### Integer lanes (R304, R305, R308) -/

theorem laneW_pos (t : BitVec 3) : 0 < laneW t := by
  unfold laneW
  split <;> decide

theorem signedOf_eq_bmod {w : Nat} (hw : 0 < w) (x : Nat) : signedOf w x = (x : Int).bmod (2 ^ w) := by
  obtain ⟨n, rfl⟩ : ∃ n, w = n + 1 := ⟨w - 1, by omega⟩
  have h : ((2 : Int) ^ (n + 1) + 1) / 2 = 2 ^ n := by rw [pow_succ]; omega
  have hn : n + 1 - 1 = n := rfl
  unfold signedOf Int.bmod
  rw [hn]
  push_cast
  rw [h]
  have hc : ((x % 2 ^ (n + 1) : Nat) : Int) < 2 ^ n ↔ x % 2 ^ (n + 1) < 2 ^ n := by exact_mod_cast Iff.rfl
  push_cast at hc
  simp only [hc]

theorem vint_eq_num (t : BitVec 3) (x : Nat) : vint t x = num t x := by
  unfold vint num
  split
  · rfl
  · exact signedOf_eq_bmod (laneW_pos t) x

theorem num_modEq (t : BitVec 3) (x : Nat) : num t x ≡ x [ZMOD 2 ^ laneW t] := by
  unfold num
  split
  · rfl
  · have h := Int.bmod_emod (x := (x : Int)) (m := 2 ^ laneW t)
    push_cast at h
    exact h

theorem wrapLane_congr {w : Nat} {a b : Int} (h : a ≡ b [ZMOD 2 ^ w]) : wrapLane w a = wrapLane w b := congrArg Int.toNat h

theorem wrapLane_natCast (w n : Nat) : wrapLane w (n : Int) = n % 2 ^ w := by
  unfold wrapLane
  norm_cast

/-- A lane is the number for which it stands, written back. -/
theorem wrapLane_num {t : BitVec 3} {x : Nat} (h : x < 2 ^ laneW t) : wrapLane (laneW t) (num t x) = x := by
  rw [wrapLane_congr (num_modEq t x), wrapLane_natCast, Nat.mod_eq_of_lt h]

theorem num_inj {t : BitVec 3} {x y : Nat} (hx : x < 2 ^ laneW t) (hy : y < 2 ^ laneW t) : num t x = num t y ↔ x = y :=
  ⟨fun h => by rw [← wrapLane_num hx, h, wrapLane_num hy], fun h => h ▸ rfl⟩

theorem clampLane_eq_sat (t : BitVec 3) (k : Int) : (clampLane t k, 0) = sat t k := by
  unfold clampLane sat vrange wrap
  split <;> rfl

theorem not_isF {t : BitVec 3} (h : 3 ≤ t.toNat) : isF t = false := decide_eq_false (by omega)

/-- An F and I operation of an integer type wraps its result. -/
theorem laneFI_int {t : BitVec 3} (h : 3 ≤ t.toNat) (ff : Fmt → FEnv → Nat → Nat → Nat × Flags) (fi : Int → Int → Int) (v : FEnv) (x y : Nat) :
    laneFI t ff fi v x y = wrap t (fi (num t x) (num t y)) := by
  rw [laneFI, not_isF h, vint_eq_num, vint_eq_num]
  rfl

theorem laneCmp_int {t : BitVec 3} (h : 3 ≤ t.toNat) (ff : Fmt → FEnv → Nat → Nat → Bool × Flags) (fi : Int → Int → Bool) (v : FEnv) (x y : Nat) :
    laneCmp t ff fi v x y = mask t (fi (num t x) (num t y)) 0 := by
  rw [laneCmp, not_isF h, vint_eq_num, vint_eq_num]
  rfl

theorem wrap_congr {t : BitVec 3} {a b : Int} (h : a ≡ b [ZMOD 2 ^ laneW t]) : wrap t a = wrap t b :=
  Prod.ext (wrapLane_congr h) rfl

theorem wrap_natCast (t : BitVec 3) (n : Nat) : wrap t (n : Int) = (n % 2 ^ laneW t, 0) := Prod.ext (wrapLane_natCast _ _) rfl

theorem wrap_num {t : BitVec 3} {x : Nat} (h : x < 2 ^ laneW t) : wrap t (num t x) = (x, 0) := Prod.ext (wrapLane_num h) rfl

theorem sameLane_of_eq {w : Nat} {p q : Nat × Flags} (h : p = q) : SameLane w p q := h ▸ SameLane.rfl

/-- The ones of a lane, counted. -/
theorem popcount_eq (w x : Nat) : (lanesOf 1 w x).foldl (· + ·) 0 = ((List.range w).filter (fun j => x.testBit j)).length := by
  have hb (k : Nat) : bits x (k * 1) 1 = (x.testBit k).toNat := by
    rw [bits, Nat.mul_one, Nat.toNat_testBit, pow_one]
  have hsum (l : List Nat) (n : Nat) : (l.map (fun k => bits x (k * 1) 1)).foldl (· + ·) n = n + (l.filter (fun j => x.testBit j)).length := by
    induction l generalizing n with
    | nil => rfl
    | cons k l ih =>
      rw [List.map_cons, List.foldl_cons, ih, hb, List.filter_cons]
      cases x.testBit k <;> simp <;> omega
  rw [lanesOf, hsum, Nat.zero_add]

/-- The zeros above the highest one of a lane, counted. -/
theorem leadingZeros_eq {w x : Nat} (hx : x < 2 ^ w) :
    w - bitLen x = ((List.range w).find? (fun j => x.testBit (w - 1 - j))).getD w := by
  unfold bitLen
  split
  case isTrue h =>
    have hn : (List.range w).find? (fun j => x.testBit (w - 1 - j)) = none := List.find?_eq_none.mpr fun j _ => by simp [h]
    rw [hn, Nat.sub_zero]
    rfl
  case isFalse h =>
    have hl : x.log2 < w := (Nat.log2_lt h).mpr hx
    have hs : (List.range w).find? (fun j => x.testBit (w - 1 - j)) = some (w - (x.log2 + 1)) := by
      rw [List.find?_range_eq_some]
      refine ⟨?_, List.mem_range.mpr (by omega), fun j hj => ?_⟩
      · rw [show w - 1 - (w - (x.log2 + 1)) = x.log2 by omega]
        exact Nat.testBit_log2 h
      · have ht : x.testBit (w - 1 - j) = false := Nat.testBit_lt_two_pow (Nat.lt_of_lt_of_le Nat.lt_log2_self (Nat.pow_le_pow_right (by decide) (by omega)))
        simp [ht]
    rw [hs]
    rfl

section
variable {i : Instr} {hd : Head} {d a b : Reg} {t : BitVec 3} {s : State} {g : Nat → Nat × Flags} (hr : vready s [d, a, b])
  (hc : s.clear hd [.v a, .v b] [.v d]) (ht : 3 ≤ t.toNat)
include hr hc

/-- An operation on the bits of two lanes. -/
theorem vecs_laneBits {legal : Bool} {f : Nat → Nat → Nat} (hi : exec i s = .next (vec2 (codeOf i) hd d a b t legal (laneBits f) s))
    (hl : legal = true)
    (hg : ∀ k, (f (lane (laneW t) (s.vval a) k) (lane (laneW t) (s.vval b) k), 0) = g k) : vecs i hd d (laneW t) g s :=
  vecs_vec2 hi hl hr hc fun k => sameLane_of_eq (hg k)

include ht

/-- An operation on the numbers that two integer lanes stand for. -/
theorem vecs_laneFI {ff : Fmt → FEnv → Nat → Nat → Nat × Flags} {fi : Int → Int → Int}
    (hi : exec i s = .next (vec2 (codeOf i) hd d a b t true (laneFI t ff fi) s))
    (hg : ∀ k, wrap t (fi (num t (lane (laneW t) (s.vval a) k)) (num t (lane (laneW t) (s.vval b) k))) = g k) : vecs i hd d (laneW t) g s :=
  vecs_vec2 hi rfl hr hc fun k => sameLane_of_eq ((laneFI_int ht _ _ _ _ _).trans (hg k))

/-- A comparison of the numbers that two integer lanes stand for. -/
theorem vecs_laneCmp {ff : Fmt → FEnv → Nat → Nat → Bool × Flags} {fi : Int → Int → Bool}
    (hi : exec i s = .next (vec2 (codeOf i) hd d a b t true (laneCmp t ff fi) s))
    (hg : ∀ k, mask t (fi (num t (lane (laneW t) (s.vval a) k)) (num t (lane (laneW t) (s.vval b) k))) 0 = g k) : vecs i hd d (laneW t) g s :=
  vecs_vec2 hi rfl hr hc fun k => sameLane_of_eq ((laneCmp_int ht _ _ _ _ _).trans (hg k))

end

/-- The lower of two lanes, written back. -/
theorem wrap_min {t : BitVec 3} {x y : Nat} (hx : x < 2 ^ laneW t) (hy : y < 2 ^ laneW t) :
    wrap t (min (num t x) (num t y)) = (if num t x ≤ num t y then x else y, 0) := by
  rw [min_def]
  split
  · exact wrap_num hx
  · exact wrap_num hy

/-- The higher of two lanes, written back. -/
theorem wrap_max {t : BitVec 3} {x y : Nat} (hx : x < 2 ^ laneW t) (hy : y < 2 ^ laneW t) :
    wrap t (max (num t x) (num t y)) = (if num t x ≤ num t y then y else x, 0) := by
  rw [max_def]
  split
  · exact wrap_num hy
  · exact wrap_num hx

theorem mask_zero (t : BitVec 3) (b : Bool) : (laneMask t b, 0) = mask t b 0 := rfl

end Sys2Proof.Machine

namespace Sys2Proof.Proofs

set_option Elab.async false
open Machine Claims

/-- Settles O31: a vector instruction past its checks writes its lane function's results lane by lane, and each lane function of an integer type
is the exact result of the numbers for which its lanes stand, written back modulo 2^W. -/
theorem vectorIntegerLanes : Obligations.VectorIntegerLanes := by
  intro hd d a b t s hr hc ht w x y z V
  have hra : vready s [d, a] := vready_mono hr (by simp)
  have hca : s.clear hd [.v a] [.v d] := clear_mono s hd _ _ _ _ hc (by simp) (List.Subset.refl _)
  have hI : isI t = true := by rw [isI, not_isF ht]; rfl
  have hx (k : Nat) : x k < 2 ^ laneW t := lane_lt _ _ _
  have hy (k : Nat) : y k < 2 ^ laneW t := lane_lt _ _ _
  refine ⟨?add, ?sub, ?mul, ?min, ?max, ?absd, ?and, ?or, ?xor, ?shl, ?shr, ?sra, ?adds, ?subs, ?mulh, ?avg, ?ceq, ?clt, ?cle, ?cltu, ?withD,
    ?wide, ?abs, ?neg, ?popc, ?clz⟩
  case add => exact vecs_laneFI hr hc ht rfl fun k => wrap_congr ((num_modEq _ _).add (num_modEq _ _))
  case sub => exact vecs_laneFI hr hc ht rfl fun k => wrap_congr ((num_modEq _ _).sub (num_modEq _ _))
  case mul => exact vecs_laneFI hr hc ht rfl fun k => wrap_congr ((num_modEq _ _).mul (num_modEq _ _))
  case min => exact vecs_laneFI hr hc ht rfl fun k => wrap_min (hx k) (hy k)
  case max => exact vecs_laneFI hr hc ht rfl fun k => wrap_max (hx k) (hy k)
  case absd => exact vecs_laneFI hr hc ht rfl fun k => rfl
  case and => exact vecs_laneBits hr hc rfl rfl fun k => rfl
  case or => exact vecs_laneBits hr hc rfl rfl fun k => rfl
  case xor => exact vecs_laneBits hr hc rfl rfl fun k => rfl
  case shl => exact vecs_laneBits hr hc rfl hI fun k => by rw [← wrap_natCast]; push_cast; rfl
  case shr => exact vecs_laneBits hr hc rfl hI fun k => rfl
  case sra => exact vecs_laneBits hr hc rfl hI fun k => by rw [signedOf_eq_bmod (laneW_pos t)]; rfl
  case adds => exact vecs_laneBits hr hc rfl hI fun k => by rw [clampLane_eq_sat, vint_eq_num, vint_eq_num]
  case subs => exact vecs_laneBits hr hc rfl hI fun k => by rw [clampLane_eq_sat, vint_eq_num, vint_eq_num]
  case mulh => exact vecs_laneBits hr hc rfl hI fun k => by rw [vint_eq_num, vint_eq_num]; rfl
  case avg => exact vecs_laneFI hr hc ht rfl fun k => rfl
  case ceq => exact vecs_laneCmp hr hc ht rfl fun k => congrArg (mask t · 0) (decide_eq_decide.mpr (num_inj (hx k) (hy k)))
  case clt => exact vecs_laneCmp hr hc ht rfl fun k => rfl
  case cle => exact vecs_laneCmp hr hc ht rfl fun k => rfl
  case cltu => exact vecs_laneBits hr hc rfl hI fun k => rfl
  case withD =>
    intro hz
    refine ⟨vecs_vec3 rfl rfl hr hc hz fun k => SameLane.rfl, vecs_vec3 rfl rfl hr hc hz fun k => ?_, vecs_vec3 rfl rfl hr hc hz fun k => ?_⟩ <;>
    · rw [not_isF ht]
      exact sameLane_of_eq (by push_cast; rfl)
  case wide => exact fun h => ⟨vecs_laneBits hr hc rfl (decide_eq_true h) fun k => rfl, vecs_laneBits hr hc rfl (decide_eq_true h) fun k => rfl⟩
  case abs => exact vecs_vec1 rfl rfl hra hca fun k => sameLane_of_eq (by rw [not_isF ht, vint_eq_num]; rfl)
  case neg => exact vecs_vec1 rfl rfl hra hca fun k => sameLane_of_eq (by rw [not_isF ht]; rfl)
  case popc => exact vecs_vec1 rfl hI hra hca fun k => sameLane_of_eq (congrArg (·, 0) (popcount_eq _ _))
  case clz => exact vecs_vec1 rfl hI hra hca fun k => sameLane_of_eq (congrArg (·, 0) (leadingZeros_eq (hx k)))

end Sys2Proof.Proofs

/-! PROOFS. Vector lanes of the float types (R204 to R213, R302 to R305). -/

namespace Sys2Proof.Machine

set_option Elab.async false
open Claims

/-! ### Vector instructions of a type that they do not accept (R298) -/

theorem State.giveUp_cores (s : State) : s.giveUp.cores = s.cores := by
  have hd : (s.dropReads s.myCore (.instr s.cur)).cores = s.cores := by
    unfold State.dropReads State.forgetEarly
    dsimp only
    split <;> split <;> rfl
  refine Eq.trans ?_ hd
  unfold State.giveUp State.ungrant State.clearLock State.dropLock
  split
  · rfl
  · split
    · rfl
    · split <;> rfl

/-- A trap of a thread that handles none keeps the vector registers. -/
theorem vval_takeTrap (cause status : BitVec 8) (val epc : Word) (s : State) (hc : s.cur.isCtx = false) (ht : s.me.inTrap = false) (r : Reg) :
    (takeTrap cause status val epc s).vval r = s.vval r := by
  have hcores : (takeTrap cause status val epc s).cores = s.cores := by
    rw [takeTrap_thread _ _ _ _ _ hc ht]
    exact s.giveUp_cores
  have hcur : (takeTrap cause status val epc s).myCore = s.myCore := by
    rw [takeTrap_thread _ _ _ _ _ hc ht]
    exact congrArg HartId.home s.giveUp_cur
  have h : s.giveUp.me.v = s.me.v := (congrArg Hart.v s.giveUp_lockless :)
  have hv : (takeTrap cause status val epc s).me.v = s.me.v := by
    rw [takeTrap_thread_me _ _ _ _ _ hc ht]
    exact h
  unfold State.vval State.long State.core Hart.rv
  rw [hcores, hcur, hv]

theorem issueOwn_refused {ik : Code} {hd : Head} {legal : Bool} {own : Option (BitVec 8)} {srcs dsts : List RegRef} {k : State → State} {s : State}
    (hl : legal = false) : issueOwn ik hd 0 legal own srcs dsts k s = trapInstr 0x01 ik s := by
  unfold issueOwn
  rw [if_neg (Nat.not_lt_zero _), hl]
  rfl

/-- A vector instruction of a type that is not one of its own raises cause 0x01. -/
theorem vecIssue_refused {ik : Code} {hd : Head} {legal mem : Bool} {xs vs dsts : List RegRef} {named : List Reg} {body : State → State} {s : State}
    (hl : legal = false) : vecIssue ik hd legal mem xs vs dsts named body s = trapInstr 0x01 ik (granted s) := by
  unfold vecIssue vecIssueOwn
  exact issueOwn_refused (by rw [hl, Bool.and_false, Bool.false_and])

/-- An instruction refused for its type, with the unit's grant used up. -/
theorem refused_of_trap {i : Instr} {s : State} (hi : exec i s = .next (trapInstr 0x01 (codeOf i) (granted s))) (hc : s.cur.isCtx = false)
    (ht : s.me.inTrap = false) :
    ∃ u : State, exec i s = .next u ∧ u.me.csr.tcause = 0x01 ∧ u.me.csr.tepc.toNat = s.me.pc.toNat % 2 ^ 48 ∧ ∀ r, u.vval r = s.vval r := by
  have hc' : (granted s).cur.isCtx = false := (granted_frame (fun s => s.cur.isCtx) (fun _ _ _ => rfl) s).trans hc
  have ht' : (granted s).me.inTrap = false := by rw [granted_me, ht]
  obtain ⟨h1, -, h3, -⟩ := trapInstr_saves 0x01 (codeOf i) (granted s) hc' ht'
  rw [granted_me] at h3
  exact ⟨_, hi, h1.trans (Proofs.tcauseOf_zero _), h3, fun r => (vval_takeTrap _ _ _ _ _ hc' ht' r).trans (congrFun (granted_vval s) r)⟩

/-! ### Float lanes (R204, R302 to R305) -/

theorem isF_of_lt {t : BitVec 3} (h : t.toNat < 3) : isF t = true := decide_eq_true h

section
variable {i : Instr} {hd : Head} {d a b : Reg} {t : BitVec 3} {s : State} {g : Nat → Nat × Flags} (hr : vready s [d, a, b])
  (hc : s.clear hd [.v a, .v b] [.v d]) (ht : t.toNat < 3)
include hr hc ht

/-- A float operation of the type's format on two lanes. -/
theorem vecs_floatFI {ff : Fmt → FEnv → Nat → Nat → Nat × Flags} {fi : Int → Int → Int}
    (hi : exec i s = .next (vec2 (codeOf i) hd d a b t true (laneFI t ff fi) s)) :
    vecs i hd d (laneW t) (fun k => ff (vfmt t) s.vEnv (lane (laneW t) (s.vval a) k) (lane (laneW t) (s.vval b) k)) s :=
  vecs_vec2 hi rfl hr hc fun _ => sameLane_of_eq (by rw [laneFI, isF_of_lt ht]; rfl)

/-- A comparison of two float lanes. -/
theorem vecs_floatCmp {ff : Fmt → FEnv → Nat → Nat → Bool × Flags} {fi : Int → Int → Bool}
    (hi : exec i s = .next (vec2 (codeOf i) hd d a b t true (laneCmp t ff fi) s)) :
    vecs i hd d (laneW t) (fun k => mask t (ff (vfmt t) s.vEnv (lane (laneW t) (s.vval a) k) (lane (laneW t) (s.vval b) k)).1
      (ff (vfmt t) s.vEnv (lane (laneW t) (s.vval a) k) (lane (laneW t) (s.vval b) k)).2) s :=
  vecs_vec2 hi rfl hr hc fun _ => sameLane_of_eq (by rw [laneCmp, isF_of_lt ht]; rfl)

end

end Sys2Proof.Machine

namespace Sys2Proof.Proofs

set_option Elab.async false
open Machine Claims

/-- Settles O32: a vector instruction past its checks writes its lane function's results lane by lane, and each lane function of a float type is
the operation of its format; one that is not of a float type is refused before its registers are looked at. -/
theorem vectorFloatLanes : Obligations.VectorFloatLanes := by
  intro hd d a b t s hr hc ht w f v x y z V X Y W
  have hra : vready s [d, a] := vready_mono hr (by simp)
  have hca : s.clear hd [.v a] [.v d] := clear_mono s hd _ _ _ _ hc (by simp) (List.Subset.refl _)
  have hF : isF t = true := isF_of_lt ht
  have hI : isI t = false := by rw [isI, hF]; rfl
  refine ⟨vecs_floatFI hr hc ht rfl, vecs_floatFI hr hc ht rfl, vecs_floatFI hr hc ht rfl, vecs_floatFI (ff := fun f v => f.minmax v false) hr hc ht rfl,
    vecs_floatFI (ff := fun f v => f.minmax v true) hr hc ht rfl, vecs_floatFI hr hc ht rfl, vecs_floatFI hr hc ht rfl,
    vecs_laneBits hr hc rfl rfl fun k => rfl, vecs_laneBits hr hc rfl rfl fun k => rfl, vecs_laneBits hr hc rfl rfl fun k => rfl,
    vecs_floatCmp hr hc ht rfl, vecs_floatCmp hr hc ht rfl, vecs_floatCmp hr hc ht rfl, ?withD, vecs_vec1 rfl hF hra hca fun k => SameLane.rfl,
    ?abs, ?neg, vecs_vec1 (t := 0) rfl rfl hra hca fun k => SameLane.rfl, vecs_vec1 (t := 0) rfl rfl hra hca fun k => SameLane.rfl,
    vecs_vec1 (t := 0) rfl rfl hra hca fun k => SameLane.rfl, vecs_vec1 (t := 0) rfl rfl hra hca fun k => SameLane.rfl,
    vecs_vec2 (t := 0) rfl rfl hr hc fun k => SameLane.rfl, vecs_vec2 (t := 0) rfl rfl hr hc fun k => SameLane.rfl, ?refused⟩
  case withD =>
    intro hz
    refine ⟨vecs_vec3 rfl rfl hr hc hz fun k => SameLane.rfl, vecs_vec3 rfl rfl hr hc hz fun k => ?_, vecs_vec3 rfl rfl hr hc hz fun k => ?_⟩ <;>
    · rw [hF]
      exact SameLane.rfl
  case abs => exact vecs_vec1 rfl rfl hra hca fun k => sameLane_of_eq (by rw [hF]; rfl)
  case neg => exact vecs_vec1 rfl rfl hra hca fun k => sameLane_of_eq (by rw [hF]; rfl)
  case refused =>
    intro hin i hi
    simp only [List.mem_cons, List.not_mem_nil, or_false] at hi
    rcases hi with rfl | rfl | rfl | rfl | rfl | rfl | rfl | rfl | rfl <;>
      exact refused_of_trap (congrArg Host.Outcome.next (vecIssue_refused hI)) hr.1 hin

end Sys2Proof.Proofs

/-! PROOFS. Whole vector registers as lists of lanes (R306, R307, R309, R315). -/

namespace Sys2Proof.Machine

set_option Elab.async false
open Claims

/-! ### Whole registers as lists of lanes (R309 to R311, R315) -/

theorem lanes_eq_map (s : State) (w : Nat) (r : Reg) : s.lanes w r = (List.range (s.vbits / w)).map (lane w (s.vval r)) := by
  simp [State.lanes, lanesOf, bits_eq_lane]

theorem State.vval_lt (s : State) (r : Reg) : s.vval r < 2 ^ s.vbits := by
  unfold State.vval State.vbits
  cases s.long <;> exact BitVec.isLt _

/-- A number has no lane beyond its bits. -/
theorem lane_beyond {w n v k : Nat} (hv : v < 2 ^ (w * n)) (hk : n ≤ k) : lane w v k = 0 := by
  have hle : 2 ^ (w * n) ≤ 2 ^ (w * k) := Nat.pow_le_pow_right (by decide) (Nat.mul_le_mul_left w hk)
  rw [lane, Nat.div_eq_of_lt (Nat.lt_of_lt_of_le hv hle), Nat.zero_mod]

theorem getD_lanes (s : State) {w : Nat} (r : Reg) (hw : w * (s.vbits / w) = s.vbits) (k : Nat) :
    (s.lanes w r).getD k 0 = lane w (s.vval r) k := by
  by_cases hk : k < (s.lanes w r).length
  · rw [List.getD_eq_getElem _ _ hk, State.getElem_lanes]
  · rw [List.getD_eq_default _ _ (Nat.le_of_not_lt hk)]
    exact (lane_beyond (hw.symm ▸ s.vval_lt r) (by simpa using hk)).symm

theorem lanes_pos (s : State) (t : BitVec 3) : 0 < s.vbits / laneW t := by
  unfold State.vbits laneW
  split <;> split <;> decide

theorem lanes_even (s : State) (t : BitVec 3) : s.vbits / laneW t % 2 = 0 := by
  unfold State.vbits laneW
  split <;> split <;> rfl

theorem two_pow_log2_lanes (s : State) (t : BitVec 3) : 2 ^ Nat.log2 (s.vbits / laneW t) = s.vbits / laneW t := by
  unfold State.vbits laneW
  split <;> split <;> rfl

/-- The lanes of a list that is packed, the lanes past its end being zero. -/
theorem packed_lanesAre {w n : Nat} {l : List Nat} {f : Flags} {g : Nat → Nat × Flags} (hn : l.length ≤ n)
    (hl : ∀ k, k < n → l.getD k 0 % 2 ^ w = (g k).1 % 2 ^ w) (hf : ∀ j, f.getLsbD j = true ↔ ∃ k, k < n ∧ (g k).2.getLsbD j = true) :
    LanesAre w n (packLanes w l) f g :=
  ⟨Nat.lt_of_lt_of_le (packLanes_lt w l) (Nat.pow_le_pow_right (by decide) (Nat.mul_le_mul_left w hn)),
    fun k hk => by rw [lane_packLanes]; exact hl k hk, hf⟩

theorem gathered_lanesAre {w n : Nat} {rs : List (Nat × Flags)} {g : Nat → Nat × Flags} (hn : rs.length ≤ n)
    (hg : ∀ k, k < n → SameLane w (rs.getD k (0, 0)) (g k)) : LanesAre w n (gather w rs).1 (gather w rs).2 g := by
  refine packed_lanesAre (by simpa using hn) (fun k hk => ?_) fun j => ?_
  · rw [← (hg k hk).1, ← List.getD_map (f := Prod.fst)]
  · rw [gather, getLsbD_flags]
    simp only [show ((0 : Flags).getLsbD j = true) ↔ False by simp, false_or]
    constructor
    · rintro ⟨r, hr, hj⟩
      obtain ⟨k, hk, rfl⟩ := List.getElem_of_mem hr
      have hs := (hg k (Nat.lt_of_lt_of_le hk hn)).2
      rw [List.getD_eq_getElem _ _ hk] at hs
      exact ⟨k, Nat.lt_of_lt_of_le hk hn, hs ▸ hj⟩
    · rintro ⟨k, hk, hj⟩
      rw [← (hg k hk).2] at hj
      by_cases hr : k < rs.length
      · rw [List.getD_eq_getElem _ _ hr] at hj
        exact ⟨rs[k], List.getElem_mem hr, hj⟩
      · rw [List.getD_eq_default _ _ (Nat.le_of_not_lt hr)] at hj
        simp at hj

/-- Lanes without flags. -/
theorem noFlags_iff {n j : Nat} {g : Nat → Nat × Flags} (hg : ∀ k, (g k).2 = 0) :
    (0 : Flags).getLsbD j = true ↔ ∃ k, k < n ∧ (g k).2.getLsbD j = true := by simp [hg]

/-- A reduction's result stands in lane 0. -/
theorem reduced_lanesAre {w n : Nat} {r r' : Nat × Flags} (hn : 0 < n) (h : SameLane w r r') :
    LanesAre w n (packLanes w (reduced n r).1) (reduced n r).2 (fun k => if k = 0 then r' else (0, 0)) := by
  refine packed_lanesAre (by simp [reduced]; omega) (fun k hk => ?_) fun j => ⟨fun hj => ⟨0, hn, h.2 ▸ hj⟩, ?_⟩
  · cases k with
    | zero => exact h.1
    | succ k => simp [reduced]
  · rintro ⟨k, -, hj⟩
    split at hj
    · exact h.2 ▸ hj
    · simp at hj

section
variable {i : Instr} {hd : Head} {d a b : Reg} {w : Nat} {legal : Bool} {g : Nat → Nat × Flags} {s : State}

theorem vecs_vecAll1 {f : FEnv → List Nat → List Nat × Flags} (hi : exec i s = .next (vecAll1 (codeOf i) hd d a w legal f s)) (hl : legal = true)
    (hw : w * (s.vbits / w) = s.vbits) (hr : vready s [d, a]) (hc : s.clear hd [.v a] [.v d])
    (hg : LanesAre w (s.vbits / w) (packLanes w (f s.vEnv (s.lanes w a)).1) (f s.vEnv (s.lanes w a)).2 g) : vecs i hd d w g s := by
  refine vecs_of_writeV (hi.trans (congrArg Host.Outcome.next (vecIssue_clear hl hr (by simp) hc))) hw ?_
  rw [granted_lanes, granted_vEnv]
  exact hg

theorem vecs_vecAll2 {f : List Nat → List Nat → List Nat} (hi : exec i s = .next (vecAll2 (codeOf i) hd d a b w legal f s)) (hl : legal = true)
    (hw : w * (s.vbits / w) = s.vbits) (hr : vready s [d, a, b]) (hc : s.clear hd [.v a, .v b] [.v d])
    (hn : (f (s.lanes w a) (s.lanes w b)).length ≤ s.vbits / w)
    (hg : ∀ k, k < s.vbits / w → (f (s.lanes w a) (s.lanes w b)).getD k 0 = (g k).1) (hf : ∀ k, (g k).2 = 0) : vecs i hd d w g s := by
  refine vecs_of_writeV (hi.trans (congrArg Host.Outcome.next (vecIssue_clear hl hr (by simp) hc))) hw ?_
  rw [granted_lanes]
  exact packed_lanesAre hn (fun k hk => by rw [hg k hk]) fun j => noFlags_iff hf

end

/-! ### Reductions (R302, R309) -/

section
variable {f : Nat → Nat → Nat × Flags}

theorem length_pairUp (l : List Nat) : (pairUp f l).length = (l.length + 1) / 2 := by
  induction l using pairUp.induct with
  | case1 x y r ih => simp only [pairUp, List.length_cons, ih]; omega
  | case2 x => simp [pairUp]
  | case3 => rfl

variable {w : Nat} (hf : ∀ x y, (f x y).1 ≡ x + y [MOD 2 ^ w] ∧ (f x y).2 = 0)
include hf

theorem sum_pairUp (l : List Nat) : ((pairUp f l).map (·.1)).sum ≡ l.sum [MOD 2 ^ w] := by
  induction l using pairUp.induct with
  | case1 x y r ih =>
    simp only [pairUp, List.map_cons, List.sum_cons, ← Nat.add_assoc]
    exact (hf x y).1.add ih
  | case2 x => rfl
  | case3 => rfl

theorem flags_pairUp (l : List Nat) : ∀ p ∈ pairUp f l, p.2 = 0 := by
  induction l using pairUp.induct with
  | case1 x y r ih =>
    intro p hp
    rcases List.mem_cons.mp hp with rfl | hp
    · exact (hf x y).2
    · exact ih p hp
  | case2 x => intro p hp; rw [List.mem_singleton.mp hp]
  | case3 => intro p hp; exact absurd hp (List.not_mem_nil)

/-- A tree of additions modulo 2^w gives the sum modulo 2^w. -/
theorem treeSum_modEq (n : Nat) (l : List Nat) (h : l.length ≤ 2 ^ n) :
    (treeSum f l n).1 ≡ l.sum [MOD 2 ^ w] ∧ (treeSum f l n).2 = 0 := by
  induction n generalizing l with
  | zero =>
    match l, h with
    | [], _ => exact ⟨rfl, rfl⟩
    | [x], _ => exact ⟨by simp [treeSum, Nat.ModEq], rfl⟩
  | succ n ih =>
    obtain ⟨h1, h2⟩ := ih ((pairUp f l).map (·.1)) (by rw [List.length_map, length_pairUp]; rw [Nat.pow_succ] at h; omega)
    refine ⟨h1.trans (sum_pairUp hf l), ?_⟩
    have hfold (rs : List (Nat × Flags)) (h : ∀ p ∈ rs, p.2 = 0) : rs.foldl (fun g p => g ||| p.2) (0 : Flags) = 0 := by
      induction rs with
      | nil => rfl
      | cons p rs ih =>
        rw [List.foldl_cons, h p List.mem_cons_self]
        exact ih fun q hq => h q (List.mem_cons_of_mem _ hq)
    rw [treeSum, h2]
    exact hfold _ (flags_pairUp hf l)

end

/-- Lanes of which the better of two is kept, one after another: the best of them remains. -/
theorem foldLanes_best {f : Nat → Nat → Nat × Flags} {key : Nat → Int} {B : Nat}
    (hf : ∀ x y, x < B → y < B → ∃ m, f x y = (m, 0) ∧ (m = x ∨ m = y) ∧ key x ≤ key m ∧ key y ≤ key m) (l : List Nat) (hl : l ≠ [])
    (hb : ∀ x ∈ l, x < B) : ∃ m ∈ l, (∀ k ∈ l, key k ≤ key m) ∧ foldLanes f l = (m, 0) := by
  have step (r : List Nat) (x : Nat) (hx : x < B) (hr : ∀ y ∈ r, y < B) : ∃ m, (m = x ∨ m ∈ r) ∧ key x ≤ key m ∧ (∀ k ∈ r, key k ≤ key m) ∧
      r.foldl (fun (t : Nat × Flags) y => ((f t.1 y).1, t.2 ||| (f t.1 y).2)) (x, 0) = (m, 0) := by
    induction r generalizing x with
    | nil => exact ⟨x, .inl rfl, Int.le_refl _, by simp, rfl⟩
    | cons y r ih =>
      obtain ⟨c, hc, hcm, hcx, hcy⟩ := hf x y hx (hr y List.mem_cons_self)
      have hcB : c < B := by
        rcases hcm with rfl | rfl
        · exact hx
        · exact hr _ List.mem_cons_self
      obtain ⟨m, hm, h1, h2, h3⟩ := ih c hcB fun z hz => hr z (List.mem_cons_of_mem _ hz)
      refine ⟨m, ?_, hcx.trans h1, fun k hk => ?_, ?_⟩
      · rcases hm with rfl | hm
        · rcases hcm with h | h
          · exact .inl h
          · exact .inr (h ▸ List.mem_cons_self)
        · exact .inr (List.mem_cons_of_mem _ hm)
      · rcases List.mem_cons.mp hk with rfl | hk
        · exact hcy.trans h1
        · exact h2 k hk
      · rw [List.foldl_cons, hc]
        simpa using h3
  match l, hl with
  | x :: r, _ =>
    obtain ⟨m, hm, h1, h2, h3⟩ := step r x (hb x List.mem_cons_self) fun y hy => hb y (List.mem_cons_of_mem _ hy)
    refine ⟨m, List.mem_cons.mpr hm, fun k hk => ?_, h3⟩
    rcases List.mem_cons.mp hk with rfl | hk
    · exact h1
    · exact h2 k hk

/-! ### Permutations (R315) -/

theorem getElem?_evens (l : List Nat) (k : Nat) : (evens l)[k]? = l[2 * k]? := by
  induction l using evens.induct generalizing k with
  | case1 x y r ih =>
    cases k with
    | zero => rfl
    | succ k => rw [evens, List.getElem?_cons_succ, ih, Nat.mul_succ, List.getElem?_cons_succ, List.getElem?_cons_succ]
  | case2 x =>
    cases k with
    | zero => rfl
    | succ k => rw [evens, Nat.mul_succ]; rfl
  | case3 => simp [evens]

theorem length_evens (l : List Nat) : (evens l).length = (l.length + 1) / 2 := by
  induction l using evens.induct with
  | case1 x y r ih => simp only [evens, List.length_cons, ih]; omega
  | case2 x => simp [evens]
  | case3 => rfl

theorem getElem?_interleave (l : List (Nat × Nat)) (k : Nat) :
    (l.flatMap (fun p => [p.1, p.2]))[k]? = l[k / 2]?.map (fun p => if k % 2 = 0 then p.1 else p.2) := by
  induction l generalizing k with
  | nil => simp
  | cons p l ih =>
    match k with
    | 0 => rfl
    | 1 => rfl
    | k + 2 =>
      rw [show (k + 2) / 2 = k / 2 + 1 by omega, show (k + 2) % 2 = k % 2 by omega, List.getElem?_cons_succ, ← ih k]
      rfl

/-! ### The operand groups of VDOT (R306, R307) -/

theorem testBit_lane (w v k j : Nat) : (lane w v k).testBit j = (decide (j < w) && v.testBit (w * k + j)) := by
  rw [lane, Nat.testBit_mod_two_pow, Nat.testBit_div_two_pow, Nat.add_comm j]

/-- A lane of e bits within a wider lane. -/
theorem lane_lane {e q i : Nat} (hi : i < q) (v k : Nat) : lane e (lane (e * q) v k) i = lane e v (k * q + i) := by
  apply Nat.eq_of_testBit_eq
  intro j
  rw [testBit_lane, testBit_lane, testBit_lane]
  by_cases hj : j < e
  · have hin : e * i + j < e * q := by
      calc e * i + j < e * i + e := Nat.add_lt_add_left hj _
        _ = e * (i + 1) := (Nat.mul_succ e i).symm
        _ ≤ e * q := Nat.mul_le_mul_left e hi
    rw [decide_eq_true hin, Bool.true_and, show e * q * k + (e * i + j) = e * (k * q + i) + j by ring]
  · simp [hj]

theorem length_dotGroup (long : Bool) (r : Reg) : (dotGroup long r).length = if long then 1 else 4 := by cases long <;> rfl

theorem getD_dotGroup {long : Bool} {i : Nat} (r : Reg) (h : i < (dotGroup long r).length) :
    (dotGroup long r)[i] = r + BitVec.ofNat 5 i := by
  cases long with
  | true => obtain rfl : i = 0 := Nat.lt_one_iff.mp h; exact (BitVec.add_zero r).symm
  | false =>
    match i, h with
    | 0, _ => exact (BitVec.add_zero r).symm
    | 1, _ => rfl
    | 2, _ => rfl
    | 3, _ => rfl

/-- The registers of an operand group side by side. -/
def dotBits (s : State) (r : Reg) : Nat := packLanes s.vbits ((dotGroup s.long r).map s.vval)

/-- An element of an operand group lies in one of its registers. -/
theorem lane_dotBits {s : State} {r : Reg} {e q i : Nat} (hq : e * q = s.vbits) (hi : i < (dotGroup s.long r).length * q) :
    lane e (dotBits s r) i = lane e (s.vval (r + BitVec.ofNat 5 (i / q))) (i % q) := by
  have hq0 : 0 < q := Nat.pos_of_ne_zero fun h => by simp [h] at hi
  have hd : i / q < (dotGroup s.long r).length := (Nat.div_lt_iff_lt_mul hq0).mpr hi
  have hlane : lane s.vbits (dotBits s r) (i / q) = s.vval (r + BitVec.ofNat 5 (i / q)) := by
    rw [dotBits, lane_packLanes, List.getD_eq_getElem _ _ (by simpa using hd), List.getElem_map, getD_dotGroup r hd]
    exact Nat.mod_eq_of_lt (s.vval_lt _)
  rw [← hlane, ← hq, lane_lane (Nat.mod_lt i hq0), Nat.div_add_mod']

/-- The blocks of an operand group. -/
theorem lanesOf_dotBits {s : State} {r : Reg} {e q k : Nat} (he : 0 < e) (hq : e * q = s.vbits) (hk : (k + 1) * 128 ≤ (dotGroup s.long r).length * q) :
    lanesOf e 128 (bits (dotBits s r) (k * (e * 128)) (e * 128)) = dotBlock s e r k := by
  unfold lanesOf dotBlock
  refine List.map_congr_left fun j hj => ?_
  have hj' : j < 128 := List.mem_range.mp hj
  have hi : k * 128 + j < (dotGroup s.long r).length * q := by omega
  rw [bits_eq_lane, bits_eq_lane, lane_lane hj', lane_dotBits hq hi]
  dsimp only
  rw [← hq, Nat.mul_comm _ e, Nat.mul_div_mul_left _ _ he, Nat.mul_mod_mul_left, Nat.mul_div_cancel_left _ he]

theorem elemBits_dotFmt (p : BitVec 3) (s : State) : 0 < elemBits (dotFmt p) ∧ elemBits (dotFmt p) * (s.vbits / elemBits (dotFmt p)) = s.vbits := by
  unfold State.vbits dotFmt
  split <;> split <;> exact ⟨by decide, rfl⟩

theorem dotScaled_iff (p : BitVec 3) : dotScaled p = true ↔ 4 ≤ p.toNat := decide_eq_true_iff

end Sys2Proof.Machine

/-! PROOFS. Reductions, conversions, permutations and VDOT (R302, R306, R307, R309 to R311, R315). -/

namespace Sys2Proof.Machine

set_option Elab.async false
open Claims

/-! ### Reductions, conversions, permutations and VDOT (R302, R306, R307, R309 to R311, R315) -/

theorem vecs_congr {i : Instr} {hd : Head} {d : Reg} {w : Nat} {g g' : Nat → Nat × Flags} {s : State} (h : vecs i hd d w g s)
    (hg : ∀ k, k < s.vbits / w → g k = g' k) : vecs i hd d w g' s := by
  obtain ⟨t, ht, hl, ⟨f, hf, hj⟩, hrest⟩ := h
  refine ⟨t, ht, fun k hk => hg k hk ▸ hl k hk, ⟨f, hf, fun j h5 => (hj j h5).trans ?_⟩, hrest⟩
  exact exists_congr fun k => and_congr_right fun hk => by rw [hg k hk]

theorem laneFI_float {t : BitVec 3} (ht : t.toNat < 3) (ff : Fmt → FEnv → Nat → Nat → Nat × Flags) (fi : Int → Int → Int) (v : FEnv) :
    laneFI t ff fi v = ff (vfmt t) v := by
  funext x y
  rw [laneFI, isF_of_lt ht]
  rfl

section
variable {i : Instr} {hd : Head} {d a b : Reg} {t : BitVec 3} {s : State} (hr : vready s [d, a]) (hc : s.clear hd [.v a] [.v d])
include hr hc

/-- A reduction writes its result into lane 0 and zero into the others. -/
theorem vecs_reduction {F : FEnv → List Nat → Nat × Flags} {r : Nat × Flags}
    (hi : exec i s = .next (vecAll1 (codeOf i) hd d a (laneW t) true (fun v l => reduced l.length (F v l)) s))
    (h : SameLane (laneW t) (F s.vEnv ((List.range (s.vbits / laneW t)).map (lane (laneW t) (s.vval a)))) r) :
    vecs i hd d (laneW t) (fun k => if k = 0 then r else (0, 0)) s := by
  refine vecs_vecAll1 hi rfl (lanes_fill s t) hr hc ?_
  rw [State.length_lanes, lanes_eq_map]
  exact reduced_lanesAre (lanes_pos s t) h

end

/-- The sum of integer lanes modulo 2^W (R309). -/
theorem treeSum_int {t : BitVec 3} (ht : 3 ≤ t.toNat) (v : FEnv) {xs : List Nat} {n : Nat} (hn : xs.length ≤ 2 ^ n) :
    SameLane (laneW t) (treeSum (laneFI t Fmt.add (· + ·) v) xs n) (xs.foldl (· + ·) 0 % 2 ^ laneW t, 0) := by
  have hf (x y : Nat) : (laneFI t Fmt.add (· + ·) v x y).1 ≡ x + y [MOD 2 ^ laneW t] ∧ (laneFI t Fmt.add (· + ·) v x y).2 = 0 := by
    have h : laneFI t Fmt.add (· + ·) v x y = ((x + y) % 2 ^ laneW t, 0) := by
      rw [laneFI_int ht, wrap_congr ((num_modEq t x).add (num_modEq t y)), ← Nat.cast_add, wrap_natCast]
    rw [h]
    exact ⟨Nat.mod_modEq _ _, rfl⟩
  obtain ⟨h1, h2⟩ := treeSum_modEq hf n xs hn
  exact ⟨by rw [Nat.mod_mod, ← List.sum_eq_foldl]; exact h1, h2⟩

/-- The highest or the lowest of integer lanes (R302, R309). -/
theorem foldLanes_int {t : BitVec 3} {f : Nat → Nat → Nat × Flags} {key : Nat → Int}
    (hf : ∀ x y, x < 2 ^ laneW t → y < 2 ^ laneW t → ∃ m, f x y = (m, 0) ∧ (m = x ∨ m = y) ∧ key x ≤ key m ∧ key y ≤ key m) (s : State) (a : Reg) :
    let xs := (List.range (s.vbits / laneW t)).map (lane (laneW t) (s.vval a))
    ∃ m ∈ xs, (∀ k ∈ xs, key k ≤ key m) ∧ foldLanes f xs = (m, 0) := by
  refine foldLanes_best hf _ (fun h => ?_) fun x hx => ?_
  · have h0 := congrArg List.length h
    rw [List.length_map, List.length_range] at h0
    exact absurd h0 (lanes_pos s t).ne'
  · obtain ⟨k, -, rfl⟩ := List.mem_map.mp hx
    exact lane_lt _ _ _

theorem best_max {t : BitVec 3} (ht : 3 ≤ t.toNat) (v : FEnv) (x y : Nat) (hx : x < 2 ^ laneW t) (hy : y < 2 ^ laneW t) :
    ∃ m, laneFI t (fun f v => f.minmax v true) (fun x y => max x y) v x y = (m, 0) ∧ (m = x ∨ m = y) ∧ num t x ≤ num t m ∧ num t y ≤ num t m := by
  refine ⟨_, (laneFI_int ht _ _ v x y).trans (wrap_max hx hy), ?_⟩
  split
  case isTrue h => exact ⟨.inr rfl, h, Int.le_refl _⟩
  case isFalse h => exact ⟨.inl rfl, Int.le_refl _, (Int.not_le.mp h).le⟩

theorem best_min {t : BitVec 3} (ht : 3 ≤ t.toNat) (v : FEnv) (x y : Nat) (hx : x < 2 ^ laneW t) (hy : y < 2 ^ laneW t) :
    ∃ m, laneFI t (fun f v => f.minmax v false) (fun x y => min x y) v x y = (m, 0) ∧ (m = x ∨ m = y) ∧ -num t x ≤ -num t m ∧ -num t y ≤ -num t m := by
  refine ⟨_, (laneFI_int ht _ _ v x y).trans (wrap_min hx hy), ?_⟩
  split
  case isTrue h => exact ⟨.inl rfl, Int.le_refl _, Int.neg_le_neg h⟩
  case isFalse h => exact ⟨.inr rfl, Int.neg_le_neg (Int.not_le.mp h).le, Int.le_refl _⟩

/-- One conversion between unlike types. -/
theorem convLane_eq_converted (g t : BitVec 3) (v : FEnv) (x : Nat) : convLane t g v x = converted v g t x := by
  have hI (u : BitVec 3) : isF u = decide (u.toNat < 3) := rfl
  have hlo : vrange g = (if g = 7 then (0 : Int) else -(2 : Int) ^ (laneW g - 1), if g = 7 then (2 : Int) ^ 64 - 1 else (2 : Int) ^ (laneW g - 1) - 1) := by
    unfold vrange
    split <;> rfl
  unfold convLane converted
  rw [hI, hI, vint_eq_num, clampLane_eq_sat, hlo]
  by_cases ht : t.toNat < 3 <;> by_cases hg : g.toNat < 3 <;>
    simp only [ht, hg, decide_true, decide_false, and_self, and_false, false_and, Bool.false_eq_true, if_true, if_false] <;> rfl

section
variable {i : Instr} {hd : Head} {d a : Reg} {s : State} (hr : vready s [d, a]) (hc : s.clear hd [.v a] [.v d])
include hr hc

/-- VCVT converts as many lanes as the destination holds, the rest being zero (R310, R311). -/
theorem vecs_vcvt {g t : BitVec 3} {ws wt : Nat} {f : FEnv → Nat → Nat × Flags} (hl : (g != t || decide (g.toNat < 4)) = true)
    (hf : convOf t g = (ws, wt, f)) (hwt : wt * (s.vbits / wt) = s.vbits) :
    vecs (.vcvt hd d a g t) hd d wt (fun k => if k < s.vbits / ws then f (csrEnv s.me.csr.vcsr) (lane ws (s.vval a) k) else (0, 0)) s := by
  refine vecs_of_writeV (v := (gather wt (((s.lanes ws a).take (s.vbits / wt)).map (f (csrEnv s.me.csr.vcsr)))).1)
    (f := (gather wt (((s.lanes ws a).take (s.vbits / wt)).map (f (csrEnv s.me.csr.vcsr)))).2)
    (congrArg Host.Outcome.next ((vecIssue_clear hl hr (by simp) hc).trans ?_)) hwt ?_
  · rw [hf]
    dsimp only
    rw [granted_me, granted_lanes, granted_vbits]
  · refine gathered_lanesAre (by simp) fun k hk => sameLane_of_eq ?_
    by_cases hn : k < s.vbits / ws
    · rw [List.getD_eq_getElem _ _ (by simpa using ⟨hk, hn⟩), List.getElem_map, List.getElem_take, State.getElem_lanes, if_pos hn]
    · rw [List.getD_eq_default _ _ (by simp; omega), if_neg hn]

end

section
variable {hd : Head} {d a b : Reg} {t : BitVec 3} {s : State} (hr : vready s [d, a, b]) (hc : s.clear hd [.v a, .v b] [.v d])
include hr hc

theorem vecs_vperm : vecs (.vperm hd d a b t) hd d (laneW t)
    (fun k => (lane (laneW t) (s.vval a) (lane (laneW t) (s.vval b) k % (s.vbits / laneW t)), 0)) s := by
  refine vecs_vecAll2 rfl rfl (lanes_fill s t) hr hc (by simp) (fun k hk => ?_) fun k => rfl
  rw [List.getD_eq_getElem _ _ (by simpa using hk), List.getElem_map, State.getElem_lanes, State.length_lanes, getD_lanes s a (lanes_fill s t)]

theorem vecs_vzip : vecs (.vzip hd d a b t) hd d (laneW t)
    (fun k => (if k % 2 = 0 then lane (laneW t) (s.vval a) (k / 2) else lane (laneW t) (s.vval b) (k / 2), 0)) s := by
  have hev := lanes_even s t
  refine vecs_vecAll2 rfl rfl (lanes_fill s t) hr hc ?_ (fun k hk => ?_) fun k => rfl
  · simp [List.length_flatMap]
    omega
  · have hk2 : k / 2 < s.vbits / laneW t / 2 := by omega
    have hlen : k / 2 < (((s.lanes (laneW t) a).zip (s.lanes (laneW t) b)).take ((s.lanes (laneW t) a).length / 2)).length := by
      simp
      omega
    rw [List.getD_eq_getElem?_getD, getElem?_interleave, List.getElem?_eq_getElem hlen, List.getElem_take, List.getElem_zip,
      State.getElem_lanes, State.getElem_lanes]
    rfl

theorem vecs_vunzip : vecs (.vunzip hd d a b t) hd d (laneW t)
    (fun k => (if k < s.vbits / laneW t / 2 then lane (laneW t) (s.vval a) (2 * k)
      else lane (laneW t) (s.vval b) (2 * (k - s.vbits / laneW t / 2)), 0)) s := by
  have hev := lanes_even s t
  have hlen (r : Reg) : (evens (s.lanes (laneW t) r)).length = s.vbits / laneW t / 2 := by
    rw [length_evens, State.length_lanes]
    omega
  refine vecs_vecAll2 rfl rfl (lanes_fill s t) hr hc ?_ (fun k hk => ?_) fun k => rfl
  · rw [List.length_append, hlen, hlen]
    omega
  · dsimp only
    split
    case isTrue h =>
      rw [List.getD_append _ _ _ _ (by rw [hlen]; exact h), List.getD_eq_getElem?_getD, getElem?_evens, ← List.getD_eq_getElem?_getD,
        getD_lanes s a (lanes_fill s t)]
    case isFalse h =>
      rw [List.getD_append_right _ _ _ _ (by rw [hlen]; exact Nat.le_of_not_lt h), hlen, List.getD_eq_getElem?_getD, getElem?_evens,
        ← List.getD_eq_getElem?_getD, getD_lanes s b (lanes_fill s t)]

theorem vecs_vslide : vecs (.vslide hd d a b t) hd d (laneW t)
    (fun k => (if 0 ≤ (k : Int) + (lane (laneW t) (s.vval b) 0 : Int).bmod (2 ^ laneW t) ∧
        (k : Int) + (lane (laneW t) (s.vval b) 0 : Int).bmod (2 ^ laneW t) < (s.vbits / laneW t : Nat)
      then lane (laneW t) (s.vval a) ((k : Int) + (lane (laneW t) (s.vval b) 0 : Int).bmod (2 ^ laneW t)).toNat else 0, 0)) s := by
  have hy : (s.lanes (laneW t) b).headD 0 = lane (laneW t) (s.vval b) 0 := by
    rw [← getD_lanes s b (lanes_fill s t)]
    cases s.lanes (laneW t) b <;> rfl
  refine vecs_vecAll2 rfl rfl (lanes_fill s t) hr hc (by simp [slide]) (fun k hk => ?_) fun k => rfl
  rw [slide, List.getD_eq_getElem _ _ (by simpa using hk), List.getElem_map, List.getElem_range, hy, signedOf_eq_bmod (laneW_pos t),
    getD_lanes s a (lanes_fill s t)]
  dsimp only
  by_cases h0 : 0 ≤ (k : Int) + (lane (laneW t) (s.vval b) 0 : Int).bmod (2 ^ laneW t)
  · by_cases h1 : (k : Int) + (lane (laneW t) (s.vval b) 0 : Int).bmod (2 ^ laneW t) < (s.vbits / laneW t : Nat)
    · rw [if_pos h0, if_pos ⟨h0, h1⟩]
    · rw [if_pos h0, if_neg (fun h => h1 h.2)]
      exact lane_beyond ((lanes_fill s t).symm ▸ s.vval_lt a) (by omega)
  · rw [if_neg h0, if_neg (fun h => h0 h.1)]

end

/-! ### VDOT (R306, R307) -/

/-- VDOT's accumulators in their lanes. -/
theorem vecs_vdot {hd : Head} {d a b : Reg} {p : BitVec 3} {s : State} (hp : s.long = true ∨ 3 ≤ p.toNat) (hbad : dotBad s.long d a b p = false)
    (hc : s.clear hd ((dotGroup s.long a ++ dotGroup s.long b ++ (if 4 ≤ p.toNat then [d, d + 1] else [d])).map RegRef.v) [.v d])
    (hr : vready s (dotGroup s.long a ++ dotGroup s.long b ++ (if 4 ≤ p.toNat then [d, d + 1] else [d]))) :
    let e := elemBits (dotFmt p)
    let env : FEnv := ⟨0, wbit s.me.csr.vcsr 8, wbit s.me.csr.vcsr 11⟩
    let rule : PairRule := if p = 3 then .int32 else if p = 6 ∨ p = 7 then .intFloat else if p = 4 ∨ p = 5 then .fixed else .sequential
    let scale (k : Nat) : Nat := if 4 ≤ p.toNat then lane 32 (s.vval (d + 1)) k else 0x3F800000
    vecs (.vdot hd d a b p) hd d 32 (fun k =>
      if k < (if s.long then 1 else 4) * s.vbits / (128 * e) then
        promote env rule (lane 32 (s.vval d) k) (blockSum env rule (dotFmt p) (dotFmt p) (dotBlock s e a k) (dotBlock s e b k)) (scale k)
          (scale (s.vbits / 64 + k))
      else (lane 32 (s.vval d) k, 0)) s := by
  intro e env rule scale
  obtain ⟨he, hq⟩ := elemBits_dotFmt p s
  have h32 : 32 * (s.vbits / 32) = s.vbits := lanes_fill s 0
  have hnamed : (if dotScaled p then [d, d + 1] else [d]) = if 4 ≤ p.toNat then [d, d + 1] else [d] := by simp only [dotScaled_iff]
  have hlegal : (s.long || decide (3 ≤ p.toNat)) = true := by simpa using hp
  let rs := dotLanes env (dotFmt p) rule (s.vbits / 64) (dotScaled p) ((dotGroup s.long a).length * s.vbits / (e * 128)) (dotBits s a) (dotBits s b)
    (s.lanes 32 d) (if dotScaled p then s.lanes 32 (d + 1) else [])
  refine vecs_of_writeV (v := (gather 32 rs).1) (f := (gather 32 rs).2) (congrArg Host.Outcome.next ?_) h32 ?_
  · rw [hbad, if_neg (by decide), hnamed]
    refine (vecIssue_clear hlegal hr (by simp) hc).trans ?_
    dsimp only
    rw [granted_me, granted_lanes, granted_vbits, granted_long, granted_vval]
    rfl
  · have hlen : rs.length = s.vbits / 32 := by
      simp only [rs, dotLanes, List.length_map, List.length_zipIdx, State.length_lanes]
    refine gather_lanesAre hlen fun k hk => sameLane_of_eq ?_
    have hscale (j : Nat) : (if dotScaled p then (if dotScaled p then s.lanes 32 (d + 1) else []).getD j 0 else 0x3F800000) = scale j := by
      by_cases hs : 4 ≤ p.toNat
      · simp only [scale, dotScaled_iff, hs, if_true]
        exact getD_lanes s _ h32 j
      · simp only [scale, dotScaled_iff, hs, if_false]
    have hsize : (dotGroup s.long a).length * s.vbits / (e * 128) = (if s.long then 1 else 4) * s.vbits / (128 * e) := by
      rw [length_dotGroup, Nat.mul_comm e]
    have hget : rs[k] = if k < (dotGroup s.long a).length * s.vbits / (e * 128) then
        promote env rule (lane 32 (s.vval d) k) (blockSum env rule (dotFmt p) (dotFmt p)
          (lanesOf e 128 (bits (dotBits s a) (k * (e * 128)) (e * 128))) (lanesOf e 128 (bits (dotBits s b) (k * (e * 128)) (e * 128))))
          (if dotScaled p then (if dotScaled p then s.lanes 32 (d + 1) else []).getD k 0 else 0x3F800000)
          (if dotScaled p then (if dotScaled p then s.lanes 32 (d + 1) else []).getD (s.vbits / 64 + k) 0 else 0x3F800000)
      else (lane 32 (s.vval d) k, 0) := by
      simp only [rs, dotLanes, List.getElem_map, List.getElem_zipIdx, State.getElem_lanes, Nat.zero_add]
      rfl
    rw [hget, hscale, hscale, ← hsize]
    split
    case isTrue hg =>
      have hfit (r : Reg) : (k + 1) * 128 ≤ (dotGroup s.long r).length * (s.vbits / e) := by
        have h1 : (k + 1) * (e * 128) ≤ (dotGroup s.long a).length * s.vbits := (Nat.le_div_iff_mul_le (by omega)).mp hg
        rw [length_dotGroup] at h1 ⊢
        refine Nat.le_of_mul_le_mul_left ?_ he
        calc e * ((k + 1) * 128) = (k + 1) * (e * 128) := by ring
          _ ≤ (if s.long then 1 else 4) * s.vbits := h1
          _ = (if s.long then 1 else 4) * (e * (s.vbits / e)) := by rw [hq]
          _ = e * ((if s.long then 1 else 4) * (s.vbits / e)) := by ring
      rw [lanesOf_dotBits he hq (hfit a), lanesOf_dotBits he hq (hfit b)]
    case isFalse => rfl

/-- A whole block sum added to a whole accumulator modulo 2^32. -/
theorem promote_int32 {v : FEnv} (h : v.sat = false) (acc : Nat) (k : Int) (sa sw : Nat) :
    promote v .int32 acc (.int k) sa sw = ((((acc : Int) + k) % (2 : Int) ^ 32).toNat, 0) := by
  have hacc : signedOf 32 acc + k ≡ acc + k [ZMOD 2 ^ 32] := by
    rw [signedOf_eq_bmod (by decide)]
    refine Int.ModEq.add_right k ?_
    have hb := Int.bmod_emod (x := (acc : Int)) (m := 2 ^ 32)
    push_cast at hb
    exact hb
  unfold promote
  rw [h]
  exact Prod.ext (congrArg Int.toNat hacc) (by simp [Flags.when])

/-- The integer sum of a block of bytes of a group of four short registers. -/
theorem foldl_dotBlock {s : State} (hs : s.long = false) (a b : Reg) :
    ((dotBlock s 8 a 0).zip (dotBlock s 8 b 0)).foldl (fun t p => t + intElem 8 p.1 * intElem 8 p.2) 0 =
    (List.range 128).foldl (fun (q : Int) j => q + ((lane 8 (s.vval (a + BitVec.ofNat 5 (j / 32))) (j % 32) : Nat) : Int).bmod 256 *
      ((lane 8 (s.vval (b + BitVec.ofNat 5 (j / 32))) (j % 32) : Nat) : Int).bmod 256) 0 := by
  have hv : s.vbits = 256 := by rw [State.vbits, hs]; rfl
  have hblock (r : Reg) : dotBlock s 8 r 0 = (List.range 128).map (fun j => lane 8 (s.vval (r + BitVec.ofNat 5 (j / 32))) (j % 32)) := by
    refine List.map_congr_left fun j _ => ?_
    dsimp only
    rw [hv, show (0 * 128 + j) * 8 / 256 = j / 32 by omega, show (0 * 128 + j) * 8 % 256 / 8 = j % 32 by omega]
  have hint (v : Nat) : intElem 8 v = (v : Int).bmod 256 := signedOf_eq_bmod (by decide) v
  rw [hblock, hblock, List.zip_map', List.foldl_map]
  simp only [hint]

end Sys2Proof.Machine

namespace Sys2Proof.Proofs

set_option Elab.async false
open Machine Claims

/-- Settles O33: each instruction on whole registers writes a list of lanes, and the lanes of that list are those asked for. -/
theorem vectorWhole : Obligations.VectorWhole := by
  intro hd d a b g t s hr hc w n x y xs V first
  have hra : vready s [d, a] := vready_mono hr (by simp)
  have hca : s.clear hd [.v a] [.v d] := clear_mono s hd _ _ _ _ hc (by simp) (List.Subset.refl _)
  have hlen : xs.length ≤ 2 ^ Nat.log2 (s.vbits / laneW t) := by
    rw [two_pow_log2_lanes]
    simp [xs, n, w]
  refine ⟨?ints, ?floats, vecs_vperm hr hc, vecs_vzip hr hc, vecs_vunzip hr hc, vecs_vslide hr hc, ?cvt, ?cvt0, ?cvt2, ?dot3, ?dot⟩
  case ints =>
    intro ht
    obtain ⟨m, hm, hbest, hfold⟩ := foldLanes_int (best_max ht s.vEnv) s a
    obtain ⟨l, hl, hleast, hlfold⟩ := foldLanes_int (best_min ht s.vEnv) s a
    refine ⟨vecs_reduction hra hca rfl ?_, ⟨m, hm, hbest, vecs_reduction hra hca rfl (sameLane_of_eq hfold)⟩,
      ⟨l, hl, fun k hk => Int.neg_le_neg_iff.mp (hleast k hk), vecs_reduction hra hca rfl (sameLane_of_eq hlfold)⟩⟩
    rw [List.length_map, List.length_range]
    exact treeSum_int ht _ hlen
  case floats =>
    intro ht
    refine ⟨vecs_reduction hra hca rfl ?_, vecs_reduction hra hca rfl ?_, vecs_reduction hra hca rfl ?_⟩ <;> rw [laneFI_float ht]
    · exact SameLane.rfl
    · exact SameLane.rfl
    · rw [List.length_map, List.length_range]
      exact SameLane.rfl
  case cvt =>
    intro hne
    refine vecs_congr (vecs_vcvt (ws := laneW t) (f := convLane t g) hra hca (by simp [hne]) (if_neg (Ne.symm hne)) (lanes_fill s g)) fun k _ => ?_
    rw [convLane_eq_converted]
  case cvt0 => exact vecs_vcvt hra hca rfl rfl (lanes_fill s 3)
  case cvt2 =>
    refine vecs_congr (vecs_vcvt hra hca rfl rfl (lanes_fill s 0)) fun k hk => if_pos ?_
    exact Nat.lt_of_lt_of_le hk (Nat.div_le_div_left (by decide) (by decide))
  case dot3 =>
    intro hs ha hb hcd hsat
    have hbad : dotBad s.long d a b 3 = false := by simp [dotBad, hs, ha, hb, dotScaled]
    have hv : s.vbits = 256 := by rw [State.vbits, hs]; rfl
    have hsat' : wbit s.me.csr.vcsr 11 = false := hsat
    refine vecs_congr (vecs_vdot (.inr (by decide)) hbad ?_ ⟨hr.1, fun h => absurd h (by simp [hs])⟩) fun k hk => ?_
    · refine clear_mono s hd _ _ _ _ hcd ?_ (List.Subset.refl _)
      rw [hs]
      intro r hm
      rcases List.mem_append.mp (show r ∈ ([a, a + 1, a + 2, a + 3, b, b + 1, b + 2, b + 3] : List Reg).map RegRef.v ++ [.v d] from hm) with h | h
      · exact List.mem_cons_of_mem _ h
      · exact List.mem_singleton.mp h ▸ List.mem_cons_self
    · rw [hs, hv]
      by_cases hk0 : k = 0
      · subst hk0
        refine (if_pos (by decide)).trans ((promote_int32 hsat' _ _ _ _).trans ?_)
        rw [if_pos rfl, ← foldl_dotBlock hs a b]
        rfl
      · rw [if_neg hk0]
        exact if_neg (fun h : k < 4 * 256 / (128 * 8) => hk0 (by omega))
  case dot =>
    intro p hp hbad named hcd hrd e env rule scale
    exact vecs_vdot hp hbad hcd hrd

end Sys2Proof.Proofs

/-! PROOFS. Single lanes, pairs, and the queue of the long vector unit (R175, R312, R316 to R318). -/

namespace Sys2Proof.Machine

set_option Elab.async false
open Claims

/-! ### The order of pairs (R316) -/

/-- Where a float stands in the order of keys: a NaN below everything. -/
def valRank (x : FVal) : ℤ ×ₗ ℚ :=
  match x with
  | .nan _ => toLex (-2, 0)
  | .inf true => toLex (-1, 0)
  | .inf false => toLex (1, 0)
  | .fin n m e => toLex (0, ratOf n m e)

/-- Where the key of a pair stands. -/
def keyRank (t : BitVec 3) (p : Nat) : ℤ ×ₗ ℚ :=
  if t = 0 then valRank (Fmt.f32.unpack false (p % 2 ^ keyW t)) else toLex (0, (vint t (p % 2 ^ keyW t) : ℚ))

/-- Where a pair stands: the highest key first, then the lowest value. -/
def pairRank (t : BitVec 3) (p : Nat) : (ℤ ×ₗ ℚ)ᵒᵈ ×ₗ ℕ := toLex (OrderDual.toDual (keyRank t p), p / 2 ^ keyW t)

theorem above_iff (a b : FVal) : (!a.isNan && (b.isNan || ltVal b a)) = true ↔ valRank b < valRank a := by
  rcases a with q | (_ | _) | ⟨n1, m1, e1⟩ <;> rcases b with q | (_ | _) | ⟨n2, m2, e2⟩ <;>
    simp [valRank, FVal.isNan, ltVal, Prod.Lex.toLex_lt_toLex, signedAt_lt_iff]

theorem keyAbove_iff (t : BitVec 3) (p q : Nat) : keyAbove t p q = true ↔ keyRank t q < keyRank t p := by
  unfold keyAbove keyRank
  by_cases h : t = 0
  · rw [if_pos h, if_pos h, if_pos h]
    exact above_iff _ _
  · rw [if_neg h, if_neg h, if_neg h, decide_eq_true_iff, Prod.Lex.toLex_lt_toLex]
    simp

theorem pairPrecedes_iff (t : BitVec 3) (p q : Nat) : pairPrecedes t p q = true ↔ pairRank t p < pairRank t q := by
  have h : pairPrecedes t p q = true ↔
      keyRank t q < keyRank t p ∨ ¬ keyRank t p < keyRank t q ∧ p / 2 ^ keyW t < q / 2 ^ keyW t := by
    rw [pairPrecedes, Bool.or_eq_true, Bool.and_eq_true, Bool.not_eq_true', ← Bool.not_eq_true, keyAbove_iff, keyAbove_iff, decide_eq_true_iff]
  rw [h, pairRank, pairRank, Prod.Lex.toLex_lt_toLex]
  rcases lt_trichotomy (keyRank t p) (keyRank t q) with hlt | heq | hgt
  · simp [hlt, hlt.not_gt, hlt.ne]
  · simp [heq]
  · simp [hgt, hgt.ne']

/-- No later pair precedes an earlier one. -/
theorem notPrecedes_iff (t : BitVec 3) (p q : Nat) : pairPrecedes t q p = false ↔ pairRank t p ≤ pairRank t q := by
  rw [← not_lt, ← pairPrecedes_iff, Bool.not_eq_true]

/-! ### Sorting and merging (R317, R318) -/

theorem insertPair_eq (t : BitVec 3) (p : Nat) (l : List Nat) :
    insertPair t p l = l.orderedInsert (fun p q => pairRank t p ≤ pairRank t q) p := by
  induction l with
  | nil => rfl
  | cons q l ih =>
    rw [insertPair, List.orderedInsert_cons, ih]
    by_cases h : pairRank t p ≤ pairRank t q
    · rw [if_pos h, (notPrecedes_iff t p q).mpr h]
      rfl
    · rw [if_neg h, (pairPrecedes_iff t q p).mpr (not_le.mp h)]
      rfl

theorem sortPairs_eq (t : BitVec 3) (l : List Nat) : sortPairs t l = l.insertionSort (fun p q => pairRank t p ≤ pairRank t q) := by
  rw [sortPairs, List.insertionSort, show insertPair t = List.orderedInsert (fun p q => pairRank t p ≤ pairRank t q) from
    funext fun p => funext fun l => insertPair_eq t p l]

theorem sortPairs_perm (t : BitVec 3) (l : List Nat) : (sortPairs t l).Perm l := by
  rw [sortPairs_eq]
  exact List.perm_insertionSort _ l

theorem sortPairs_ordered (t : BitVec 3) (l : List Nat) : (sortPairs t l).Pairwise (fun p q => pairPrecedes t q p = false) := by
  have : Std.Total (fun p q => pairRank t p ≤ pairRank t q) := ⟨fun p q => le_total _ _⟩
  have : IsTrans Nat (fun p q => pairRank t p ≤ pairRank t q) := ⟨fun p q r h1 h2 => h1.trans h2⟩
  rw [sortPairs_eq]
  exact (List.pairwise_insertionSort _ l).imp (notPrecedes_iff t _ _).mpr

theorem mergePairs_eq (t : BitVec 3) (n : Nat) (a b : List Nat) (h : a.length + b.length ≤ n) :
    mergePairs t n a b = a.merge b (fun p q => !pairPrecedes t q p) := by
  induction n generalizing a b with
  | zero =>
    obtain ⟨rfl, rfl⟩ : a = [] ∧ b = [] := by simpa using h
    rw [List.nil_merge]
    rfl
  | succ n ih =>
    cases a with
    | nil =>
      cases b with
      | nil => rw [List.nil_merge]; rfl
      | cons y u => rw [mergePairs, ih [] u (by simpa using h), List.nil_merge, List.nil_merge]
    | cons x r =>
      cases b with
      | nil => rw [mergePairs, ih r [] (by simpa using h), List.merge_right, List.merge_right]
      | cons y u =>
        rw [mergePairs, List.cons_merge_cons]
        by_cases hp : pairPrecedes t y x = true
        · rw [if_pos hp, hp, ih (x :: r) u (by simp at h ⊢; omega)]
          rfl
        · rw [if_neg hp, (Bool.not_eq_true _).mp hp, ih r (y :: u) (by simp at h ⊢; omega)]
          rfl

theorem mergePairs_perm (t : BitVec 3) (a b : List Nat) (n : Nat) (h : a.length + b.length ≤ n) : (mergePairs t n a b).Perm (a ++ b) := by
  rw [mergePairs_eq t n a b h]
  exact List.merge_perm_append _

theorem mergePairs_ordered {t : BitVec 3} {a b : List Nat} {n : Nat} (h : a.length + b.length ≤ n)
    (ha : a.Pairwise (fun p q => pairPrecedes t q p = false)) (hb : b.Pairwise (fun p q => pairPrecedes t q p = false)) :
    (mergePairs t n a b).Pairwise (fun p q => pairPrecedes t q p = false) := by
  rw [mergePairs_eq t n a b h]
  have hm := List.pairwise_merge (le := fun p q => !pairPrecedes t q p) (fun p q r h1 h2 => ?_) (fun p q => ?_) a b (by simpa using ha) (by simpa using hb)
  · simpa using hm
  · rw [Bool.not_eq_true', notPrecedes_iff] at h1 h2 ⊢
    exact h1.trans h2
  · rw [Bool.or_eq_true, Bool.not_eq_true', Bool.not_eq_true', notPrecedes_iff, notPrecedes_iff]
    exact le_total _ _

theorem lanes_packed {w : Nat} {l : List Nat} {n : Nat} (hn : l.length = n) (hl : ∀ x ∈ l, x < 2 ^ w) :
    (List.range n).map (lane w (packLanes w l)) = l := by
  subst hn
  refine List.ext_getElem (by simp) fun k h1 h2 => ?_
  rw [List.getElem_map, List.getElem_range, lane_packLanes, List.getD_eq_getElem _ _ h2]
  exact Nat.mod_eq_of_lt (hl _ (List.getElem_mem h2))

theorem pairs_fill (s : State) (t : BitVec 3) : 2 * keyW t * (s.vbits / (2 * keyW t)) = s.vbits := by
  unfold State.vbits keyW laneW
  split <;> split <;> rfl

theorem lanes_lt (s : State) (w : Nat) (r : Reg) : ∀ x ∈ s.lanes w r, x < 2 ^ w := by
  rw [lanes_eq_map]
  intro x hx
  obtain ⟨k, -, rfl⟩ := List.mem_map.mp hx
  exact lane_lt _ _ _

/-- A register written with the unit's grant used up, and what stays. -/
theorem writeV_granted (ik : Code) (hd : Head) (d : Reg) (s : State) {v : Nat} (hv : v < 2 ^ s.vbits) :
    (writeV ik hd d v 0 (granted s)).vval d = v ∧ (∀ r, r ≠ d → (writeV ik hd d v 0 (granted s)).vval r = s.vval r) ∧
    (writeV ik hd d v 0 (granted s)).me.x = s.me.x ∧ (writeV ik hd d v 0 (granted s)).mem = s.mem ∧
    (writeV ik hd d v 0 (granted s)).me.pc = (finish ik hd s).me.pc := by
  rw [← granted_vbits] at hv
  refine ⟨writeV_vval_same _ _ _ _ _ _ hv, fun r hr => ?_, ?_, ?_, ?_⟩
  · rw [writeV_vval_other _ _ _ _ _ _ hr, granted_vval]
  · rw [writeV_x, granted_me]
  · rw [writeV_mem, granted_mem]
  · rw [writeV_pc]; exact finish_pc_of _ _ (by rw [granted_me]) (by rw [granted_me])

theorem packLanes_lt_vbits {s : State} {t : BitVec 3} {l : List Nat} (h : l.length = s.vbits / (2 * keyW t)) : packLanes (2 * keyW t) l < 2 ^ s.vbits := by
  have hp := packLanes_lt (2 * keyW t) l
  rwa [h, pairs_fill] at hp

/-! ### Single lanes (R312) -/

section
variable {hd : Head} {d a b : Reg} {t : BitVec 3} {s : State}

theorem vecs_vbcast (hr : vready s [d]) (hc : s.clear hd [.x a] [.v d]) : vecs (.vbcast hd d a t) hd d (laneW t) (fun _ => ((s.rx a).toNat, 0)) s := by
  refine vecs_of_writeV (congrArg Host.Outcome.next (vecIssue_clear rfl hr (by simp) hc)) (lanes_fill s t) ?_
  rw [granted_vbits, granted_rx]
  refine packed_lanesAre (by simp) (fun k hk => ?_) fun j => noFlags_iff fun k => rfl
  rw [List.getD_eq_getElem _ _ (by simpa using hk), List.getElem_replicate]

theorem vecs_vins (hr : vready s [d]) (hc : s.clear hd [.x a, .x b, .v d] [.v d]) : vecs (.vins hd d a b t) hd d (laneW t)
    (fun k => (if k = (s.rx b).toNat % (s.vbits / laneW t) then (s.rx a).toNat else lane (laneW t) (s.vval d) k, 0)) s := by
  refine vecs_of_writeV (congrArg Host.Outcome.next (vecIssue_clear rfl hr (by simp) hc)) (lanes_fill s t) ?_
  rw [granted_lanes, granted_rx, State.length_lanes]
  refine packed_lanesAre (by simp) (fun k hk => ?_) fun j => noFlags_iff fun k => rfl
  rw [List.getD_eq_getElem _ _ (by simpa using hk), List.getElem_set, State.getElem_lanes]
  simp only [eq_comm]

end

/-! ### The queue of the long vector unit (R175) -/

/-- A vector instruction in long mode that the unit has not taken stands once in the unit's queue and waits. -/
theorem vecIssue_queued {ik : Code} {hd : Head} {legal mem : Bool} {xs vs dsts : List RegRef} {named : List Reg} {body : State → State} {s : State}
    (hl : legal = true) (hctx : s.cur.isCtx = false) (hlong : s.long = true) (hn : ∀ r ∈ named, r.toNat < 8) (hm : mem = true → s.me.acqWait = false)
    (hc : s.clear hd (xs ++ vs) dsts) (hnow : (s.cluster (clusterOf s.myCore)).lvuNow ≠ some s.cur) :
    vecIssue ik hd legal mem xs vs dsts named body s = stallAt hd .lvu false (s.modCluster (clusterOf s.myCore) (fun c =>
      { c with lvuQ := if c.lvuQ.contains s.cur then c.lvuQ else c.lvuQ ++ [s.cur] })) := by
  have hg : granted s = s := by
    unfold granted
    rw [if_neg (by simpa using hnow)]
  have hvreg : named.all s.vregOk = true := by
    rw [List.all_eq_true]
    intro r hr
    simp [State.vregOk, hlong, hn r hr]
  have hleg : (s.noCtx && legal && named.all s.vregOk) = true := by simp [State.noCtx, hctx, hl, hvreg]
  have hmem : (mem && s.me.acqWait) = false := by
    cases mem with
    | false => rfl
    | true => exact hm rfl
  have htaken : (!s.long || (s.cluster (clusterOf s.myCore)).lvuNow == some s.cur) = false := by simp [hlong, hnow]
  unfold vecIssue vecIssueOwn
  change issueOwn ik hd 0 ((granted s).noCtx && legal && named.all (granted s).vregOk) none (xs ++ vs) dsts _ (granted s) = _
  rw [hg]
  refine (issueOwn_clear _ _ _ _ _ _ _ _ _ (Nat.zero_le _) hleg rfl hc).trans ?_
  rw [hmem, htaken]
  rfl

/-- A form of `vectorForms` is issued with the sources, the destinations and the registers that stand there. -/
def IssuesAs (hd : Head) (s : State) (e : VForm) : Prop :=
  s.long = true → e.legal → ∃ (ik : Code) (legal mem : Bool) (xs vs : List RegRef) (body : State → State),
    exec e.ins s = .next (vecIssue ik hd legal mem xs vs e.dsts e.named body s) ∧ xs ++ vs = e.srcs ∧ legal = true ∧ (mem = true → s.me.acqWait = false)

section
variable {hd : Head} {d a b : Reg} {g t : BitVec 3} {s : State}

theorem issuesAs_any2 : ∀ i ∈ ([.vadd hd d a b t, .vsub hd d a b t, .vmul hd d a b t, .vmin hd d a b t, .vmax hd d a b t, .vabsd hd d a b t,
    .vand hd d a b t, .vor hd d a b t, .vxor hd d a b t, .vavg hd d a b t, .vceq hd d a b t, .vclt hd d a b t, .vcle hd d a b t, .vrcps hd d a b,
    .vrsqs hd d a b, .vperm hd d a b t, .vzip hd d a b t, .vunzip hd d a b t, .vslide hd d a b t] : List Instr),
    IssuesAs hd s ⟨i, [.v a, .v b], [.v d], [d, a, b], True⟩ := by
  simp only [List.forall_mem_cons]
  iterate 19 refine ⟨fun _ _ => ⟨_, true, false, [], [.v a, .v b], _, rfl, rfl, rfl, nofun⟩, ?_⟩
  exact fun _ h => absurd h List.not_mem_nil

theorem isI_of_le (h : 3 ≤ t.toNat) : isI t = true := by rw [isI, not_isF h]; rfl

theorem pairType_of (h : t = 0 ∨ 5 ≤ t.toNat) : pairType t = true := by simpa [pairType] using h

theorem issuesAs_int2 : ∀ i ∈ ([.vshl hd d a b t, .vshr hd d a b t, .vsra hd d a b t, .vadds hd d a b t, .vsubs hd d a b t, .vmulh hd d a b t,
    .vcltu hd d a b t] : List Instr), IssuesAs hd s ⟨i, [.v a, .v b], [.v d], [d, a, b], 3 ≤ t.toNat⟩ := by
  simp only [List.forall_mem_cons]
  iterate 7 refine ⟨fun _ h => ⟨_, isI t, false, [], [.v a, .v b], _, rfl, rfl, isI_of_le h, nofun⟩, ?_⟩
  exact fun _ h => absurd h List.not_mem_nil

theorem issuesAs_clmul : ∀ i ∈ ([.vclmul hd d a b t, .vclmulh hd d a b t] : List Instr),
    IssuesAs hd s ⟨i, [.v a, .v b], [.v d], [d, a, b], 6 ≤ t.toNat⟩ := by
  simp only [List.forall_mem_cons]
  iterate 2 refine ⟨fun _ h => ⟨_, decide (6 ≤ t.toNat), false, [], [.v a, .v b], _, rfl, rfl, decide_eq_true h, nofun⟩, ?_⟩
  exact fun _ h => absurd h List.not_mem_nil

theorem issuesAs_merge : ∀ i ∈ ([.vmergeLo hd d a b t, .vmergeHi hd d a b t] : List Instr),
    IssuesAs hd s ⟨i, [.v a, .v b], [.v d], [d, a, b], t = 0 ∨ 5 ≤ t.toNat⟩ := by
  simp only [List.forall_mem_cons]
  iterate 2 refine ⟨fun _ h => ⟨_, pairType t, false, [], [.v a, .v b], _, rfl, rfl, pairType_of h, nofun⟩, ?_⟩
  exact fun _ h => absurd h List.not_mem_nil

theorem issuesAs_three : ∀ i ∈ ([.vsel hd d a b t, .vfma hd d a b t, .vfms hd d a b t] : List Instr),
    IssuesAs hd s ⟨i, [.v a, .v b, .v d], [.v d], [d, a, b], True⟩ := by
  simp only [List.forall_mem_cons]
  iterate 3 refine ⟨fun _ _ => ⟨_, true, false, [], [.v a, .v b, .v d], _, rfl, rfl, rfl, nofun⟩, ?_⟩
  exact fun _ h => absurd h List.not_mem_nil

theorem issuesAs_one : ∀ i ∈ ([.vrcp hd d a, .vrsq hd d a, .vexp2 hd d a, .vlog2 hd d a, .vabs hd d a t, .vneg hd d a t, .vredadd hd d a t,
    .vredmax hd d a t, .vredmin hd d a t] : List Instr), IssuesAs hd s ⟨i, [.v a], [.v d], [d, a], True⟩ := by
  simp only [List.forall_mem_cons]
  iterate 9 refine ⟨fun _ _ => ⟨_, true, false, [], [.v a], _, rfl, rfl, rfl, nofun⟩, ?_⟩
  exact fun _ h => absurd h List.not_mem_nil

theorem issuesAs_vdot (hl : s.long = true) (hb : dotBad s.long d a b t = false) : ∃ body,
    exec (.vdot hd d a b t) s = .next (vecIssue (codeOf (.vdot hd d a b t)) hd (s.long || decide (3 ≤ t.toNat)) false []
      ((dotGroup s.long a ++ dotGroup s.long b ++ (if 4 ≤ t.toNat then [d, d + 1] else [d])).map RegRef.v) [.v d]
      (dotGroup s.long a ++ dotGroup s.long b ++ (if 4 ≤ t.toNat then [d, d + 1] else [d])) body s) ∧ (s.long || decide (3 ≤ t.toNat)) = true := by
  have hnamed : (if dotScaled t then [d, d + 1] else [d]) = if 4 ≤ t.toNat then [d, d + 1] else [d] := by simp only [dotScaled_iff]
  rw [← hnamed]
  exact ⟨_, congrArg Host.Outcome.next (if_neg (by rw [hb]; decide)), by rw [hl]; rfl⟩

/-- Every vector instruction is issued as `vectorForms` lists it. -/
theorem vectorForms_issue : ∀ e ∈ vectorForms hd d a b g t s, IssuesAs hd s e := by
  unfold vectorForms
  simp only [List.forall_mem_append, List.forall_mem_map]
  refine ⟨⟨⟨⟨⟨⟨issuesAs_any2, issuesAs_int2⟩, issuesAs_clmul⟩, issuesAs_merge⟩, issuesAs_three⟩, issuesAs_one⟩, ?_⟩
  simp only [List.forall_mem_cons]
  refine ⟨fun _ h => ⟨_, isF t, false, [], [.v a], _, rfl, rfl, isF_of_lt h, nofun⟩,
    fun _ h => ⟨_, isI t, false, [], [.v a], _, rfl, rfl, isI_of_le h, nofun⟩,
    fun _ h => ⟨_, isI t, false, [], [.v a], _, rfl, rfl, isI_of_le h, nofun⟩,
    fun _ h => ⟨_, pairType t, false, [], [.v a], _, rfl, rfl, pairType_of h, nofun⟩,
    fun _ h => ⟨_, (g != t || decide (g.toNat < 4)), false, [], [.v a], _, rfl, rfl, by simpa using h, nofun⟩,
    fun hl h => ?_,
    fun _ _ => ⟨_, true, false, [.x a], [], _, rfl, rfl, rfl, nofun⟩,
    fun _ _ => ⟨_, true, false, [.x a, .x b], [.v d], _, rfl, rfl, rfl, nofun⟩,
    fun _ _ => ⟨_, true, false, [.x b], [.v a], _, rfl, rfl, rfl, nofun⟩,
    fun _ h => ⟨_, true, true, [.x a], [], _, rfl, rfl, rfl, fun _ => h⟩,
    fun _ h => ⟨_, true, true, [.x a], [.v d], _, rfl, rfl, rfl, fun _ => h⟩,
    fun _ h => ⟨_, true, true, [.x a, .x b], [], _, rfl, rfl, rfl, fun _ => h⟩,
    fun _ h => ⟨_, true, true, [.x a, .x b], [.v d], _, rfl, rfl, rfl, fun _ => h⟩,
    fun hl h => ⟨_, s.long, true, [.x a], [], _, rfl, rfl, hl, fun _ => h⟩, fun _ h => absurd h List.not_mem_nil⟩
  obtain ⟨body, hx, hlegal⟩ := issuesAs_vdot (hd := hd) hl h
  exact ⟨_, _, false, [], _, body, hx, rfl, hlegal, nofun⟩

end

end Sys2Proof.Machine

namespace Sys2Proof.Proofs

set_option Elab.async false
open Machine Claims

theorem stallAt_me (hd : Head) (w : Wait) (k : Bool) (s : State) : (stallAt hd w k s).me =
    { s.me with wait := some w, safe := if k && hd.s then some hd.mask else none } := State.modMe_me _ _

/-- What stays where a vector instruction waits for the unit. -/
theorem queued_keeps (hd : Head) (s : State) (f : Cluster → Cluster) :
    (stallAt hd .lvu false (s.modCluster (clusterOf s.myCore) f)).me.wait = some .lvu ∧
    (stallAt hd .lvu false (s.modCluster (clusterOf s.myCore) f)).me.pc = s.me.pc ∧
    (∀ r, (stallAt hd .lvu false (s.modCluster (clusterOf s.myCore) f)).vval r = s.vval r) ∧
    (stallAt hd .lvu false (s.modCluster (clusterOf s.myCore) f)).mem = s.mem := by
  refine ⟨by rw [stallAt_me], by rw [stallAt_me]; rfl, fun r => ?_, rfl⟩
  unfold State.vval
  rw [stallAt_me]
  rfl

theorem queued_lvuQ (hd : Head) (s : State) (f : Cluster → Cluster) :
    (stallAt hd .lvu false (s.modCluster (clusterOf s.myCore) f)).cluster (clusterOf s.myCore) = f (s.cluster (clusterOf s.myCore)) :=
  State.modCluster_cluster_same _ _ _

/-- The lanes of a register in pairs. -/
theorem lanes_pairs (s : State) (t : BitVec 3) (r : Reg) :
    (List.range (s.vbits / (2 * laneW t))).map (lane (2 * laneW t) (s.vval r)) = s.lanes (2 * keyW t) r := (lanes_eq_map _ _ _).symm

theorem pairs_packed {s : State} {t : BitVec 3} {l : List Nat} (hn : l.length = s.vbits / (2 * keyW t)) (hl : ∀ x ∈ l, x < 2 ^ (2 * keyW t)) :
    (List.range (s.vbits / (2 * laneW t))).map (lane (2 * laneW t) (packLanes (2 * keyW t) l)) = l := lanes_packed hn hl

theorem vext_gives {hd : Head} {d a b : Reg} {t : BitVec 3} {s : State} (hr : vready s [a]) (hc : s.clear hd [.x b, .v a] [.x d]) :
    exec (.vext hd d a b t) s = .next (writeRd (codeOf (.vext hd d a b t)) hd d
      (if t.toNat < 3 then BitVec.ofNat 64 (lane (laneW t) (s.vval a) ((s.rx b).toNat % (s.vbits / laneW t)))
       else BitVec.ofInt 64 (num t (lane (laneW t) (s.vval a) ((s.rx b).toNat % (s.vbits / laneW t))))) (granted s)) := by
  refine congrArg Host.Outcome.next ((vecIssue_clear rfl hr (by simp) hc).trans ?_)
  dsimp only
  rw [granted_lanes, granted_rx, State.length_lanes, getD_lanes s a (lanes_fill s t)]
  refine congrArg (fun v => writeRd _ hd d v (granted s)) ?_
  by_cases ht : t.toNat < 3
  · rw [if_pos ht, if_neg (by rw [isI, isF_of_lt ht]; decide)]
  · rw [if_neg ht, if_pos (isI_of_le (Nat.le_of_not_lt ht)), vint_eq_num]

theorem writeRd_vval (ik : Code) (hd : Head) (d : Reg) (v : Word) (s : State) (r : Reg) : (writeRd ik hd d v s).vval r = s.vval r := by
  have hv : (writeRd ik hd d v s).me.v = s.me.v := by
    rw [writeRd, finish_me, State.wx, State.modMe_me]
    unfold Hart.wx
    split <;> rfl
  unfold State.vval Hart.rv
  rw [hv]
  rfl

/-- VSORT and VMERGE write a list of pairs and keep everything else. -/
theorem pairs_written {s : State} {t : BitVec 3} {l : List Nat} (ik : Code) (hd : Head) (d : Reg) (hn : l.length = s.vbits / (2 * keyW t))
    (hl : ∀ x ∈ l, x < 2 ^ (2 * keyW t)) :
    let u := writeV ik hd d (packLanes (2 * keyW t) l) 0 (granted s)
    (List.range (s.vbits / (2 * laneW t))).map (lane (2 * laneW t) (u.vval d)) = l ∧
    (∀ r, r ≠ d → u.vval r = s.vval r) ∧ u.me.x = s.me.x ∧ u.mem = s.mem ∧ u.me.pc = (finish ik hd s).me.pc := by
  obtain ⟨h1, hrest⟩ := writeV_granted ik hd d s (packLanes_lt_vbits hn)
  exact ⟨by rw [h1]; exact pairs_packed hn hl, hrest⟩

theorem vsort_gives {hd : Head} {d a : Reg} {t : BitVec 3} {s : State} (hr : vready s [d, a]) (ht : t = 0 ∨ 5 ≤ t.toNat)
    (hc : s.clear hd [.v a] [.v d]) : exec (.vsort hd d a t) s = .next (writeV (codeOf (.vsort hd d a t)) hd d
      (packLanes (2 * keyW t) (sortPairs t (s.lanes (2 * keyW t) a))) 0 (granted s)) := by
  refine congrArg Host.Outcome.next ((vecIssue_clear (pairType_of ht) hr (by simp) hc).trans ?_)
  dsimp only
  rw [granted_lanes]

section
variable {hd : Head} {d a b : Reg} {t : BitVec 3} {s : State} (hr : vready s [d, a, b]) (ht : t = 0 ∨ 5 ≤ t.toNat)
  (hc : s.clear hd [.v a, .v b] [.v d])
include hr ht hc

/-- The two halves of the merge of two registers (R318). -/
theorem vmerge_gives :
    let n := s.vbits / (2 * keyW t)
    let m := mergePairs t (2 * n) (s.lanes (2 * keyW t) a) (s.lanes (2 * keyW t) b)
    exec (.vmergeHi hd d a b t) s = .next (writeV (codeOf (.vmergeHi hd d a b t)) hd d (packLanes (2 * keyW t) (m.take n)) 0 (granted s)) ∧
    exec (.vmergeLo hd d a b t) s = .next (writeV (codeOf (.vmergeLo hd d a b t)) hd d (packLanes (2 * keyW t) (m.drop n)) 0 (granted s)) := by
  refine ⟨congrArg Host.Outcome.next ((vecIssue_clear (pairType_of ht) hr (by simp) hc).trans ?_),
    congrArg Host.Outcome.next ((vecIssue_clear (pairType_of ht) hr (by simp) hc).trans ?_)⟩ <;>
  · dsimp only
    rw [granted_lanes, State.length_lanes]

end

/-- Settles O34: single lanes are lanes of the list that is written; pairs are sorted by insertion and merged in the order of R316, which is the
order of a rank; and every vector instruction stands at one issue, where the unit's queue is. -/
theorem vectorLanesAndPairs : Obligations.VectorLanesAndPairs := by
  intro hd d a b g t s w n pairs ordered
  refine ⟨vecs_vbcast, vecs_vins, ?ext, ?pairs, ?queue⟩
  case ext =>
    intro hr hc e
    refine ⟨_, vext_gives hr hc, fun h0 => ?_, fun r hrd => ?_, fun r => ?_, ?_, ?_⟩
    · rw [writeRd, finish_rx, State.wx, State.modMe_me, granted_me]
      exact Hart.rx_wx_same _ _ _ h0
    · rw [writeRd, finish_rx, State.wx, State.modMe_me, granted_me]
      exact Hart.rx_wx_other _ _ _ _ hrd.symm
    · rw [writeRd_vval, granted_vval]
    · exact granted_mem s
    · rw [writeRd]
      refine finish_pc_of _ _ ?_ ?_ <;>
      · rw [State.wx, State.modMe_me, granted_me]
        unfold Hart.wx
        split <;> rfl
  case pairs =>
    intro hr ht hc
    have hra : vready s [d, a] := vready_mono hr (by simp)
    have hca : s.clear hd [.v a] [.v d] := clear_mono s hd _ _ _ _ hc (by simp) (List.Subset.refl _)
    have hpairs (r : Reg) : pairs (s.vval r) = s.lanes (2 * keyW t) r := lanes_pairs s t r
    refine ⟨?sort, ?merge⟩
    case sort =>
      have hp := sortPairs_perm t (s.lanes (2 * keyW t) a)
      obtain ⟨h1, hrest⟩ := pairs_written (s := s) (codeOf (.vsort hd d a t)) hd d (hp.length_eq.trans (by simp))
        fun x hx => lanes_lt s _ a x (hp.subset hx)
      refine ⟨_, vsort_gives hra ht hca, ?_, ?_, hrest⟩
      · rw [hpairs]
        exact (List.Perm.of_eq h1).trans hp
      · exact (congrArg ordered h1).mpr (sortPairs_ordered t _)
    case merge =>
      obtain ⟨hhi, hlo⟩ := vmerge_gives hr ht hc
      have hle : (s.lanes (2 * keyW t) a).length + (s.lanes (2 * keyW t) b).length ≤ 2 * (s.vbits / (2 * keyW t)) := by
        simp
        omega
      have hp := mergePairs_perm t _ _ _ hle
      generalize hm : mergePairs t (2 * (s.vbits / (2 * keyW t))) (s.lanes (2 * keyW t) a) (s.lanes (2 * keyW t) b) = m at hhi hlo hp
      have hlen : m.length = 2 * (s.vbits / (2 * keyW t)) := by
        rw [hp.length_eq]
        simp
        omega
      have hlt : ∀ x ∈ m, x < 2 ^ (2 * keyW t) := fun x hx => by
        rcases List.mem_append.mp (hp.subset hx) with h | h
        · exact lanes_lt s _ a x h
        · exact lanes_lt s _ b x h
      obtain ⟨h1, ho1, -, hmem1, hpc1⟩ := pairs_written (s := s) (t := t) (codeOf (.vmergeHi hd d a b t)) hd d (l := m.take (s.vbits / (2 * keyW t)))
        (by rw [List.length_take, hlen]; omega) fun x hx => hlt x (List.mem_of_mem_take hx)
      obtain ⟨h2, ho2, -, hmem2, hpc2⟩ := pairs_written (s := s) (t := t) (codeOf (.vmergeLo hd d a b t)) hd d (l := m.drop (s.vbits / (2 * keyW t)))
        (by rw [List.length_drop, hlen]; omega) fun x hx => hlt x (List.mem_of_mem_drop hx)
      refine ⟨_, _, hhi, hlo, ?_, fun hoa hob => ?_, fun r hrd => ⟨ho1 r hrd, ho2 r hrd⟩, hmem1, hmem2, hpc1, hpc2⟩
      · rw [hpairs, hpairs, show pairs _ ++ pairs _ = m from (congrArg₂ (· ++ ·) h1 h2).trans (List.take_append_drop _ m)]
        exact hp
      · rw [hpairs] at hoa hob
        rw [show pairs _ ++ pairs _ = m from (congrArg₂ (· ++ ·) h1 h2).trans (List.take_append_drop _ m), ← hm]
        exact mergePairs_ordered hle hoa hob
  case queue =>
    intro e he hctx hlong hleg hc hn hnow q
    obtain ⟨ik, legal, mem, xs, vs, body, hx, hsrc, hl, hm⟩ := vectorForms_issue e he hlong hleg
    obtain ⟨hw, hpc, hv, hmem⟩ := queued_keeps hd s (fun c => { c with lvuQ := if c.lvuQ.contains s.cur then c.lvuQ else c.lvuQ ++ [s.cur] })
    refine ⟨_, hx.trans (congrArg Host.Outcome.next (vecIssue_queued hl hctx hlong hn hm (hsrc ▸ hc) hnow)), hw, hpc, ?_, hv, hmem⟩
    rw [queued_lvuQ]
    simp only [List.contains_iff_mem, q]

end Sys2Proof.Proofs

/-! PROOFS. Commands that enter an engine queue, and commands turned away (R142, R185, R440). -/

namespace Sys2Proof.Machine

set_option Elab.async false
open Claims

/-! ### Commands that enter an engine queue (R142, R185, R440) -/

/-- A hart whose command has entered a queue and counts on its token. -/
def Hart.enqueued (h : Hart) (q : Nat) (c : Cmd) : Hart :=
  (h.modTok c.tk (fun t => { t with count := t.count + 1 })).modBusy (fun b =>
    { b with queues := b.queues.set q (b.queues.get q [] ++ [c]), nextSeq := b.nextSeq + 1 })

section
variable (h : Hart) (q : Nat) (c : Cmd)

theorem queue_enqueued_same : (h.enqueued q c).queue q = h.queue q ++ [c] := Table.get_set_same _ _ _ _

theorem queue_enqueued_other {j : Nat} (hj : j ≠ q) : (h.enqueued q c).queue j = h.queue j := Table.get_set_other _ _ _ _ _ hj.symm

theorem tok_enqueued_same : ((h.enqueued q c).tok c.tk).count = (h.tok c.tk).count + 1 :=
  congrArg Token.count (Table.get_set_same h.busy.tokens c.tk _ Token.zero)

theorem tok_enqueued_other {k : BitVec 3} (hk : k ≠ c.tk) : (h.enqueued q c).tok k = h.tok k := Table.get_set_other _ _ _ _ _ hk.symm

end

/-- What the last step of issuing a command leaves alone: everything but the full bits and the fills of its hart. -/
structure LeavesQueues (s t : State) : Prop where
  cur : t.cur = s.cur
  mem : t.mem = s.mem
  queues : t.me.busy.queues = s.me.busy.queues
  tokens : t.me.busy.tokens = s.me.busy.tokens
  x : t.me.x = s.me.x
  pc : t.me.pc = s.me.pc
  loops : t.me.loops = s.me.loops
  others : ∀ h, h ≠ s.cur → t.hart h = s.hart h

theorem LeavesQueues.refl (s : State) : LeavesQueues s s := ⟨rfl, rfl, rfl, rfl, rfl, rfl, rfl, fun _ _ => rfl⟩

theorem pend_leavesQueues (s : State) (d : Reg) (core : Nat) (dev : BitVec 16) : LeavesQueues s (s.pend d core dev) := by
  unfold State.pend
  split
  case isTrue => exact .refl s
  case isFalse h =>
    have hm : (h' : Hart) → h'.markX d .pending = { h' with xSt := h'.xSt.set d .pending } := fun h' => if_neg h
    refine ⟨rfl, rfl, ?_, ?_, ?_, ?_, ?_, fun h' hne => State.modMe_hart_other s h' _ (Ne.symm hne)⟩ <;>
      rw [State.modMe_me, hm] <;> rfl

section
variable {s : State} (hr : s.me.busy.recording = none) (c : Cmd) (word ctl : BitVec 32)

include hr

/-- The recorder of a thread that does not record changes no hart and no memory. -/
theorem recordCmd_quiet : (∀ h, (s.recordCmd c word ctl).hart h = s.hart h) ∧ (s.recordCmd c word ctl).mem = s.mem ∧
    (s.recordCmd c word ctl).cur = s.cur := by
  have hrec : s.me.recording = none := by rw [Hart.recording, hr]
  have happ (rs : List TapeRec) : s.appendGroup rs = s := by rw [State.appendGroup, hrec]
  have hme (g : Recording → Recording) : s.me.modBusy (fun b => { b with recording := b.recording.map g }) = s.me := by
    rw [Hart.modBusy, hr, Option.map_none, ← hr]
  have hhart (g : Recording → Recording) (h : HartId) :
      (s.modMe (fun h => h.modBusy (fun b => { b with recording := b.recording.map g }))).hart h = s.hart h := by
    by_cases hh : h = s.cur
    · subst hh
      exact (State.modMe_me s _).trans (hme g)
    · exact State.modMe_hart_other s h _ (Ne.symm hh)
  unfold State.recordCmd
  rw [happ, hrec, Option.isSome_none, Bool.and_false]
  dsimp only
  rw [if_neg (by decide)]
  split
  · exact ⟨fun h => rfl, rfl, rfl⟩
  · exact ⟨fun h => hhart _ h, rfl, rfl⟩

end

/-- A command whose token and whose queue have room stands last in its queue, counted on its token, and the thread goes on. -/
theorem enterCmd_entered {ik : Code} {hd : Head} {q : Nat} {c : Cmd} {ctl : BitVec 32} {post : State → State} {s : State} (hroom : room q c.tk s)
    (hpost : ∀ u, LeavesQueues u (post u)) :
    let r := enterCmd ik hd q c ctl post s
    (∃ u, r = finish ik hd (post u) ∧ u.me.xSt = s.me.xSt ∧ u.cur = s.cur) ∧
    r.me.queue q = s.me.queue q ++ [c] ∧ (r.me.tok c.tk).count = (s.me.tok c.tk).count + 1 ∧ (∀ k, k ≠ c.tk → r.me.tok k = s.me.tok k) ∧
    (∀ j, j ≠ q → r.me.queue j = s.me.queue j) ∧ r.me.x = s.me.x ∧ r.mem = s.mem ∧ r.me.pc = (finish ik hd s).me.pc ∧ r.me.wait = none ∧
    ∀ h, h ≠ s.cur → r.hart h = s.hart h := by
  intro r
  obtain ⟨hctx, hrec, htok, hq⟩ := hroom
  obtain ⟨hharts, hmem, hcur⟩ := recordCmd_quiet hrec c (ik.w &&& ~~~0xC) ctl
  have hhas : s.hasRoom s.cur q c.tk = true := by
    have h1 : ((s.hart s.cur).tok c.tk).count < 255 := htok
    have h2 : ((s.hart s.cur).queue q).length < 32 := hq
    simp [State.hasRoom, h1, h2]
  let u := (s.recordCmd c (ik.w &&& ~~~0xC) ctl).enqueue s.cur q c
  have hr : r = finish ik hd (post u) := if_pos hhas
  have hucur : u.cur = s.cur := hcur
  have hume : u.me = s.me.enqueued q c := by
    rw [State.me, hucur]
    refine (State.modHart_hart_same _ _ _).trans ?_
    rw [hharts, hctx]
    rfl
  have huother (h : HartId) (hh : h ≠ s.cur) : u.hart h = s.hart h :=
    (State.modHart_hart_other _ _ _ _ (Ne.symm hh)).trans (hharts h)
  obtain ⟨hpcur, hpmem, hpq, hpt, hpx, hppc, hpl, hpo⟩ := hpost u
  have hbusy : r.me.busy.queues = u.me.busy.queues ∧ r.me.busy.tokens = u.me.busy.tokens := by
    rw [hr, finish_busy]
    exact ⟨hpq, hpt⟩
  have hqueue (j : Nat) : r.me.queue j = (s.me.enqueued q c).queue j := by rw [Hart.queue, hbusy.1, hume]; rfl
  have htoken (k : BitVec 3) : r.me.tok k = (s.me.enqueued q c).tok k := by rw [Hart.tok, hbusy.2, hume]; rfl
  refine ⟨⟨u, hr, by rw [hume]; rfl, hucur⟩, by rw [hqueue, queue_enqueued_same], by rw [htoken, tok_enqueued_same],
    fun k hk => by rw [htoken, tok_enqueued_other _ _ _ hk], fun j hj => by rw [hqueue, queue_enqueued_other _ _ _ hj], ?_, ?_, ?_, ?_, fun h hh => ?_⟩
  · rw [hr, finish_me]
    exact hpx.trans (by rw [hume]; rfl)
  · rw [hr]
    exact hpmem.trans hmem
  · rw [hr]
    exact finish_pc_of _ _ (hppc.trans (by rw [hume]; rfl)) (hpl.trans (by rw [hume]; rfl))
  · rw [hr]
    exact finish_wait _ _ _
  · rw [hr]
    refine (State.modMe_hart_other _ h _ ?_).trans ((hpo h (by rw [hucur]; exact hh)).trans (huother h hh))
    rw [hpcur, hucur]
    exact Ne.symm hh

/-- A command that does not find room waits at itself. -/
theorem enterCmd_waits {ik : Code} {hd : Head} {q : Nat} {c : Cmd} {ctl : BitVec 32} {post : State → State} {s : State} (hctx : s.cur.isCtx = false)
    (hfull : (s.me.tok c.tk).count = 255 ∨ 32 ≤ (s.me.queue q).length) : enterCmd ik hd q c ctl post s = stallAt hd .stall true s := by
  refine if_neg ?_
  have h : ¬ ((s.hart s.cur).tok c.tk).count < 255 ∨ ¬ ((s.hart s.cur).queue q).length < 32 :=
    hfull.imp (fun h => by rw [show ((s.hart s.cur).tok c.tk).count = 255 from h]; decide) (fun h => Nat.not_lt.mpr h)
  simp only [State.hasRoom, hctx, Bool.false_or, Bool.and_eq_true, decide_eq_true_eq, not_and_or]
  exact h

/-- Registers besides x0 decide whether an instruction is clear. -/
theorem clear_zero {s : State} {hd : Head} {srcs srcs' dsts : List RegRef} (h : s.clear hd srcs dsts) (hs : ∀ r ∈ srcs', r ∈ srcs ∨ r = .x 0) :
    s.clear hd srcs' dsts := by
  refine ⟨h.1, fun r hr => ?_, h.2.2⟩
  rcases hs r hr with h' | rfl
  · exact h.2.1 r h'
  · exact ⟨rfl, rfl⟩

end Sys2Proof.Machine

namespace Sys2Proof.Machine

set_option Elab.async false
open Claims

/-- The fields that a new command has from its hart. -/
structure NewCmd (s : State) (i : Instr) (tk : BitVec 3) (c : Cmd) : Prop where
  ins : c.ins = i
  tk : c.tk = tk
  seq : c.seq = s.me.busy.nextSeq
  kickLoads : c.kickLoads = s.me.busy.loadNext
  kickSb : c.kickSb = s.me.busy.sbNext
  asid : c.asid = s.me.asid

section
variable {i : Instr} {hd : Head} {q : Nat} {tk : BitVec 3} {wait : BitVec 8} {legal : Bool} {own : Option (BitVec 8)} {d a b : Reg} {p : Cmd → Prop}
  {s : State}

theorem enters_of {c : Cmd} {ctl : BitVec 32} {post : State → State} (hx : exec i s = .next (enterCmd (codeOf i) hd q c ctl post s))
    (hroom : room q tk s) (hpost : ∀ u, LeavesQueues u (post u)) (hc : NewCmd s i tk c) (hp : p c) : enters i hd q tk p s := by
  obtain ⟨rfl⟩ := hc.tk
  obtain ⟨-, h1, h2, h3, h4, h5, h6, h7, h8, h9⟩ := enterCmd_entered (ik := codeOf i) (hd := hd) (ctl := ctl) hroom hpost
  exact ⟨_, c, hx, h1, hc.ins, rfl, hc.seq, hc.kickLoads, hc.kickSb, hc.asid, hp, fun _ => ⟨h2, h3⟩, h4, h5, h6, h7, h8, h9⟩

/-- An engine command of which every operand register is clear. -/
theorem engineCmd_clear {ik : Code} (hl : legal = true) (ho : own = none) (hc : s.clear hd [.x a, .x b, .x d] []) :
    engineCmd ik hd q i tk wait legal own d a b s = enterCmd ik hd q (s.newCmd i tk wait (s.rx d) (s.rx a) (s.rx b)) ik.c id s :=
  issueOwn_clear _ _ _ _ _ _ _ _ _ (Nat.zero_le _) hl ho hc

theorem engineCmd_enters (hx : exec i s = .next (engineCmd (codeOf i) hd q i tk wait legal own d a b s)) (hl : legal = true) (ho : own = none)
    (hc : s.clear hd [.x a, .x b, .x d] []) (hroom : room q tk s) (hp : p (s.newCmd i tk wait (s.rx d) (s.rx a) (s.rx b))) :
    enters i hd q tk p s :=
  enters_of (hx.trans (congrArg Host.Outcome.next (engineCmd_clear hl ho hc))) hroom .refl ⟨rfl, rfl, rfl, rfl, rfl, rfl⟩ hp

end

theorem noCtx_of_room {q : Nat} {tk : BitVec 3} {s : State} (h : room q tk s) : s.noCtx = true := by rw [State.noCtx, h.1]; rfl

theorem idle_of_room {q : Nat} {tk : BitVec 3} {s : State} (h : room q tk s) : s.me.recording = none := by rw [Hart.recording, h.2.1]

theorem tapeBar_of_idle {s : State} (h : s.me.recording = none) (refused : Bool) : s.tapeBar refused = none := by
  rw [State.tapeBar, h, Option.isSome_none, Bool.and_false]
  rfl

theorem tapeBar_false (s : State) : s.tapeBar false = none := rfl

theorem matrixOwn_leased {s : State} (h : s.me.lease.isSome = true) (refused : Bool) : s.matrixOwn refused = s.tapeBar refused :=
  if_neg (by rw [Option.isNone_iff_eq_none]; exact Option.isSome_iff_ne_none.mp h)

section
variable {hd : Head} {d a b : Reg} {tk : BitVec 3} {wait : BitVec 8} {s : State}

/-- An engine command with a register result. -/
theorem resultCmd_gives {i : Instr} {q : Nat} {legal : Bool} {own : Option (BitVec 8)} {rr : BitVec 1} {target : Reg} {srcs : List RegRef}
    {cmd : State → Cmd → Cmd} {p : Cmd → Prop}
    (hx : exec i s = .next (resultCmd (codeOf i) hd q i tk wait legal own (rr == 1) d target srcs cmd s)) (hl : legal = true) (ho : own = none)
    (hc : s.clear hd srcs (if rr = 1 then [.x d] else [])) (hroom : room q tk s) (hn : NewCmd s i tk (cmd s (s.newCmd i tk wait 0 0 0)))
    (hp : p (cmd s (s.newCmd i tk wait 0 0 0))) :
    enters i hd q tk p s ∧ ∃ r : State, exec i s = .next r ∧ (∀ q, q ≠ d → r.me.stx q = s.me.stx q) ∧
      (rr = 1 → d ≠ 0 → r.me.stx d = .pending) ∧ (rr = 0 → r.me.stx d = s.me.stx d) := by
  have hdst : (if (rr == 1) = true then [RegRef.x d] else []) = if rr = 1 then [.x d] else [] := by simp only [beq_iff_eq]
  have hpost (u : State) : LeavesQueues u (if rr == 1 then u.pend d (s.fillAt (s.rx target)).2 (s.fillAt (s.rx target)).1 else u) := by
    split
    · exact pend_leavesQueues _ _ _ _
    · exact .refl u
  have he : exec i s = .next (enterCmd (codeOf i) hd q (cmd s (s.newCmd i tk wait 0 0 0)) (codeOf i).c
      (fun u => if rr == 1 then u.pend d (s.fillAt (s.rx target)).2 (s.fillAt (s.rx target)).1 else u) s) := by
    refine hx.trans (congrArg Host.Outcome.next ?_)
    unfold resultCmd
    rw [hdst]
    exact issueOwn_clear _ _ _ _ _ _ _ _ _ (Nat.zero_le _) hl ho hc
  refine ⟨enters_of he hroom hpost hn hp, _, he, ?_⟩
  obtain ⟨⟨u, hu, hst, -⟩, -⟩ := enterCmd_entered (ik := codeOf i) (hd := hd) (ctl := (codeOf i).c) (hn.tk.symm ▸ hroom) hpost
  have hstx (q : Reg) : u.me.stx q = s.me.stx q := by rw [Hart.stx, Hart.stx, hst]
  rw [hu]
  refine ⟨fun q hq => ?_, fun h1 h0 => ?_, fun h0 => ?_⟩
  · rw [finish_stx]
    split
    · exact (stx_pend_other _ _ _ _ _ hq).trans (hstx q)
    · exact hstx q
  · rw [finish_stx, if_pos (by rw [h1]; rfl)]
    exact stx_pend_same _ _ _ _ h0
  · rw [finish_stx, if_neg (by rw [h0]; decide)]
    exact hstx d

/-- An engine form whose control value is well formed. -/
theorem engineForm_clear {ik : Code} {q : Nat} {i : Instr} {c : Reg} {name : State → Option Word} (hctx : s.cur.isCtx = false)
    (hv : (s.rx c).toNat < 2 ^ 11) (hn : name s = none) (hc : s.clear hd [.x c, .x a, .x b] []) :
    engineForm ik hd q i c a b name s = enterCmd ik hd q
      (s.newCmd i ((s.rx c).extractLsb' 0 3) ((s.rx c).extractLsb' 3 8) (s.rx c) (s.rx a) (s.rx b)) ((s.rx c).setWidth 32) id s := by
  have hok : controlOk (s.rx c) = true := by
    rw [controlOk, wbits, bits, Nat.div_eq_of_lt hv]
    rfl
  refine (issue_clear _ _ _ _ _ _ _ _ (Nat.zero_le _) (by rw [State.noCtx, hctx]; rfl) hc).trans ?_
  dsimp only
  rw [hok, hn]
  rfl

/-! ### Commands turned away (R185, R328, R440) -/

/-- What a command that waits at itself leaves. -/
def WaitsAtItself (i : Instr) (s : State) : Prop :=
  ∃ t : State, exec i s = .next t ∧ t.me.wait = some .stall ∧ t.me.pc = s.me.pc ∧ t.me.busy.queues = s.me.busy.queues ∧
    t.me.busy.tokens = s.me.busy.tokens ∧ t.me.x = s.me.x ∧ t.me.xSt = s.me.xSt ∧ t.mem = s.mem

theorem waits_of_stall {i : Instr} {s s' : State} (hx : exec i s = .next (stallAt hd .stall true s')) (hm : s'.me = s.me) (hmem : s'.mem = s.mem) :
    WaitsAtItself i s := by
  have h : (stallAt hd .stall true s').me = { s.me with wait := some .stall, safe := if true && hd.s then some hd.mask else none } := by
    rw [stallAt, State.modMe_me, hm]
  exact ⟨_, hx, by rw [h], by rw [h], by rw [h], by rw [h], by rw [h], by rw [h], hmem⟩

theorem engineCmd_waits {i : Instr} {q : Nat} {legal : Bool} {own : Option (BitVec 8)}
    (hx : exec i s = .next (engineCmd (codeOf i) hd q i tk wait legal own d a b s)) (hctx : s.cur.isCtx = false) (hl : legal = true) (ho : own = none)
    (hc : s.clear hd [.x a, .x b, .x d] []) (hfull : (s.me.tok tk).count = 255 ∨ 32 ≤ (s.me.queue q).length) : WaitsAtItself i s :=
  waits_of_stall (hx.trans (congrArg Host.Outcome.next ((engineCmd_clear hl ho hc).trans (enterCmd_waits hctx hfull)))) rfl rfl

theorem resultCmd_waits {i : Instr} {q : Nat} {legal : Bool} {own : Option (BitVec 8)} {rr : BitVec 1} {target : Reg} {srcs : List RegRef}
    {cmd : State → Cmd → Cmd} (hx : exec i s = .next (resultCmd (codeOf i) hd q i tk wait legal own (rr == 1) d target srcs cmd s))
    (hctx : s.cur.isCtx = false) (hl : legal = true) (ho : own = none) (hc : s.clear hd srcs (if rr = 1 then [.x d] else []))
    (hk : (cmd s (s.newCmd i tk wait 0 0 0)).tk = tk) (hfull : (s.me.tok tk).count = 255 ∨ 32 ≤ (s.me.queue q).length) : WaitsAtItself i s := by
  have hdst : (if (rr == 1) = true then [RegRef.x d] else []) = if rr = 1 then [.x d] else [] := by simp only [beq_iff_eq]
  have he : resultCmd (codeOf i) hd q i tk wait legal own (rr == 1) d target srcs cmd s = stallAt hd .stall true s := by
    unfold resultCmd
    rw [hdst]
    exact (issueOwn_clear _ _ _ _ _ _ _ _ _ (Nat.zero_le _) hl ho hc).trans (enterCmd_waits hctx (by rw [hk]; exact hfull))
  rw [he] at hx
  exact waits_of_stall hx rfl rfl

/-- An instruction whose class refuses it traps before its registers are looked at. -/
theorem issueOwn_own {ik : Code} {legal : Bool} {own : Option (BitVec 8)} {srcs dsts : List RegRef} {k : State → State} {c : BitVec 8} (hl : legal = true)
    (hm : (hd.s && hd.mask.getLsbD 27) = false) (ho : own = some c) : issueOwn ik hd 0 legal own srcs dsts k s = trapInstr c ik s := by
  unfold issueOwn
  rw [if_neg (Nat.not_lt_zero _), hl, hm, ho]
  rfl

theorem entered_queues (cause status : BitVec 8) (val epc : Word) (h : Hart) : (h.entered cause status val epc).busy.queues = h.busy.queues := rfl

/-- A matrix command without a lease raises cause 0x0F. -/
theorem leaseless_traps {i : Instr} {s s' : State} (hx : exec i s = .next (trapInstr 0x0F (codeOf i) s')) (hm : s'.me = s.me) (hcur : s'.cur = s.cur)
    (hctx : s.cur.isCtx = false) (ht : s.me.inTrap = false) :
    ∃ t : State, exec i s = .next t ∧ t.me.csr.tcause = 0x0F ∧ t.me.csr.tepc.toNat = s.me.pc.toNat % 2 ^ 48 ∧ t.me.busy.queues = s.me.busy.queues := by
  have hc' : s'.cur.isCtx = false := by rw [hcur, hctx]
  have ht' : s'.me.inTrap = false := by rw [hm, ht]
  obtain ⟨h1, -, h3, -⟩ := trapInstr_saves 0x0F (codeOf i) s' hc' ht'
  have hq : s'.giveUp.me.busy.queues = s'.me.busy.queues := (congrArg (fun h : Hart => h.busy.queues) s'.giveUp_lockless :)
  refine ⟨_, hx, h1.trans (Proofs.tcauseOf_zero _), by rw [h3, hm], ?_⟩
  rw [trapInstr, trapVal, takeTrap_thread_me _ _ _ _ _ hc' ht', entered_queues, hq, hm]

end

end Sys2Proof.Machine

/-! PROOFS. The engine commands (R275, R276, R280, R285, R290, R328, R343, R363, R368). -/

namespace Sys2Proof.Machine

set_option Elab.async false
open Claims

/-! ### The rows of an MMA from registers (R331, R336) -/

theorem tileBytes_eq (fmt : BitVec 4) (rows : Nat) : tileBytes fmt.toNat rows = rows * (elemBits fmt.toNat * 16) +
    (if fmt ∈ ([2, 3, 10, 13] : List (BitVec 4)) then (4 * rows + 63) / 64 * 64 else 0) := by
  have h : ∀ f : BitVec 4, fmtScaled f.toNat = decide (f ∈ ([2, 3, 10, 13] : List (BitVec 4))) := by decide
  rw [tileBytes, rowBytes, h]
  simp only [decide_eq_true_eq]

theorem mmaRegs_eq (fmt : BitVec 4) (rows : BitVec 7) (wreg : BitVec 3) : mmaRegs wreg (tileBytes fmt.toNat (rows.toNat + 1)) = rowRegs fmt rows wreg := by
  rw [tileBytes_eq]
  rfl

/-- A byte of some numbers of B bits, one after another. -/
theorem read_packed {B q n k : Nat} {L : List Nat} (hB : B = 8 * q) (hL : ∀ x ∈ L, x < 2 ^ B) (hk : k < n) (hq : k / q < L.length) (hq0 : 0 < q) :
    (bytesMem n (packLanes B L)).read k = BitVec.ofNat 8 (L.getD (k / q) 0 / 2 ^ (8 * (k % q)) % 256) := by
  have hread := read_cells (bytesOf n (packLanes B L)) 0 k (by rw [bytesOf_length]; exact hk)
  rw [Nat.zero_add, getElem_bytesOf] at hread
  rw [bytesMem, hread]
  have hx : lane B (packLanes B L) (k / q) = L.getD (k / q) 0 := by
    rw [lane_packLanes]
    exact Nat.mod_eq_of_lt (by rw [List.getD_eq_getElem _ _ hq]; exact hL _ (List.getElem_mem hq))
  have hl : lane 8 (packLanes B L) k = lane 8 (L.getD (k / q) 0) (k % q) := by
    rw [← hx, hB, lane_lane (Nat.mod_lt k hq0), Nat.div_add_mod']
  apply BitVec.eq_of_toNat_eq
  rw [BitVec.toNat_ofNat, BitVec.toNat_ofNat]
  exact hl.trans (Nat.mod_mod _ _).symm

section
variable {s : State} {hd : Head}

theorem enters_of_granted {i : Instr} {q : Nat} {tk : BitVec 3} {p : Cmd → Prop} {c : Cmd} {ctl : BitVec 32}
    (hx : exec i s = .next (enterCmd (codeOf i) hd q c ctl id (granted s))) (hroom : room q tk s) (hc : NewCmd s i tk c) (hp : p c) :
    enters i hd q tk p s := by
  obtain ⟨rfl⟩ := hc.tk
  have hcur : (granted s).cur = s.cur := granted_frame State.cur (fun _ _ _ => rfl) s
  have hroom' : room q c.tk (granted s) := by
    obtain ⟨h1, h2⟩ := hroom
    exact ⟨by rw [hcur]; exact h1, by rw [granted_me]; exact h2⟩
  obtain ⟨-, h1, h2, h3, h4, h5, h6, h7, h8, h9⟩ := enterCmd_entered (ik := codeOf i) (hd := hd) (ctl := ctl) (post := id) hroom' .refl
  rw [granted_me] at h1 h2 h5
  refine ⟨_, c, hx, h1, hc.ins, rfl, hc.seq, hc.kickLoads, hc.kickSb, hc.asid, hp, fun _ => ⟨h2, fun k hk => ?_⟩, fun j hj => ?_, h5,
    h6.trans (granted_mem s), h7.trans (finish_pc_of _ _ (by rw [granted_me]) (by rw [granted_me])), h8, fun h hh => ?_⟩
  · rw [h3 k hk, granted_me]
  · rw [h4 j hj, granted_me]
  · exact (h9 h (by rw [hcur]; exact hh)).trans (granted_frame (fun s => s.hart h) (fun _ _ _ => rfl) s)

variable {d b : Reg} {tk : BitVec 3} {wait : BitVec 8} {fmt : BitVec 4} {rows : BitVec 7} {lt sat ftz : BitVec 1} {wreg : BitVec 3}

/-- The command of an MMA from registers. -/
def rowsCmd (s : State) (hd : Head) (d b : Reg) (tk : BitVec 3) (wait : BitVec 8) (fmt : BitVec 4) (rows : BitVec 7) (lt sat ftz : BitVec 1)
    (wreg : BitVec 3) : Cmd :=
  { s.newCmd (.mma hd d b tk wait 3 fmt rows lt sat ftz wreg) tk wait 0 0 0 with
    wdata := s.wBytes (mmaRegs wreg (tileBytes fmt.toNat (rows.toNat + 1))) (tileBytes fmt.toNat (rows.toNat + 1)) }

theorem mmaRows_clear (hctx : s.cur.isCtx = false) (hlease : s.me.lease.isSome = true) (hrec : s.me.recording = none) (hlong : s.long = true)
    (hnow : (s.cluster (clusterOf s.myCore)).lvuNow = some s.cur) (hrs : ∀ r ∈ rowRegs fmt rows wreg, r.toNat < 8)
    (hc : s.clear hd ((rowRegs fmt rows wreg).map RegRef.v) []) :
    exec (.mma hd d b tk wait 3 fmt rows lt sat ftz wreg) s = .next (enterCmd (codeOf (.mma hd d b tk wait 3 fmt rows lt sat ftz wreg)) hd 1
      (rowsCmd (granted s) hd d b tk wait fmt rows lt sat ftz wreg) (codeOf (.mma hd d b tk wait 3 fmt rows lt sat ftz wreg)).c id (granted s)) := by
  have hown : s.matrixOwn true = none := (matrixOwn_leased hlease true).trans (tapeBar_of_idle hrec true)
  rw [← mmaRegs_eq] at hrs hc
  refine congrArg Host.Outcome.next ((if_pos rfl).trans ?_)
  rw [hown]
  exact vecIssue_clear hlong ⟨hctx, fun _ => ⟨hnow, hrs⟩⟩ (by simp) hc

theorem rowsCmd_newCmd : NewCmd s (.mma hd d b tk wait 3 fmt rows lt sat ftz wreg) tk (rowsCmd (granted s) hd d b tk wait fmt rows lt sat ftz wreg) := by
  refine ⟨rfl, rfl, ?_, ?_, ?_, ?_⟩ <;>
  · rw [← granted_me]
    rfl

theorem rowsCmd_wdata (hlong : s.long = true) (k : Nat) (hk : k < tileBytes fmt.toNat (rows.toNat + 1)) :
    (rowsCmd (granted s) hd d b tk wait fmt rows lt sat ftz wreg).wdata.read k =
      BitVec.ofNat 8 (s.vval ((rowRegs fmt rows wreg).getD (k / 2048) 0) / 2 ^ (8 * (k % 2048)) % 256) := by
  have hv (r : Reg) : s.vval r = ((s.core s.myCore).rw r).toNat := if_pos hlong
  have hlen : (rowRegs fmt rows wreg).length = (tileBytes fmt.toNat (rows.toNat + 1) + 2047) / 2048 := by
    rw [← mmaRegs_eq, mmaRegs, List.length_map, List.length_range]
  have hj : k / 2048 < (rowRegs fmt rows wreg).length := by omega
  have hw : (granted s).wBytes = s.wBytes := granted_frame State.wBytes (fun _ _ _ => rfl) s
  rw [rowsCmd, hw, mmaRegs_eq, State.wBytes]
  refine (read_packed (q := 2048) rfl ?_ hk (by rw [List.length_map]; exact hj) (by decide)).trans ?_
  · intro x hx
    obtain ⟨r, -, rfl⟩ := List.mem_map.mp hx
    exact BitVec.isLt _
  · rw [hv, List.getD_eq_getElem _ _ (by rw [List.length_map]; exact hj), List.getElem_map, List.getD_eq_getElem _ _ hj]

theorem mmaRows_waits (hctx : s.cur.isCtx = false) (hlease : s.me.lease.isSome = true) (hrec : s.me.recording = none) (hlong : s.long = true)
    (hnow : (s.cluster (clusterOf s.myCore)).lvuNow = some s.cur) (hrs : ∀ r ∈ rowRegs fmt rows wreg, r.toNat < 8)
    (hc : s.clear hd ((rowRegs fmt rows wreg).map RegRef.v) []) (hfull : (s.me.tok tk).count = 255 ∨ 32 ≤ (s.me.queue 1).length) :
    WaitsAtItself (.mma hd d b tk wait 3 fmt rows lt sat ftz wreg) s := by
  have hctx' : (granted s).cur.isCtx = false := (granted_frame (fun s => s.cur.isCtx) (fun _ _ _ => rfl) s).trans hctx
  rw [← granted_me s] at hfull
  exact waits_of_stall (hd := hd) ((mmaRows_clear hctx hlease hrec hlong hnow hrs hc).trans (congrArg Host.Outcome.next (enterCmd_waits hctx' hfull)))
    (granted_me s) (granted_mem s)

theorem matrixOwn_leaseless (h : s.me.lease = none) (refused : Bool) : s.matrixOwn refused = some 0x0F := by rw [State.matrixOwn, h]; rfl

theorem mmaRows_leaseless (hctx : s.cur.isCtx = false) (hlease : s.me.lease = none) (hlong : s.long = true)
    (hrs : ∀ r ∈ rowRegs fmt rows wreg, r.toNat < 8) (hm : (hd.s && hd.mask.getLsbD 27) = false) :
    exec (.mma hd d b tk wait 3 fmt rows lt sat ftz wreg) s =
      .next (trapInstr 0x0F (codeOf (.mma hd d b tk wait 3 fmt rows lt sat ftz wreg)) (granted s)) := by
  rw [← mmaRegs_eq] at hrs
  have hleg : ((granted s).noCtx && s.long && (mmaRegs wreg (tileBytes fmt.toNat (rows.toNat + 1))).all (granted s).vregOk) = true := by
    rw [granted_frame State.noCtx (fun _ _ _ => rfl) s, granted_frame State.vregOk (fun _ _ _ => rfl) s, hlong, State.noCtx, hctx]
    refine (Bool.true_and _).trans (List.all_eq_true.mpr fun r hr => ?_)
    simp [State.vregOk, hlong, hrs r hr]
  refine congrArg Host.Outcome.next ((if_pos rfl).trans ?_)
  rw [matrixOwn_leaseless hlease]
  unfold vecIssueOwn
  exact issueOwn_own hleg hm rfl

/-- A matrix command of one operand form is turned away without a lease. -/
theorem engineCmd_leaseless {i : Instr} {q : Nat} {legal : Bool} {own : Option (BitVec 8)} {a : Reg}
    (hx : exec i s = .next (engineCmd (codeOf i) hd q i tk wait legal own d a b s)) (hl : legal = true) (ho : own = some 0x0F)
    (hm : (hd.s && hd.mask.getLsbD 27) = false) (hctx : s.cur.isCtx = false) (ht : s.me.inTrap = false) :
    ∃ t : State, exec i s = .next t ∧ t.me.csr.tcause = 0x0F ∧ t.me.csr.tepc.toNat = s.me.pc.toNat % 2 ^ 48 ∧ t.me.busy.queues = s.me.busy.queues :=
  leaseless_traps (hx.trans (congrArg Host.Outcome.next (issueOwn_own hl hm ho))) rfl rfl hctx ht

theorem noteCopy_leavesQueues (u : State) (n : Nat) : LeavesQueues u (u.noteCopy n) := by
  unfold State.noteCopy
  split
  case isFalse => exact .refl u
  case isTrue => refine ⟨rfl, rfl, ?_, ?_, ?_, ?_, ?_, fun h hne => State.modMe_hart_other u h _ (Ne.symm hne)⟩ <;> rw [State.modMe_me]

theorem copy_clear {a : Reg} {tmpl : BitVec 4} (hctx : s.cur.isCtx = false) (hc : s.clear hd [.x a, .x b] []) :
    issueOwn (codeOf (.copy hd a b tk wait tmpl)) hd 0 true (s.ctxZero (tk != 0 || wait != 0)) [.x a, .x b] [] (fun s =>
      enterCmd (codeOf (.copy hd a b tk wait tmpl)) hd 2 (s.newCmd (.copy hd a b tk wait tmpl) tk wait 0 (s.rx a) (s.rx b))
        (codeOf (.copy hd a b tk wait tmpl)).c (fun u => u.noteCopy (s.newCmd (.copy hd a b tk wait tmpl) tk wait 0 (s.rx a) (s.rx b)).seq) s) s =
    enterCmd (codeOf (.copy hd a b tk wait tmpl)) hd 2 (s.newCmd (.copy hd a b tk wait tmpl) tk wait 0 (s.rx a) (s.rx b))
      (codeOf (.copy hd a b tk wait tmpl)).c (fun u => u.noteCopy (s.newCmd (.copy hd a b tk wait tmpl) tk wait 0 (s.rx a) (s.rx b)).seq) s :=
  issueOwn_clear _ _ _ _ _ _ _ _ _ (Nat.zero_le _) rfl (by rw [State.ctxZero, hctx]; rfl) hc

theorem tapeBar_unless {x : BitVec 1} (h : x = 1 → s.me.recording = none) : s.tapeBar (x == 1) = none := by
  by_cases hx : x = 1
  · exact tapeBar_of_idle (h hx) _
  · rw [beq_eq_false_iff_ne.mpr hx]
    rfl

end

end Sys2Proof.Machine

namespace Sys2Proof.Proofs

set_option Elab.async false
open Machine Claims

/-- The engine forms enter their queues (R275, R276, R285). -/
theorem engineForms_enter : Claims.engineForms := by
  intro hd c a b s v tk hv same
  refine ⟨fun hc hroom => ?_, fun hc hroom hname => ?_⟩
  · have hc' : s.clear hd [.x c, .x a, .x 0] [] := clear_zero hc (by simp)
    exact ⟨enters_of (congrArg Host.Outcome.next (engineForm_clear hroom.1 hv rfl hc')) hroom .refl ⟨rfl, rfl, rfl, rfl, rfl, rfl⟩ ⟨rfl, rfl⟩,
      enters_of (congrArg Host.Outcome.next (engineForm_clear hroom.1 hv rfl hc')) hroom .refl ⟨rfl, rfl, rfl, rfl, rfl, rfl⟩ ⟨rfl, rfl⟩⟩
  · have hn : (if (s.counterName (s.rx a)).isNone then some (s.rx a) else none) = none :=
      if_neg (by rw [Option.isNone_iff_eq_none]; exact Option.isSome_iff_ne_none.mp hname)
    exact enters_of (congrArg Host.Outcome.next (engineForm_clear hroom.1 hv hn hc)) hroom .refl ⟨rfl, rfl, rfl, rfl, rfl, rfl⟩ ⟨⟨rfl, rfl⟩, rfl⟩

/-- The engine commands enter their queues (R142, R185, R440). -/
theorem engineCommands_enter : Claims.engineCommands := by
  intro hd d a b tk wait s vals valA valDB one all leased pends
  have ha (h : one) : s.clear hd [.x a, .x 0, .x 0] [] := clear_zero h (by simp)
  have hdb (h : s.clear hd [.x b, .x d] []) : s.clear hd [.x 0, .x b, .x d] [] := clear_zero h (by simp)
  have hab (h : s.clear hd [.x a, .x b] []) : s.clear hd [.x a, .x b, .x 0] [] := clear_zero h (by simp)
  have hnone (h : s.clear hd [] []) : s.clear hd [.x 0, .x 0, .x 0] [] := clear_zero h (by simp)
  have hown (h : leased) {q : Nat} (hr : room q tk s) (refused : Bool) : s.matrixOwn refused = none :=
    (matrixOwn_leased h refused).trans (tapeBar_of_idle (idle_of_room hr) refused)
  refine ⟨?tld, ?tldP, ?wload, ?stores, ?mma, ?acc, ?copy, ?copyMc, ?rcall, ?pipe, ?tapes⟩
  case tld => exact fun _ _ _ _ _ h hl hr => engineCmd_enters rfl (noCtx_of_room hr) (hown hl hr _) (ha h) hr ⟨⟨rfl, rfl⟩, rfl⟩
  case tldP => exact fun _ _ _ _ h hl hr => engineCmd_enters rfl (noCtx_of_room hr) (hown hl hr _) h hr ⟨⟨rfl, rfl, rfl, rfl⟩, rfl⟩
  case wload => exact fun _ _ _ _ h hl hr => engineCmd_enters rfl (noCtx_of_room hr) (hown hl hr _) h hr ⟨⟨rfl, rfl, rfl, rfl⟩, rfl⟩
  case stores =>
    exact fun _ _ _ _ hl hr =>
      ⟨fun h => engineCmd_enters rfl (noCtx_of_room hr) (hown hl hr _) (ha h) hr ⟨⟨rfl, rfl⟩, rfl⟩,
        fun h => engineCmd_enters rfl (noCtx_of_room hr) (hown hl hr _) (hdb h) hr ⟨⟨rfl, rfl, rfl⟩, rfl⟩⟩
  case mma =>
    refine fun asrc fmt rows lt sat ftz wreg hl hr => ⟨fun h3 h => ?_, fun h3 hlong hnow hrs h => ?_⟩
    · exact engineCmd_enters (congrArg Host.Outcome.next (if_neg h3)) (noCtx_of_room hr) (hown hl hr false) (hdb h) hr ⟨⟨rfl, rfl, rfl⟩, rfl⟩
    · subst h3
      refine enters_of_granted (mmaRows_clear hr.1 hl (idle_of_room hr) hlong hnow hrs h) hr rowsCmd_newCmd ⟨?_, fun k hk => ?_⟩
      · exact (congrArg Hart.lease (granted_me s) :)
      · exact rowsCmd_wdata hlong k (by rw [tileBytes_eq]; exact hk)
  case acc =>
    exact fun h hl hr =>
      ⟨engineCmd_enters rfl (noCtx_of_room hr) (hown hl hr _) (hnone h) hr ⟨rfl, rfl⟩,
        fun _ => engineCmd_enters rfl (noCtx_of_room hr) (hown hl hr _) (hnone h) hr ⟨rfl, rfl⟩,
        fun hlong _ _ _ => engineCmd_enters rfl (by rw [noCtx_of_room hr, hlong]; rfl) (hown hl hr _) (hnone h) hr ⟨rfl, rfl⟩⟩
  case copy =>
    exact fun h hr tmpl => enters_of (congrArg Host.Outcome.next (copy_clear hr.1 h)) hr (fun u => noteCopy_leavesQueues u _)
      ⟨rfl, rfl, rfl, rfl, rfl, rfl⟩ ⟨rfl, rfl, rfl⟩
  case copyMc => exact fun h hr _ => engineCmd_enters rfl (noCtx_of_room hr) rfl h hr ⟨rfl, rfl, rfl, rfl⟩
  case rcall =>
    intro hidx rr ord h hr
    have hz : s.ctxZero (tk != 0 || wait != 0 || rr != 0) = none := by rw [State.ctxZero, hr.1]; rfl
    refine resultCmd_gives rfl rfl ?_ h hr ⟨rfl, rfl, rfl, rfl, rfl, rfl⟩ ⟨⟨rfl, rfl⟩, rfl⟩
    rw [hz]
    exact tapeBar_of_idle (idle_of_room hr) _
  case pipe =>
    intro rr flt h hr i hi
    simp only [List.mem_cons, List.not_mem_nil, or_false] at hi
    rcases hi with rfl | rfl
    · exact resultCmd_gives rfl (noCtx_of_room hr) (tapeBar_of_idle (idle_of_room hr) _) h hr ⟨rfl, rfl, rfl, rfl, rfl, rfl⟩ ⟨⟨rfl, rfl⟩, rfl⟩
    · exact resultCmd_gives rfl (noCtx_of_room hr) (tapeBar_of_idle (idle_of_room hr) _) h hr ⟨rfl, rfl, rfl, rfl, rfl, rfl⟩ ⟨⟨rfl, rfl⟩, rfl⟩
  case tapes =>
    intro h hr id i hi
    simp only [List.mem_cons, List.not_mem_nil, or_false] at hi
    rcases hi with rfl | rfl | rfl
    · exact engineCmd_enters rfl (noCtx_of_room hr) (tapeBar_of_idle (idle_of_room hr) _) (ha h) hr ⟨rfl, rfl⟩
    · exact engineCmd_enters rfl (noCtx_of_room hr) (tapeBar_of_idle (idle_of_room hr) _) (ha h) hr ⟨rfl, rfl⟩
    · exact engineCmd_enters rfl (noCtx_of_room hr) (tapeBar_of_idle (idle_of_room hr) _) (ha h) hr ⟨rfl, rfl⟩

/-- ACT and PRE for the engine wait for room. -/
theorem engineForm_waits {hd : Head} {d a : Reg} {i : Instr} {s : State} (hctx : s.cur.isCtx = false) (hv : (s.rx d).toNat < 2 ^ 11)
    (h : s.clear hd [.x d, .x a] []) (hf : (s.me.tok ((s.rx d).extractLsb' 0 3)).count = 255 ∨ 32 ≤ (s.me.queue 5).length)
    (hx : exec i s = .next (engineForm (codeOf i) hd 5 i d a 0 (fun _ => none) s)) : WaitsAtItself i s :=
  waits_of_stall (s' := s) (hd := hd)
    (hx.trans (congrArg Host.Outcome.next ((engineForm_clear hctx hv rfl (clear_zero h (by simp))).trans (enterCmd_waits hctx hf)))) rfl rfl

theorem otherForms_wait (hd : Head) (d a b : Reg) (tk : BitVec 3) (wait : BitVec 8) (tmpl : BitVec 4) (hidx : BitVec 6) (ord : BitVec 2)
    (x y : BitVec 1) (id : BitVec 3) (s : State) (hctx : s.cur.isCtx = false) : ∀ e ∈ otherForms hd d a b tk wait tmpl hidx ord x y id s,
      e.legal → s.clear hd e.srcs e.dsts → (s.me.tok e.tk).count = 255 ∨ 32 ≤ (s.me.queue e.q).length → WaitsAtItself e.ins s := by
  have hno : s.noCtx = true := by rw [State.noCtx, hctx]; rfl
  have hz (bad : Bool) : s.ctxZero bad = none := by rw [State.ctxZero, hctx]; rfl
  unfold otherForms
  simp only [List.forall_mem_cons]
  refine ⟨fun _ h hf => waits_of_stall (s' := s) (hd := hd) (congrArg Host.Outcome.next ((copy_clear hctx h).trans (enterCmd_waits hctx hf))) rfl rfl,
    fun _ h hf => engineCmd_waits rfl hctx hno rfl h hf,
    fun hl h hf => resultCmd_waits rfl hctx rfl ?rcall h rfl hf,
    fun hl h hf => resultCmd_waits rfl hctx hno (tapeBar_unless hl) h rfl hf,
    fun hl h hf => resultCmd_waits rfl hctx hno (tapeBar_unless hl) h rfl hf,
    fun hv h hf => engineForm_waits hctx hv h hf rfl, fun hv h hf => engineForm_waits hctx hv h hf rfl, fun hv h hf => ?mbx,
    fun hl h hf => engineCmd_waits rfl hctx hno (tapeBar_of_idle hl _) (clear_zero h (by simp)) hf,
    fun hl h hf => engineCmd_waits rfl hctx hno (tapeBar_of_idle hl _) (clear_zero h (by simp)) hf,
    fun hl h hf => engineCmd_waits rfl hctx hno (tapeBar_of_idle hl _) (clear_zero h (by simp)) hf, fun _ h => absurd h List.not_mem_nil⟩
  case rcall =>
    rw [hz]
    exact tapeBar_unless hl
  case mbx =>
    have hn : (if (s.counterName (s.rx a)).isNone then some (s.rx a) else none) = none :=
      if_neg (by rw [Option.isNone_iff_eq_none]; exact Option.isSome_iff_ne_none.mp hv.2)
    exact waits_of_stall (s' := s) (hd := hd) (congrArg Host.Outcome.next
      ((engineForm_clear hctx hv.1 hn h).trans (enterCmd_waits hctx hf))) rfl rfl

theorem matrixForms_turnedAway (hd : Head) (d a b : Reg) (tk : BitVec 3) (wait : BitVec 8) (fmt : BitVec 4) (rows row : BitVec 7) (sel : BitVec 2)
    (x y z : BitVec 1) (wreg : BitVec 3) (s : State) (hctx : s.cur.isCtx = false) :
    ∀ e ∈ matrixForms hd d a b tk wait fmt rows row sel x y z wreg s,
      (s.me.lease.isSome = true → e.legal → s.clear hd e.srcs e.dsts → (s.me.tok e.tk).count = 255 ∨ 32 ≤ (s.me.queue e.q).length →
        WaitsAtItself e.ins s) ∧
      (s.me.lease = none → e.legal → (hd.s && hd.mask.getLsbD 27) = false → s.me.inTrap = false →
        ∃ t : State, exec e.ins s = .next t ∧ t.me.csr.tcause = 0x0F ∧ t.me.csr.tepc.toNat = s.me.pc.toNat % 2 ^ 48 ∧
          t.me.busy.queues = s.me.busy.queues) := by
  have hno : s.noCtx = true := by rw [State.noCtx, hctx]; rfl
  have hown (h : s.me.lease.isSome = true) : s.matrixOwn false = none := matrixOwn_leased h false
  unfold matrixForms
  simp only [List.forall_mem_cons]
  refine ⟨?_, ?_, ?_, ?_, ?mma, ?mmaRows, ?_, ?_, ?ard, ?_, fun _ h => absurd h List.not_mem_nil⟩
  case mma =>
    exact ⟨fun hs h3 h hf => engineCmd_waits (congrArg Host.Outcome.next (if_neg h3)) hctx hno (hown hs) (clear_zero h (by simp)) hf,
      fun hn h3 hm ht => engineCmd_leaseless (congrArg Host.Outcome.next (if_neg h3)) hno (matrixOwn_leaseless hn _) hm hctx ht⟩
  case mmaRows =>
    refine ⟨fun hs hl h hf => ?_, fun hn hl hm ht => ?_⟩ <;> obtain ⟨⟨hlong, hrec⟩, hrs, hnow⟩ := hl
    · exact mmaRows_waits hctx hs hrec hlong hnow hrs h hf
    · exact leaseless_traps (mmaRows_leaseless hctx hn hlong hrs hm) (granted_me s) (granted_frame State.cur (fun _ _ _ => rfl) s) hctx ht
  case ard =>
    refine ⟨fun hs hl h hf => ?_, fun hn hl hm ht => ?_⟩ <;> obtain ⟨hlong, hrec⟩ := hl
    · exact engineCmd_waits rfl hctx (by rw [hno, hlong]; rfl) ((matrixOwn_leased hs true).trans (tapeBar_of_idle hrec true))
        (clear_zero h (by simp)) hf
    · exact engineCmd_leaseless rfl (by rw [hno, hlong]; rfl) (matrixOwn_leaseless hn _) hm hctx ht
  all_goals
    exact ⟨fun hs _ h hf => engineCmd_waits rfl hctx hno (hown hs) (clear_zero h (by simp)) hf,
      fun hn _ hm ht => engineCmd_leaseless rfl hno (matrixOwn_leaseless hn _) hm hctx ht⟩

/-- Settles O36: every engine command comes down to one entry into its queue, which counts its token and touches nothing else; without room there
it waits at itself, and a matrix command without a lease is refused before its registers. -/
theorem engineCommands : Obligations.EngineCommands :=
  ⟨engineForms_enter, engineCommands_enter, fun hd d a b tk wait fmt rows row sel x y z k hidx s hctx =>
    ⟨otherForms_wait hd d a b tk wait fmt hidx sel x y k s hctx,
      matrixForms_turnedAway hd d a b tk wait fmt rows row sel x y z k s hctx⟩⟩

end Sys2Proof.Proofs

/-! PROOFS. What the read of a block leaves; leases and templates (R289, R321 to R323). -/

namespace Sys2Proof.Machine

set_option Elab.async false
open Claims

/-! ### What the checked read of a block leaves (R32 to R35, R148, R298) -/

/-- A core with its TLBs left out. -/
def Core.bare (c : Core) : Core := { c with tlb := [], agentTlb := [] }

/-- The x registers and trap states of harts, and the cores without their TLBs: what no read of memory changes. -/
structure Kept where
  x : HartId → Table Reg Word
  tstatus : HartId → Word
  core : Nat → Core

def State.kept (s : State) : Kept := ⟨fun h => (s.hart h).x, fun h => (s.hart h).csr.tstatus, fun c => (s.core c).bare⟩

theorem kept_eq {s t : State} (hh : ∀ h, (t.hart h).x = (s.hart h).x ∧ (t.hart h).csr.tstatus = (s.hart h).csr.tstatus)
    (hc : ∀ c, (t.core c).bare = (s.core c).bare) : t.kept = s.kept := by
  simp only [State.kept, hh, hc]

theorem modHart_kept (s : State) (i : HartId) (f : Hart → Hart) (hf : ∀ h, (f h).x = h.x ∧ (f h).csr.tstatus = h.csr.tstatus) :
    (s.modHart i f).kept = s.kept := by
  refine kept_eq (fun h => ?_) fun _ => rfl
  by_cases hi : i = h
  · subst hi
    rw [State.modHart_hart_same]
    exact hf _
  · rw [State.modHart_hart_other _ _ _ _ hi]
    exact ⟨rfl, rfl⟩

theorem modCore_kept (s : State) (i : Nat) (f : Core → Core) (hf : ∀ c, (f c).bare = c.bare) : (s.modCore i f).kept = s.kept := by
  refine kept_eq (fun _ => ⟨rfl, rfl⟩) fun c => ?_
  by_cases hi : i = c
  · subst hi
    rw [State.modCore_core_same]
    exact hf _
  · rw [State.modCore_core_other _ _ _ _ hi]

theorem kept_of_still {s t : State} (h : t.still = s.still) : t.kept = s.kept :=
  kept_eq (fun i => ⟨(congrArg Hart.x (State.hart_of_still h i) :), (congrArg (fun h : Hart => h.csr.tstatus) (State.hart_of_still h i) :)⟩)
    fun c => by rw [State.core_of_still h]

theorem l1Put_kept (s : State) (i : HartId) (e : TlbEnt) : (s.l1Put i e).kept = s.kept := by
  unfold State.l1Put
  split
  · exact modCore_kept s i.core (fun c => { c with tlb := tlbPut 64 s.freeCtr e c.tlb }) fun _ => rfl
  · exact modCore_kept s i.core (fun c => { c with agentTlb := tlbPut 16 s.freeCtr e c.agentTlb }) fun _ => rfl
  · rfl

theorem useWalked_kept (s : State) (who : Asker) (w : Walked) : (s.useWalked who w).kept = s.kept := by
  unfold State.useWalked
  split
  · exact modHart_kept s who.hart (fun h => h.modBusy (fun b => { b with walked := b.walked.erase w })) fun _ => ⟨rfl, rfl⟩
  · rfl

theorem askWalk_kept (s : State) (who : Asker) (va : Nat) : (s.askWalk who va).kept = s.kept := by
  simp only [State.askWalk]
  split <;> rfl

theorem page_kept (s : State) (who : Asker) (va : Nat) : (s.page who va).1.kept = s.kept := by
  simp only [State.page]
  repeat' split
  · rfl
  · exact useWalked_kept s who _
  · exact useWalked_kept s who _
  · exact l1Put_kept s _ _
  · exact askWalk_kept s who _

theorem translate_kept (s : State) (who : Asker) (va : Word) : (s.translate who va).1.kept = s.kept := by
  have hp := page_kept s who va.toNat
  simp only [State.translate]
  split
  · rfl
  split
  · rfl
  revert hp
  rcases s.page who va.toNat with ⟨t, e | c | _⟩ <;> exact id

theorem check_kept (s : State) (who : Asker) (a : Acc) (va : Word) : (s.check who a va).1.kept = s.kept := by
  have ht := translate_kept s who va
  unfold State.check
  revert ht
  rcases s.translate who va with ⟨t, x | c | _⟩ <;> intro ht
  · dsimp only
    repeat' split
    all_goals exact ht
  · exact ht
  · exact ht

theorem access_kept (s : State) (who : Asker) (a : Acc) (n : Nat) (va : Word) : (s.access who a n va).1.kept = s.kept := by
  unfold State.access
  split
  · rfl
  · exact check_kept s who a va

theorem accessAll_kept (who : Asker) (a : Acc) (n : Nat) (vas : List Word) (s : State) : (s.accessAll who a n vas).1.kept = s.kept := by
  induction vas generalizing s with
  | nil => rfl
  | cons va r ih => exact (ih _).trans (access_kept s who a n va)

theorem foldl_kept {α : Type} {f : State → α → State} (hf : ∀ s a, (f s a).kept = s.kept) (l : List α) (s : State) : (l.foldl f s).kept = s.kept := by
  induction l generalizing s with
  | nil => rfl
  | cons a l ih => exact (ih _).trans (hf s a)

theorem touchPart_kept (s : State) (p : Nat × Nat) : (s.touchPart p).kept = s.kept := by
  unfold State.touchPart State.mmioTouch
  split
  · split <;> rfl
  · rfl

theorem noteVlast_kept (s : State) (id : HartId) (st waited : Nat) (hit : Bool) : (s.noteVlast id st waited hit).kept = s.kept :=
  modHart_kept s id (fun h => h.modCsr (fun c => { c with vlast := vlastAfter c.vlast st waited hit })) fun _ => ⟨rfl, rfl⟩

theorem noteWords_kept (s : State) (id : HartId) (who : Reader) (ps : List Nat) : (s.noteWords id who ps).kept = s.kept :=
  foldl_kept (fun s _ => noteVlast_kept s _ _ _ _) ps s

theorem dropReads_kept (s : State) (core : Nat) (who : Reader) : (s.dropReads core who).kept = s.kept := by
  unfold State.dropReads State.forgetEarly
  dsimp only
  split <;> split <;> rfl

theorem blockRead_kept (s : State) (who : Asker) (note : Bool) (va : Word) (n : Nat) : (s.blockRead who note va n).1.kept = s.kept := by
  have ha := accessAll_kept who (.load 8 false) 8 ((List.range n).map (fun k => va + BitVec.ofNat 64 (8 * k))) s
  unfold State.blockRead
  dsimp only
  generalize s.accessAll who (.load 8 false) 8 ((List.range n).map (fun k => va + BitVec.ofNat 64 (8 * k))) = p at ha ⊢
  obtain ⟨t, r⟩ := p
  dsimp only at ha ⊢
  split
  · exact ha
  split
  · exact ha
  split
  · exact ha
  split
  · exact ha
  split
  · exact ha
  split
  · exact (kept_of_still (t.askAll_still _ _)).trans ha
  split
  · exact (kept_of_still (t.askAll_still _ _)).trans ha
  · next u hu =>
    have h1 := (kept_of_still (State.poolTurns_still _ _ _ _ hu)).trans ((kept_of_still (t.askAll_still _ _)).trans ha)
    refine (dropReads_kept _ _ _).trans ?_
    split
    · exact (noteWords_kept _ _ _ _).trans ((foldl_kept (fun s p => touchPart_kept s _) _ _).trans h1)
    · exact (foldl_kept (fun s p => touchPart_kept s _) _ _).trans h1

end Sys2Proof.Machine

namespace Sys2Proof.Proofs

set_option Elab.async false
open Machine Claims

/-! ### Leases and templates (R289, R322, R323) -/

theorem lockBar_of_free {s : State} (h : s.freeThread) : s.lockBar = none := by
  obtain ⟨-, hl⟩ := h
  rw [State.lockBar, hl]
  rfl

theorem noCtx_of_free {s : State} (h : s.freeThread) : s.noCtx = true := by rw [State.noCtx, h.1]; rfl

section
variable {hd : Head} {d : Reg} {try1 : BitVec 1} {s : State} (hf : s.freeThread) (hc : s.clear hd [] [.x d])
include hf hc

/-- LEASE past its checks. -/
theorem lease_clear : exec (.lease hd d try1) s = .next (match s.me.lease with
    | some n => writeRd (codeOf (.lease hd d try1)) hd d (BitVec.ofNat 64 n) s
    | none =>
      match (if (s.cluster (clusterOf s.myCore)).leaseQ.any (fun h => (s.hart h).wait == some .lease) then none
        else (s.cluster (clusterOf s.myCore)).freeSlot) with
      | some n => writeRd (codeOf (.lease hd d try1)) hd d (BitVec.ofNat 64 n) (s.grantSlot (clusterOf s.myCore) n s.cur)
      | none =>
        if try1 = 1 then writeRd (codeOf (.lease hd d try1)) hd d allOnes s
        else if s.me.wait = some .lease then s
        else stallAt hd .lease true (s.modCluster (clusterOf s.myCore) (fun c => { c with leaseQ := c.leaseQ.filter (· != s.cur) ++ [s.cur] }))) := by
  have hown : (if try1 = 0 then s.lockBar else none) = none := by
    rw [lockBar_of_free hf]
    split <;> rfl
  exact congrArg Host.Outcome.next (issueOwn_clear _ _ _ _ _ _ _ _ _ (Nat.zero_le _) (noCtx_of_free hf) hown hc)

end

theorem grantSlot_me (s : State) (cl n : Nat) : (s.grantSlot cl n s.cur).me = { s.me with lease := some n } := State.modHart_hart_same _ _ _

theorem slot_modSlot_same (s : State) (cl n : Nat) (f : LeaseSlot → LeaseSlot) : ((s.modSlot cl n f).cluster cl).slot n = f ((s.cluster cl).slot n) := by
  rw [State.modSlot, State.modCluster_cluster_same]
  exact Table.get_set_same _ _ _ _

theorem slot_modSlot_other (s : State) (cl : Nat) {n m : Nat} (f : LeaseSlot → LeaseSlot) (h : m ≠ n) :
    ((s.modSlot cl n f).cluster cl).slot m = (s.cluster cl).slot m := by
  rw [State.modSlot, State.modCluster_cluster_same]
  exact Table.get_set_other _ _ _ _ _ h.symm

theorem slot_grantSlot_same (s : State) (cl n : Nat) (id : HartId) :
    ((s.grantSlot cl n id).cluster cl).slot n = { LeaseSlot.reset with st := .held, holder := some id } :=
  slot_modSlot_same s cl n (fun _ => { LeaseSlot.reset with st := .held, holder := some id })

theorem slot_grantSlot_other (s : State) (cl : Nat) {n m : Nat} (id : HartId) (h : m ≠ n) :
    ((s.grantSlot cl n id).cluster cl).slot m = (s.cluster cl).slot m :=
  slot_modSlot_other s cl (fun _ => { LeaseSlot.reset with st := .held, holder := some id }) h

theorem writeRd_cluster (ik : Code) (hd : Head) (d : Reg) (v : Word) (s : State) (cl : Nat) : (writeRd ik hd d v s).cluster cl = s.cluster cl := rfl

theorem stallAt_cluster (hd : Head) (w : Wait) (k : Bool) (s : State) (cl : Nat) : (stallAt hd w k s).cluster cl = s.cluster cl := rfl

/-- A register written by an instruction that has changed other things. -/
theorem writeRd_over {ik : Code} {hd : Head} {d : Reg} {v : Word} {s t : State} (hx : t.me.x = s.me.x) (hp : t.me.pc = s.me.pc)
    (hl : t.me.loops = s.me.loops) : (d ≠ 0 → (writeRd ik hd d v t).me.rx d = v) ∧ (∀ r, r ≠ d → (writeRd ik hd d v t).me.rx r = s.me.rx r) ∧
    (writeRd ik hd d v t).me.pc = (finish ik hd s).me.pc := by
  refine ⟨fun h0 => ?_, fun r hr => ?_, ?_⟩
  · rw [writeRd, finish_rx, State.wx, State.modMe_me]
    exact Hart.rx_wx_same _ _ _ h0
  · rw [writeRd, finish_rx, State.wx, State.modMe_me, Hart.rx_wx_other _ _ _ _ hr.symm, Hart.rx, Hart.rx, hx]
  · rw [writeRd]
    refine finish_pc_of _ _ ?_ ?_ <;> rw [State.wx, State.modMe_me] <;> unfold Hart.wx <;> split <;> assumption

theorem freeSlot_of {c : Cluster} {n : Nat} (hr : c.engRetired = false)
    (hn : (n = 0 ∧ (c.slot 0).st = .free) ∨ (n = 1 ∧ (c.slot 0).st ≠ .free ∧ (c.slot 1).st = .free)) : c.freeSlot = some n := by
  rw [Cluster.freeSlot, hr, if_neg (by decide)]
  rcases hn with ⟨rfl, h0⟩ | ⟨rfl, h0, h1⟩
  · simp [h0]
  · simp [h0, h1]

theorem freeSlot_none {c : Cluster} (h0 : (c.slot 0).st ≠ .free) (h1 : (c.slot 1).st ≠ .free) : c.freeSlot = none := by
  unfold Cluster.freeSlot
  split
  · rfl
  · simp [h0, h1]

section
variable {hd : Head} {d : Reg} {try1 : BitVec 1} {s : State} (hf : s.freeThread) (hc : s.clear hd [] [.x d]) (hl : s.me.lease = none)
include hf hc hl

/-- LEASE takes a free slot (R322). -/
theorem lease_takes {n : Nat} (hq : ∀ h ∈ (s.cluster (clusterOf s.myCore)).leaseQ, (s.hart h).wait ≠ some .lease)
    (hn : (s.cluster (clusterOf s.myCore)).freeSlot = some n) :
    exec (.lease hd d try1) s = .next (writeRd (codeOf (.lease hd d try1)) hd d (BitVec.ofNat 64 n) (s.grantSlot (clusterOf s.myCore) n s.cur)) := by
  have hany : (s.cluster (clusterOf s.myCore)).leaseQ.any (fun h => (s.hart h).wait == some .lease) = false := by
    rw [List.any_eq_false]
    exact fun h hh => by simpa using hq h hh
  rw [lease_clear hf hc, hl]
  dsimp only
  rw [hany, if_neg (by decide), hn]

/-- LEASE finds no slot (R322). -/
theorem lease_none (hn : (s.cluster (clusterOf s.myCore)).freeSlot = none) : exec (.lease hd d try1) s = .next (
    if try1 = 1 then writeRd (codeOf (.lease hd d try1)) hd d allOnes s
    else if s.me.wait = some .lease then s
    else stallAt hd .lease true (s.modCluster (clusterOf s.myCore) (fun c => { c with leaseQ := c.leaseQ.filter (· != s.cur) ++ [s.cur] }))) := by
  have hnone : (if (s.cluster (clusterOf s.myCore)).leaseQ.any (fun h => (s.hart h).wait == some .lease) then none
      else (s.cluster (clusterOf s.myCore)).freeSlot) = none := by
    rw [hn]
    split <;> rfl
  rw [lease_clear hf hc, hl]
  dsimp only
  rw [hnone]

end

theorem release_clear {hd : Head} {s : State} (hf : s.freeThread) (hc : s.clear hd [] []) :
    exec (.release hd) s = .next (finish (codeOf (.release hd)) hd (s.dropLease s.cur)) :=
  congrArg Host.Outcome.next (issue_clear _ _ _ _ _ _ _ _ (Nat.zero_le _) (noCtx_of_free hf) hc)

/-- A lease ended leaves its slot draining (R322, R323). -/
theorem dropLease_held {s : State} {n : Nat} (h : s.me.lease = some n) :
    s.dropLease s.cur = (s.drainSlot (clusterOf s.myCore) n).modHart s.cur (fun h => { h with lease := none }) := by
  have h' : (s.hart s.cur).lease = some n := h
  rw [State.dropLease, h']
  rfl

theorem slot_drainSlot_same (s : State) (cl n : Nat) : (((s.drainSlot cl n).cluster cl).slot n).st = .draining := by
  have h : ((s.drainSlot cl n).cluster cl).slot n = ((s.modSlot cl n (fun l => { l with st := .draining })).cluster cl).slot n := by
    rw [State.drainSlot, State.modCluster_cluster_same]
    rfl
  rw [h, slot_modSlot_same]

theorem slot_drainSlot_other (s : State) (cl : Nat) {n m : Nat} (hm : m ≠ n) : ((s.drainSlot cl n).cluster cl).slot m = (s.cluster cl).slot m := by
  rw [State.drainSlot, State.modCluster_cluster_same]
  exact slot_modSlot_other s cl _ hm

/-- A template's block read, TMPL loads or refuses it (R289). -/
theorem tmpl_clear {hd : Head} {a : Reg} {n : BitVec 4} {s u : State} {blk : List Byte} (hf : s.freeThread) (hc : s.clear hd [.x a] [])
    (hq : s.me.acqWait = false) (hl : s.me.busy.loads = []) (ha : (s.rx a).toNat % 64 = 0) (hcq : s.copyQueued s.myCore n.toNat = false)
    (hb : s.blockRead (.instr s.cur) true (s.rx a) 8 = (u, .ok blk)) : exec (.tmpl hd a n) s = .next (
      if tmplBad blk then trapInstr 0x02 (codeTmpl hd a n) u
      else finish (codeTmpl hd a n) hd (u.modCore u.myCore (fun c => { c with tmpl := c.tmpl.set n.toNat blk }))) := by
  refine congrArg Host.Outcome.next ((issue_clear _ _ _ _ _ _ _ _ (Nat.zero_le _) (noCtx_of_free hf) hc).trans ?_)
  rw [hcq, if_neg (by decide)]
  exact withBlock_read ha hq hl hb

/-- Settles O37: LEASE, RELEASE and TMPL past their checks, with what a slot and a template hold afterwards; the block read beforehand changes no
register, no trap state and no template. -/
theorem leasesAndTemplates : Obligations.LeasesAndTemplates := by
  intro hd d a try1 s hf cl c
  refine ⟨fun hc => ⟨?held, ?takes, ?none⟩, fun hc => ⟨?unleased, ?drains⟩, ?tmpl⟩
  case held =>
    intro n hn
    rw [gives, lease_clear hf hc, hn]
    rfl
  case takes =>
    intro hl hr hq n hn
    obtain ⟨h1, h2, h3⟩ := writeRd_over (ik := codeOf (.lease hd d try1)) (hd := hd) (d := d) (v := BitVec.ofNat 64 n) (s := s)
      (t := s.grantSlot cl n s.cur) (by rw [grantSlot_me]) (by rw [grantSlot_me]) (by rw [grantSlot_me])
    have hslot : ((writeRd (codeOf (.lease hd d try1)) hd d (BitVec.ofNat 64 n) (s.grantSlot cl n s.cur)).cluster cl).slot n =
        { LeaseSlot.reset with st := .held, holder := some s.cur } := by
      rw [writeRd_cluster, slot_grantSlot_same]
    refine ⟨_, lease_takes hf hc hl hq (freeSlot_of hr hn), h1, ?_, by rw [hslot], by rw [hslot], by rw [hslot]; rfl,
      fun m hm => by rw [writeRd_cluster]; exact slot_grantSlot_other s cl s.cur hm, h2, rfl, h3⟩
    rw [writeRd, finish_me, State.wx, State.modMe_me, grantSlot_me]
    unfold Hart.wx
    split <;> rfl
  case none =>
    intro hl h0 h1
    refine ⟨by rw [gives, lease_none hf hc hl (freeSlot_none h0 h1)]; rfl, fun hw => ?_⟩
    refine ⟨_, (lease_none hf hc hl (freeSlot_none h0 h1)).trans (by rw [if_neg (by decide), if_neg hw]), by rw [stallAt_me], by rw [stallAt_me]; rfl, ?_⟩
    rw [stallAt_cluster, State.modCluster_cluster_same]
  case unleased =>
    intro hl
    have hd' : s.dropLease s.cur = s := by
      have hl' : (s.hart s.cur).lease = none := hl
      rw [State.dropLease, hl']
    rw [completes, release_clear hf hc, hd']
  case drains =>
    intro n hn
    have hme : (s.dropLease s.cur).me = { s.me with lease := none } := by
      rw [dropLease_held hn]
      exact State.modHart_hart_same _ _ _
    have hcl (m : Nat) : ((finish (codeOf (.release hd)) hd (s.dropLease s.cur)).cluster cl).slot m = ((s.drainSlot cl n).cluster cl).slot m := by
      rw [dropLease_held hn]
      rfl
    refine ⟨_, release_clear hf hc, ?_, ?_, fun m hm => ?_, ?_, ?_, ?_⟩
    · rw [finish_me, hme]
      rfl
    · rw [hcl, slot_drainSlot_same]
    · rw [hcl, slot_drainSlot_other s cl hm]
    · rw [finish_me, hme]
      rfl
    · rw [dropLease_held hn]
      rfl
    · exact finish_pc_of _ _ (by rw [hme]) (by rw [hme])
  case tmpl =>
    intro n u blk hc hq hl ha hcq hb
    have hk : u.kept = s.kept := by
      have h := blockRead_kept s (.instr s.cur) true (s.rx a) 8
      rwa [hb] at h
    have hg : u.ground = s.ground := by
      have h := State.blockRead_ground s (.instr s.cur) true (s.rx a) 8
      rwa [hb] at h
    have hcur : u.cur = s.cur := congrArg Ground.cur hg
    have hcore : u.myCore = s.myCore := congrArg HartId.home hcur
    have htmpl (c : Nat) : (u.core c).tmpl = (s.core c).tmpl :=
      (congrArg Core.tmpl (congrFun (congrArg Kept.core hk) c) :)
    have hx : u.me.x = s.me.x := (congrFun (congrArg Kept.x hk) u.cur).trans (by rw [hcur]; rfl)
    have hst : u.me.csr.tstatus = s.me.csr.tstatus := (congrFun (congrArg Kept.tstatus hk) u.cur).trans (by rw [hcur]; rfl)
    have hexec := tmpl_clear hf hc hq hl ha hcq hb
    refine ⟨fun hbad => ?_, fun hbad ht => ?_⟩
    · rw [hbad, if_neg (by decide)] at hexec
      have hcoreT : (finish (codeTmpl hd a n) hd (u.modCore u.myCore (fun c => { c with tmpl := c.tmpl.set n.toNat blk }))).core s.myCore =
          { u.core s.myCore with tmpl := (u.core s.myCore).tmpl.set n.toNat blk } := by
        rw [finish_core, hcore, State.modCore_core_same]
      refine ⟨_, hexec, ?_, fun m hm => ?_, ?_, congrArg Ground.mem hg, finish_pc_of _ _ rfl rfl⟩
      · rw [hcoreT]
        exact Table.get_set_same _ _ _ _
      · rw [hcoreT, Core.template, Core.template, ← htmpl]
        exact Table.get_set_other _ _ _ _ _ hm.symm
      · rw [finish_me]
        exact hx
    · rw [hbad, if_pos rfl] at hexec
      have hin : u.me.inTrap = false := by rw [Hart.inTrap, hst]; exact ht
      exact ⟨_, hexec, (trapInstr_saves _ _ u (by rw [hcur]; exact hf.1) hin).1.trans (tcauseOf_zero _)⟩

end Sys2Proof.Proofs

/-! PROOFS. Tapes (R352, R353, R356, R360, R361, R364 to R367). -/

namespace Sys2Proof.Machine

set_option Elab.async false
open Claims

/-! ### The tape buffer (R352, R353, R356, R357) -/

theorem findRun_none {c : Core} {len : Nat} (h : ∀ b, c.runFree b len = false) : c.findRun len = none := by
  have hnil : (0 :: c.tapes.map (fun e => e.2.base + e.2.len)).filter (fun b => c.runFree b len) = [] :=
    List.filter_eq_nil_iff.mpr fun b _ => by simp [h b]
  rw [Core.findRun, hnil]
  rfl

/-- The least of some numbers is one of them. -/
theorem foldl_min_mem (l : List Nat) (r : Option Nat) {b : Nat}
    (h : l.foldl (fun r b => match r with | none => some b | some m => some (min m b)) r = some b) : r = some b ∨ b ∈ l := by
  induction l generalizing r with
  | nil => exact .inl h
  | cons a l ih =>
    rcases ih _ h with h1 | h1
    · cases r with
      | none => exact .inr (Option.some.inj h1 ▸ List.mem_cons_self)
      | some m =>
        have hb : min m a = b := Option.some.inj h1
        rcases Nat.le_total m a with hle | hle
        · exact .inl (congrArg some ((Nat.min_eq_left hle).symm.trans hb))
        · exact .inr ((Nat.min_eq_right hle).symm.trans hb ▸ List.mem_cons_self)
    · exact .inr (List.mem_cons_of_mem _ h1)

theorem runFree_of_findRun {c : Core} {len b : Nat} (h : c.findRun len = some b) : c.runFree b len = true := by
  rcases foldl_min_mem _ none h with h | h
  · cases h
  · exact (List.mem_filter.mp h).2

theorem mem_set_of_ne {κ α : Type} [DecidableEq κ] {t : Table κ α} {k : κ} {v : α} {e : κ × α} (he : e ∈ t) (hk : e.1 ≠ k) : e ∈ t.set k v := by
  induction t with
  | nil => cases he
  | cons p r ih =>
    rw [Table.set]
    split
    case isTrue hp =>
      rcases List.mem_cons.mp he with rfl | h
      · exact absurd hp hk
      · exact List.mem_cons_of_mem _ h
    case isFalse =>
      rcases List.mem_cons.mp he with rfl | h
      · exact List.mem_cons_self
      · exact List.mem_cons_of_mem _ (ih h)

theorem tape_setTape_same (c : Core) (id : Nat) (t : TapeEnt) : (c.setTape id t).tape id = t := Table.get_set_same _ _ _ _

theorem tape_setTape_other (c : Core) {id k : Nat} (t : TapeEnt) (h : k ≠ id) : (c.setTape id t).tape k = c.tape k :=
  Table.get_set_other _ _ _ _ _ h.symm

theorem core_clearTape (s : State) (c id : Nat) : (s.clearTape c id).core c = (s.core c).setTape id ⟨.empty, 0, 0⟩ := State.modCore_core_same _ _ _

/-- The buffers of the cores lie in the shadow storage of their clusters. -/
theorem homePa_tapePa {core off : Nat} (hc : core < 2 ^ 11) (ho : off < 0x8000) : homePa (tapePa core off) = tapePa core off := by
  have hr : region (tapePa core off) = 3 := by
    have h : (3 * 17592186044416 + core / 8 * 2097152 + (786432 + core % 8 * 32768 + off)) / 17592186044416 = 3 := by omega
    exact congrArg (· % 16) h
  rw [homePa, hr, if_neg (by decide)]

theorem length_header (r : Recording) : r.header.length = 64 := by
  simp [Recording.header, headerBytes, bytesOf_length, List.length_flatMap]

theorem length_recBytes (r : TapeRec) (n : Nat) : (r.bytes n).length = 32 := by simp [TapeRec.bytes, bytesOf_length]

theorem read_writeMem_tape {s : State} {core off k : Nat} {bs : List Byte} (hc : core < 2 ^ 11) (ho : off < 0x8000) (hk : k < bs.length) :
    (s.writeMem (tapePa core off) bs).mem.read (tapePa core off + k) = bs.getD k 0 := by
  rw [State.writeMem_mem, homePa_tapePa hc ho, read_write_same _ _ _ _ hk, List.getD_eq_getElem _ _ hk]

theorem read_writeMem_tape_other {s : State} {core off p : Nat} {bs : List Byte} (hc : core < 2 ^ 11) (ho : off < 0x8000)
    (hp : p < tapePa core off ∨ tapePa core off + bs.length ≤ p) : (s.writeMem (tapePa core off) bs).mem.read p = s.mem.read p := by
  rw [State.writeMem_mem, homePa_tapePa hc ho, read_write_other _ _ _ _ hp]

end Sys2Proof.Machine

namespace Sys2Proof.Proofs

set_option Elab.async false
open Machine Claims

/-! ### Tapes (R352, R353, R360, R361, R364 to R367) -/

section
variable {hd : Head} {d : Reg} {id : BitVec 3} {lim : BitVec 10} {s : State} (hf : s.freeThread) (hc : s.clear hd [] [.x d])
  (hr : s.me.busy.recording = none)
include hf hc hr

theorem tapeRec_clear : exec (.tapeRec hd d id lim) s = .next (
    if ((s.core s.myCore).tape id.toNat).st = .recording ∨ ((s.core s.myCore).tape id.toNat).st = .loading then
      writeRd (codeOf (.tapeRec hd d id lim)) hd d 2 s
    else if ((s.core s.myCore).tape id.toNat).st = .valid ∧ s.tapeBusy s.myCore id.toNat = true then stallAt hd .stall true s
    else match ((s.clearTape s.myCore id.toNat).core s.myCore).findRun (2 + lim.toNat) with
    | none => writeRd (codeOf (.tapeRec hd d id lim)) hd d 1 (s.clearTape s.myCore id.toNat)
    | some b => writeRd (codeOf (.tapeRec hd d id lim)) hd d 0 (((s.clearTape s.myCore id.toNat).modCore s.myCore
        (fun c => c.setTape id.toNat ⟨.recording, b, 2 + lim.toNat⟩)).modMe (fun h => h.modBusy (fun x => { x with
          recording := some (((s.clearTape s.myCore id.toNat).modCore s.myCore
            (fun c => c.setTape id.toNat ⟨.recording, b, 2 + lim.toNat⟩)).newRecording id.toNat b lim.toNat) })))) := by
  have hown : orElse s.lockBar (if s.me.busy.recording.isSome then some 0x13 else none) = none := by
    rw [lockBar_of_free hf, hr]
    rfl
  exact congrArg Host.Outcome.next (issueOwn_clear _ _ _ _ _ _ _ _ _ (Nat.zero_le _) (noCtx_of_free hf) hown hc)

/-- TAPE.REC of an ID that records or loads (R364). -/
theorem tapeRec_refused (hst : ((s.core s.myCore).tape id.toNat).st = .recording ∨ ((s.core s.myCore).tape id.toNat).st = .loading) :
    exec (.tapeRec hd d id lim) s = .next (writeRd (codeOf (.tapeRec hd d id lim)) hd d 2 s) := by
  rw [tapeRec_clear hf hc hr, if_pos hst]

variable (hst : ((s.core s.myCore).tape id.toNat).st = .empty)
include hst

theorem tapeRec_empty : exec (.tapeRec hd d id lim) s = .next (
    match ((s.clearTape s.myCore id.toNat).core s.myCore).findRun (2 + lim.toNat) with
    | none => writeRd (codeOf (.tapeRec hd d id lim)) hd d 1 (s.clearTape s.myCore id.toNat)
    | some b => writeRd (codeOf (.tapeRec hd d id lim)) hd d 0 (((s.clearTape s.myCore id.toNat).modCore s.myCore
        (fun c => c.setTape id.toNat ⟨.recording, b, 2 + lim.toNat⟩)).modMe (fun h => h.modBusy (fun x => { x with
          recording := some (((s.clearTape s.myCore id.toNat).modCore s.myCore
            (fun c => c.setTape id.toNat ⟨.recording, b, 2 + lim.toNat⟩)).newRecording id.toNat b lim.toNat) })))) := by
  rw [tapeRec_clear hf hc hr, if_neg (by rw [hst]; decide), if_neg (by rw [hst]; exact fun h => absurd h.1 (by decide))]

end

/-- A free run reserved for a recording overlaps no other tape (R352). -/
theorem disjoint_of_findRun {c : Core} {id len b : Nat} (h : (c.setTape id ⟨.empty, 0, 0⟩).findRun len = some b) : b + len ≤ 1024 ∧
    ∀ e ∈ c.tapes, e.1 ≠ id → e.2.st ≠ .empty → b + len ≤ e.2.base ∨ e.2.base + e.2.len ≤ b := by
  have hfree := runFree_of_findRun h
  rw [Core.runFree, Bool.and_eq_true, decide_eq_true_iff, List.all_eq_true] at hfree
  refine ⟨hfree.1, fun e he hne hemp => ?_⟩
  have h1 := hfree.2 e (mem_set_of_ne he hne)
  simp only [Bool.or_eq_true, beq_iff_eq, decide_eq_true_iff] at h1
  rcases h1 with (h1 | h1) | h1
  · exact absurd h1 hemp
  · exact .inl h1
  · exact .inr h1

section
variable {hd : Head} {d : Reg} {s : State} {r : Recording} (hf : s.freeThread) (hc : s.clear hd [] [.x d]) (hr : s.me.busy.recording = some r)
include hf hc hr

theorem tapeEnd_clear : exec (.tapeEnd hd d) s = .next (writeRd (codeOf (.tapeEnd hd d)) hd d (BitVec.ofNat 64 (s.endStatus r))
    ((s.closeTape r (s.endStatus r)).modMe (fun h => h.modBusy (fun x => { x with recording := none })))) := by
  refine congrArg Host.Outcome.next ((issueOwn_clear _ _ _ _ _ _ _ _ _ (Nat.zero_le _) (noCtx_of_free hf) ?_ hc).trans ?_)
  · rw [hr]
    rfl
  · rw [hr]

end

theorem closeTape_me (s : State) (r : Recording) (st : Nat) : (s.closeTape r st).me = s.me := by
  unfold State.closeTape
  split
  · rfl
  · split <;> rfl

/-- A recording closed with a status (R365). -/
theorem tapeEnd_closes {hd : Head} {d : Reg} {s : State} {r : Recording} {st : Nat} (hf : s.freeThread) (hc : s.clear hd [] [.x d])
    (hr : s.me.busy.recording = some r) (ha : r.abandoned = false) (hcore : r.core < 2 ^ 11) (hrun : r.base + 2 + r.max ≤ 1024)
    (hst : s.endStatus r = st) :
    ∃ t : State, exec (.tapeEnd hd d) s = .next t ∧ (d ≠ 0 → t.me.rx d = BitVec.ofNat 64 st) ∧ t.me.busy.recording = none ∧
      t.me.pc = (finish (codeOf (.tapeEnd hd d)) hd s).me.pc ∧
      (st = 0 → (t.core r.core).tape r.id = ⟨.valid, r.base, 2 + r.n⟩ ∧
        ∀ k, k < 64 → t.mem.read (tapePa r.core (r.base * 32) + k) = r.header.getD k 0) ∧
      (st ≠ 0 → ((t.core r.core).tape r.id).st = .empty ∧ t.mem = s.mem) := by
  let u := (s.closeTape r st).modMe (fun h => h.modBusy (fun x => { x with recording := none }))
  have hume : u.me = s.me.modBusy (fun x => { x with recording := none }) := by rw [State.modMe_me, closeTape_me]
  obtain ⟨h1, -, h3⟩ := writeRd_over (ik := codeOf (.tapeEnd hd d)) (hd := hd) (d := d) (v := BitVec.ofNat 64 st) (s := s) (t := u)
    (by rw [hume]; rfl) (by rw [hume]; rfl) (by rw [hume]; rfl)
  have hx := tapeEnd_clear hf hc hr
  rw [hst] at hx
  refine ⟨_, hx, h1, ?_, h3, fun h0 => ⟨?_, fun k hk => ?_⟩, fun h0 => ⟨?_, ?_⟩⟩
  · rw [writeRd, finish_busy, State.wx, State.modMe_me]
    have hwx (h : Hart) (q : Reg) (v : Word) : (h.wx q v).busy = h.busy := by unfold Hart.wx; split <;> rfl
    rw [hwx]
    exact congrArg (fun h : Hart => h.busy.recording) hume
  · have hcl : ((s.closeTape r st).core r.core) = (s.core r.core).setTape r.id ⟨.valid, r.base, 2 + r.n⟩ := by
      rw [State.closeTape, if_pos h0]
      exact State.modCore_core_same _ _ _
    exact (congrArg (fun c : Core => c.tape r.id) hcl).trans (tape_setTape_same _ _ _)
  · have hmem : (s.closeTape r st).mem = (s.writeMem (tapePa r.core (r.base * 32)) r.header).mem := by
      rw [State.closeTape, if_pos h0]
      rfl
    exact (congrArg (fun m : Memory => m.read (tapePa r.core (r.base * 32) + k)) hmem).trans
      (read_writeMem_tape hcore (by omega) (by rw [length_header]; exact hk))
  · have hcl : ((s.closeTape r st).core r.core) = (s.core r.core).setTape r.id ⟨.empty, 0, 0⟩ := by
      rw [State.closeTape, if_neg h0, ha, if_neg (by decide)]
      exact core_clearTape _ _ _
    exact (congrArg (fun c : Core => (c.tape r.id).st) hcl).trans (by rw [tape_setTape_same])
  · show (s.closeTape r st).mem = s.mem
    rw [State.closeTape, if_neg h0, ha, if_neg (by decide)]
    rfl

/-- The statuses with which a recording ends, in order (R365). -/
theorem endStatus_eq (s : State) (r : Recording) (ha : r.abandoned = false) :
    let same : Prop := r.asgen = s.dev.asgen.get r.asid.toNat 0 ∧ r.vaultgen = (s.vault r.core).gen ∧ r.long = (s.core r.core).long
    (r.full = true → s.endStatus r = 1) ∧ (r.full = false → ¬same → s.endStatus r = 2) ∧ (r.full = false → same → r.n = 0 → s.endStatus r = 3) ∧
    (r.full = false → same → r.n ≠ 0 → s.endStatus r = 0) := by
  intro same
  have hsame : (r.asgen ≠ s.asgenOf r.asid ∨ r.vaultgen ≠ (s.vault r.core).gen ∨ r.long ≠ (s.core r.core).long) ↔ ¬ same := by
    rw [← not_and_or, ← not_and_or]
    rfl
  unfold State.endStatus
  refine ⟨fun h => if_pos h, fun h hn => ?_, fun h hs h0 => ?_, fun h hs h0 => ?_⟩
  · rw [h, if_neg (by decide), if_pos (hsame.mpr hn)]
  · rw [h, if_neg (by decide), if_neg (fun hn => hsame.mp hn hs), if_pos h0]
  · rw [h, if_neg (by decide), if_neg (fun hn => hsame.mp hn hs), if_neg h0, ha, if_neg (by decide)]

/-- A value that no window covers is recorded as it is (R361). -/
theorem patchForm_open {c : HartCsrs} (h : ∀ k, k < 16 → c.plen.get k 0 = 0) (v : Word) (addr : Bool) : c.patchForm v addr = (v, none) := by
  have hw : c.window v = none := by
    refine List.find?_eq_none.mpr fun n hn => ?_
    have h0 : c.patchLen n = 0 := by
      rw [HartCsrs.patchLen, h n (List.mem_range.mp hn)]
      rfl
    simp only [h0, Nat.zero_mul, Nat.add_zero, Bool.and_eq_true, decide_eq_true_iff]
    omega
  unfold HartCsrs.patchForm
  rw [hw]
  cases addr <;> rfl

section
variable {hd : Head} {a b : Reg} {tk : BitVec 3} {wait : BitVec 8} {n : BitVec 4} {s : State} {r : Recording}

theorem groupOf_copy (hp : ∀ k, k < 16 → s.me.csr.plen.get k 0 = 0) (word ctl : BitVec 32) :
    s.groupOf (s.newCmd (.copy hd a b tk wait n) tk wait 0 (s.rx a) (s.rx b)) word ctl = [⟨word, ctl, s.rx a, s.rx b, none, none, none⟩] := by
  unfold State.groupOf
  simp only [State.newCmd, Cmd.operands, patchForm_open hp, List.map_nil]

/-- A command that issues while its thread records adds its record (R360). -/
theorem recordCmd_copy (hr : s.me.busy.recording = some r) (ha : r.abandoned = false) (ht : s.me.inTrap = false) (hfull : r.full = false)
    (hn : r.n < r.max) (hp : ∀ k, k < 16 → s.me.csr.plen.get k 0 = 0) (word ctl : BitVec 32) :
    s.recordCmd (s.newCmd (.copy hd a b tk wait n) tk wait 0 (s.rx a) (s.rx b)) word ctl =
      (s.writeMem (r.slotPa r.n) ((⟨word, ctl, s.rx a, s.rx b, none, none, none⟩ : TapeRec).bytes r.n)).modMe
        (fun h => h.modBusy (fun x => { x with recording := some { r with n := r.n + 1 } })) := by
  have hrec : s.me.recording = some r := by rw [Hart.recording, hr]; exact if_neg (by rw [ha]; decide)
  unfold State.recordCmd
  rw [groupOf_copy hp]
  unfold State.appendGroup
  rw [hrec, ht]
  dsimp only
  have hle : ¬ r.max < r.n + 1 := by omega
  have hgo : ¬ (false || r.full) = true := by rw [hfull]; decide
  simp only [Bool.false_and, hgo, Bool.false_eq_true, if_false, List.length_singleton, hle]
  rfl

/-- COPY in a thread that records (R360, R361). -/
theorem copy_records (hf : s.freeThread) (hc : s.clear hd [.x a, .x b] []) (hr : s.me.busy.recording = some r) (ha : r.abandoned = false)
    (hcore : r.core < 2 ^ 11) (hrun : r.base + 2 + r.max ≤ 1024) (ht : s.me.inTrap = false) (hfull : r.full = false) (hn : r.n < r.max)
    (htok : (s.me.tok tk).count < 255) (hq : (s.me.queue 2).length < 32) (hp : ∀ k, k < 16 → s.me.csr.plen.get k 0 = 0) :
    ∃ (t : State) (q : Recording), exec (.copy hd a b tk wait n) s = .next t ∧ t.me.busy.recording = some q ∧ q.n = r.n + 1 ∧ q.pmask = r.pmask ∧
      (∃ rec : TapeRec, rec.word = (codeOf (.copy hd a b tk wait n)).w &&& 0xFFFFFFF3 ∧ rec.ctl = (codeOf (.copy hd a b tk wait n)).c ∧
        rec.opa = s.rx a ∧ rec.opb = s.rx b ∧ rec.pa = none ∧ rec.pb = none ∧
        ∀ k, k < 32 → t.mem.read (r.slotPa r.n + k) = (rec.bytes r.n).getD k 0) ∧
      ∀ p, p < r.slotPa r.n ∨ r.slotPa r.n + 32 ≤ p → t.mem.read p = s.mem.read p := by
  let i : Instr := .copy hd a b tk wait n
  let c := s.newCmd i tk wait 0 (s.rx a) (s.rx b)
  let rec' : TapeRec := ⟨(codeOf i).w &&& ~~~0xC, (codeOf i).c, s.rx a, s.rx b, none, none, none⟩
  let q : Recording := { r with n := r.n + 1 }
  let u := (s.writeMem (r.slotPa r.n) (rec'.bytes r.n)).modMe (fun h => h.modBusy (fun x => { x with recording := some q }))
  have hctx := hf.1
  have hhas : s.hasRoom s.cur 2 tk = true := by
    have h1 : ((s.hart s.cur).tok tk).count < 255 := htok
    have h2 : ((s.hart s.cur).queue 2).length < 32 := hq
    simp [State.hasRoom, h1, h2]
  have hx : exec i s = .next (finish (codeOf i) hd (u.enqueue s.cur 2 c)) := by
    refine congrArg Host.Outcome.next ((copy_clear hctx hc).trans ((if_pos hhas).trans ?_))
    have hrecd := recordCmd_copy (hd := hd) (a := a) (b := b) (tk := tk) (wait := wait) (n := n) hr ha ht hfull hn hp ((codeOf i).w &&& ~~~0xC) (codeOf i).c
    have hnote : (u.enqueue s.cur 2 c).noteCopy c.seq = u.enqueue s.cur 2 c := if_neg (by
      rw [show (u.enqueue s.cur 2 c).cur = s.cur from rfl, hctx]
      decide)
    rw [hrecd]
    exact congrArg (finish (codeOf i) hd) hnote
  have hume : u.me.busy.recording = some q := by rw [State.modMe_me]; rfl
  have hrec : (u.enqueue s.cur 2 c).me.busy.recording = some q := by
    have he : (u.enqueue s.cur 2 c).me = (if s.cur.isCtx then u.me else u.me.modTok c.tk (fun t => { t with count := t.count + 1 })).modBusy
        (fun b => { b with queues := b.queues.set 2 (b.queues.get 2 [] ++ [c]), nextSeq := b.nextSeq + 1 }) := State.modHart_hart_same _ _ _
    rw [he, hctx]
    exact hume
  have hoff : (r.base + 2 + r.n) * tapeSlot < 0x8000 := by
    rw [tapeSlot]
    omega
  refine ⟨_, q, hx, ?_, rfl, rfl, ⟨rec', rfl, rfl, rfl, rfl, rfl, rfl, fun k hk => ?_⟩, fun p hpo => ?_⟩
  · rw [finish_busy]
    exact hrec
  · exact read_writeMem_tape hcore hoff (by rw [length_recBytes]; exact hk)
  · exact read_writeMem_tape_other hcore hoff (by rw [length_recBytes]; exact hpo)

end

/-- TAPE.PATCH sets a window (R366). -/
theorem tapePatch_sets {hd : Head} {a b : Reg} {n : BitVec 4} {s : State} (hf : s.freeThread) (hc : s.clear hd [.x a, .x b] [])
    (ha : (s.rx a).toNat < 2 ^ 48) (hb : (s.rx b).toNat ≤ 65535 * 4096) :
    ∃ t : State, exec (.tapePatch hd a b n) s = .next t ∧ t.me.csr.pbase.get n.toNat 0 = s.rx a ∧
      (t.me.csr.plen.get n.toNat 0).toNat = ((s.rx b).toNat + 4095) / 4096 ∧
      (∀ k, k ≠ n.toNat → t.me.csr.pbase.get k 0 = s.me.csr.pbase.get k 0 ∧ t.me.csr.plen.get k 0 = s.me.csr.plen.get k 0) ∧
      t.me.x = s.me.x ∧ t.mem = s.mem ∧ t.me.pc = (finish (codeOf (.tapePatch hd a b n)) hd s).me.pc := by
  let u := s.modMe (fun h => h.modCsr (fun c =>
    { c with pbase := c.pbase.set n.toNat (s.rx a), plen := c.plen.set n.toNat (BitVec.ofNat 64 (((s.rx b).toNat + 4095) / 4096)) }))
  have hok : ¬ (wbits (s.rx a) 48 16 ≠ 0 ∨ 65535 * 4096 < (s.rx b).toNat) := by
    rw [wbits, bits, Nat.div_eq_of_lt ha]
    omega
  have hx : exec (.tapePatch hd a b n) s = .next (finish (codeOf (.tapePatch hd a b n)) hd u) :=
    congrArg Host.Outcome.next ((issue_clear _ _ _ _ _ _ _ _ (Nat.zero_le _) (noCtx_of_free hf) hc).trans (if_neg hok))
  have hu : u.me = s.me.modCsr (fun c => { c with pbase := c.pbase.set n.toNat (s.rx a),
                                                   plen := c.plen.set n.toNat (BitVec.ofNat 64 (((s.rx b).toNat + 4095) / 4096)) }) :=
    State.modMe_me _ _
  have hcsr : (finish (codeOf (.tapePatch hd a b n)) hd u).me.csr = { s.me.csr with
      pbase := s.me.csr.pbase.set n.toNat (s.rx a), plen := s.me.csr.plen.set n.toNat (BitVec.ofNat 64 (((s.rx b).toNat + 4095) / 4096)) } := by
    rw [finish_csr, hu]
    rfl
  refine ⟨_, hx, ?_, ?_, fun k hk => ⟨?_, ?_⟩, ?_, rfl, finish_pc_of _ _ (by rw [hu]; rfl) (by rw [hu]; rfl)⟩
  · rw [hcsr]
    exact Table.get_set_same _ _ _ _
  · rw [hcsr]
    dsimp only
    rw [Table.get_set_same, BitVec.toNat_ofNat, Nat.mod_eq_of_lt (by omega)]
  · rw [hcsr]
    exact Table.get_set_other _ _ _ _ _ hk.symm
  · rw [hcsr]
    exact Table.get_set_other _ _ _ _ _ hk.symm
  · rw [finish_me, hu]
    rfl

theorem tapeInv_clear {hd : Head} {id : BitVec 3} {s : State} (hf : s.freeThread) (hc : s.clear hd [] []) : exec (.tapeInv hd id) s = .next (
    match ((s.core s.myCore).tape id.toNat).st with
    | .empty => finish (codeTapeInv hd id) hd s
    | .loading => stallAt hd .stall true s
    | .recording => finish (codeTapeInv hd id) hd
        ((threadsOf s.myCore).foldl (fun t h => t.modHart h (fun x => x.abandon s.myCore id.toNat)) (s.clearTape s.myCore id.toNat))
    | .valid => if s.tapeBusy s.myCore id.toNat then stallAt hd .stall true s
      else finish (codeTapeInv hd id) hd (s.clearTape s.myCore id.toNat)) :=
  congrArg Host.Outcome.next (issueOwn_clear _ _ _ _ _ _ _ _ _ (Nat.zero_le _) (noCtx_of_free hf) (lockBar_of_free hf) hc)

theorem writeRd_recording {ik : Code} {hd : Head} {d : Reg} {v : Word} {s : State} : (writeRd ik hd d v s).me.busy.recording = s.me.busy.recording := by
  rw [writeRd, finish_busy, State.wx, State.modMe_me]
  unfold Hart.wx
  split <;> rfl

/-- TAPE.REC of an empty ID takes the run that it finds (R352, R364). -/
theorem tapeRec_takes {hd : Head} {d : Reg} {id : BitVec 3} {lim : BitVec 10} {s : State} {base : Nat} (hf : s.freeThread) (hc : s.clear hd [] [.x d])
    (hr : s.me.busy.recording = none) (hst : ((s.core s.myCore).tape id.toNat).st = .empty)
    (hb : ((s.clearTape s.myCore id.toNat).core s.myCore).findRun (2 + lim.toNat) = some base) :
    ∃ (t : State) (r : Recording), exec (.tapeRec hd d id lim) s = .next t ∧ (d ≠ 0 → t.me.rx d = 0) ∧ t.me.busy.recording = some r ∧ r.n = 0 ∧
      r.max = lim.toNat ∧ r.id = id.toNat ∧ r.base = base ∧ r.full = false ∧ r.asid = s.me.asid ∧ r.core = s.myCore ∧ r.long = s.long ∧
      (t.core s.myCore).tape id.toNat = ⟨.recording, base, 2 + lim.toNat⟩ ∧ base + 2 + lim.toNat ≤ 1024 ∧
      (∀ e ∈ (s.core s.myCore).tapes, e.1 ≠ id.toNat → e.2.st ≠ .empty → base + 2 + lim.toNat ≤ e.2.base ∨ e.2.base + e.2.len ≤ base) ∧
      t.mem = s.mem ∧ t.me.pc = (finish (codeOf (.tapeRec hd d id lim)) hd s).me.pc := by
  let u := (s.clearTape s.myCore id.toNat).modCore s.myCore (fun c => c.setTape id.toNat ⟨.recording, base, 2 + lim.toNat⟩)
  let r := u.newRecording id.toNat base lim.toNat
  let t := u.modMe (fun h => h.modBusy (fun x => { x with recording := some r }))
  have hx : exec (.tapeRec hd d id lim) s = .next (writeRd (codeOf (.tapeRec hd d id lim)) hd d 0 t) := by
    rw [tapeRec_empty hf hc hr hst, hb]
  have ht : t.me = s.me.modBusy (fun x => { x with recording := some r }) := State.modMe_me _ _
  obtain ⟨h1, -, h3⟩ := writeRd_over (ik := codeOf (.tapeRec hd d id lim)) (hd := hd) (d := d) (v := 0) (s := s) (t := t)
    (by rw [ht]; rfl) (by rw [ht]; rfl) (by rw [ht]; rfl)
  have hucore : u.core s.myCore = ((s.clearTape s.myCore id.toNat).core s.myCore).setTape id.toNat ⟨.recording, base, 2 + lim.toNat⟩ :=
    State.modCore_core_same _ _ _
  have hlong : r.long = s.long := by
    show (u.core s.myCore).long = (s.core s.myCore).long
    rw [hucore, core_clearTape]
    rfl
  rw [core_clearTape] at hb
  obtain ⟨hfit, hdis⟩ := disjoint_of_findRun hb
  have hassoc : base + 2 + lim.toNat = base + (2 + lim.toNat) := Nat.add_assoc _ _ _
  refine ⟨_, r, hx, h1, ?_, rfl, rfl, rfl, rfl, rfl, rfl, rfl, hlong, ?_, hassoc ▸ hfit, fun e he hne hemp => ?_, rfl, h3⟩
  · rw [writeRd_recording, ht]
    rfl
  · exact (congrArg (fun c : Core => c.tape id.toNat) hucore).trans (tape_setTape_same _ _ _)
  · rw [hassoc]
    exact hdis e he hne hemp

/-- Settles O38: each tape instruction past its checks, with what the buffer of its core holds afterwards. -/
theorem tapes : Obligations.Tapes := by
  intro hd d a b id lim n s hf tape
  refine ⟨fun hc hr => ⟨fun hst => ?_, fun hst => ⟨fun hn => ?_, fun base hb => tapeRec_takes hf hc hr hst hb⟩⟩, fun r hr ha hcore hrun => ⟨fun hc => ?ends, ?copy⟩,
    fun hc ha hb => tapePatch_sets hf hc ha hb, fun hc => ⟨fun hst => ?_, fun hst hb => ?_, fun hst hb => ?_⟩⟩
  · exact tapeRec_refused hf hc hr hst
  · have hx := tapeRec_empty hf hc hr hst (hd := hd) (d := d) (id := id) (lim := lim)
    rw [findRun_none hn] at hx
    obtain ⟨h1, -, -⟩ := writeRd_over (ik := codeOf (.tapeRec hd d id lim)) (hd := hd) (d := d) (v := 1) (s := s)
      (t := s.clearTape s.myCore id.toNat) rfl rfl rfl
    exact ⟨_, hx, h1, writeRd_recording.trans hr⟩
  case ends =>
    intro ends same
    obtain ⟨h1, h2, h3, h0⟩ := endStatus_eq s r ha
    have close (st : Nat) (hst : s.endStatus r = st) (hsmall : st < 4) : ends (BitVec.ofNat 64 st) := by
      obtain ⟨t, hx, hd', hrec, hpc, hzero, hnz⟩ := tapeEnd_closes hf hc hr ha hcore hrun hst
      have hv : BitVec.ofNat 64 st = 0 ↔ st = 0 := by
        rw [← BitVec.toNat_inj, BitVec.toNat_ofNat, Nat.mod_eq_of_lt (by omega)]
        rfl
      exact ⟨t, hx, hd', hrec, hpc, fun h => hzero (hv.mp h), fun h => hnz fun h' => h (hv.mpr h')⟩
    exact ⟨fun h => close 1 (h1 h) (by decide), fun h hs => close 2 (h2 h hs) (by decide), fun h hs hn => close 3 (h3 h hs hn) (by decide),
      fun h hs hn => close 0 (h0 h hs hn) (by decide)⟩
  case copy => exact fun tk wait hc ht hfull hn htok hq hp => copy_records hf hc hr ha hcore hrun ht hfull hn htok hq hp
  · rw [tapeInv_clear hf hc, hst]
  · have hx := tapeInv_clear hf hc (id := id)
    rw [hst, hb, if_neg (by decide)] at hx
    have hcl : (finish (codeTapeInv hd id) hd (s.clearTape s.myCore id.toNat)).core s.myCore = (s.core s.myCore).setTape id.toNat ⟨.empty, 0, 0⟩ :=
      (finish_core _ _ _ _).trans (core_clearTape _ _ _)
    refine ⟨_, hx, ?_, fun k hk => ?_, ?_, rfl, finish_pc_of _ _ rfl rfl⟩
    · show ((finish (codeTapeInv hd id) hd (s.clearTape s.myCore id.toNat)).core s.myCore |>.tape id.toNat).st = .empty
      rw [hcl, tape_setTape_same]
    · rw [hcl, tape_setTape_other _ _ hk]
    · rw [finish_me]
      rfl
  · have hx := tapeInv_clear hf hc (id := id)
    rw [hst, hb, if_pos rfl] at hx
    exact ⟨_, hx, by rw [stallAt_me], by rw [stallAt_me]⟩

end Sys2Proof.Proofs
